-- ==== Sys2Proof/Word.lean ====
section
/-!
DEFINITION. The words of the machine: 32-bit register words, the 48-bit native word (Table SYS-6), descriptor
quadwords, the 16-bit check and the 80-bit Prism cell, with the plainest arithmetic on them.
-/

namespace Sys2Proof

/-- A register word (R10: every host access is one aligned 32-bit word). -/
abbrev Word := BitVec 32

/-- A quadword of a descriptor or a completion entry. -/
abbrev Quad := BitVec 64

/-- The native 48-bit word: an output image, a position, a timer count. -/
abbrev W48 := BitVec 48

/-- The 16-bit check that travels with every container. -/
abbrev Check := BitVec 16

/-- One Prism cell. -/
abbrev Cell80 := BitVec 80

/-- Bits `[lo + w - 1 : lo]` of a number. -/
def bitsOf (n lo w : Nat) : Nat := n / 2 ^ lo % 2 ^ w

/-- Bit `i` of a number. -/
def bitOf (n i : Nat) : Bool := n / 2 ^ i % 2 == 1

/-- A Bool as a number. -/
def b2n (b : Bool) : Nat := if b then 1 else 0

/-- Two functions share the device: false is Function A, true is Function B (R74). -/
abbrev Func := Bool

/-- A function's number: 0 for A, 1 for B. -/
def Func.idx (f : Func) : Nat := if f then 1 else 0

end Sys2Proof
end

