-- ==== Sys2Proof/Syntax.lean ====
section
/-!
DEFINITION. The commands: one constructor of `Instr` per row of the table of operations and events, with the data the
step takes from outside: the function that acts, register offsets and data, times in 800 MHz cycles (`t`), words read
from host memory, cells and frames received, levels sensed at the balls.
-/

namespace Sys2Proof

/-- The two dies of the package (Table SYS-1). -/
inductive Die where
  | h
  | f
deriving DecidableEq, Repr

/-- A 64-bit container: the 48-bit word and its check (R135). -/
structure Container where
  word : W48
  chk : Check
deriving DecidableEq, Repr

/-- A container as the 64 bits that memory and a cell hold. -/
def Container.bits (c : Container) : Quad := c.word ++ c.chk

/-- The container in 64 bits. -/
def Container.ofBits (q : Quad) : Container := ⟨q.extractLsb' 16 48, q.extractLsb' 0 16⟩

/-- The eight quadwords of a 64-byte descriptor (R104). -/
structure Desc where
  q0 : Quad
  q1 : Quad
  q2 : Quad
  q3 : Quad
  q4 : Quad
  q5 : Quad
  q6 : Quad
  q7 : Quad
deriving DecidableEq, Repr

/-- The empty descriptor: a NOP with SEQ 0. -/
def Desc.zero : Desc := ⟨0, 0, 0, 0, 0, 0, 0, 0⟩

/-- How a read that the endpoint issued has ended (R102, R116): data, an error completion (Unsupported Request,
Completer Abort or poisoned), the completion timeout, or data in a completion whose ECRC fails (R71). -/
inductive ReadEnd where
  | ok
  | error
  | timeout
  | ecrc
deriving DecidableEq, Repr

/-- What the stuck-SDA check meets on the lines (R217): how many pulses SDA stays low for (0: it is high), whether SCL stays low
for 25 ms in the course of them, and whether SDA is low after the STOP. -/
structure SdaCheck where
  low : Nat
  sclLow : Bool
  held : Bool
deriving DecidableEq, Repr

/-- Which base address register a memory access falls in (R74, R77). -/
inductive Bar where
  | bar0
  | bar2
deriving DecidableEq, Repr

/-- A read of the endpoint that can time out (R102, R116): a ring's descriptor read, a function's sweep, an operation's
buffer. -/
inductive ReadOf where
  | descriptors (ring : Nat)
  | sweep (fn : Func)
  | buffer (tag : Nat)
deriving DecidableEq, Repr

/-- A configuration request (R70 to R73, R371): a read of a dword, or a write of one of the fields that the rules read. -/
inductive CfgAccess where
  | read (off : Nat)
  | memSpace (en : Bool)
  | intDisable (dis : Bool)
  | msixControl (en mask : Bool)
  | aspmL1 (en : Bool)
  | aspmSub (l11 l12 : Bool)
  | tag10 (en : Bool)
  | relaxed (en : Bool)
  | ecrc (gen chk : Bool)
  | bars (bar0 bar2 : Nat)
  | limits (maxPayload maxRead : Nat)
  | other (off : Nat) (data : Word)
deriving DecidableEq, Repr

/-- What the check of a slot's signatures and hashes finds (R313): the vendor key hash and signature, the owner key hash and
signature under the owner in question, and the hashes of the image region. -/
structure SlotCheck where
  vendor : Bool
  owner : Bool
  image : Bool
deriving DecidableEq, Repr

/-- What the signature checks of an owner command find (R339, R340): the proof of possession, the authorisation, the
running and the other slot under the new owner, ECDH with the unwrap, the hash of the new owner's key and the check value of
the delivered key. -/
structure OwnerCheck where
  pop : Bool
  auth : Bool
  running : SlotCheck
  other : SlotCheck
  unwrap : Bool
  hash : BitVec 384
  kcv : Nat
deriving DecidableEq, Repr

/-- A word of the flash die as its read levels return it (R296): NORMAL, PROGRAM-VERIFY, at which a weakly programmed 0 reads 1, and
ERASE-VERIFY, at which a weakly erased 1 reads 0. -/
structure FlashWord where
  normal : Word
  pv : Word
  ev : Word
deriving DecidableEq, Repr

/-- What a boot meets (R370): the detectors that fire at power-up, the records (area, SEQ) that fail CRC or CMAC and those with weak bits, how
far the word had come that a flash operation was programming when a reset cut it short, the corrected reads, what the check of each slot
finds, whether the F-side image loads across the barrier, the lanes that lock in training, what the stuck-SDA check meets, the outputs of
the comparators when they start at step B8, and the times at which steps B1 and B8 begin and end. -/
structure BootEnv where
  tamper : Nat
  bad : List (Nat × Nat)
  weak : List (Nat × Nat)
  cut : FlashWord
  ecc : Nat
  slotA : SlotCheck
  slotB : SlotCheck
  load : Bool
  fwd : Nat
  ret : Nat
  sda : SdaCheck
  comp : W48
  start : Nat
  stop : Nat
deriving DecidableEq, Repr

/-- A HELLO's fields (R348) but for its random bytes, with whether its CMAC verifies under the Mirror Key. -/
structure HelloFrame where
  serial : BitVec 64
  profile : Nat
  kcv : Nat
  role : Nat
  state : Nat
  epoch : Nat
  auth : Bool
deriving DecidableEq, Repr

/-- What every other frame of a session carries (Table MIR-1): role, state, counter, and whether its GCM tag verifies. -/
structure FrameHead where
  role : Nat
  state : Nat
  counter : Nat
  auth : Bool
deriving DecidableEq, Repr

/-- The commands. -/
inductive Instr where
  -- Carousel (01)
  | carEnWrite (f : Func) (data : Word) (t : Nat)
  | carPosLoad (f : Func) (data : Word) (t : Nat)
  | turnClr (f : Func) (data : Word) (count : Option Bool) (t : Nat)
  | carLock (f : Func) (data : Word) (t : Nat)
  | carSrcWrite (f : Func) (data : Word) (t : Nat)
  | carPosLoRead (f : Func) (t : Nat)
  | quadCount (forward z : Bool) (t : Nat)
  | quadIllegalTransition (t : Nat)
  | ncoCount (t : Nat)
  | ppsEdge (rising : Bool) (phaseErr : Int) (rate raw : Nat) (t : Nat)
  | mainsZeroCross (rising : Bool) (phaseErr : Int) (rate raw : Nat) (inBand : Bool) (t : Nat)
  | syncReferenceLoss (t : Nat)
  | holdoverExpire (t : Nat)
  | encBiasOpen (t : Nat)
  | absSampleTimeout (t : Nat)
  | predictionTimeout (t : Nat)
  | slotPlacedFire (slot : Nat) (t : Nat)
  | absSampleRun (t : Nat)
  | absSampleCommit (rx : List (BitVec 8)) (t : Nat)
  | slotArm (tag : Nat) (t : Nat)
  | slotDisarm (tag : Nat) (t : Nat)
  | todLoad (tag : Nat) (t : Nat)
  -- Prism link (02)
  | positionForward (t : Nat)
  | positionCellReceive (cell : Cell80) (t : Nat)
  | refreshTick (t : Nat)
  | refreshCellReceive (cell : Cell80) (t : Nat)
  | refreshWatchPeriod (t : Nat)
  | refreshWatchExpire (t : Nat)
  | missStatusReceive (cell : Cell80)
  | przRefreshWrite (f : Func) (data : Word)
  | paramReceive (cell : Cell80)
  | paramAckReceive (cell : Cell80)
  | bulkCellReceive (die : Die) (cell : Cell80) (t : Nat)
  | ackSendTimer (die : Die) (t : Nat)
  | ack (die : Die) (cell : Cell80) (t : Nat)
  | nak (die : Die) (cell : Cell80) (t : Nat)
  | replayTimeout (die : Die) (t : Nat)
  | laneFail (die : Die) (lanes : Nat) (t : Nat)
  | retrain (die : Die) (cell : Option Cell80) (t : Nat)
  | przRetrainCmd (f : Func) (t : Nat)
  | trainingComplete (fwd ret : Nat) (t : Nat)
  | linkTrainRetry (t : Nat)
  | restCellReceive (die : Die) (cell : Cell80) (t : Nat)
  | fieldWindowWrite (f : Func) (off : Nat) (data : Word) (t : Nat)
  | fieldWindowApply (cell : Cell80) (sda : SdaCheck) (t : Nat)
  | fwAck (cell : Cell80) (t : Nat)
  | fieldWindowRead (f : Func) (bar : Bar) (off size : Nat) (ecrc : Bool) (t : Nat)
  | fwRead (cell : Cell80) (t : Nat)
  | fwReadReply (f : Func) (off : Nat) (data : Word)
  | fwReadTimeout (f : Func) (t : Nat)
  -- Host functions (03)
  | configRequest (f : Func) (a : CfgAccess) (ecrc : Bool)
  | busMasterEnableWrite (f : Func) (en : Bool) (t : Nat)
  | flr (f : Func) (t : Nat)
  | functionResetComplete (f : Func) (t : Nat)
  | d3hotEntry (f : Func) (t : Nat)
  | d0Return (f : Func) (t : Nat)
  | msixUnmask (f : Func) (vec : Nat)
  | pciIntCauseClear (f : Func) (data : Word)
  | pcieLinkDown (t : Nat)
  | pcieLinkUp (speed width : Nat) (t : Nat)
  | pcieL1Exit (t : Nat)
  | readCompletionTimeout (r : ReadOf) (t : Nat)
  | ownershipMapWrite (f : Func) (off : Nat) (data : Word)
  | registerWrite (f : Func) (bar : Bar) (off size : Nat) (data : Quad) (ecrc : Bool) (t : Nat)
  | counterClear (f : Func) (off : Nat) (data : Word) (hits : Nat)
  | sysLockSetWrite (f : Func) (data : Word) (t : Nat)
  -- Ringmaster (04, 05, 06)
  | ringEnable (f : Func) (n : Nat) (data : Word)
  | ringDisable (f : Func) (n : Nat) (data : Word) (t : Nat)
  | sweepTimer (f : Func) (t : Nat)
  | sweepReadComplete (f : Func) (r : ReadEnd) (words : List Quad) (t : Nat)
  | fetchGrant
  | descriptorReadComplete (n : Nat) (r : ReadEnd) (descs : List Desc) (t : Nat)
  | operationOpen (tag : Nat) (t : Nat)
  | opOpen (tag : Nat) (t : Nat)
  | opClose (tag : Nat) (data : List Container) (res : Option Quad) (wr : Bool) (t : Nat)
  | v0CoalesceTimer (n : Nat) (t : Nat)
  | nop (tag : Nat) (t : Nat)
  | outWrite (tag : Nat) (agree : Bool) (t : Nat)
  | bufferReadComplete (tag : Nat) (r : ReadEnd) (data : List Quad) (t : Nat)
  -- Channels (07)
  | immediateWriteApply (tag : Nat) (value : Container) (t : Nat)
  | chSample (tag : Nat) (t : Nat)
  | chCapture (tag : Nat) (t : Nat)
  | readbackSample (bank : Nat) (rb pull : W48) (t : Nat)
  | vioLowDetect (bank : Nat) (t : Nat)
  | vioLowClear (bank : Nat) (t : Nat)
  | filterAccept (ch : Nat) (level : Bool) (raw : Nat) (t : Nat)
  | captureRecordSend (f : Func) (t : Nat)
  | captureTimeout (f : Func) (t : Nat)
  | overloadTrip (ch : Nat) (t : Nat)
  | chOvlClear (f : Func) (off : Nat) (data : Word) (t : Nat)
  | chCfgWrite (f : Func) (ch : Nat) (data : Word) (t : Nat)
  -- Field Serial Port (08)
  | fspEntryLoad (tag : Nat) (t : Nat)
  | fspRun (tag : Nat) (t : Nat)
  | fspTarget (tag : Nat) (t : Nat)
  | fspDisable (f : Func) (data : Word) (t : Nat)
  | fspRunStart (t : Nat)
  | fspWordStart (t : Nat)
  | fspWordEnd (rx : List (List (BitVec 8))) (t : Nat)
  | fspTargetWordBegin (sel : Nat) (asserted : Bool) (t : Nat)
  | fspTargetWordEnd (sel : Nat) (request : List (BitVec 8)) (t : Nat)
  | fspSelAbort (sel : Nat) (t : Nat)
  | fspTgtCfgWrite (f : Func) (off : Nat) (data : Word) (t : Nat)
  -- Two-wire port (09)
  | twpXfer (tag : Nat) (t : Nat)
  | twpTarget (tag : Nat) (t : Nat)
  | twpEnable (f : Func) (data : Word) (sda : SdaCheck) (t : Nat)
  | twpCtlEnWrite (f : Func) (tgt : Bool) (data : Word) (t : Nat)
  | twpCtlRst (f : Func) (data : Word) (sda : SdaCheck) (t : Nat)
  | twpBusIdleTimeout (t : Nat)
  | twpStartDetect (t : Nat)
  | twpStopDetect (rx : List (BitVec 8)) (clocked : Nat) (t : Nat)
  | twpXferStart (t : Nat)
  | twpXferEnd (nackAt : Option Nat) (rx : List (BitVec 8)) (t : Nat)
  | twpArbLoss (byte bit lossAt : Nat) (rx : List (BitVec 8)) (t : Nat)
  | twpSclLowTimeout (sda : SdaCheck) (t : Nat)
  | twpSdaLowTimeout (sda : SdaCheck) (t : Nat)
  | twpTargetAddressMatch (t : Nat)
  | twpTargetEnd (rx : List (BitVec 8)) (clocked : Nat) (t : Nat)
  | twpWakeMatch (t : Nat)
  -- Field timers (10)
  | ftStart (f : Func) (mask : Nat) (t : Nat)
  | ftStop (f : Func) (mask : Nat) (t : Nat)
  | ftWrap (k : Nat) (t : Nat)
  | ftCapLoRead (f : Func) (k : Nat) (t : Nat)
  | ftCapHiRead (f : Func) (k : Nat) (t : Nat)
  | ftMarkLoRead (f : Func) (k : Nat) (t : Nat)
  | ftCapture (tag : Nat) (t : Nat)
  | fSeqDebugHalt (t : Nat)
  | fSeqDebugRelease (t : Nat)
  | lowFrequencyPathSwitch (toLf : Bool) (t : Nat)
  | encZEdge (rising : Bool) (raw : Nat) (t : Nat)
  -- Watchdogs (11)
  | wdService (k : Nat) (data : Word) (t : Nat)
  | wdExpire (k : Nat) (t : Nat)
  | wdEnable (f : Func) (k : Nat) (data : Word) (t : Nat)
  | wdKey (f : Func) (k : Nat) (data : Word) (t : Nat)
  -- Safety Net (12, 20)
  | snSourceActive (die : Die) (src : Nat) (scA scB : Bool) (t : Nat)
  | snQuietExpire (die : Die) (src : Nat) (t : Nat)
  | snEvent (die : Die) (cell : Cell80) (t : Nat)
  | snSevWrite (f : Func) (i : Nat) (data : Word) (t : Nat)
  | snQuietWrite (f : Func) (i : Nat) (data : Word) (t : Nat)
  | snRecClr (f : Func) (data : Word) (t : Nat)
  | snAckWrite (f : Func) (data : Word) (t : Nat)
  | shadowCompare (t : Nat)
  | faultPulseEnd (die : Die) (t : Nat)
  | faultPinMismatch (die : Die) (bad : Bool) (t : Nat)
  | supplyOutOfRange (src : Nat) (t : Nat)
  | supplyReturnInRange (src : Nat) (t : Nat)
  | temperatureThreshold (die : Die) (crit above : Bool) (t : Nat)
  | clockLoss (src : Nat) (t : Nat)
  | clockReturn (src : Nat) (t : Nat)
  | lfOscillatorFault (bad : Bool) (t : Nat)
  | sequencerTrap (die : Die) (t : Nat)
  | eccError (die : Die) (uncorrectable : Bool) (t : Nat)
  -- Rest and the Barker (13)
  | restEnter (tag : Nat) (t : Nat)
  | restExchange (t : Nat)
  | idleTimeout (t : Nat)
  | barkerSample (lv : BitVec 19) (miss : Bool) (t : Nat)
  | wakeEvent (src : Nat) (t : Nat)
  | wakeBeacon (receiver : Die) (t : Nat)
  | wakeLate (t : Nat)
  -- Storage and calibration (14)
  | recordWriteStart (t : Nat)
  | flashOpComplete (ok : Bool) (t : Nat)
  | settingsCommit (tag : Nat) (t : Nat)
  | calWrite (tag : Nat) (t : Nat)
  -- Firmware (15)
  | fwStageOpen (f : Func) (data : Word) (t : Nat)
  | fwStageClose (f : Func) (data : Word) (t : Nat)
  | fwStageWinWrite (f : Func) (off : Nat) (data : Word)
  | fwStageChunk (f : Func) (data : Word) (t : Nat)
  | chunkComplete (t : Nat)
  | romInstall (f : Func) (data : Word) (chk : SlotCheck) (t : Nat)
  | fwInstall (tag : Nat) (chk : SlotCheck) (t : Nat)
  | fwFallback (tag : Nat) (chk : SlotCheck) (t : Nat)
  -- Security (16)
  | secLcAdv (f : Func) (data : Word) (t : Nat)
  | secSvnAdv (f : Func) (data : Word) (t : Nat)
  | fuseProgramComplete (lifecycle ok : Bool) (t : Nat)
  | tamperFire (h f now : Nat) (t : Nat)
  | ownerEnrol (tag : Nat) (chk : OwnerCheck) (t : Nat)
  | rekey (tag : Nat) (chk : OwnerCheck) (t : Nat)
  -- Mirror (17)
  | mirTakeover (tag : Nat) (sda : SdaCheck) (t : Nat)
  | mirSessionStart (t : Nat)
  | hello (frame : HelloFrame) (t : Nat)
  | mirStatusSend (t : Nat)
  | mirStatus (hd : FrameHead) (epoch : Nat) (t : Nat)
  | mirLinkTimeout (aligned : Bool) (t : Nat)
  | mirSnapshotCapture (t : Nat)
  | mirHead (hd : FrameHead) (epoch segs len profile : Nat) (t : Nat)
  | mirHeadLatch (t : Nat)
  | mirSeg (hd : FrameHead) (idx : Nat) (body : List Word) (t : Nat)
  | mirCommit (hd : FrameHead) (epoch : Nat) (crc word : Word) (t : Nat)
  | mirSnapTimeout (t : Nat)
  | mirSnapMiss (t : Nat)
  | snapshotStoreTimer (t : Nat)
  | mirTake (hd : FrameHead) (t : Nat)
  | mirTakeWindowEnd (t : Nat)
  -- Power, boot and resets (18)
  | powerOnResetHRelease (t : Nat)
  | powerOnResetFRelease (t : Nat)
  | vddCoreHLoss (t : Nat)
  | vddFLoss (t : Nat)
  | fSideColdReturn (env : BootEnv) (t : Nat)
  | perstAssert (t : Nat)
  | perstDeassert (env : BootEnv) (t : Nat)
  | bootTimeout (env : BootEnv) (t : Nat)
  | firmwareRestart (env : BootEnv) (t : Nat)
  | fSideResetReapply (env : BootEnv) (t : Nat)
deriving DecidableEq, Repr

end Sys2Proof
end

