-- ==== Sys2Proof/Decode.lean ====
section
/-!
DEFINITION. The words of the commands. The table of operations and events gives no row any bits: a command is a request at the
host's port or an event in the device, and no word spells one (log entry 1).
-/

namespace Sys2Proof

/-- The command that a word of the table spells: none, since the table gives its rows no bits. -/
def decodeTableWord (_nbits _w : Nat) : Option Instr := none

end Sys2Proof
end

