-- ==== Sys2Proof/Config.lean ====
section
/-!
DEFINITION. What an implementation fixes and the values the spec leaves free. Each free value is an opaque constant:
nothing in Lean can evaluate it, so a claim about it holds for every value (log entries 5, 6, 7 and 86).
-/

namespace Sys2Proof.Config

/-- A fresh free value, applied to `Dev.freeCtr`: the draws of the TRNG and every result the spec leaves undefined. -/
opaque freeValue : Nat → BitVec 64

/-- SYS_ID[0].STEPPING, as the Revision ID (Table PCI-2). -/
opaque stepping : BitVec 8

/-- The device serial number fuses (Table SEC-1). -/
opaque serial : BitVec 64

/-- SYS_PROFILE.SUPPORTED above bit 17 (R387): the profiles above 1 that this stepping supports. -/
opaque profilesAbove1 : BitVec 16

/-- The device identity public key fuses (SEC_DIK_PUB). -/
opaque dikPub : Nat → Word

/-- The factory calibration body, by word (Table NVS-6). -/
opaque factoryCal : Nat → Word

/-- The payload of an OP_OPEN cell (Table PRZ-4): the operation's context, whose places in the payload the spec does not give. -/
opaque opOpenPayload (fn : Func) (ring tag dest : Nat) : BitVec 40

/-- The payload of an OP_CLOSE cell (Table PRZ-4): the operation's end and status. -/
opaque opClosePayload (tag status : Nat) : BitVec 40

/-- The container of the reply to FW_READ (R65), whose layout the spec does not give. -/
opaque fwReplyBody (fn : Func) (off : Nat) (data : Word) : BitVec 64

end Sys2Proof.Config
end

