-- ==== Sys2Proof/Machine/Crc.lean ====
section
/-!
DEFINITION. The check codes: the 16-bit check of a container under a route seed (R135, R136), the header check and
the control check of a cell (R42, R43), and CRC-32C (Tables FSP-7 and IDX). Each is computed bit by bit.
-/

namespace Sys2Proof

/-- One bit into a CRC register, most significant bit first. -/
def crcBit {n : Nat} (poly c : BitVec n) (b : Bool) : BitVec n :=
  if c.msb != b then (c <<< 1) ^^^ poly else c <<< 1

/-- The low `w` bits of a number into a CRC register, bit `w - 1` first. -/
def crcBits {n : Nat} (poly : BitVec n) : Nat → BitVec n → Nat → BitVec n
  | 0, c, _ => c
  | w + 1, c, v => crcBits poly w (crcBit poly c (v.testBit w)) v

/-- The check of a 48-bit word under a route seed (R135): CRC-16 0xC867, initial value 0xFFFF, over the word and the
seed. -/
def checkOf (word : W48) (seed : BitVec 16) : Check :=
  crcBits 0xC867#16 64 0xFFFF#16 (word ++ seed).toNat

/-- The route seed (R136): function, ring, destination code. -/
def seedOf (fn : Func) (ring dest : Nat) : BitVec 16 :=
  BitVec.ofNat 16 (fn.idx * 32768 + ring % 64 * 512 + dest % 512)

/-- The internal routes (Table CHK-1). -/
def routeRefresh : Nat := 0x1FC
def routePosition : Nat := 0x1FD
def routeFieldWindow : Nat := 0x1FE

/-- A container made under a route. -/
def Container.make (word : W48) (fn : Func) (ring dest : Nat) : Container :=
  ⟨word, checkOf word (seedOf fn ring dest)⟩

/-- Whether a container's check holds under a route (R140). -/
def Container.good (c : Container) (fn : Func) (ring dest : Nat) : Bool :=
  c.chk == checkOf c.word (seedOf fn ring dest)

/-- HCHK (R42): CRC-3 with polynomial x^3 + x + 1, initial value 0b111, over header bits [15:3]. -/
def hchkOf (header : BitVec 13) : BitVec 3 := crcBits 0b011#3 13 0b111#3 header.toNat

/-- CCHK (R43): the CRC-16 over the two header bytes and container bits [63:16]. -/
def cchkOf (header : BitVec 16) (body : BitVec 48) : BitVec 16 :=
  crcBits 0xC867#16 64 0xFFFF#16 (header ++ body).toNat

/-- The fields of a raw cell (Table PRZ-2). -/
def Cell80.header (c : Cell80) : BitVec 16 := c.extractLsb' 64 16
def Cell80.typ (c : Cell80) : Nat := (c.extractLsb' 77 3).toNat
def Cell80.route (c : Cell80) : Nat := (c.extractLsb' 72 5).toNat
def Cell80.seq (c : Cell80) : Nat := (c.extractLsb' 67 5).toNat
def Cell80.body (c : Cell80) : BitVec 64 := c.extractLsb' 0 64
def Cell80.container (c : Cell80) : Container := Container.ofBits c.body
def Cell80.opcode (c : Cell80) : Nat := (c.extractLsb' 56 8).toNat

/-- Whether the cell's header check holds. -/
def Cell80.hchkGood (c : Cell80) : Bool := c.extractLsb' 64 3 == hchkOf (c.extractLsb' 67 13)

/-- Whether the control check of a control container holds. -/
def Cell80.cchkGood (c : Cell80) : Bool := c.extractLsb' 0 16 == cchkOf c.header (c.extractLsb' 16 48)

/-- A cell with its header check made. -/
def Cell80.make (typ route seq : Nat) (body : BitVec 64) : Cell80 :=
  let hd : BitVec 13 := BitVec.ofNat 13 (typ % 8 * 1024 + route % 32 * 32 + seq % 32)
  (hd ++ hchkOf hd) ++ body

/-- A cell that carries a control container (R43): opcode, 40-bit payload, and the control check over header and both. -/
def Cell80.control (typ route seq op : Nat) (payload : BitVec 40) : Cell80 :=
  let hd : BitVec 13 := BitVec.ofNat 13 (typ % 8 * 1024 + route % 32 * 32 + seq % 32)
  let h16 : BitVec 16 := hd ++ hchkOf hd
  let body : BitVec 48 := BitVec.ofNat 8 op ++ payload
  h16 ++ (body ++ cchkOf h16 body)

/-- A field of the container of a cell, by the container's bit numbers (Table PRZ-4). -/
def Cell80.bits (c : Cell80) (lo w : Nat) : Nat := bitsOf c.body.toNat lo w

/-- CRC-32C, one byte, in the reflected form of Table FSP-7 (polynomial 0x1EDC_6F41 reflected is 0x82F6_3B78). -/
def crc32cBit (c : BitVec 32) (b : Bool) : BitVec 32 :=
  if c.getLsbD 0 != b then (c >>> 1) ^^^ 0x82F63B78#32 else c >>> 1

/-- CRC-32C over bits in the order in which a reflected register takes them: each byte's bit 0 first. -/
def crc32cBits : List Bool → BitVec 32 → BitVec 32
  | [], c => c
  | b :: t, c => crc32cBits t (crc32cBit c b)

/-- The bits of a byte, bit 0 first. -/
def byteBits (n : Nat) : List Bool := (List.range 8).map n.testBit

/-- CRC-32C of a byte string (Table FSP-7). -/
def crc32c (bytes : List Nat) : BitVec 32 :=
  ~~~ crc32cBits (bytes.flatMap byteBits) 0xFFFFFFFF#32

end Sys2Proof
end

