-- ==== Sys2Proof/Machine/Fields.lean ====
section
/-!
DEFINITION. The register map of the register index (Tables IDX-2 to IDX-5) and the field maps of the block chapters:
one name per register (`Reg.<register>`, its BAR0 offset), one per field (`Fld.<register>_<field>`), and one
`RegSpec` row per register with the masks of its access codes (Table SYS-4) and its reset value.
The MSI-X table entries of a function (Table PCI-6, BAR2) are keyed from 0x20000, outside BAR0.
-/

namespace Sys2Proof

/-- A field of a 32-bit register: the register's offset, the field's lowest bit and its width. -/
structure Fld where
  off : Nat
  lo : Nat
  w : Nat
deriving DecidableEq, Repr

/-- One row of the register index: instances at `off + stride * i` for `i < count`; the bits that a write sets
(RW and RWL), the bits that a 1 clears (W1C), the bits that act (WO), and the reset value. -/
structure RegSpec where
  off : Nat
  count : Nat
  stride : Nat
  rw : Word
  w1c : Word
  wo : Word
  reset : Word
deriving DecidableEq, Repr

namespace Reg
def SYS_ID (k : Nat) : Nat := 0x0000 + 4 * k
def SYS_STATE : Nat := 0x0008
def SYS_PROFILE : Nat := 0x000C
def SYS_BOOT : Nat := 0x0010
def SYS_BOOT_TIME : Nat := 0x0014
def SYS_LOCK_STATUS : Nat := 0x0018
def SYS_LOCK_SET : Nat := 0x001C
def PCI_FUNC_ID : Nat := 0x0100
def PCI_LINK_STATUS : Nat := 0x0104
def PCI_INT_CAUSE : Nat := 0x0108
def PCI_OWN_CH (k : Nat) : Nat := 0x0110 + 4 * k
def PCI_OWN_PORT : Nat := 0x011C
def PCI_OWN_FT : Nat := 0x0120
def PCI_OWN_CTRL : Nat := 0x0124
def PCI_DROP_CNT : Nat := 0x0128
def PCI_CNT_SAT : Nat := 0x012C
def PRZ_CTRL : Nat := 0x0200
def PRZ_REFRESH : Nat := 0x0204
def PRZ_STATUS : Nat := 0x0208
def PRZ_REF_EFF : Nat := 0x020C
def PRZ_FWIN_STATUS : Nat := 0x0210
def PRZ_FWIN_LAST : Nat := 0x0214
def PRZ_CELL_ERR_CNT : Nat := 0x0218
def PRZ_SEQ_CNT : Nat := 0x021C
def PRZ_REPLAY_CNT : Nat := 0x0220
def PRZ_RETRAIN_CNT : Nat := 0x0224
def PRZ_CNT_SAT : Nat := 0x0228
def RM_CTRL : Nat := 0x0400
def RM_STATUS : Nat := 0x0404
def RM_DB_BASE_LO (k : Nat) : Nat := 0x0410 + 16 * k
def RM_DB_BASE_HI (k : Nat) : Nat := 0x0414 + 16 * k
def RM_SWEEP_CFG (k : Nat) : Nat := 0x0418 + 16 * k
def RM_SWEEP_STATUS (k : Nat) : Nat := 0x041C + 16 * k
def RM_DMA_ERR_CNT : Nat := 0x0430
def RM_CNT_SAT : Nat := 0x0434
def RM_CHK_CNT : Nat := 0x0440
def RM_CHK_STATUS : Nat := 0x0444
def RM_PHASE_LO (k : Nat) : Nat := 0x0500 + 8 * k
def RM_PHASE_HI (k : Nat) : Nat := 0x0504 + 8 * k
def RM_FETCH_WEIGHT : Nat := 0x0600
def RM_CEIL (k : Nat) : Nat := 0x0604 + 4 * k
def RM_WM_SUM_LO : Nat := 0x0610
def RM_WM_SUM_HI : Nat := 0x0614
def RM_DUP_CNT (k : Nat) : Nat := 0x0620 + 4 * k
def RM_PRESS_SAT : Nat := 0x0628
def RM_BACKLOG (k : Nat) : Nat := 0x0700 + 4 * k
def RM_RING_BASE_LO (k : Nat) : Nat := 0x0800 + 32 * k
def RM_RING_BASE_HI (k : Nat) : Nat := 0x0804 + 32 * k
def RM_CPL_BASE_LO (k : Nat) : Nat := 0x0808 + 32 * k
def RM_CPL_BASE_HI (k : Nat) : Nat := 0x080C + 32 * k
def RM_RING_CFG (k : Nat) : Nat := 0x0810 + 32 * k
def RM_RING_STATUS (k : Nat) : Nat := 0x0814 + 32 * k
def RM_RING_CI (k : Nat) : Nat := 0x0818 + 32 * k
def SN_CTRL : Nat := 0x1000
def SN_STATUS : Nat := 0x1004
def SN_REC_CLR : Nat := 0x1008
def SN_SEV (k : Nat) : Nat := 0x1010 + 4 * k
def SN_QUIET (k : Nat) : Nat := 0x1040 + 4 * k
def SN_ACTIVE (k : Nat) : Nat := 0x1080 + 4 * k
def SN_INFORCE (k : Nat) : Nat := 0x1090 + 4 * k
def SN_LATCH_A (k : Nat) : Nat := 0x10A0 + 4 * k
def SN_LATCH_B (k : Nat) : Nat := 0x10B0 + 4 * k
def SN_REC_SAT (k : Nat) : Nat := 0x10C0 + 4 * k
def SN_REC (k : Nat) : Nat := 0x1100 + 4 * k
def WD_CTRL (k : Nat) : Nat := 0x1400 + 32 * k
def WD_OPEN (k : Nat) : Nat := 0x1404 + 32 * k
def WD_TIMEOUT (k : Nat) : Nat := 0x1408 + 32 * k
def WD_FIRST (k : Nat) : Nat := 0x140C + 32 * k
def WD_KEY (k : Nat) : Nat := 0x1410 + 32 * k
def WD_COUNT (k : Nat) : Nat := 0x1414 + 32 * k
def WD_STATUS (k : Nat) : Nat := 0x1418 + 32 * k
def NVS_STATUS : Nat := 0x1500
def NVS_LAST : Nat := 0x1504
def NVS_SET_SEQ : Nat := 0x1508
def NVS_SET_INFO : Nat := 0x150C
def NVS_WEAR : Nat := 0x1510
def NVS_ECC_CNT : Nat := 0x1514
def NVS_BAD_CNT : Nat := 0x1518
def NVS_CNT_SAT : Nat := 0x151C
def CAL_CTRL : Nat := 0x1600
def CAL_ORIGIN : Nat := 0x1604
def CAL_SEQ : Nat := 0x1608
def CAL_IMAGE (k : Nat) : Nat := 0x1700 + 4 * k
def CAL_IMAGE_CRC : Nat := 0x1730
def FW_STATUS : Nat := 0x1800
def FW_STAGE_CTRL : Nat := 0x1804
def FW_STAGE_CHUNK : Nat := 0x1808
def FW_STAGE_CRC : Nat := 0x180C
def FW_VER (k : Nat) : Nat := 0x1810 + 4 * k
def FW_SCHEMA (k : Nat) : Nat := 0x1818 + 4 * k
def FW_ACTGEN (k : Nat) : Nat := 0x1820 + 4 * k
def SEC_STATUS : Nat := 0x1900
def SEC_CTRL : Nat := 0x1904
def SEC_TAMPER_POL : Nat := 0x1908
def SEC_TAMPER_STATUS : Nat := 0x190C
def SEC_TAMPER_CNT : Nat := 0x1910
def SEC_CNT_SAT : Nat := 0x1914
def SEC_NONCE_LO : Nat := 0x1918
def SEC_NONCE_HI : Nat := 0x191C
def SEC_LC_ADV : Nat := 0x1920
def SEC_SVN : Nat := 0x1924
def SEC_SVN_ADV : Nat := 0x1928
def SEC_MIR_GEN : Nat := 0x1930
def SEC_MIR_KCV : Nat := 0x1934
def SEC_REC_GEN : Nat := 0x1938
def SEC_DIK_PUB (k : Nat) : Nat := 0x1940 + 4 * k
def SEC_OWNER_HASH (k : Nat) : Nat := 0x19A0 + 4 * k
def MIR_CFG : Nat := 0x1A00
def MIR_STATUS : Nat := 0x1A04
def MIR_EPOCH_LO : Nat := 0x1A08
def MIR_EPOCH_HI : Nat := 0x1A0C
def MIR_SNAP_AGE : Nat := 0x1A10
def MIR_SNAP_POS_LO : Nat := 0x1A14
def MIR_SNAP_POS_HI : Nat := 0x1A18
def MIR_ABORT_CNT : Nat := 0x1A20
def MIR_AUTH_CNT : Nat := 0x1A24
def MIR_CNT_SAT : Nat := 0x1A28
def MIR_PARTNER_SN_LO : Nat := 0x1A30
def MIR_PARTNER_SN_HI : Nat := 0x1A34
def MIR_SNAP_OUT (k : Nat) : Nat := 0x1A40 + 4 * k
def CAR_CTRL : Nat := 0x2000
def CAR_SRC : Nat := 0x2004
def CAR_MOD_LO : Nat := 0x2008
def CAR_MOD_HI : Nat := 0x200C
def CAR_POS_LO : Nat := 0x2010
def CAR_POS_HI : Nat := 0x2014
def CAR_TURN : Nat := 0x2018
def CAR_STATUS : Nat := 0x201C
def CAR_ACC_MAX : Nat := 0x2020
def CAR_INT_RATE : Nat := 0x2024
def CAR_LATE_WIN_LO : Nat := 0x2028
def CAR_LATE_WIN_HI : Nat := 0x202C
def CAR_LOSS : Nat := 0x2030
def CAR_LOAD_LO : Nat := 0x2034
def CAR_LOAD_HI : Nat := 0x2038
def CAR_ABS_CFG : Nat := 0x203C
def CAR_SYNC_CFG : Nat := 0x2040
def CAR_SLOT_SPLIT : Nat := 0x2044
def CAR_LATE_CNT : Nat := 0x2048
def CAR_ABANDON_CNT : Nat := 0x204C
def CAR_QERR_CNT : Nat := 0x2050
def CAR_CNT_SAT : Nat := 0x2054
def CAR_SLOT_STATE (k : Nat) : Nat := 0x2100 + 4 * k
def CH_CFG (k : Nat) : Nat := 0x2400 + 4 * k
def CH_LOCK : Nat := 0x2500
def CH_STATUS : Nat := 0x2504
def CH_LEVEL_LO : Nat := 0x2508
def CH_LEVEL_HI : Nat := 0x250C
def CH_HELD_LO : Nat := 0x2510
def CH_HELD_HI : Nat := 0x2514
def CH_OVL_LO : Nat := 0x2518
def CH_OVL_HI : Nat := 0x251C
def CH_CAP_LOST_CNT : Nat := 0x2520
def CH_CNT_SAT : Nat := 0x2524
def CH_CHK_CFG : Nat := 0x2700
def CH_CHK_SETTLE (k : Nat) : Nat := 0x2704 + 4 * k
def CH_CHK_STATUS : Nat := 0x2710
def CH_PIN_MISM_LO : Nat := 0x2714
def CH_PIN_MISM_HI : Nat := 0x2718
def CH_CHK_PATH_CNT : Nat := 0x2720
def CH_CHK_PIN_CNT : Nat := 0x2724
def CH_CHK_SAT : Nat := 0x2728
def FSP_CTRL : Nat := 0x2800
def FSP_STATUS : Nat := 0x2804
def FSP_SEL_CFG (k : Nat) : Nat := 0x2810 + 8 * k
def FSP_SEL_TIM (k : Nat) : Nat := 0x2814 + 8 * k
def FSP_TGT_CFG (k : Nat) : Nat := 0x2860 + 8 * k
def FSP_TGT_LEN (k : Nat) : Nat := 0x2864 + 8 * k
def FSP_LINK_ST (k : Nat) : Nat := 0x28C0 + 4 * k
def FSP_CRC_CNT : Nat := 0x28E0
def FSP_ALIVE_CNT : Nat := 0x28E4
def FSP_UNDERRUN_CNT : Nat := 0x28E8
def FSP_ABORT_CNT : Nat := 0x28EC
def FSP_START_LOST_CNT : Nat := 0x28F0
def FSP_CNT_SAT : Nat := 0x28F4
def TWP_CTRL : Nat := 0x2C00
def TWP_STATUS : Nat := 0x2C04
def TWP_SCL_TIM : Nat := 0x2C08
def TWP_TGT_CFG : Nat := 0x2C0C
def TWP_LAST_LOSS : Nat := 0x2C10
def TWP_ARB_CNT : Nat := 0x2C14
def TWP_LTO_CNT : Nat := 0x2C18
def TWP_TGT_NR_CNT : Nat := 0x2C1C
def TWP_CNT_SAT : Nat := 0x2C20
def FT_START : Nat := 0x3000
def FT_STOP : Nat := 0x3004
def FT_STATUS : Nat := 0x3008
def FT_FLAGS : Nat := 0x300C
def FT_LOCK : Nat := 0x3010
def FT_CFG (k : Nat) : Nat := 0x3040 + 32 * k
def FT_COUNT_LO (k : Nat) : Nat := 0x3044 + 32 * k
def FT_COUNT_HI (k : Nat) : Nat := 0x3048 + 32 * k
def FT_CAP_LO (k : Nat) : Nat := 0x304C + 32 * k
def FT_CAP_HI (k : Nat) : Nat := 0x3050 + 32 * k
def FT_MARK_LO (k : Nat) : Nat := 0x3054 + 32 * k
def FT_MARK_HI (k : Nat) : Nat := 0x3058 + 32 * k
def BRK_CTRL : Nat := 0x3400
def BRK_VOTE : Nat := 0x3404
def BRK_SEL (k : Nat) : Nat := 0x3410 + 4 * k
def BRK_IDLE : Nat := 0x3420
def BRK_STATUS : Nat := 0x3424
def BRK_TRAVEL : Nat := 0x3428
def BRK_WAKE : Nat := 0x342C
def BRK_RULE_CFG (k : Nat) : Nat := 0x3440 + 16 * k
def BRK_RULE_MASK (k : Nat) : Nat := 0x3444 + 16 * k
def BRK_RULE_VAL (k : Nat) : Nat := 0x3448 + 16 * k
def BRK_RULE_LIM (k : Nat) : Nat := 0x344C + 16 * k
def FW_STAGE_WIN (k : Nat) : Nat := 0x8000 + 4 * k
def WD_SERVICE : Nat := 0xF000
def SN_ACK : Nat := 0xF100
def MSIX_ADDR_LO (k : Nat) : Nat := 0x20000 + 16 * k
def MSIX_ADDR_HI (k : Nat) : Nat := 0x20004 + 16 * k
def MSIX_DATA (k : Nat) : Nat := 0x20008 + 16 * k
def MSIX_CTRL (k : Nat) : Nat := 0x2000C + 16 * k
end Reg

namespace Fld
def SYS_ID_WORD (k : Nat) : Fld := ⟨Reg.SYS_ID k, 0, 32⟩
def SYS_STATE_DEV_STATE : Fld := ⟨Reg.SYS_STATE, 0, 4⟩
def SYS_STATE_LIFECYCLE : Fld := ⟨Reg.SYS_STATE, 4, 2⟩
def SYS_STATE_SAFE_A : Fld := ⟨Reg.SYS_STATE, 8, 1⟩
def SYS_STATE_SAFE_B : Fld := ⟨Reg.SYS_STATE, 9, 1⟩
def SYS_STATE_HALT_ACT : Fld := ⟨Reg.SYS_STATE, 10, 1⟩
def SYS_STATE_UNKEYED : Fld := ⟨Reg.SYS_STATE, 11, 1⟩
def SYS_STATE_FW_SLOT : Fld := ⟨Reg.SYS_STATE, 12, 1⟩
def SYS_STATE_FALLBACK : Fld := ⟨Reg.SYS_STATE, 13, 1⟩
def SYS_PROFILE_ACTIVE : Fld := ⟨Reg.SYS_PROFILE, 0, 8⟩
def SYS_PROFILE_REF_SEEN : Fld := ⟨Reg.SYS_PROFILE, 8, 1⟩
def SYS_PROFILE_SUPPORTED : Fld := ⟨Reg.SYS_PROFILE, 16, 16⟩
def SYS_BOOT_CAUSE : Fld := ⟨Reg.SYS_BOOT, 0, 2⟩
def SYS_BOOT_F_WARM : Fld := ⟨Reg.SYS_BOOT, 2, 1⟩
def SYS_BOOT_STEP : Fld := ⟨Reg.SYS_BOOT, 3, 4⟩
def SYS_BOOT_SUBSYS_DEF : Fld := ⟨Reg.SYS_BOOT, 7, 1⟩
def SYS_BOOT_TIME_US : Fld := ⟨Reg.SYS_BOOT_TIME, 0, 32⟩
def SYS_LOCK_STATUS_CAR : Fld := ⟨Reg.SYS_LOCK_STATUS, 0, 1⟩
def SYS_LOCK_STATUS_PRZ : Fld := ⟨Reg.SYS_LOCK_STATUS, 1, 1⟩
def SYS_LOCK_STATUS_OWN : Fld := ⟨Reg.SYS_LOCK_STATUS, 2, 1⟩
def SYS_LOCK_STATUS_CH : Fld := ⟨Reg.SYS_LOCK_STATUS, 3, 1⟩
def SYS_LOCK_STATUS_FSP : Fld := ⟨Reg.SYS_LOCK_STATUS, 4, 1⟩
def SYS_LOCK_STATUS_TWP : Fld := ⟨Reg.SYS_LOCK_STATUS, 5, 1⟩
def SYS_LOCK_STATUS_FT : Fld := ⟨Reg.SYS_LOCK_STATUS, 6, 1⟩
def SYS_LOCK_STATUS_WDA : Fld := ⟨Reg.SYS_LOCK_STATUS, 7, 1⟩
def SYS_LOCK_STATUS_WDB : Fld := ⟨Reg.SYS_LOCK_STATUS, 8, 1⟩
def SYS_LOCK_STATUS_WDF : Fld := ⟨Reg.SYS_LOCK_STATUS, 9, 1⟩
def SYS_LOCK_STATUS_SN : Fld := ⟨Reg.SYS_LOCK_STATUS, 10, 1⟩
def SYS_LOCK_STATUS_BRK : Fld := ⟨Reg.SYS_LOCK_STATUS, 11, 1⟩
def SYS_LOCK_STATUS_SEC_POL : Fld := ⟨Reg.SYS_LOCK_STATUS, 12, 1⟩
def SYS_LOCK_STATUS_SEC_ENROL : Fld := ⟨Reg.SYS_LOCK_STATUS, 13, 1⟩
def SYS_LOCK_STATUS_MIR : Fld := ⟨Reg.SYS_LOCK_STATUS, 14, 1⟩
def SYS_LOCK_STATUS_F_STALE : Fld := ⟨Reg.SYS_LOCK_STATUS, 15, 1⟩
def SYS_LOCK_STATUS_REJ : Fld := ⟨Reg.SYS_LOCK_STATUS, 16, 1⟩
def SYS_LOCK_SET_BITS : Fld := ⟨Reg.SYS_LOCK_SET, 0, 15⟩
def PCI_FUNC_ID_FUNC : Fld := ⟨Reg.PCI_FUNC_ID, 0, 1⟩
def PCI_LINK_STATUS_SPEED : Fld := ⟨Reg.PCI_LINK_STATUS, 0, 4⟩
def PCI_LINK_STATUS_WIDTH : Fld := ⟨Reg.PCI_LINK_STATUS, 4, 2⟩
def PCI_INT_CAUSE_CAUSE : Fld := ⟨Reg.PCI_INT_CAUSE, 0, 4⟩
def PCI_OWN_CH_OWNER (k : Nat) (j : Nat) : Fld := ⟨Reg.PCI_OWN_CH k, 2 * j, 2⟩
def PCI_OWN_PORT_CAR : Fld := ⟨Reg.PCI_OWN_PORT, 0, 2⟩
def PCI_OWN_PORT_TWP_CTL : Fld := ⟨Reg.PCI_OWN_PORT, 2, 2⟩
def PCI_OWN_PORT_TWP_TGT : Fld := ⟨Reg.PCI_OWN_PORT, 4, 2⟩
def PCI_OWN_PORT_FSP : Fld := ⟨Reg.PCI_OWN_PORT, 6, 2⟩
def PCI_OWN_PORT_FSP_SEL (j : Nat) : Fld := ⟨Reg.PCI_OWN_PORT, 8 + 2 * j, 2⟩
def PCI_OWN_FT_FT (j : Nat) : Fld := ⟨Reg.PCI_OWN_FT, 2 * j, 2⟩
def PCI_OWN_CTRL_LOCK : Fld := ⟨Reg.PCI_OWN_CTRL, 0, 1⟩
def PCI_OWN_CTRL_CFG_REJ : Fld := ⟨Reg.PCI_OWN_CTRL, 1, 1⟩
def PCI_DROP_CNT_COUNT : Fld := ⟨Reg.PCI_DROP_CNT, 0, 32⟩
def PCI_CNT_SAT_SAT : Fld := ⟨Reg.PCI_CNT_SAT, 0, 1⟩
def PCI_CNT_SAT_CLR : Fld := ⟨Reg.PCI_CNT_SAT, 1, 1⟩
def PRZ_CTRL_RETRAIN : Fld := ⟨Reg.PRZ_CTRL, 0, 1⟩
def PRZ_CTRL_LOCK : Fld := ⟨Reg.PRZ_CTRL, 1, 1⟩
def PRZ_REFRESH_PERIOD : Fld := ⟨Reg.PRZ_REFRESH, 0, 10⟩
def PRZ_REFRESH_MISS_N : Fld := ⟨Reg.PRZ_REFRESH, 10, 4⟩
def PRZ_STATUS_LINK_UP : Fld := ⟨Reg.PRZ_STATUS, 0, 1⟩
def PRZ_STATUS_TRAINING : Fld := ⟨Reg.PRZ_STATUS, 1, 1⟩
def PRZ_STATUS_HELD : Fld := ⟨Reg.PRZ_STATUS, 2, 1⟩
def PRZ_STATUS_FWD_LANES : Fld := ⟨Reg.PRZ_STATUS, 3, 4⟩
def PRZ_STATUS_RET_LANES : Fld := ⟨Reg.PRZ_STATUS, 7, 2⟩
def PRZ_STATUS_DEGRADED : Fld := ⟨Reg.PRZ_STATUS, 9, 1⟩
def PRZ_STATUS_CFG_REJ : Fld := ⟨Reg.PRZ_STATUS, 10, 1⟩
def PRZ_STATUS_MISS_NOW : Fld := ⟨Reg.PRZ_STATUS, 11, 4⟩
def PRZ_REF_EFF_EFF : Fld := ⟨Reg.PRZ_REF_EFF, 0, 10⟩
def PRZ_FWIN_STATUS_PENDING : Fld := ⟨Reg.PRZ_FWIN_STATUS, 0, 5⟩
def PRZ_FWIN_STATUS_REJ : Fld := ⟨Reg.PRZ_FWIN_STATUS, 5, 1⟩
def PRZ_FWIN_STATUS_TIMEOUT : Fld := ⟨Reg.PRZ_FWIN_STATUS, 6, 1⟩
def PRZ_FWIN_STATUS_DROPPED : Fld := ⟨Reg.PRZ_FWIN_STATUS, 7, 1⟩
def PRZ_FWIN_LAST_OFFSET : Fld := ⟨Reg.PRZ_FWIN_LAST, 0, 16⟩
def PRZ_FWIN_LAST_FUNC : Fld := ⟨Reg.PRZ_FWIN_LAST, 16, 1⟩
def PRZ_FWIN_LAST_CAUSE : Fld := ⟨Reg.PRZ_FWIN_LAST, 17, 4⟩
def PRZ_CELL_ERR_CNT_COUNT : Fld := ⟨Reg.PRZ_CELL_ERR_CNT, 0, 32⟩
def PRZ_SEQ_CNT_COUNT : Fld := ⟨Reg.PRZ_SEQ_CNT, 0, 32⟩
def PRZ_REPLAY_CNT_COUNT : Fld := ⟨Reg.PRZ_REPLAY_CNT, 0, 32⟩
def PRZ_RETRAIN_CNT_COUNT : Fld := ⟨Reg.PRZ_RETRAIN_CNT, 0, 32⟩
def PRZ_CNT_SAT_SAT : Fld := ⟨Reg.PRZ_CNT_SAT, 0, 4⟩
def PRZ_CNT_SAT_CLR : Fld := ⟨Reg.PRZ_CNT_SAT, 4, 4⟩
def RM_CTRL_A_RINGS : Fld := ⟨Reg.RM_CTRL, 0, 7⟩
def RM_STATUS_INFLIGHT : Fld := ⟨Reg.RM_STATUS, 0, 10⟩
def RM_STATUS_CFG_REJ : Fld := ⟨Reg.RM_STATUS, 10, 1⟩
def RM_DB_BASE_LO_ADDR_LO (k : Nat) : Fld := ⟨Reg.RM_DB_BASE_LO k, 12, 20⟩
def RM_DB_BASE_HI_ADDR_HI (k : Nat) : Fld := ⟨Reg.RM_DB_BASE_HI k, 0, 32⟩
def RM_SWEEP_CFG_PERIOD (k : Nat) : Fld := ⟨Reg.RM_SWEEP_CFG k, 0, 8⟩
def RM_SWEEP_CFG_MODE (k : Nat) : Fld := ⟨Reg.RM_SWEEP_CFG k, 8, 1⟩
def RM_SWEEP_CFG_NPOINTS (k : Nat) : Fld := ⟨Reg.RM_SWEEP_CFG k, 9, 5⟩
def RM_SWEEP_STATUS_ACTIVE (k : Nat) : Fld := ⟨Reg.RM_SWEEP_STATUS k, 0, 1⟩
def RM_SWEEP_STATUS_FIXED_FALLBACK (k : Nat) : Fld := ⟨Reg.RM_SWEEP_STATUS k, 1, 1⟩
def RM_SWEEP_STATUS_READ_ERR (k : Nat) : Fld := ⟨Reg.RM_SWEEP_STATUS k, 2, 1⟩
def RM_DMA_ERR_CNT_COUNT : Fld := ⟨Reg.RM_DMA_ERR_CNT, 0, 32⟩
def RM_CNT_SAT_SAT : Fld := ⟨Reg.RM_CNT_SAT, 0, 1⟩
def RM_CNT_SAT_CLR : Fld := ⟨Reg.RM_CNT_SAT, 1, 1⟩
def RM_CHK_CNT_COUNT : Fld := ⟨Reg.RM_CHK_CNT, 0, 32⟩
def RM_CHK_STATUS_MERGE_FAIL : Fld := ⟨Reg.RM_CHK_STATUS, 0, 1⟩
def RM_CHK_STATUS_IN_FAIL : Fld := ⟨Reg.RM_CHK_STATUS, 1, 1⟩
def RM_CHK_STATUS_RING : Fld := ⟨Reg.RM_CHK_STATUS, 2, 6⟩
def RM_CHK_STATUS_SAT : Fld := ⟨Reg.RM_CHK_STATUS, 8, 1⟩
def RM_CHK_STATUS_CLR : Fld := ⟨Reg.RM_CHK_STATUS, 9, 1⟩
def RM_PHASE_LO_POS_LO (k : Nat) : Fld := ⟨Reg.RM_PHASE_LO k, 0, 32⟩
def RM_PHASE_HI_POS_HI (k : Nat) : Fld := ⟨Reg.RM_PHASE_HI k, 0, 16⟩
def RM_FETCH_WEIGHT_W_A : Fld := ⟨Reg.RM_FETCH_WEIGHT, 0, 4⟩
def RM_FETCH_WEIGHT_W_B : Fld := ⟨Reg.RM_FETCH_WEIGHT, 4, 4⟩
def RM_CEIL_CEIL (k : Nat) : Fld := ⟨Reg.RM_CEIL k, 0, 10⟩
def RM_CEIL_HELD (k : Nat) : Fld := ⟨Reg.RM_CEIL k, 16, 10⟩
def RM_CEIL_AT_CEIL (k : Nat) : Fld := ⟨Reg.RM_CEIL k, 26, 1⟩
def RM_WM_SUM_LO_WM_HIT : Fld := ⟨Reg.RM_WM_SUM_LO, 0, 32⟩
def RM_WM_SUM_HI_WM_HIT : Fld := ⟨Reg.RM_WM_SUM_HI, 0, 32⟩
def RM_DUP_CNT_COUNT (k : Nat) : Fld := ⟨Reg.RM_DUP_CNT k, 0, 32⟩
def RM_PRESS_SAT_SAT_A : Fld := ⟨Reg.RM_PRESS_SAT, 0, 1⟩
def RM_PRESS_SAT_SAT_B : Fld := ⟨Reg.RM_PRESS_SAT, 1, 1⟩
def RM_PRESS_SAT_CLR_A : Fld := ⟨Reg.RM_PRESS_SAT, 2, 1⟩
def RM_PRESS_SAT_CLR_B : Fld := ⟨Reg.RM_PRESS_SAT, 3, 1⟩
def RM_BACKLOG_BACKLOG (k : Nat) : Fld := ⟨Reg.RM_BACKLOG k, 0, 13⟩
def RM_BACKLOG_WM_HIT (k : Nat) : Fld := ⟨Reg.RM_BACKLOG k, 13, 1⟩
def RM_BACKLOG_WM (k : Nat) : Fld := ⟨Reg.RM_BACKLOG k, 16, 13⟩
def RM_RING_BASE_LO_ADDR_LO (k : Nat) : Fld := ⟨Reg.RM_RING_BASE_LO k, 6, 26⟩
def RM_RING_BASE_HI_ADDR_HI (k : Nat) : Fld := ⟨Reg.RM_RING_BASE_HI k, 0, 32⟩
def RM_CPL_BASE_LO_ADDR_LO (k : Nat) : Fld := ⟨Reg.RM_CPL_BASE_LO k, 4, 28⟩
def RM_CPL_BASE_HI_ADDR_HI (k : Nat) : Fld := ⟨Reg.RM_CPL_BASE_HI k, 0, 32⟩
def RM_RING_CFG_EN (k : Nat) : Fld := ⟨Reg.RM_RING_CFG k, 0, 1⟩
def RM_RING_CFG_DEPTH_LOG2 (k : Nat) : Fld := ⟨Reg.RM_RING_CFG k, 1, 4⟩
def RM_RING_CFG_IRQ_EN (k : Nat) : Fld := ⟨Reg.RM_RING_CFG k, 5, 1⟩
def RM_RING_CFG_GEN (k : Nat) : Fld := ⟨Reg.RM_RING_CFG k, 16, 16⟩
def RM_RING_STATUS_RUNNING (k : Nat) : Fld := ⟨Reg.RM_RING_STATUS k, 0, 1⟩
def RM_RING_STATUS_IDLE (k : Nat) : Fld := ⟨Reg.RM_RING_STATUS k, 1, 1⟩
def RM_RING_STATUS_STOP_CAUSE (k : Nat) : Fld := ⟨Reg.RM_RING_STATUS k, 2, 3⟩
def RM_RING_STATUS_DB_STALE (k : Nat) : Fld := ⟨Reg.RM_RING_STATUS k, 5, 1⟩
def RM_RING_STATUS_DB_BAD (k : Nat) : Fld := ⟨Reg.RM_RING_STATUS k, 6, 1⟩
def RM_RING_STATUS_TAGS (k : Nat) : Fld := ⟨Reg.RM_RING_STATUS k, 16, 10⟩
def RM_RING_CI_CI (k : Nat) : Fld := ⟨Reg.RM_RING_CI k, 0, 16⟩
def RM_RING_CI_CPL_PI (k : Nat) : Fld := ⟨Reg.RM_RING_CI k, 16, 16⟩
def SN_CTRL_LOCK : Fld := ⟨Reg.SN_CTRL, 0, 1⟩
def SN_STATUS_CFG_REJ : Fld := ⟨Reg.SN_STATUS, 0, 1⟩
def SN_STATUS_SYNC_PEND : Fld := ⟨Reg.SN_STATUS, 1, 1⟩
def SN_STATUS_SEV_PEND : Fld := ⟨Reg.SN_STATUS, 2, 1⟩
def SN_STATUS_LAST : Fld := ⟨Reg.SN_STATUS, 3, 7⟩
def SN_STATUS_LAST_SEV : Fld := ⟨Reg.SN_STATUS, 10, 2⟩
def SN_REC_CLR_INDEX : Fld := ⟨Reg.SN_REC_CLR, 0, 7⟩
def SN_REC_CLR_ALL : Fld := ⟨Reg.SN_REC_CLR, 7, 1⟩
def SN_SEV_SEV (k : Nat) (j : Nat) : Fld := ⟨Reg.SN_SEV k, 2 * j, 2⟩
def SN_QUIET_CODE (k : Nat) (j : Nat) : Fld := ⟨Reg.SN_QUIET k, 4 * j, 4⟩
def SN_ACTIVE_ACTIVE (k : Nat) : Fld := ⟨Reg.SN_ACTIVE k, 0, 32⟩
def SN_INFORCE_INFORCE (k : Nat) : Fld := ⟨Reg.SN_INFORCE k, 0, 32⟩
def SN_LATCH_A_LATCH (k : Nat) : Fld := ⟨Reg.SN_LATCH_A k, 0, 32⟩
def SN_LATCH_B_LATCH (k : Nat) : Fld := ⟨Reg.SN_LATCH_B k, 0, 32⟩
def SN_REC_SAT_SAT (k : Nat) : Fld := ⟨Reg.SN_REC_SAT k, 0, 32⟩
def SN_REC_COUNT (k : Nat) (j : Nat) : Fld := ⟨Reg.SN_REC k, 16 * j, 16⟩
def WD_CTRL_EN_SET (k : Nat) : Fld := ⟨Reg.WD_CTRL k, 0, 1⟩
def WD_CTRL_LOCK (k : Nat) : Fld := ⟨Reg.WD_CTRL k, 1, 1⟩
def WD_CTRL_DBG_FREEZE (k : Nat) : Fld := ⟨Reg.WD_CTRL k, 2, 1⟩
def WD_OPEN_OPEN (k : Nat) : Fld := ⟨Reg.WD_OPEN k, 0, 24⟩
def WD_TIMEOUT_TIMEOUT (k : Nat) : Fld := ⟨Reg.WD_TIMEOUT k, 0, 24⟩
def WD_FIRST_FIRST (k : Nat) : Fld := ⟨Reg.WD_FIRST k, 0, 16⟩
def WD_KEY_KEY (k : Nat) : Fld := ⟨Reg.WD_KEY k, 0, 32⟩
def WD_COUNT_C (k : Nat) : Fld := ⟨Reg.WD_COUNT k, 0, 32⟩
def WD_STATUS_EN (k : Nat) : Fld := ⟨Reg.WD_STATUS k, 0, 1⟩
def WD_STATUS_FIRST_WIN (k : Nat) : Fld := ⟨Reg.WD_STATUS k, 1, 1⟩
def WD_STATUS_OPEN_WIN (k : Nat) : Fld := ⟨Reg.WD_STATUS k, 2, 1⟩
def WD_STATUS_SVC_ARMED (k : Nat) : Fld := ⟨Reg.WD_STATUS k, 3, 1⟩
def WD_STATUS_KEY_ARMED (k : Nat) : Fld := ⟨Reg.WD_STATUS k, 4, 1⟩
def WD_STATUS_PAUSED (k : Nat) : Fld := ⟨Reg.WD_STATUS k, 5, 1⟩
def WD_STATUS_FROZEN (k : Nat) : Fld := ⟨Reg.WD_STATUS k, 6, 1⟩
def WD_STATUS_CFG_REJ (k : Nat) : Fld := ⟨Reg.WD_STATUS k, 7, 1⟩
def NVS_STATUS_BUSY : Fld := ⟨Reg.NVS_STATUS, 0, 1⟩
def NVS_STATUS_QUEUED : Fld := ⟨Reg.NVS_STATUS, 1, 4⟩
def NVS_STATUS_PROG_FAIL : Fld := ⟨Reg.NVS_STATUS, 5, 1⟩
def NVS_STATUS_CFG_REJ : Fld := ⟨Reg.NVS_STATUS, 6, 1⟩
def NVS_LAST_TYPE : Fld := ⟨Reg.NVS_LAST, 0, 4⟩
def NVS_LAST_CAUSE : Fld := ⟨Reg.NVS_LAST, 4, 8⟩
def NVS_SET_SEQ_SEQ : Fld := ⟨Reg.NVS_SET_SEQ, 0, 32⟩
def NVS_SET_INFO_SCHEMA : Fld := ⟨Reg.NVS_SET_INFO, 0, 16⟩
def NVS_SET_INFO_PROFILE : Fld := ⟨Reg.NVS_SET_INFO, 16, 16⟩
def NVS_WEAR_MAX_ERASE : Fld := ⟨Reg.NVS_WEAR, 0, 17⟩
def NVS_ECC_CNT_COUNT : Fld := ⟨Reg.NVS_ECC_CNT, 0, 32⟩
def NVS_BAD_CNT_COUNT : Fld := ⟨Reg.NVS_BAD_CNT, 0, 32⟩
def NVS_CNT_SAT_SAT : Fld := ⟨Reg.NVS_CNT_SAT, 0, 2⟩
def NVS_CNT_SAT_CLR : Fld := ⟨Reg.NVS_CNT_SAT, 2, 2⟩
def CAL_CTRL_OVERWRITE_EN : Fld := ⟨Reg.CAL_CTRL, 0, 1⟩
def CAL_ORIGIN_ORIGIN : Fld := ⟨Reg.CAL_ORIGIN, 0, 1⟩
def CAL_ORIGIN_VALID : Fld := ⟨Reg.CAL_ORIGIN, 1, 1⟩
def CAL_ORIGIN_NOMINAL : Fld := ⟨Reg.CAL_ORIGIN, 2, 1⟩
def CAL_ORIGIN_PENDING : Fld := ⟨Reg.CAL_ORIGIN, 3, 1⟩
def CAL_SEQ_SEQ : Fld := ⟨Reg.CAL_SEQ, 0, 32⟩
def CAL_IMAGE_DATA (k : Nat) : Fld := ⟨Reg.CAL_IMAGE k, 0, 32⟩
def CAL_IMAGE_CRC_CRC : Fld := ⟨Reg.CAL_IMAGE_CRC, 0, 32⟩
def FW_STATUS_RUN_SLOT : Fld := ⟨Reg.FW_STATUS, 0, 1⟩
def FW_STATUS_PREF_SLOT : Fld := ⟨Reg.FW_STATUS, 1, 1⟩
def FW_STATUS_A_VALID : Fld := ⟨Reg.FW_STATUS, 2, 1⟩
def FW_STATUS_B_VALID : Fld := ⟨Reg.FW_STATUS, 3, 1⟩
def FW_STATUS_RECOVERY : Fld := ⟨Reg.FW_STATUS, 4, 1⟩
def FW_STATUS_STAGE_OPEN : Fld := ⟨Reg.FW_STATUS, 5, 1⟩
def FW_STATUS_STAGE_SLOT : Fld := ⟨Reg.FW_STATUS, 6, 1⟩
def FW_STATUS_BUSY : Fld := ⟨Reg.FW_STATUS, 7, 1⟩
def FW_STATUS_CHUNK_OK : Fld := ⟨Reg.FW_STATUS, 8, 1⟩
def FW_STATUS_CHUNK_ERR : Fld := ⟨Reg.FW_STATUS, 9, 1⟩
def FW_STATUS_WIN_BUSY : Fld := ⟨Reg.FW_STATUS, 10, 1⟩
def FW_STATUS_CFG_REJ : Fld := ⟨Reg.FW_STATUS, 11, 1⟩
def FW_STATUS_CAUSE : Fld := ⟨Reg.FW_STATUS, 12, 4⟩
def FW_STATUS_FAILS_A : Fld := ⟨Reg.FW_STATUS, 16, 4⟩
def FW_STATUS_FAILS_B : Fld := ⟨Reg.FW_STATUS, 20, 4⟩
def FW_STAGE_CTRL_OPEN : Fld := ⟨Reg.FW_STAGE_CTRL, 0, 1⟩
def FW_STAGE_CTRL_CLOSE : Fld := ⟨Reg.FW_STAGE_CTRL, 1, 1⟩
def FW_STAGE_CTRL_SLOT : Fld := ⟨Reg.FW_STAGE_CTRL, 2, 1⟩
def FW_STAGE_CTRL_ROM_INSTALL : Fld := ⟨Reg.FW_STAGE_CTRL, 3, 1⟩
def FW_STAGE_CHUNK_INDEX : Fld := ⟨Reg.FW_STAGE_CHUNK, 0, 7⟩
def FW_STAGE_CRC_CRC : Fld := ⟨Reg.FW_STAGE_CRC, 0, 32⟩
def FW_VER_VERSION (k : Nat) : Fld := ⟨Reg.FW_VER k, 0, 32⟩
def FW_SCHEMA_MIN (k : Nat) : Fld := ⟨Reg.FW_SCHEMA k, 0, 16⟩
def FW_SCHEMA_MAX (k : Nat) : Fld := ⟨Reg.FW_SCHEMA k, 16, 16⟩
def FW_ACTGEN_ACT_GEN (k : Nat) : Fld := ⟨Reg.FW_ACTGEN k, 0, 32⟩
def SEC_STATUS_KEYED : Fld := ⟨Reg.SEC_STATUS, 0, 1⟩
def SEC_STATUS_OWNER : Fld := ⟨Reg.SEC_STATUS, 1, 1⟩
def SEC_STATUS_LOCKED : Fld := ⟨Reg.SEC_STATUS, 2, 1⟩
def SEC_STATUS_TRANS : Fld := ⟨Reg.SEC_STATUS, 3, 1⟩
def SEC_STATUS_CFG_REJ : Fld := ⟨Reg.SEC_STATUS, 4, 1⟩
def SEC_STATUS_CAUSE : Fld := ⟨Reg.SEC_STATUS, 8, 4⟩
def SEC_CTRL_POL_LOCK : Fld := ⟨Reg.SEC_CTRL, 0, 1⟩
def SEC_CTRL_ENROL_LOCK : Fld := ⟨Reg.SEC_CTRL, 1, 1⟩
def SEC_TAMPER_POL_POL (j : Nat) : Fld := ⟨Reg.SEC_TAMPER_POL, 2 * j, 2⟩
def SEC_TAMPER_STATUS_SEEN : Fld := ⟨Reg.SEC_TAMPER_STATUS, 0, 6⟩
def SEC_TAMPER_STATUS_ACTIVE : Fld := ⟨Reg.SEC_TAMPER_STATUS, 8, 6⟩
def SEC_TAMPER_STATUS_FIRST : Fld := ⟨Reg.SEC_TAMPER_STATUS, 16, 3⟩
def SEC_TAMPER_CNT_COUNT : Fld := ⟨Reg.SEC_TAMPER_CNT, 0, 32⟩
def SEC_CNT_SAT_SAT : Fld := ⟨Reg.SEC_CNT_SAT, 0, 1⟩
def SEC_CNT_SAT_CLR : Fld := ⟨Reg.SEC_CNT_SAT, 1, 1⟩
def SEC_NONCE_LO_NONCE : Fld := ⟨Reg.SEC_NONCE_LO, 0, 32⟩
def SEC_NONCE_HI_NONCE : Fld := ⟨Reg.SEC_NONCE_HI, 0, 32⟩
def SEC_LC_ADV_WORD : Fld := ⟨Reg.SEC_LC_ADV, 0, 32⟩
def SEC_SVN_MIN : Fld := ⟨Reg.SEC_SVN, 0, 7⟩
def SEC_SVN_ADV_NEW_MIN : Fld := ⟨Reg.SEC_SVN_ADV, 0, 7⟩
def SEC_MIR_GEN_GEN : Fld := ⟨Reg.SEC_MIR_GEN, 0, 32⟩
def SEC_MIR_KCV_KCV : Fld := ⟨Reg.SEC_MIR_KCV, 0, 24⟩
def SEC_REC_GEN_GEN : Fld := ⟨Reg.SEC_REC_GEN, 0, 32⟩
def SEC_DIK_PUB_BYTES (k : Nat) : Fld := ⟨Reg.SEC_DIK_PUB k, 0, 32⟩
def SEC_OWNER_HASH_BYTES (k : Nat) : Fld := ⟨Reg.SEC_OWNER_HASH k, 0, 32⟩
def MIR_CFG_EN : Fld := ⟨Reg.MIR_CFG, 0, 1⟩
def MIR_CFG_ROLE : Fld := ⟨Reg.MIR_CFG, 1, 1⟩
def MIR_CFG_PERIOD : Fld := ⟨Reg.MIR_CFG, 2, 7⟩
def MIR_CFG_STORE : Fld := ⟨Reg.MIR_CFG, 9, 8⟩
def MIR_CFG_LOCK : Fld := ⟨Reg.MIR_CFG, 17, 1⟩
def MIR_STATUS_LINK_UP : Fld := ⟨Reg.MIR_STATUS, 0, 1⟩
def MIR_STATUS_ROLE_NOW : Fld := ⟨Reg.MIR_STATUS, 1, 2⟩
def MIR_STATUS_PARTNER_ROLE : Fld := ⟨Reg.MIR_STATUS, 3, 2⟩
def MIR_STATUS_PARTNER_STATE : Fld := ⟨Reg.MIR_STATUS, 5, 4⟩
def MIR_STATUS_SNAP_VALID : Fld := ⟨Reg.MIR_STATUS, 9, 1⟩
def MIR_STATUS_STORED : Fld := ⟨Reg.MIR_STATUS, 10, 1⟩
def MIR_STATUS_CFG_REJ : Fld := ⟨Reg.MIR_STATUS, 11, 1⟩
def MIR_STATUS_CAUSE : Fld := ⟨Reg.MIR_STATUS, 12, 4⟩
def MIR_EPOCH_LO_EPOCH : Fld := ⟨Reg.MIR_EPOCH_LO, 0, 32⟩
def MIR_EPOCH_HI_EPOCH : Fld := ⟨Reg.MIR_EPOCH_HI, 0, 32⟩
def MIR_SNAP_AGE_AGE : Fld := ⟨Reg.MIR_SNAP_AGE, 0, 32⟩
def MIR_SNAP_POS_LO_POS : Fld := ⟨Reg.MIR_SNAP_POS_LO, 0, 32⟩
def MIR_SNAP_POS_HI_POS : Fld := ⟨Reg.MIR_SNAP_POS_HI, 0, 16⟩
def MIR_ABORT_CNT_COUNT : Fld := ⟨Reg.MIR_ABORT_CNT, 0, 32⟩
def MIR_AUTH_CNT_COUNT : Fld := ⟨Reg.MIR_AUTH_CNT, 0, 32⟩
def MIR_CNT_SAT_SAT : Fld := ⟨Reg.MIR_CNT_SAT, 0, 2⟩
def MIR_CNT_SAT_CLR : Fld := ⟨Reg.MIR_CNT_SAT, 2, 2⟩
def MIR_PARTNER_SN_LO_SN : Fld := ⟨Reg.MIR_PARTNER_SN_LO, 0, 32⟩
def MIR_PARTNER_SN_HI_SN : Fld := ⟨Reg.MIR_PARTNER_SN_HI, 0, 32⟩
def MIR_SNAP_OUT_WORD (k : Nat) : Fld := ⟨Reg.MIR_SNAP_OUT k, 0, 32⟩
def CAR_CTRL_EN : Fld := ⟨Reg.CAR_CTRL, 0, 1⟩
def CAR_CTRL_TURN_CLR : Fld := ⟨Reg.CAR_CTRL, 1, 1⟩
def CAR_CTRL_LOCK : Fld := ⟨Reg.CAR_CTRL, 2, 1⟩
def CAR_CTRL_POS_LOAD : Fld := ⟨Reg.CAR_CTRL, 3, 1⟩
def CAR_SRC_SEL : Fld := ⟨Reg.CAR_SRC, 0, 3⟩
def CAR_SRC_Z_MODE : Fld := ⟨Reg.CAR_SRC, 3, 2⟩
def CAR_MOD_LO_MODM1_LO : Fld := ⟨Reg.CAR_MOD_LO, 0, 32⟩
def CAR_MOD_HI_MODM1_HI : Fld := ⟨Reg.CAR_MOD_HI, 0, 16⟩
def CAR_POS_LO_POS_LO : Fld := ⟨Reg.CAR_POS_LO, 0, 32⟩
def CAR_POS_HI_POS_HI : Fld := ⟨Reg.CAR_POS_HI, 0, 16⟩
def CAR_POS_HI_TURN_L : Fld := ⟨Reg.CAR_POS_HI, 16, 16⟩
def CAR_TURN_COUNT : Fld := ⟨Reg.CAR_TURN, 0, 16⟩
def CAR_TURN_SAT : Fld := ⟨Reg.CAR_TURN, 16, 1⟩
def CAR_TURN_BELOW : Fld := ⟨Reg.CAR_TURN, 17, 1⟩
def CAR_STATUS_SRC_ACT : Fld := ⟨Reg.CAR_STATUS, 0, 3⟩
def CAR_STATUS_PRED_OK : Fld := ⟨Reg.CAR_STATUS, 3, 1⟩
def CAR_STATUS_DIR : Fld := ⟨Reg.CAR_STATUS, 4, 2⟩
def CAR_STATUS_LOCKED : Fld := ⟨Reg.CAR_STATUS, 6, 1⟩
def CAR_STATUS_HOLDOVER : Fld := ⟨Reg.CAR_STATUS, 7, 1⟩
def CAR_STATUS_SRC_LOST : Fld := ⟨Reg.CAR_STATUS, 8, 1⟩
def CAR_STATUS_ON_INTERNAL : Fld := ⟨Reg.CAR_STATUS, 9, 1⟩
def CAR_STATUS_CFG_REJ : Fld := ⟨Reg.CAR_STATUS, 10, 1⟩
def CAR_STATUS_Z_MISMATCH : Fld := ⟨Reg.CAR_STATUS, 11, 1⟩
def CAR_ACC_MAX_ACC : Fld := ⟨Reg.CAR_ACC_MAX, 0, 32⟩
def CAR_INT_RATE_RATE : Fld := ⟨Reg.CAR_INT_RATE, 0, 32⟩
def CAR_LATE_WIN_LO_LW : Fld := ⟨Reg.CAR_LATE_WIN_LO, 0, 32⟩
def CAR_LATE_WIN_HI_LW : Fld := ⟨Reg.CAR_LATE_WIN_HI, 0, 16⟩
def CAR_LOSS_POL : Fld := ⟨Reg.CAR_LOSS, 0, 1⟩
def CAR_LOAD_LO_LOAD : Fld := ⟨Reg.CAR_LOAD_LO, 0, 32⟩
def CAR_LOAD_HI_LOAD : Fld := ⟨Reg.CAR_LOAD_HI, 0, 16⟩
def CAR_ABS_CFG_ENTRY : Fld := ⟨Reg.CAR_ABS_CFG, 0, 8⟩
def CAR_ABS_CFG_BITS : Fld := ⟨Reg.CAR_ABS_CFG, 8, 6⟩
def CAR_ABS_CFG_PERIOD : Fld := ⟨Reg.CAR_ABS_CFG, 14, 18⟩
def CAR_SYNC_CFG_HOLD : Fld := ⟨Reg.CAR_SYNC_CFG, 0, 8⟩
def CAR_SYNC_CFG_DIV : Fld := ⟨Reg.CAR_SYNC_CFG, 8, 24⟩
def CAR_SLOT_SPLIT_A_COUNT : Fld := ⟨Reg.CAR_SLOT_SPLIT, 0, 9⟩
def CAR_SLOT_SPLIT_B_COUNT : Fld := ⟨Reg.CAR_SLOT_SPLIT, 9, 9⟩
def CAR_LATE_CNT_COUNT : Fld := ⟨Reg.CAR_LATE_CNT, 0, 32⟩
def CAR_ABANDON_CNT_COUNT : Fld := ⟨Reg.CAR_ABANDON_CNT, 0, 32⟩
def CAR_QERR_CNT_COUNT : Fld := ⟨Reg.CAR_QERR_CNT, 0, 32⟩
def CAR_CNT_SAT_SAT_LATE : Fld := ⟨Reg.CAR_CNT_SAT, 0, 1⟩
def CAR_CNT_SAT_SAT_ABANDON : Fld := ⟨Reg.CAR_CNT_SAT, 1, 1⟩
def CAR_CNT_SAT_SAT_QERR : Fld := ⟨Reg.CAR_CNT_SAT, 2, 1⟩
def CAR_CNT_SAT_CLR_LATE : Fld := ⟨Reg.CAR_CNT_SAT, 3, 1⟩
def CAR_CNT_SAT_CLR_ABANDON : Fld := ⟨Reg.CAR_CNT_SAT, 4, 1⟩
def CAR_CNT_SAT_CLR_QERR : Fld := ⟨Reg.CAR_CNT_SAT, 5, 1⟩
def CAR_SLOT_STATE_STATE (k : Nat) (j : Nat) : Fld := ⟨Reg.CAR_SLOT_STATE k, 8 * j, 2⟩
def CAR_SLOT_STATE_LAST (k : Nat) (j : Nat) : Fld := ⟨Reg.CAR_SLOT_STATE k, 2 + 8 * j, 3⟩
def CH_CFG_MODE (k : Nat) : Fld := ⟨Reg.CH_CFG k, 0, 2⟩
def CH_CFG_FS (k : Nat) : Fld := ⟨Reg.CH_CFG k, 2, 2⟩
def CH_CFG_REST (k : Nat) : Fld := ⟨Reg.CH_CFG k, 4, 2⟩
def CH_CFG_THR (k : Nat) : Fld := ⟨Reg.CH_CFG k, 6, 2⟩
def CH_CFG_FILT (k : Nat) : Fld := ⟨Reg.CH_CFG k, 8, 8⟩
def CH_LOCK_LOCK : Fld := ⟨Reg.CH_LOCK, 0, 6⟩
def CH_STATUS_VIO_LOW : Fld := ⟨Reg.CH_STATUS, 0, 6⟩
def CH_STATUS_SUPPRESS_A : Fld := ⟨Reg.CH_STATUS, 6, 1⟩
def CH_STATUS_SUPPRESS_B : Fld := ⟨Reg.CH_STATUS, 7, 1⟩
def CH_STATUS_CAP_LOST : Fld := ⟨Reg.CH_STATUS, 8, 1⟩
def CH_LEVEL_LO_LEVEL : Fld := ⟨Reg.CH_LEVEL_LO, 0, 32⟩
def CH_LEVEL_HI_LEVEL : Fld := ⟨Reg.CH_LEVEL_HI, 0, 16⟩
def CH_HELD_LO_HELD : Fld := ⟨Reg.CH_HELD_LO, 0, 32⟩
def CH_HELD_HI_HELD : Fld := ⟨Reg.CH_HELD_HI, 0, 16⟩
def CH_OVL_LO_OVL : Fld := ⟨Reg.CH_OVL_LO, 0, 32⟩
def CH_OVL_HI_OVL : Fld := ⟨Reg.CH_OVL_HI, 0, 16⟩
def CH_CAP_LOST_CNT_COUNT : Fld := ⟨Reg.CH_CAP_LOST_CNT, 0, 32⟩
def CH_CNT_SAT_SAT : Fld := ⟨Reg.CH_CNT_SAT, 0, 1⟩
def CH_CNT_SAT_CLR : Fld := ⟨Reg.CH_CNT_SAT, 1, 1⟩
def CH_CHK_CFG_PIN_N : Fld := ⟨Reg.CH_CHK_CFG, 0, 4⟩
def CH_CHK_SETTLE_SETTLE (k : Nat) (j : Nat) : Fld := ⟨Reg.CH_CHK_SETTLE k, 8 * j, 8⟩
def CH_CHK_STATUS_PATH_FAIL : Fld := ⟨Reg.CH_CHK_STATUS, 0, 1⟩
def CH_CHK_STATUS_PIN_FAIL : Fld := ⟨Reg.CH_CHK_STATUS, 1, 1⟩
def CH_CHK_STATUS_PATH_SRC : Fld := ⟨Reg.CH_CHK_STATUS, 2, 3⟩
def CH_CHK_STATUS_PATH_FUNC : Fld := ⟨Reg.CH_CHK_STATUS, 5, 1⟩
def CH_CHK_STATUS_PATH_SLOT : Fld := ⟨Reg.CH_CHK_STATUS, 6, 8⟩
def CH_CHK_STATUS_PIN_CH : Fld := ⟨Reg.CH_CHK_STATUS, 16, 6⟩
def CH_PIN_MISM_LO_MISM : Fld := ⟨Reg.CH_PIN_MISM_LO, 0, 32⟩
def CH_PIN_MISM_HI_MISM : Fld := ⟨Reg.CH_PIN_MISM_HI, 0, 16⟩
def CH_CHK_PATH_CNT_COUNT : Fld := ⟨Reg.CH_CHK_PATH_CNT, 0, 32⟩
def CH_CHK_PIN_CNT_COUNT : Fld := ⟨Reg.CH_CHK_PIN_CNT, 0, 32⟩
def CH_CHK_SAT_SAT_PATH : Fld := ⟨Reg.CH_CHK_SAT, 0, 1⟩
def CH_CHK_SAT_SAT_PIN : Fld := ⟨Reg.CH_CHK_SAT, 1, 1⟩
def CH_CHK_SAT_CLR_PATH : Fld := ⟨Reg.CH_CHK_SAT, 2, 1⟩
def CH_CHK_SAT_CLR_PIN : Fld := ⟨Reg.CH_CHK_SAT, 3, 1⟩
def FSP_CTRL_EN : Fld := ⟨Reg.FSP_CTRL, 0, 1⟩
def FSP_CTRL_ROLE : Fld := ⟨Reg.FSP_CTRL, 1, 1⟩
def FSP_CTRL_SEL_OVERLAP : Fld := ⟨Reg.FSP_CTRL, 2, 1⟩
def FSP_CTRL_LOCK : Fld := ⟨Reg.FSP_CTRL, 3, 1⟩
def FSP_STATUS_WORD_ACT : Fld := ⟨Reg.FSP_STATUS, 0, 1⟩
def FSP_STATUS_RUN_WAIT : Fld := ⟨Reg.FSP_STATUS, 1, 1⟩
def FSP_STATUS_ENTRY : Fld := ⟨Reg.FSP_STATUS, 2, 8⟩
def FSP_STATUS_WORD : Fld := ⟨Reg.FSP_STATUS, 10, 12⟩
def FSP_STATUS_START_LOST : Fld := ⟨Reg.FSP_STATUS, 22, 1⟩
def FSP_STATUS_ABS_BAD : Fld := ⟨Reg.FSP_STATUS, 23, 1⟩
def FSP_STATUS_RX_FULL : Fld := ⟨Reg.FSP_STATUS, 24, 1⟩
def FSP_STATUS_CFG_REJ : Fld := ⟨Reg.FSP_STATUS, 25, 1⟩
def FSP_STATUS_CHK_END : Fld := ⟨Reg.FSP_STATUS, 26, 1⟩
def FSP_SEL_CFG_DIV (k : Nat) : Fld := ⟨Reg.FSP_SEL_CFG k, 0, 12⟩
def FSP_SEL_CFG_CPOL (k : Nat) : Fld := ⟨Reg.FSP_SEL_CFG k, 12, 1⟩
def FSP_SEL_CFG_CPHA (k : Nat) : Fld := ⟨Reg.FSP_SEL_CFG k, 13, 1⟩
def FSP_SEL_CFG_RXDLY (k : Nat) : Fld := ⟨Reg.FSP_SEL_CFG k, 14, 4⟩
def FSP_SEL_TIM_LEAD (k : Nat) : Fld := ⟨Reg.FSP_SEL_TIM k, 0, 8⟩
def FSP_SEL_TIM_LAG (k : Nat) : Fld := ⟨Reg.FSP_SEL_TIM k, 8, 8⟩
def FSP_SEL_TIM_GAP (k : Nat) : Fld := ⟨Reg.FSP_SEL_TIM k, 16, 16⟩
def FSP_TGT_CFG_RQ_W (k : Nat) : Fld := ⟨Reg.FSP_TGT_CFG k, 0, 2⟩
def FSP_TGT_CFG_RP_W (k : Nat) : Fld := ⟨Reg.FSP_TGT_CFG k, 2, 2⟩
def FSP_TGT_CFG_HELD (k : Nat) : Fld := ⟨Reg.FSP_TGT_CFG k, 4, 1⟩
def FSP_TGT_CFG_W1_D1 (k : Nat) : Fld := ⟨Reg.FSP_TGT_CFG k, 5, 1⟩
def FSP_TGT_CFG_TA (k : Nat) : Fld := ⟨Reg.FSP_TGT_CFG k, 6, 8⟩
def FSP_TGT_LEN_RQ_MAXM1 (k : Nat) : Fld := ⟨Reg.FSP_TGT_LEN k, 0, 13⟩
def FSP_TGT_LEN_RPL_LENM1 (k : Nat) : Fld := ⟨Reg.FSP_TGT_LEN k, 16, 13⟩
def FSP_LINK_ST_TX_ALIVE (k : Nat) : Fld := ⟨Reg.FSP_LINK_ST k, 0, 4⟩
def FSP_LINK_ST_RX_ALIVE (k : Nat) : Fld := ⟨Reg.FSP_LINK_ST k, 4, 4⟩
def FSP_LINK_ST_PEND_BAD_RX (k : Nat) : Fld := ⟨Reg.FSP_LINK_ST k, 8, 1⟩
def FSP_LINK_ST_PEND_SEL_ABORT (k : Nat) : Fld := ⟨Reg.FSP_LINK_ST k, 9, 1⟩
def FSP_LINK_ST_PARTNER_BAD (k : Nat) : Fld := ⟨Reg.FSP_LINK_ST k, 10, 1⟩
def FSP_LINK_ST_PARTNER_UNDERRUN (k : Nat) : Fld := ⟨Reg.FSP_LINK_ST k, 11, 1⟩
def FSP_LINK_ST_RX_RESET (k : Nat) : Fld := ⟨Reg.FSP_LINK_ST k, 12, 1⟩
def FSP_CRC_CNT_COUNT : Fld := ⟨Reg.FSP_CRC_CNT, 0, 32⟩
def FSP_ALIVE_CNT_COUNT : Fld := ⟨Reg.FSP_ALIVE_CNT, 0, 32⟩
def FSP_UNDERRUN_CNT_COUNT : Fld := ⟨Reg.FSP_UNDERRUN_CNT, 0, 32⟩
def FSP_ABORT_CNT_COUNT : Fld := ⟨Reg.FSP_ABORT_CNT, 0, 32⟩
def FSP_START_LOST_CNT_COUNT : Fld := ⟨Reg.FSP_START_LOST_CNT, 0, 32⟩
def FSP_CNT_SAT_SAT : Fld := ⟨Reg.FSP_CNT_SAT, 0, 5⟩
def FSP_CNT_SAT_CLR : Fld := ⟨Reg.FSP_CNT_SAT, 8, 5⟩
def TWP_CTRL_EN : Fld := ⟨Reg.TWP_CTRL, 0, 1⟩
def TWP_CTRL_CTL_EN : Fld := ⟨Reg.TWP_CTRL, 1, 1⟩
def TWP_CTRL_MODE : Fld := ⟨Reg.TWP_CTRL, 2, 2⟩
def TWP_CTRL_LTO_EN : Fld := ⟨Reg.TWP_CTRL, 4, 1⟩
def TWP_CTRL_CTL_RST : Fld := ⟨Reg.TWP_CTRL, 5, 1⟩
def TWP_CTRL_LOCK : Fld := ⟨Reg.TWP_CTRL, 6, 1⟩
def TWP_STATUS_BUS_BUSY : Fld := ⟨Reg.TWP_STATUS, 0, 1⟩
def TWP_STATUS_CTL_ACT : Fld := ⟨Reg.TWP_STATUS, 1, 1⟩
def TWP_STATUS_TGT_ACT : Fld := ⟨Reg.TWP_STATUS, 2, 1⟩
def TWP_STATUS_STUCK : Fld := ⟨Reg.TWP_STATUS, 3, 1⟩
def TWP_STATUS_STUCK_SCL : Fld := ⟨Reg.TWP_STATUS, 4, 1⟩
def TWP_STATUS_RECOVERED : Fld := ⟨Reg.TWP_STATUS, 5, 1⟩
def TWP_STATUS_CLOCKS : Fld := ⟨Reg.TWP_STATUS, 6, 4⟩
def TWP_STATUS_TGT_NOT_READY : Fld := ⟨Reg.TWP_STATUS, 10, 1⟩
def TWP_STATUS_WAKE_MATCH : Fld := ⟨Reg.TWP_STATUS, 11, 1⟩
def TWP_STATUS_CFG_REJ : Fld := ⟨Reg.TWP_STATUS, 12, 1⟩
def TWP_SCL_TIM_LOW : Fld := ⟨Reg.TWP_SCL_TIM, 0, 10⟩
def TWP_SCL_TIM_HIGH : Fld := ⟨Reg.TWP_SCL_TIM, 10, 10⟩
def TWP_SCL_TIM_HOLD : Fld := ⟨Reg.TWP_SCL_TIM, 20, 6⟩
def TWP_TGT_CFG_ADDR : Fld := ⟨Reg.TWP_TGT_CFG, 0, 10⟩
def TWP_TGT_CFG_A10 : Fld := ⟨Reg.TWP_TGT_CFG, 10, 1⟩
def TWP_TGT_CFG_TGT_EN : Fld := ⟨Reg.TWP_TGT_CFG, 11, 1⟩
def TWP_TGT_CFG_WAKE_EN : Fld := ⟨Reg.TWP_TGT_CFG, 12, 1⟩
def TWP_LAST_LOSS_BYTE : Fld := ⟨Reg.TWP_LAST_LOSS, 0, 8⟩
def TWP_LAST_LOSS_BIT : Fld := ⟨Reg.TWP_LAST_LOSS, 8, 3⟩
def TWP_LAST_LOSS_LOSS_AT : Fld := ⟨Reg.TWP_LAST_LOSS, 11, 2⟩
def TWP_ARB_CNT_COUNT : Fld := ⟨Reg.TWP_ARB_CNT, 0, 32⟩
def TWP_LTO_CNT_COUNT : Fld := ⟨Reg.TWP_LTO_CNT, 0, 32⟩
def TWP_TGT_NR_CNT_COUNT : Fld := ⟨Reg.TWP_TGT_NR_CNT, 0, 32⟩
def TWP_CNT_SAT_SAT : Fld := ⟨Reg.TWP_CNT_SAT, 0, 3⟩
def TWP_CNT_SAT_CLR : Fld := ⟨Reg.TWP_CNT_SAT, 8, 3⟩
def FT_START_START : Fld := ⟨Reg.FT_START, 0, 8⟩
def FT_STOP_STOP_FIXED : Fld := ⟨Reg.FT_STOP, 0, 4⟩
def FT_STOP_STOP : Fld := ⟨Reg.FT_STOP, 4, 4⟩
def FT_STATUS_RUN : Fld := ⟨Reg.FT_STATUS, 0, 8⟩
def FT_STATUS_VALID : Fld := ⟨Reg.FT_STATUS, 8, 8⟩
def FT_STATUS_WRAP : Fld := ⟨Reg.FT_STATUS, 16, 8⟩
def FT_STATUS_OVERRUN : Fld := ⟨Reg.FT_STATUS, 24, 8⟩
def FT_FLAGS_LF_UNIT : Fld := ⟨Reg.FT_FLAGS, 4, 4⟩
def FT_FLAGS_FROZEN : Fld := ⟨Reg.FT_FLAGS, 12, 4⟩
def FT_FLAGS_CFG_REJ : Fld := ⟨Reg.FT_FLAGS, 16, 1⟩
def FT_LOCK_LOCK : Fld := ⟨Reg.FT_LOCK, 0, 8⟩
def FT_CFG_SRC (k : Nat) : Fld := ⟨Reg.FT_CFG k, 0, 1⟩
def FT_CFG_ZERO (k : Nat) : Fld := ⟨Reg.FT_CFG k, 1, 1⟩
def FT_CFG_CAP_ARM (k : Nat) : Fld := ⟨Reg.FT_CFG k, 2, 1⟩
def FT_CFG_CAP_SRC (k : Nat) : Fld := ⟨Reg.FT_CFG k, 3, 3⟩
def FT_CFG_CAP_EDGE (k : Nat) : Fld := ⟨Reg.FT_CFG k, 6, 2⟩
def FT_CFG_CAP_CH (k : Nat) : Fld := ⟨Reg.FT_CFG k, 8, 6⟩
def FT_CFG_CNT_CH (k : Nat) : Fld := ⟨Reg.FT_CFG k, 14, 6⟩
def FT_CFG_CNT_EDGE (k : Nat) : Fld := ⟨Reg.FT_CFG k, 20, 2⟩
def FT_CFG_CAP_IRQ (k : Nat) : Fld := ⟨Reg.FT_CFG k, 22, 1⟩
def FT_CFG_OVR_IRQ (k : Nat) : Fld := ⟨Reg.FT_CFG k, 23, 1⟩
def FT_CFG_WRAP_IRQ (k : Nat) : Fld := ⟨Reg.FT_CFG k, 24, 1⟩
def FT_COUNT_LO_COUNT (k : Nat) : Fld := ⟨Reg.FT_COUNT_LO k, 0, 32⟩
def FT_COUNT_HI_COUNT (k : Nat) : Fld := ⟨Reg.FT_COUNT_HI k, 0, 16⟩
def FT_CAP_LO_CAP (k : Nat) : Fld := ⟨Reg.FT_CAP_LO k, 0, 32⟩
def FT_CAP_HI_CAP (k : Nat) : Fld := ⟨Reg.FT_CAP_HI k, 0, 16⟩
def FT_MARK_LO_MARK (k : Nat) : Fld := ⟨Reg.FT_MARK_LO k, 0, 32⟩
def FT_MARK_HI_MARK (k : Nat) : Fld := ⟨Reg.FT_MARK_HI k, 0, 16⟩
def BRK_CTRL_EN : Fld := ⟨Reg.BRK_CTRL, 0, 1⟩
def BRK_CTRL_RATE : Fld := ⟨Reg.BRK_CTRL, 1, 4⟩
def BRK_CTRL_IDLE_EN : Fld := ⟨Reg.BRK_CTRL, 5, 1⟩
def BRK_CTRL_LOCK : Fld := ⟨Reg.BRK_CTRL, 6, 1⟩
def BRK_CTRL_ZC_EN : Fld := ⟨Reg.BRK_CTRL, 7, 1⟩
def BRK_CTRL_ENC_EN : Fld := ⟨Reg.BRK_CTRL, 8, 1⟩
def BRK_VOTE_CH_MM1 : Fld := ⟨Reg.BRK_VOTE, 0, 3⟩
def BRK_VOTE_CH_NM1 : Fld := ⟨Reg.BRK_VOTE, 3, 3⟩
def BRK_VOTE_ENC_MM1 : Fld := ⟨Reg.BRK_VOTE, 6, 3⟩
def BRK_VOTE_ENC_NM1 : Fld := ⟨Reg.BRK_VOTE, 9, 3⟩
def BRK_SEL_CH (k : Nat) (j : Nat) : Fld := ⟨Reg.BRK_SEL k, 8 * j, 6⟩
def BRK_SEL_EN (k : Nat) (j : Nat) : Fld := ⟨Reg.BRK_SEL k, 7 + 8 * j, 1⟩
def BRK_IDLE_IDLE_S : Fld := ⟨Reg.BRK_IDLE, 0, 16⟩
def BRK_STATUS_LEVEL : Fld := ⟨Reg.BRK_STATUS, 0, 19⟩
def BRK_STATUS_IDLE_ENTRY : Fld := ⟨Reg.BRK_STATUS, 19, 1⟩
def BRK_STATUS_ILLEGAL : Fld := ⟨Reg.BRK_STATUS, 20, 1⟩
def BRK_STATUS_CFG_REJ : Fld := ⟨Reg.BRK_STATUS, 21, 1⟩
def BRK_TRAVEL_TRAVEL : Fld := ⟨Reg.BRK_TRAVEL, 0, 32⟩
def BRK_WAKE_RULES : Fld := ⟨Reg.BRK_WAKE, 0, 8⟩
def BRK_WAKE_SRC : Fld := ⟨Reg.BRK_WAKE, 8, 4⟩
def BRK_WAKE_NEW : Fld := ⟨Reg.BRK_WAKE, 12, 1⟩
def BRK_RULE_CFG_TYPE (k : Nat) : Fld := ⟨Reg.BRK_RULE_CFG k, 0, 2⟩
def BRK_RULE_CFG_INPUT (k : Nat) : Fld := ⟨Reg.BRK_RULE_CFG k, 2, 5⟩
def BRK_RULE_CFG_EDGE (k : Nat) : Fld := ⟨Reg.BRK_RULE_CFG k, 7, 2⟩
def BRK_RULE_MASK_MASK (k : Nat) : Fld := ⟨Reg.BRK_RULE_MASK k, 0, 19⟩
def BRK_RULE_VAL_VALUE (k : Nat) : Fld := ⟨Reg.BRK_RULE_VAL k, 0, 19⟩
def BRK_RULE_LIM_LO (k : Nat) : Fld := ⟨Reg.BRK_RULE_LIM k, 0, 16⟩
def BRK_RULE_LIM_HI (k : Nat) : Fld := ⟨Reg.BRK_RULE_LIM k, 16, 16⟩
def FW_STAGE_WIN_DATA (k : Nat) : Fld := ⟨Reg.FW_STAGE_WIN k, 0, 32⟩
def WD_SERVICE_WORD : Fld := ⟨Reg.WD_SERVICE, 0, 32⟩
def SN_ACK_H_MODE : Fld := ⟨Reg.SN_ACK, 0, 2⟩
def SN_ACK_F_MODE : Fld := ⟨Reg.SN_ACK, 2, 2⟩
def MSIX_ADDR_LO_ADDR (k : Nat) : Fld := ⟨Reg.MSIX_ADDR_LO k, 0, 32⟩
def MSIX_ADDR_HI_ADDR (k : Nat) : Fld := ⟨Reg.MSIX_ADDR_HI k, 0, 32⟩
def MSIX_DATA_DATA (k : Nat) : Fld := ⟨Reg.MSIX_DATA k, 0, 32⟩
def MSIX_CTRL_MASK (k : Nat) : Fld := ⟨Reg.MSIX_CTRL k, 0, 1⟩
end Fld

/-! The rows by block. The reset value of a row whose instances differ, or that the index marks S, B or F, is given by
`resetWord` and by the boot. -/

/-- SYS_ registers. -/
def specsSys : List RegSpec := [
  ⟨0x0000, 2, 4, 0x0, 0x0, 0x0, 0x0⟩ /- SYS_ID -/,
  ⟨0x0008, 1, 4, 0x0, 0x2000, 0x0, 0x0⟩ /- SYS_STATE -/,
  ⟨0x000C, 1, 4, 0x0, 0x0, 0x0, 0x0⟩ /- SYS_PROFILE -/,
  ⟨0x0010, 1, 4, 0x0, 0x0, 0x0, 0x0⟩ /- SYS_BOOT -/,
  ⟨0x0014, 1, 4, 0x0, 0x0, 0x0, 0x0⟩ /- SYS_BOOT_TIME -/,
  ⟨0x0018, 1, 4, 0x0, 0x10000, 0x0, 0x0⟩ /- SYS_LOCK_STATUS -/,
  ⟨0x001C, 1, 4, 0x0, 0x0, 0x7FFF, 0x0⟩ /- SYS_LOCK_SET -/]

/-- PCI_ registers. -/
def specsPci : List RegSpec := [
  ⟨0x0100, 1, 4, 0x0, 0x0, 0x0, 0x0⟩ /- PCI_FUNC_ID -/,
  ⟨0x0104, 1, 4, 0x0, 0x0, 0x0, 0x0⟩ /- PCI_LINK_STATUS -/,
  ⟨0x0108, 1, 4, 0x0, 0xF, 0x0, 0x0⟩ /- PCI_INT_CAUSE -/,
  ⟨0x0110, 3, 4, 0xFFFFFFFF, 0x0, 0x0, 0x0⟩ /- PCI_OWN_CH -/,
  ⟨0x011C, 1, 4, 0xFFFFFF, 0x0, 0x0, 0x0⟩ /- PCI_OWN_PORT -/,
  ⟨0x0120, 1, 4, 0xFFFF, 0x0, 0x0, 0x0⟩ /- PCI_OWN_FT -/,
  ⟨0x0124, 1, 4, 0x1, 0x2, 0x0, 0x0⟩ /- PCI_OWN_CTRL -/,
  ⟨0x0128, 1, 4, 0x0, 0x0, 0x0, 0x0⟩ /- PCI_DROP_CNT -/,
  ⟨0x012C, 1, 4, 0x0, 0x0, 0x2, 0x0⟩ /- PCI_CNT_SAT -/]

/-- PRZ_ registers. -/
def specsPrz : List RegSpec := [
  ⟨0x0200, 1, 4, 0x2, 0x0, 0x1, 0x0⟩ /- PRZ_CTRL -/,
  ⟨0x0204, 1, 4, 0x3FFF, 0x0, 0x0, 0xC28⟩ /- PRZ_REFRESH -/,
  ⟨0x0208, 1, 4, 0x0, 0x400, 0x0, 0x0⟩ /- PRZ_STATUS -/,
  ⟨0x020C, 1, 4, 0x0, 0x0, 0x0, 0x28⟩ /- PRZ_REF_EFF -/,
  ⟨0x0210, 1, 4, 0x0, 0xE0, 0x0, 0x0⟩ /- PRZ_FWIN_STATUS -/,
  ⟨0x0214, 1, 4, 0x0, 0x0, 0x0, 0x0⟩ /- PRZ_FWIN_LAST -/,
  ⟨0x0218, 1, 4, 0x0, 0x0, 0x0, 0x0⟩ /- PRZ_CELL_ERR_CNT -/,
  ⟨0x021C, 1, 4, 0x0, 0x0, 0x0, 0x0⟩ /- PRZ_SEQ_CNT -/,
  ⟨0x0220, 1, 4, 0x0, 0x0, 0x0, 0x0⟩ /- PRZ_REPLAY_CNT -/,
  ⟨0x0224, 1, 4, 0x0, 0x0, 0x0, 0x0⟩ /- PRZ_RETRAIN_CNT -/,
  ⟨0x0228, 1, 4, 0x0, 0x0, 0xF0, 0x0⟩ /- PRZ_CNT_SAT -/]

/-- RM_ registers. -/
def specsRm : List RegSpec := [
  ⟨0x0400, 1, 4, 0x7F, 0x0, 0x0, 0x20⟩ /- RM_CTRL -/,
  ⟨0x0404, 1, 4, 0x0, 0x400, 0x0, 0x0⟩ /- RM_STATUS -/,
  ⟨0x0410, 2, 16, 0xFFFFF000, 0x0, 0x0, 0x0⟩ /- RM_DB_BASE_LO -/,
  ⟨0x0414, 2, 16, 0xFFFFFFFF, 0x0, 0x0, 0x0⟩ /- RM_DB_BASE_HI -/,
  ⟨0x0418, 2, 16, 0x3FFF, 0x0, 0x0, 0x210⟩ /- RM_SWEEP_CFG -/,
  ⟨0x041C, 2, 16, 0x0, 0x4, 0x0, 0x0⟩ /- RM_SWEEP_STATUS -/,
  ⟨0x0430, 1, 4, 0x0, 0x0, 0x0, 0x0⟩ /- RM_DMA_ERR_CNT -/,
  ⟨0x0434, 1, 4, 0x0, 0x0, 0x2, 0x0⟩ /- RM_CNT_SAT -/,
  ⟨0x0440, 1, 4, 0x0, 0x0, 0x0, 0x0⟩ /- RM_CHK_CNT -/,
  ⟨0x0444, 1, 4, 0x0, 0x3, 0x200, 0x0⟩ /- RM_CHK_STATUS -/,
  ⟨0x0500, 32, 8, 0xFFFFFFFF, 0x0, 0x0, 0x0⟩ /- RM_PHASE_LO -/,
  ⟨0x0504, 32, 8, 0xFFFF, 0x0, 0x0, 0x0⟩ /- RM_PHASE_HI -/,
  ⟨0x0600, 1, 4, 0xFF, 0x0, 0x0, 0x88⟩ /- RM_FETCH_WEIGHT -/,
  ⟨0x0604, 2, 4, 0x3FF, 0x0, 0x0, 0x100⟩ /- RM_CEIL -/,
  ⟨0x0610, 1, 4, 0x0, 0x0, 0x0, 0x0⟩ /- RM_WM_SUM_LO -/,
  ⟨0x0614, 1, 4, 0x0, 0x0, 0x0, 0x0⟩ /- RM_WM_SUM_HI -/,
  ⟨0x0620, 2, 4, 0x0, 0x0, 0x0, 0x0⟩ /- RM_DUP_CNT -/,
  ⟨0x0628, 1, 4, 0x0, 0x0, 0xC, 0x0⟩ /- RM_PRESS_SAT -/,
  ⟨0x0700, 64, 4, 0x1FFF0000, 0x2000, 0x0, 0x0⟩ /- RM_BACKLOG -/,
  ⟨0x0800, 64, 32, 0xFFFFFFC0, 0x0, 0x0, 0x0⟩ /- RM_RING_BASE_LO -/,
  ⟨0x0804, 64, 32, 0xFFFFFFFF, 0x0, 0x0, 0x0⟩ /- RM_RING_BASE_HI -/,
  ⟨0x0808, 64, 32, 0xFFFFFFF0, 0x0, 0x0, 0x0⟩ /- RM_CPL_BASE_LO -/,
  ⟨0x080C, 64, 32, 0xFFFFFFFF, 0x0, 0x0, 0x0⟩ /- RM_CPL_BASE_HI -/,
  ⟨0x0810, 64, 32, 0xFFFF003F, 0x0, 0x0, 0x28⟩ /- RM_RING_CFG -/,
  ⟨0x0814, 64, 32, 0x0, 0x60, 0x0, 0x2⟩ /- RM_RING_STATUS -/,
  ⟨0x0818, 64, 32, 0x0, 0x0, 0x0, 0x0⟩ /- RM_RING_CI -/]

/-- SN_ registers. -/
def specsSn : List RegSpec := [
  ⟨0x1000, 1, 4, 0x1, 0x0, 0x0, 0x0⟩ /- SN_CTRL -/,
  ⟨0x1004, 1, 4, 0x0, 0x1, 0x0, 0x0⟩ /- SN_STATUS -/,
  ⟨0x1008, 1, 4, 0x0, 0x0, 0xFF, 0x0⟩ /- SN_REC_CLR -/,
  ⟨0x1010, 6, 4, 0xFFFFFFFF, 0x0, 0x0, 0x0⟩ /- SN_SEV -/,
  ⟨0x1040, 12, 4, 0xFFFFFFFF, 0x0, 0x0, 0x33333333⟩ /- SN_QUIET -/,
  ⟨0x1080, 3, 4, 0x0, 0x0, 0x0, 0x0⟩ /- SN_ACTIVE -/,
  ⟨0x1090, 3, 4, 0x0, 0x0, 0x0, 0x0⟩ /- SN_INFORCE -/,
  ⟨0x10A0, 3, 4, 0x0, 0xFFFFFFFF, 0x0, 0x0⟩ /- SN_LATCH_A -/,
  ⟨0x10B0, 3, 4, 0x0, 0xFFFFFFFF, 0x0, 0x0⟩ /- SN_LATCH_B -/,
  ⟨0x10C0, 3, 4, 0x0, 0x0, 0x0, 0x0⟩ /- SN_REC_SAT -/,
  ⟨0x1100, 48, 4, 0x0, 0x0, 0x0, 0x0⟩ /- SN_REC -/,
  ⟨0xF100, 1, 4, 0xF, 0x0, 0x0, 0x0⟩ /- SN_ACK -/]

/-- WD_ registers. -/
def specsWd : List RegSpec := [
  ⟨0x1400, 3, 32, 0x6, 0x0, 0x1, 0x0⟩ /- WD_CTRL -/,
  ⟨0x1404, 3, 32, 0xFFFFFF, 0x0, 0x0, 0x3E8⟩ /- WD_OPEN -/,
  ⟨0x1408, 3, 32, 0xFFFFFF, 0x0, 0x0, 0x186A0⟩ /- WD_TIMEOUT -/,
  ⟨0x140C, 3, 32, 0xFFFF, 0x0, 0x0, 0x3E8⟩ /- WD_FIRST -/,
  ⟨0x1410, 3, 32, 0x0, 0x0, 0xFFFFFFFF, 0x0⟩ /- WD_KEY -/,
  ⟨0x1414, 3, 32, 0x0, 0x0, 0x0, 0x0⟩ /- WD_COUNT -/,
  ⟨0x1418, 3, 32, 0x0, 0x80, 0x0, 0x0⟩ /- WD_STATUS -/,
  ⟨0xF000, 1, 4, 0x0, 0x0, 0xFFFFFFFF, 0x0⟩ /- WD_SERVICE -/]

/-- NVS_ registers. -/
def specsNvs : List RegSpec := [
  ⟨0x1500, 1, 4, 0x0, 0x60, 0x0, 0x0⟩ /- NVS_STATUS -/,
  ⟨0x1504, 1, 4, 0x0, 0x0, 0x0, 0x0⟩ /- NVS_LAST -/,
  ⟨0x1508, 1, 4, 0x0, 0x0, 0x0, 0x0⟩ /- NVS_SET_SEQ -/,
  ⟨0x150C, 1, 4, 0x0, 0x0, 0x0, 0x0⟩ /- NVS_SET_INFO -/,
  ⟨0x1510, 1, 4, 0x0, 0x0, 0x0, 0x0⟩ /- NVS_WEAR -/,
  ⟨0x1514, 1, 4, 0x0, 0x0, 0x0, 0x0⟩ /- NVS_ECC_CNT -/,
  ⟨0x1518, 1, 4, 0x0, 0x0, 0x0, 0x0⟩ /- NVS_BAD_CNT -/,
  ⟨0x151C, 1, 4, 0x0, 0x0, 0xC, 0x0⟩ /- NVS_CNT_SAT -/]

/-- CAL_ registers. -/
def specsCal : List RegSpec := [
  ⟨0x1600, 1, 4, 0x1, 0x0, 0x0, 0x0⟩ /- CAL_CTRL -/,
  ⟨0x1604, 1, 4, 0x0, 0x0, 0x0, 0x0⟩ /- CAL_ORIGIN -/,
  ⟨0x1608, 1, 4, 0x0, 0x0, 0x0, 0x0⟩ /- CAL_SEQ -/,
  ⟨0x1700, 76, 4, 0x0, 0x0, 0x0, 0x0⟩ /- CAL_IMAGE -/,
  ⟨0x1730, 1, 4, 0x0, 0x0, 0x0, 0x0⟩ /- CAL_IMAGE_CRC -/]

/-- FW_ registers. -/
def specsFw : List RegSpec := [
  ⟨0x1800, 1, 4, 0x0, 0xF00, 0x0, 0x0⟩ /- FW_STATUS -/,
  ⟨0x1804, 1, 4, 0x0, 0x0, 0xF, 0x0⟩ /- FW_STAGE_CTRL -/,
  ⟨0x1808, 1, 4, 0x0, 0x0, 0x7F, 0x0⟩ /- FW_STAGE_CHUNK -/,
  ⟨0x180C, 1, 4, 0xFFFFFFFF, 0x0, 0x0, 0x0⟩ /- FW_STAGE_CRC -/,
  ⟨0x1810, 2, 4, 0x0, 0x0, 0x0, 0x0⟩ /- FW_VER -/,
  ⟨0x1818, 2, 4, 0x0, 0x0, 0x0, 0x0⟩ /- FW_SCHEMA -/,
  ⟨0x1820, 2, 4, 0x0, 0x0, 0x0, 0x0⟩ /- FW_ACTGEN -/,
  ⟨0x8000, 4096, 4, 0xFFFFFFFF, 0x0, 0x0, 0x0⟩ /- FW_STAGE_WIN -/]

/-- SEC_ registers. -/
def specsSec : List RegSpec := [
  ⟨0x1900, 1, 4, 0x0, 0x10, 0x0, 0x0⟩ /- SEC_STATUS -/,
  ⟨0x1904, 1, 4, 0x3, 0x0, 0x0, 0x0⟩ /- SEC_CTRL -/,
  ⟨0x1908, 1, 4, 0xFFF, 0x0, 0x0, 0x212⟩ /- SEC_TAMPER_POL -/,
  ⟨0x190C, 1, 4, 0x0, 0x3F, 0x0, 0x0⟩ /- SEC_TAMPER_STATUS -/,
  ⟨0x1910, 1, 4, 0x0, 0x0, 0x0, 0x0⟩ /- SEC_TAMPER_CNT -/,
  ⟨0x1914, 1, 4, 0x0, 0x0, 0x2, 0x0⟩ /- SEC_CNT_SAT -/,
  ⟨0x1918, 1, 4, 0x0, 0x0, 0x0, 0x0⟩ /- SEC_NONCE_LO -/,
  ⟨0x191C, 1, 4, 0x0, 0x0, 0x0, 0x0⟩ /- SEC_NONCE_HI -/,
  ⟨0x1920, 1, 4, 0x0, 0x0, 0xFFFFFFFF, 0x0⟩ /- SEC_LC_ADV -/,
  ⟨0x1924, 1, 4, 0x0, 0x0, 0x0, 0x0⟩ /- SEC_SVN -/,
  ⟨0x1928, 1, 4, 0x0, 0x0, 0x7F, 0x0⟩ /- SEC_SVN_ADV -/,
  ⟨0x1930, 1, 4, 0x0, 0x0, 0x0, 0x0⟩ /- SEC_MIR_GEN -/,
  ⟨0x1934, 1, 4, 0x0, 0x0, 0x0, 0x0⟩ /- SEC_MIR_KCV -/,
  ⟨0x1938, 1, 4, 0x0, 0x0, 0x0, 0x0⟩ /- SEC_REC_GEN -/,
  ⟨0x1940, 24, 4, 0x0, 0x0, 0x0, 0x0⟩ /- SEC_DIK_PUB -/,
  ⟨0x19A0, 12, 4, 0x0, 0x0, 0x0, 0x0⟩ /- SEC_OWNER_HASH -/]

/-- MIR_ registers. -/
def specsMir : List RegSpec := [
  ⟨0x1A00, 1, 4, 0x3FFFF, 0x0, 0x0, 0x28⟩ /- MIR_CFG -/,
  ⟨0x1A04, 1, 4, 0x0, 0x800, 0x0, 0x0⟩ /- MIR_STATUS -/,
  ⟨0x1A08, 1, 4, 0x0, 0x0, 0x0, 0x0⟩ /- MIR_EPOCH_LO -/,
  ⟨0x1A0C, 1, 4, 0x0, 0x0, 0x0, 0x0⟩ /- MIR_EPOCH_HI -/,
  ⟨0x1A10, 1, 4, 0x0, 0x0, 0x0, 0x0⟩ /- MIR_SNAP_AGE -/,
  ⟨0x1A14, 1, 4, 0x0, 0x0, 0x0, 0x0⟩ /- MIR_SNAP_POS_LO -/,
  ⟨0x1A18, 1, 4, 0x0, 0x0, 0x0, 0x0⟩ /- MIR_SNAP_POS_HI -/,
  ⟨0x1A20, 1, 4, 0x0, 0x0, 0x0, 0x0⟩ /- MIR_ABORT_CNT -/,
  ⟨0x1A24, 1, 4, 0x0, 0x0, 0x0, 0x0⟩ /- MIR_AUTH_CNT -/,
  ⟨0x1A28, 1, 4, 0x0, 0x0, 0xC, 0x0⟩ /- MIR_CNT_SAT -/,
  ⟨0x1A30, 1, 4, 0x0, 0x0, 0x0, 0x0⟩ /- MIR_PARTNER_SN_LO -/,
  ⟨0x1A34, 1, 4, 0x0, 0x0, 0x0, 0x0⟩ /- MIR_PARTNER_SN_HI -/,
  ⟨0x1A40, 4, 4, 0x0, 0x0, 0x0, 0x0⟩ /- MIR_SNAP_OUT -/]

/-- CAR_ registers. -/
def specsCar : List RegSpec := [
  ⟨0x2000, 1, 4, 0x5, 0x0, 0xA, 0x0⟩ /- CAR_CTRL -/,
  ⟨0x2004, 1, 4, 0x1F, 0x0, 0x0, 0x0⟩ /- CAR_SRC -/,
  ⟨0x2008, 1, 4, 0xFFFFFFFF, 0x0, 0x0, 0xFFFFFFFF⟩ /- CAR_MOD_LO -/,
  ⟨0x200C, 1, 4, 0xFFFF, 0x0, 0x0, 0xFFFF⟩ /- CAR_MOD_HI -/,
  ⟨0x2010, 1, 4, 0x0, 0x0, 0x0, 0x0⟩ /- CAR_POS_LO -/,
  ⟨0x2014, 1, 4, 0x0, 0x0, 0x0, 0x0⟩ /- CAR_POS_HI -/,
  ⟨0x2018, 1, 4, 0x0, 0x20000, 0x0, 0x0⟩ /- CAR_TURN -/,
  ⟨0x201C, 1, 4, 0x0, 0xD00, 0x0, 0x0⟩ /- CAR_STATUS -/,
  ⟨0x2020, 1, 4, 0xFFFFFFFF, 0x0, 0x0, 0x100000⟩ /- CAR_ACC_MAX -/,
  ⟨0x2024, 1, 4, 0xFFFFFFFF, 0x0, 0x0, 0x80000000⟩ /- CAR_INT_RATE -/,
  ⟨0x2028, 1, 4, 0xFFFFFFFF, 0x0, 0x0, 0x0⟩ /- CAR_LATE_WIN_LO -/,
  ⟨0x202C, 1, 4, 0xFFFF, 0x0, 0x0, 0x0⟩ /- CAR_LATE_WIN_HI -/,
  ⟨0x2030, 1, 4, 0x1, 0x0, 0x0, 0x0⟩ /- CAR_LOSS -/,
  ⟨0x2034, 1, 4, 0xFFFFFFFF, 0x0, 0x0, 0x0⟩ /- CAR_LOAD_LO -/,
  ⟨0x2038, 1, 4, 0xFFFF, 0x0, 0x0, 0x0⟩ /- CAR_LOAD_HI -/,
  ⟨0x203C, 1, 4, 0xFFFFFFFF, 0x0, 0x0, 0x0⟩ /- CAR_ABS_CFG -/,
  ⟨0x2040, 1, 4, 0xFFFFFFFF, 0x0, 0x0, 0x1000005⟩ /- CAR_SYNC_CFG -/,
  ⟨0x2044, 1, 4, 0x3FFFF, 0x0, 0x0, 0x100⟩ /- CAR_SLOT_SPLIT -/,
  ⟨0x2048, 1, 4, 0x0, 0x0, 0x0, 0x0⟩ /- CAR_LATE_CNT -/,
  ⟨0x204C, 1, 4, 0x0, 0x0, 0x0, 0x0⟩ /- CAR_ABANDON_CNT -/,
  ⟨0x2050, 1, 4, 0x0, 0x0, 0x0, 0x0⟩ /- CAR_QERR_CNT -/,
  ⟨0x2054, 1, 4, 0x0, 0x0, 0x38, 0x0⟩ /- CAR_CNT_SAT -/,
  ⟨0x2100, 64, 4, 0x0, 0x0, 0x0, 0x0⟩ /- CAR_SLOT_STATE -/]

/-- CH_ registers. -/
def specsCh : List RegSpec := [
  ⟨0x2400, 48, 4, 0xFFFF, 0x0, 0x0, 0x0⟩ /- CH_CFG -/,
  ⟨0x2500, 1, 4, 0x3F, 0x0, 0x0, 0x0⟩ /- CH_LOCK -/,
  ⟨0x2504, 1, 4, 0x0, 0x1C0, 0x0, 0x0⟩ /- CH_STATUS -/,
  ⟨0x2508, 1, 4, 0x0, 0x0, 0x0, 0x0⟩ /- CH_LEVEL_LO -/,
  ⟨0x250C, 1, 4, 0x0, 0x0, 0x0, 0x0⟩ /- CH_LEVEL_HI -/,
  ⟨0x2510, 1, 4, 0x0, 0x0, 0x0, 0xFFFFFFFF⟩ /- CH_HELD_LO -/,
  ⟨0x2514, 1, 4, 0x0, 0x0, 0x0, 0xFFFF⟩ /- CH_HELD_HI -/,
  ⟨0x2518, 1, 4, 0x0, 0xFFFFFFFF, 0x0, 0x0⟩ /- CH_OVL_LO -/,
  ⟨0x251C, 1, 4, 0x0, 0xFFFF, 0x0, 0x0⟩ /- CH_OVL_HI -/,
  ⟨0x2520, 1, 4, 0x0, 0x0, 0x0, 0x0⟩ /- CH_CAP_LOST_CNT -/,
  ⟨0x2524, 1, 4, 0x0, 0x0, 0x2, 0x0⟩ /- CH_CNT_SAT -/,
  ⟨0x2700, 1, 4, 0xF, 0x0, 0x0, 0x2⟩ /- CH_CHK_CFG -/,
  ⟨0x2704, 2, 4, 0xFFFFFFFF, 0x0, 0x0, 0x0⟩ /- CH_CHK_SETTLE -/,
  ⟨0x2710, 1, 4, 0x0, 0x3, 0x0, 0x0⟩ /- CH_CHK_STATUS -/,
  ⟨0x2714, 1, 4, 0x0, 0x0, 0x0, 0x0⟩ /- CH_PIN_MISM_LO -/,
  ⟨0x2718, 1, 4, 0x0, 0x0, 0x0, 0x0⟩ /- CH_PIN_MISM_HI -/,
  ⟨0x2720, 1, 4, 0x0, 0x0, 0x0, 0x0⟩ /- CH_CHK_PATH_CNT -/,
  ⟨0x2724, 1, 4, 0x0, 0x0, 0x0, 0x0⟩ /- CH_CHK_PIN_CNT -/,
  ⟨0x2728, 1, 4, 0x0, 0x0, 0xC, 0x0⟩ /- CH_CHK_SAT -/]

/-- FSP_ registers. -/
def specsFsp : List RegSpec := [
  ⟨0x2800, 1, 4, 0xF, 0x0, 0x0, 0x0⟩ /- FSP_CTRL -/,
  ⟨0x2804, 1, 4, 0x0, 0x7C00000, 0x0, 0x0⟩ /- FSP_STATUS -/,
  ⟨0x2810, 8, 8, 0x3FFFF, 0x0, 0x0, 0x8⟩ /- FSP_SEL_CFG -/,
  ⟨0x2814, 8, 8, 0xFFFFFFFF, 0x0, 0x0, 0x80404⟩ /- FSP_SEL_TIM -/,
  ⟨0x2860, 8, 8, 0x3FFF, 0x0, 0x0, 0x80⟩ /- FSP_TGT_CFG -/,
  ⟨0x2864, 8, 8, 0x1FFF1FFF, 0x0, 0x0, 0x2F002F⟩ /- FSP_TGT_LEN -/,
  ⟨0x28C0, 8, 4, 0x0, 0x1C00, 0x0, 0x0⟩ /- FSP_LINK_ST -/,
  ⟨0x28E0, 1, 4, 0x0, 0x0, 0x0, 0x0⟩ /- FSP_CRC_CNT -/,
  ⟨0x28E4, 1, 4, 0x0, 0x0, 0x0, 0x0⟩ /- FSP_ALIVE_CNT -/,
  ⟨0x28E8, 1, 4, 0x0, 0x0, 0x0, 0x0⟩ /- FSP_UNDERRUN_CNT -/,
  ⟨0x28EC, 1, 4, 0x0, 0x0, 0x0, 0x0⟩ /- FSP_ABORT_CNT -/,
  ⟨0x28F0, 1, 4, 0x0, 0x0, 0x0, 0x0⟩ /- FSP_START_LOST_CNT -/,
  ⟨0x28F4, 1, 4, 0x0, 0x0, 0x1F00, 0x0⟩ /- FSP_CNT_SAT -/]

/-- TWP_ registers. -/
def specsTwp : List RegSpec := [
  ⟨0x2C00, 1, 4, 0x5F, 0x0, 0x20, 0x0⟩ /- TWP_CTRL -/,
  ⟨0x2C04, 1, 4, 0x0, 0x1C20, 0x0, 0x1⟩ /- TWP_STATUS -/,
  ⟨0x2C08, 1, 4, 0x3FFFFFF, 0x0, 0x0, 0x0⟩ /- TWP_SCL_TIM -/,
  ⟨0x2C0C, 1, 4, 0x1FFF, 0x0, 0x0, 0x0⟩ /- TWP_TGT_CFG -/,
  ⟨0x2C10, 1, 4, 0x0, 0x0, 0x0, 0x0⟩ /- TWP_LAST_LOSS -/,
  ⟨0x2C14, 1, 4, 0x0, 0x0, 0x0, 0x0⟩ /- TWP_ARB_CNT -/,
  ⟨0x2C18, 1, 4, 0x0, 0x0, 0x0, 0x0⟩ /- TWP_LTO_CNT -/,
  ⟨0x2C1C, 1, 4, 0x0, 0x0, 0x0, 0x0⟩ /- TWP_TGT_NR_CNT -/,
  ⟨0x2C20, 1, 4, 0x0, 0x0, 0x700, 0x0⟩ /- TWP_CNT_SAT -/]

/-- FT_ registers. -/
def specsFt : List RegSpec := [
  ⟨0x3000, 1, 4, 0x0, 0x0, 0xFF, 0x0⟩ /- FT_START -/,
  ⟨0x3004, 1, 4, 0x0, 0x0, 0xFF, 0x0⟩ /- FT_STOP -/,
  ⟨0x3008, 1, 4, 0x0, 0xFFFF0000, 0x0, 0x0⟩ /- FT_STATUS -/,
  ⟨0x300C, 1, 4, 0x0, 0x100F0, 0x0, 0x0⟩ /- FT_FLAGS -/,
  ⟨0x3010, 1, 4, 0xFF, 0x0, 0x0, 0x0⟩ /- FT_LOCK -/,
  ⟨0x3040, 8, 32, 0x1FFFFFF, 0x0, 0x0, 0x0⟩ /- FT_CFG -/,
  ⟨0x3044, 8, 32, 0x0, 0x0, 0x0, 0x0⟩ /- FT_COUNT_LO -/,
  ⟨0x3048, 8, 32, 0x0, 0x0, 0x0, 0x0⟩ /- FT_COUNT_HI -/,
  ⟨0x304C, 8, 32, 0x0, 0x0, 0x0, 0x0⟩ /- FT_CAP_LO -/,
  ⟨0x3050, 8, 32, 0x0, 0x0, 0x0, 0x0⟩ /- FT_CAP_HI -/,
  ⟨0x3054, 8, 32, 0x0, 0x0, 0x0, 0x0⟩ /- FT_MARK_LO -/,
  ⟨0x3058, 8, 32, 0x0, 0x0, 0x0, 0x0⟩ /- FT_MARK_HI -/]

/-- BRK_ registers. -/
def specsBrk : List RegSpec := [
  ⟨0x3400, 1, 4, 0x1FF, 0x0, 0x0, 0x0⟩ /- BRK_CTRL -/,
  ⟨0x3404, 1, 4, 0xFFF, 0x0, 0x0, 0x0⟩ /- BRK_VOTE -/,
  ⟨0x3410, 4, 4, 0xBFBFBFBF, 0x0, 0x0, 0x0⟩ /- BRK_SEL -/,
  ⟨0x3420, 1, 4, 0xFFFF, 0x0, 0x0, 0x0⟩ /- BRK_IDLE -/,
  ⟨0x3424, 1, 4, 0x0, 0x380000, 0x0, 0x0⟩ /- BRK_STATUS -/,
  ⟨0x3428, 1, 4, 0x0, 0x0, 0x0, 0x0⟩ /- BRK_TRAVEL -/,
  ⟨0x342C, 1, 4, 0x0, 0x1000, 0x0, 0x0⟩ /- BRK_WAKE -/,
  ⟨0x3440, 8, 16, 0x1FF, 0x0, 0x0, 0x0⟩ /- BRK_RULE_CFG -/,
  ⟨0x3444, 8, 16, 0x7FFFF, 0x0, 0x0, 0x0⟩ /- BRK_RULE_MASK -/,
  ⟨0x3448, 8, 16, 0x7FFFF, 0x0, 0x0, 0x0⟩ /- BRK_RULE_VAL -/,
  ⟨0x344C, 8, 16, 0xFFFFFFFF, 0x0, 0x0, 0x0⟩ /- BRK_RULE_LIM -/]

/-- MSIX_ registers. -/
def specsMsix : List RegSpec := [
  ⟨0x20000, 4, 16, 0xFFFFFFFF, 0x0, 0x0, 0x0⟩ /- MSIX_ADDR_LO -/,
  ⟨0x20004, 4, 16, 0xFFFFFFFF, 0x0, 0x0, 0x0⟩ /- MSIX_ADDR_HI -/,
  ⟨0x20008, 4, 16, 0xFFFFFFFF, 0x0, 0x0, 0x0⟩ /- MSIX_DATA -/,
  ⟨0x2000C, 4, 16, 0x1, 0x0, 0x0, 0x1⟩ /- MSIX_CTRL -/]

/-- The register index as one list. -/
def regSpecs : List RegSpec :=
  specsSys ++ specsPci ++ specsPrz ++ specsRm ++ specsSn ++ specsWd ++ specsNvs ++ specsCal ++ specsFw ++ specsSec ++ specsMir ++ specsCar ++ specsCh ++ specsFsp ++ specsTwp ++ specsFt ++ specsBrk ++ specsMsix

/-- The row whose instances include the offset. -/
def RegSpec.covers (r : RegSpec) (off : Nat) : Bool :=
  r.off ≤ off && (off - r.off) % r.stride == 0 && (off - r.off) / r.stride < r.count

/-- The rows of the block an offset lies in (Table IDX-1). -/
def specsOfBlock (off : Nat) : List RegSpec :=
  if off < 0x100 then specsSys else if off < 0x200 then specsPci else if off < 0x300 then specsPrz
  else if off < 0x1000 then specsRm else if off < 0x1400 then specsSn else if off < 0x1500 then specsWd
  else if off < 0x1600 then specsNvs else if off < 0x1800 then specsCal else if off < 0x1900 then specsFw
  else if off < 0x1A00 then specsSec else if off < 0x1B00 then specsMir else if off < 0x2000 then []
  else if off < 0x2400 then specsCar else if off < 0x2800 then specsCh else if off < 0x2C00 then specsFsp
  else if off < 0x3000 then specsTwp else if off < 0x3400 then specsFt else if off < 0x3500 then specsBrk
  else if off < 0x8000 then [] else if off < 0xC000 then specsFw else if off < 0xF100 then specsWd
  else if off < 0x20000 then specsSn else specsMsix

/-- The row of an offset, where a table lists it (R382, R383). -/
def specOf (off : Nat) : Option RegSpec :=
  (specsOfBlock off).find? (·.covers off)

end Sys2Proof
end

