-- ==== Sys2Proof/Machine/Sources.lean ====
section
/-!
DEFINITION. The 96 Safety Net sources (Table SN-1): their indices by name, the die or dies that raise each, its kind
(C a lasting condition, O an occurrence) and its default severity (0 INFO, 1 DEGRADE, 2 SAFE, 3 HALT).
-/

namespace Sys2Proof

namespace Sn
def CAR_SRC_LOST : Nat := 0
def CAR_SYNC_UNLOCK : Nat := 1
def CAR_QUAD_ERR : Nat := 2
def CAR_Z_MISMATCH : Nat := 3
def CAR_FWD_CHK : Nat := 4
def CAR_LATE : Nat := 5
def CAR_ABANDON : Nat := 6
def PRZ_LANE_DEGRADE : Nat := 7
def PRZ_LINK_DOWN : Nat := 8
def PRZ_REF_MISS : Nat := 9
def PRZ_RETRAIN : Nat := 10
def PRZ_CELL_ERR : Nat := 11
def PRZ_FWIN_TIMEOUT : Nat := 12
def PRZ_INTRUSION : Nat := 13
def PRZ_REPLAY : Nat := 14
def PCI_LINK_DOWN : Nat := 15
def PCI_SPEED_DEGRADE : Nat := 16
def PCI_CORR_ERR : Nat := 17
def PCI_UNCORR_ERR : Nat := 18
def PCI_CPL_TIMEOUT : Nat := 19
def RM_FETCH_ERR : Nat := 20
def RM_PI_INVALID : Nat := 21
def RM_DB_STALE : Nat := 22
def RM_DMA_ERR : Nat := 23
def CHK_PATH : Nat := 24
def CHK_PIN : Nat := 25
def CHK_INBOUND : Nat := 26
def CH_VIO_LOW : Nat := 27
def CH_OVERLOAD : Nat := 28
def CH_CAP_LOST : Nat := 29
def CH_SUPPRESS : Nat := 30
def FSP_CRC : Nat := 31
def FSP_ALIVE : Nat := 32
def FSP_UNDERRUN : Nat := 33
def FSP_SEL_ABORT : Nat := 34
def FSP_START_LOST : Nat := 35
def FSP_ABS_BAD : Nat := 36
def TWP_STUCK : Nat := 37
def TWP_ARB_LOST : Nat := 38
def TWP_LTO : Nat := 39
def TWP_TGT_NR : Nat := 40
def TWP_RECOVERED : Nat := 41
def FT_OVERRUN : Nat := 42
def BRK_SAMPLE_MISS : Nat := 43
def BRK_RULE_BAD : Nat := 44
def SYS_WAKE_LATE : Nat := 45
def SYS_VCORE_H : Nat := 46
def SYS_VPCIE : Nat := 47
def SYS_VIO_H : Nat := 48
def SYS_VFLASH : Nat := 49
def SYS_VDD_F : Nat := 50
def SYS_VREG_F : Nat := 51
def SYS_REFCLK_H : Nat := 52
def SYS_PLL_H : Nat := 53
def SYS_XTAL_F : Nat := 54
def SYS_PLL_F : Nat := 55
def SYS_LF_OSC : Nat := 56
def SYS_TEMP_H_HIGH : Nat := 57
def SYS_TEMP_H_CRIT : Nat := 58
def SYS_TEMP_F_HIGH : Nat := 59
def SYS_TEMP_F_CRIT : Nat := 60
def SYS_SEQ_H : Nat := 61
def SYS_SEQ_F : Nat := 62
def SYS_ECC_H_CORR : Nat := 63
def SYS_ECC_H_UNCORR : Nat := 64
def SYS_ECC_F_CORR : Nat := 65
def SYS_ECC_F_UNCORR : Nat := 66
def SYS_PROFILE_REF : Nat := 67
def SN_SHADOW : Nat := 68
def SN_FAULT_PIN_H : Nat := 69
def SN_FAULT_PIN_F : Nat := 70
def SN_REC_SAT : Nat := 71
def NVS_PROG_FAIL : Nat := 72
def NVS_ECC : Nat := 73
def NVS_RECORD_BAD : Nat := 74
def NVS_WEAR : Nat := 75
def CAL_INVALID : Nat := 76
def FW_FALLBACK : Nat := 77
def FW_SETTINGS_HOLD : Nat := 78
def FW_STAGE_BAD : Nat := 79
def FW_F_LOAD : Nat := 80
def SEC_TAMPER_MESH : Nat := 81
def SEC_TAMPER_SUPPLY : Nat := 82
def SEC_TAMPER_CLOCK : Nat := 83
def SEC_TAMPER_TEMP : Nat := 84
def SEC_TAMPER_DEBUG : Nat := 85
def SEC_ERASED : Nat := 86
def SEC_AUTH_FAIL : Nat := 87
def SEC_LOCKED : Nat := 88
def MIR_LINK_DOWN : Nat := 89
def MIR_AUTH_FAIL : Nat := 90
def MIR_SNAP_MISS : Nat := 91
def MIR_SNAP_ABORT : Nat := 92
def MIR_EPOCH : Nat := 93
def MIR_DUAL_ACTIVE : Nat := 94
def MIR_TAKEOVER : Nat := 95
end Sn

/-- One row of Table SN-1. -/
structure SrcRow where
  onH : Bool
  onF : Bool
  lasting : Bool
  sev : Nat
deriving DecidableEq, Repr

/-- Sources 0 to 31. -/
def srcRows0 : List SrcRow := [
  ⟨false, true, true, 1⟩ /- CAR_SRC_LOST -/,
  ⟨false, true, true, 1⟩ /- CAR_SYNC_UNLOCK -/,
  ⟨false, true, false, 0⟩ /- CAR_QUAD_ERR -/,
  ⟨false, true, false, 0⟩ /- CAR_Z_MISMATCH -/,
  ⟨true, false, false, 1⟩ /- CAR_FWD_CHK -/,
  ⟨false, true, false, 0⟩ /- CAR_LATE -/,
  ⟨false, true, false, 0⟩ /- CAR_ABANDON -/,
  ⟨true, false, true, 1⟩ /- PRZ_LANE_DEGRADE -/,
  ⟨true, false, true, 3⟩ /- PRZ_LINK_DOWN -/,
  ⟨false, true, true, 3⟩ /- PRZ_REF_MISS -/,
  ⟨true, false, false, 0⟩ /- PRZ_RETRAIN -/,
  ⟨true, true, false, 0⟩ /- PRZ_CELL_ERR -/,
  ⟨true, false, false, 0⟩ /- PRZ_FWIN_TIMEOUT -/,
  ⟨true, true, false, 0⟩ /- PRZ_INTRUSION -/,
  ⟨true, true, false, 0⟩ /- PRZ_REPLAY -/,
  ⟨true, false, true, 3⟩ /- PCI_LINK_DOWN -/,
  ⟨true, false, true, 0⟩ /- PCI_SPEED_DEGRADE -/,
  ⟨true, false, false, 0⟩ /- PCI_CORR_ERR -/,
  ⟨true, false, false, 0⟩ /- PCI_UNCORR_ERR -/,
  ⟨true, false, false, 1⟩ /- PCI_CPL_TIMEOUT -/,
  ⟨true, false, false, 1⟩ /- RM_FETCH_ERR -/,
  ⟨true, false, false, 1⟩ /- RM_PI_INVALID -/,
  ⟨true, false, false, 0⟩ /- RM_DB_STALE -/,
  ⟨true, false, false, 0⟩ /- RM_DMA_ERR -/,
  ⟨true, true, false, 1⟩ /- CHK_PATH -/,
  ⟨false, true, true, 2⟩ /- CHK_PIN -/,
  ⟨true, false, false, 0⟩ /- CHK_INBOUND -/,
  ⟨false, true, true, 0⟩ /- CH_VIO_LOW -/,
  ⟨false, true, true, 1⟩ /- CH_OVERLOAD -/,
  ⟨false, true, false, 0⟩ /- CH_CAP_LOST -/,
  ⟨false, true, false, 0⟩ /- CH_SUPPRESS -/,
  ⟨false, true, false, 0⟩ /- FSP_CRC -/]

/-- Sources 32 to 63. -/
def srcRows1 : List SrcRow := [
  ⟨false, true, false, 0⟩ /- FSP_ALIVE -/,
  ⟨false, true, false, 0⟩ /- FSP_UNDERRUN -/,
  ⟨false, true, false, 0⟩ /- FSP_SEL_ABORT -/,
  ⟨false, true, false, 0⟩ /- FSP_START_LOST -/,
  ⟨false, true, false, 0⟩ /- FSP_ABS_BAD -/,
  ⟨false, true, true, 1⟩ /- TWP_STUCK -/,
  ⟨false, true, false, 0⟩ /- TWP_ARB_LOST -/,
  ⟨false, true, false, 0⟩ /- TWP_LTO -/,
  ⟨false, true, false, 0⟩ /- TWP_TGT_NR -/,
  ⟨false, true, false, 0⟩ /- TWP_RECOVERED -/,
  ⟨false, true, false, 0⟩ /- FT_OVERRUN -/,
  ⟨false, true, false, 0⟩ /- BRK_SAMPLE_MISS -/,
  ⟨false, true, false, 0⟩ /- BRK_RULE_BAD -/,
  ⟨false, true, false, 0⟩ /- SYS_WAKE_LATE -/,
  ⟨true, false, true, 3⟩ /- SYS_VCORE_H -/,
  ⟨true, false, true, 3⟩ /- SYS_VPCIE -/,
  ⟨true, false, true, 0⟩ /- SYS_VIO_H -/,
  ⟨true, false, true, 1⟩ /- SYS_VFLASH -/,
  ⟨false, true, true, 3⟩ /- SYS_VDD_F -/,
  ⟨false, true, true, 3⟩ /- SYS_VREG_F -/,
  ⟨true, false, true, 3⟩ /- SYS_REFCLK_H -/,
  ⟨true, false, true, 3⟩ /- SYS_PLL_H -/,
  ⟨false, true, true, 3⟩ /- SYS_XTAL_F -/,
  ⟨false, true, true, 3⟩ /- SYS_PLL_F -/,
  ⟨false, true, true, 1⟩ /- SYS_LF_OSC -/,
  ⟨true, false, true, 0⟩ /- SYS_TEMP_H_HIGH -/,
  ⟨true, false, true, 3⟩ /- SYS_TEMP_H_CRIT -/,
  ⟨false, true, true, 0⟩ /- SYS_TEMP_F_HIGH -/,
  ⟨false, true, true, 3⟩ /- SYS_TEMP_F_CRIT -/,
  ⟨true, false, false, 3⟩ /- SYS_SEQ_H -/,
  ⟨false, true, false, 3⟩ /- SYS_SEQ_F -/,
  ⟨true, false, false, 0⟩ /- SYS_ECC_H_CORR -/]

/-- Sources 64 to 95. -/
def srcRows2 : List SrcRow := [
  ⟨true, false, false, 3⟩ /- SYS_ECC_H_UNCORR -/,
  ⟨false, true, false, 0⟩ /- SYS_ECC_F_CORR -/,
  ⟨false, true, false, 3⟩ /- SYS_ECC_F_UNCORR -/,
  ⟨true, false, false, 0⟩ /- SYS_PROFILE_REF -/,
  ⟨true, false, false, 3⟩ /- SN_SHADOW -/,
  ⟨true, false, true, 0⟩ /- SN_FAULT_PIN_H -/,
  ⟨false, true, true, 0⟩ /- SN_FAULT_PIN_F -/,
  ⟨true, false, false, 0⟩ /- SN_REC_SAT -/,
  ⟨true, false, false, 1⟩ /- NVS_PROG_FAIL -/,
  ⟨true, false, false, 0⟩ /- NVS_ECC -/,
  ⟨true, false, false, 0⟩ /- NVS_RECORD_BAD -/,
  ⟨true, false, true, 0⟩ /- NVS_WEAR -/,
  ⟨true, false, true, 1⟩ /- CAL_INVALID -/,
  ⟨true, false, false, 0⟩ /- FW_FALLBACK -/,
  ⟨true, false, true, 0⟩ /- FW_SETTINGS_HOLD -/,
  ⟨true, false, false, 0⟩ /- FW_STAGE_BAD -/,
  ⟨true, false, false, 3⟩ /- FW_F_LOAD -/,
  ⟨true, false, false, 0⟩ /- SEC_TAMPER_MESH -/,
  ⟨true, true, false, 0⟩ /- SEC_TAMPER_SUPPLY -/,
  ⟨true, true, false, 0⟩ /- SEC_TAMPER_CLOCK -/,
  ⟨true, true, false, 0⟩ /- SEC_TAMPER_TEMP -/,
  ⟨true, true, false, 0⟩ /- SEC_TAMPER_DEBUG -/,
  ⟨true, false, true, 2⟩ /- SEC_ERASED -/,
  ⟨true, false, false, 0⟩ /- SEC_AUTH_FAIL -/,
  ⟨true, false, true, 1⟩ /- SEC_LOCKED -/,
  ⟨true, false, true, 1⟩ /- MIR_LINK_DOWN -/,
  ⟨true, false, false, 0⟩ /- MIR_AUTH_FAIL -/,
  ⟨true, false, true, 0⟩ /- MIR_SNAP_MISS -/,
  ⟨true, false, false, 0⟩ /- MIR_SNAP_ABORT -/,
  ⟨true, false, false, 0⟩ /- MIR_EPOCH -/,
  ⟨true, false, true, 3⟩ /- MIR_DUAL_ACTIVE -/,
  ⟨true, false, false, 0⟩ /- MIR_TAKEOVER -/]

/-- Table SN-1. -/
def srcRows : List SrcRow := srcRows0 ++ srcRows1 ++ srcRows2

/-- A source's row; an index past 95 is no source (R258). -/
def srcRow (i : Nat) : SrcRow := srcRows.getD i ⟨false, false, false, 0⟩

/-- The default severity word SN_SEV[i] (Table SN-1): two bits for each of 16 sources. -/
def sevDefaultWord (i : Nat) : Nat :=
  (List.range 16).foldl (fun a k => a + (srcRow (16 * i + k)).sev * 4 ^ k) 0

/-- The floor of a source's severity (R263). -/
def sevFloor (i : Nat) : Nat :=
  if i = Sn.PRZ_LINK_DOWN ∨ i = Sn.PRZ_REF_MISS ∨ i = Sn.SN_SHADOW then 3 else if i = Sn.SEC_ERASED then 2 else 0

end Sys2Proof
end

