-- ==== Sys2Proof/Machine/Tab.lean ====
section
/-!
DEFINITION. Sparse tables in one canonical form: (key, value) pairs with strictly rising keys, and no pair whose
value is what an unlisted key reads as. What an unlisted key reads as is the table's default, a function of the key.
Register files, channel, slot, ring, timer and operation tables are all of this form, so equal tables are equal data.
-/

namespace Sys2Proof

/-- A sparse table. -/
abbrev Tab (α : Type) := List (Nat × α)

/-- The value at a key. -/
def Tab.get {α : Type} (d : Nat → α) : Tab α → Nat → α
  | [], k => d k
  | (j, v) :: t, k => if k = j then v else Tab.get d t k

/-- The table with a pair put in its place, whatever its value. -/
def Tab.ins {α : Type} : Tab α → Nat → α → Tab α
  | [], k, v => [(k, v)]
  | (j, u) :: t, k, v =>
    if k = j then (k, v) :: t else if k < j then (k, v) :: (j, u) :: t else (j, u) :: Tab.ins t k v

/-- The table without a key. -/
def Tab.del {α : Type} (m : Tab α) (k : Nat) : Tab α := m.filter (fun p => !(p.1 == k))

/-- The table with one key's value replaced; a value equal to the default removes the pair. -/
def Tab.set {α : Type} [DecidableEq α] (d : Nat → α) (m : Tab α) (k : Nat) (v : α) : Tab α :=
  if v = d k then m.del k else m.ins k v

/-- The table with one key's value passed through a function. -/
def Tab.upd {α : Type} [DecidableEq α] (d : Nat → α) (m : Tab α) (k : Nat) (g : α → α) : Tab α :=
  m.set d k (g (m.get d k))

/-- The table with every listed value passed through a function; values that become the default are no longer listed. -/
def Tab.mapVals {α : Type} [DecidableEq α] (d : Nat → α) (g : α → α) (m : Tab α) : Tab α :=
  (m.map (fun p => (p.1, g p.2))).filter (fun p => decide (p.2 ≠ d p.1))

/-- The canonical form. -/
def Tab.wf {α : Type} [DecidableEq α] (d : Nat → α) : Tab α → Bool
  | [] => true
  | (j, v) :: t => decide (v ≠ d j) && t.all (fun p => decide (j < p.1)) && Tab.wf d t

end Sys2Proof
end

