-- ==== Sys2Proof/Machine/State.lean ====
section
/-!
DEFINITION. The state of the block as plain data: every register, queue, buffer, counter and mode that the spec gives
the two dies, the nonvolatile contents (fuses and flash records), and the queue of commands that wait. Quantities that the
spec shows in a register but keeps elsewhere (the position, a ring's CI, a timer's count) have their one home in a
field here, and a read composes the register from it.
-/

namespace Sys2Proof.Machine

/-- The device states (R2). -/
inductive DevState where
  | off | boot | settingsHold | run | safe | halt | rest | standby
deriving DecidableEq, Repr

/-- SYS_STATE.DEV_STATE codes (Table SYS-7); OFF answers no read. -/
def DevState.code : DevState → Nat
  | .off => 0 | .boot => 1 | .settingsHold => 2 | .run => 3 | .safe => 4 | .halt => 5 | .rest => 6 | .standby => 7

/-- The lifecycle states, in their only order (R7). -/
inductive Lifecycle where
  | manufacture | development | production | retired
deriving DecidableEq, Repr

/-- SYS_STATE.LIFECYCLE codes; the order of the codes is the order of R7. -/
def Lifecycle.code : Lifecycle → Nat
  | .manufacture => 0 | .development => 1 | .production => 2 | .retired => 3

/-- What a cell carries when one die sends it: the link's own opcodes, refresh words, forwarded positions, Safety
Net events and bulk items, an operation's with the unit code of its block (Tables PRZ-3 to PRZ-5). `Cell.wire` gives its 80 bits. -/
inductive Cell where
  | refresh (fn : Func) (num : Nat) (c : Container)
  | position (dir : Nat) (turn : Nat) (num : Nat) (c : Container)
  | ack (seq : Nat)
  | nak (seq : Nat)
  | retrain (fwd ret : Nat)
  | param (period missN eff : Nat)
  | paramAck (period missN eff : Nat)
  | rest (request : Bool)
  | missStatus (n : Nat)
  | fwWrite (c : Container)
  | fwRead (fn : Func) (off : Nat)
  | fwAck (fn : Func) (off cause : Nat)
  | fwReply (fn : Func) (off : Nat) (data : Word)
  | opOpen (unit : Nat) (fn : Func) (ring tag dest : Nat)
  | opClose (unit tag status : Nat)
  | data (unit tag : Nat) (c : Container)
  | snEvent (num src sev : Nat) (active scA scB : Bool)
deriving DecidableEq, Repr

/-- A packet that the endpoint sends to the host (R71, R79, R80): a posted write with its Relaxed Ordering attribute, a read request,
an interrupt message, a change of INTx, and the completions of reads. -/
inductive Tlp where
  | write (addr : Nat) (data : List Quad) (relaxed : Bool)
  | read (addr len : Nat)
  | msix (vec : Nat) (addr : Nat) (data : Word)
  | intx (assert : Bool)
  | cpl (data : Quad)
  | cplUnsupported
  | cplRetry
deriving DecidableEq, Repr

/-- What the FSP does with its eight data lanes in one clock (R175): the lanes it drives, and their levels. -/
structure Lanes where
  drive : BitVec 8
  level : BitVec 8
deriving DecidableEq, Repr

/-- What the two-wire port does on its bus (R208, R210, R220): START or repeated START, a byte that it sends, bytes that it takes,
STOP. -/
inductive TwpSym where
  | start
  | byte (b : BitVec 8)
  | take (n : Nat)
  | stop
deriving DecidableEq, Repr

/-- What the block puts out: to the host (packets, by function, with or without ECRC), across the barrier (the 80 bits of a cell, by
the sending die), to the field and to the Mirror partner. The newest stands first in `Dev.out`. -/
inductive Emit where
  | tlp (fn : Func) (ecrc : Bool) (p : Tlp)
  | cell (sender : Die) (c : Cell80)
  | mirror (kind role state seg counter : Nat) (body : List Quad)
  | fspWord (sel : Nat) (clocks : List Lanes)
  | twp (bus : List TwpSym)
  | wakeBeacon (sender : Die)
  | clkreq
deriving DecidableEq, Repr


/-- One Safety Net source as one die holds it: whether its condition holds, the severity of the reaction in force
(0 none, else 1 DEGRADE to 3 HALT), the scope, the last cycle in which it was active, and the time of the last
activation that an INFO source sent (R259 to R267). -/
structure Src where
  active : Bool
  force : Nat
  scA : Bool
  scB : Bool
  last : Nat
  infoAt : Option Nat
deriving DecidableEq, Repr

/-- A source that has never been active. -/
def Src.idle : Src := ⟨false, 0, false, false, 0, none⟩

/-- The link states of the PCI Express link that power management enters, by their depth (R82). -/
inductive LinkPm where
  | l0 | l1 | l11 | l12
deriving DecidableEq, Repr

/-- A function's configuration state that the rules read: Bus Master Enable, Memory Space Enable, MSI-X Enable,
Interrupt Disable, D3hot, the ASPM enables of L1, L1.1 and L1.2, 10-Bit Tag Requester Enable, Relaxed Ordering, the payload limits in bytes,
the function reset in progress with its start, the MSI-X pending bits, the level of its INTx and the function's MSI-X mask (R70 to R89). -/
structure PciFn where
  bme : Bool
  mse : Bool
  msixEn : Bool
  intDis : Bool
  d3 : Bool
  l1 : Bool
  l11 : Bool
  l12 : Bool
  tag10 : Bool
  relaxed : Bool
  ecrcGen : Bool
  ecrcChk : Bool
  bar0 : Nat
  bar2 : Nat
  maxPayload : Nat
  maxRead : Nat
  resetAt : Option Nat
  pba : Nat
  intx : Bool
  msixMask : Bool
deriving DecidableEq, Repr

/-- The configuration space after a fundamental reset: the Command, MSI-X and Device Control fields at the values
the PCI Express specification resets them to (log entry 9). -/
def PciFn.reset : PciFn :=
  ⟨false, false, false, false, false, false, false, false, false, true, false, false, 0, 0, 128, 512, none, 0, false, false⟩

/-- One ring of the Ringmaster (R91 to R117, R126, R127, R131): CI, CPL_PI, the completion phase, running with the cause of its stop, whether
a stale word has been seen since the enable, PI of the last accepted doorbell word, the descriptor reads outstanding (oldest first, each
with its count and whether it takes tag 511), the history (newest first), the watermark armed, and the time of the last entry of a burst
that is to send V0. -/
structure Ring where
  ci : Nat
  cplPi : Nat
  phase : Bool
  running : Bool
  stop : Nat
  staleSeen : Bool
  pi : Nat
  fetching : List (Nat × Bool)
  hist : List Nat
  armed : Bool
  irqDue : Option Nat
deriving DecidableEq, Repr

/-- A ring after reset. -/
def Ring.idle : Ring := ⟨0, 0, true, false, 0, false, 0, [], [], false, none⟩

/-- A function's sweep and its share of the fetch round (R97, R120, R121): a sweep outstanding, a deferred trigger, the time of the last
sweep, the first local ring of its span, the credits left, and the ring of the last grant. -/
structure Sweep where
  outstanding : Bool
  deferred : Bool
  last : Nat
  base : Nat
  credits : Nat
  lastRing : Nat
deriving DecidableEq, Repr

/-- No sweep, a full default share. -/
def Sweep.idle : Sweep := ⟨false, false, 0, 0, 8, 63⟩

/-- How far an operation has come: its tag is held from the fetch; admitted, it waits to be opened; opened, its
context is at the F-side or it executes on the H-side; closing, its completion entry is due (R103, R109, R110). -/
inductive OpStage where
  | admitted | opened | closing
deriving DecidableEq, Repr

/-- One operation holding a tag: posting function, ring, descriptor, stage, the place in the fetch order; `drop` marks the
discards of R86, `halted` an operation that HALT caught open and `ended` one of these that has ended during the HALT (R117). -/
structure Op where
  fn : Func
  ring : Nat
  desc : Desc
  stage : OpStage
  ord : Nat
  drop : Bool
  halted : Bool
  ended : Bool
deriving DecidableEq, Repr

/-- A function's output image: word and check (R139), the values latched at the last tick, the OUT_WRITEs merged since
that latch, those that the latched pair carries for the first time, and those of earlier pairs that no commit has taken. -/
structure Image where
  cur : Container
  latched : Container
  merged : List Nat
  carried : List Nat
  older : List Nat
deriving DecidableEq, Repr

/-- A field-window write waiting at the H-side: the writer, the offset and the data, and whether a bit of SYS_LOCK_SET made it
(R64, R264, R388). -/
structure FwWrite where
  fn : Func
  off : Nat
  data : Word
  lock : Bool
deriving DecidableEq, Repr

/-- A field-window read: reader, offset, the earlier writes it waits for, the time FW_READ was sent, and whether FW_READ has joined
the bulk stream (R65). -/
structure FwRead where
  fn : Func
  off : Nat
  after : Nat
  sent : Option Nat
  queued : Bool
deriving DecidableEq, Repr

/-- An operation's context on the F-side, from its OP_OPEN until its OP_CLOSE is sent: function, ring, descriptor, the
containers received for it and not yet written, whether its block has taken it, and status and RESULT once it has ended. -/
structure FOp where
  fn : Func
  ring : Nat
  desc : Desc
  got : List Container
  begun : Bool
  ended : Option (Nat × Quad)
deriving DecidableEq, Repr

/-- One die's end of the bulk stream (R55): the next SEQ to send, the unacknowledged cells, those that wait for room,
the SEQ expected next, cells accepted since the last ACK and when the first of them came, whether the NAK of this gap
has been sent, resends of the oldest cell, the cells received since training with the numbers of those whose check failed (R58),
the next event number, the last event seen, and the events that wait for the link to come up (R265). -/
structure BulkEnd where
  txSeq : Nat
  replay : List Cell
  replayAt : Nat
  waitFw : List Cell
  waitOp : List Cell
  fwTurn : Bool
  rxSeq : Nat
  since : Nat
  sinceAt : Nat
  nakSent : Bool
  resends : Nat
  seen : Nat
  fails : List Nat
  evNum : Nat
  evSeen : Option (Nat × Nat)
  evWait : List (Nat × Nat × Bool × Bool × Bool)
deriving DecidableEq, Repr

/-- A bulk stream at its start. -/
def BulkEnd.idle : BulkEnd where
  txSeq := 0
  replay := []
  replayAt := 0
  waitFw := []
  waitOp := []
  fwTurn := true
  rxSeq := 0
  since := 0
  sinceAt := 0
  nakSent := false
  resends := 0
  seen := 0
  fails := []
  evNum := 0
  evSeen := none
  evWait := []

/-- The link itself: up, training, the lanes in use and the lanes excluded by a failure (R57, R58). -/
structure Link where
  up : Bool
  training : Bool
  fwd : Nat
  ret : Nat
  fwdBad : Nat
  retBad : Nat
  stopped : Bool
  retryAt : Nat
deriving DecidableEq, Repr

/-- A link that has never been trained. -/
def Link.down : Link := ⟨false, false, 0, 0, 0, 0, false, 0⟩

/-- The F-side refresh watch (R50, R51): the values in force and the pending PARAM, the REF_A waiting for its REF_B with the time it
came, the last commit (none while the watch is not armed), the expiry in force, the first commit of the present run without a
missed period, the value last reported and whether it still waits for the link to be sent, the number of the last refresh seen, and
the time of the last expiry. -/
structure Watch where
  period : Nat
  missN : Nat
  next : Option (Nat × Nat)
  refA : Option (Nat × Container)
  refAt : Nat
  lastCommit : Option Nat
  expired : Bool
  runFrom : Option Nat
  reported : Nat
  missDue : Bool
  lastNum : Option Nat
  expAt : Option Nat
deriving DecidableEq, Repr

/-- The watch after an F-side reset: default values, not armed. -/
def Watch.reset : Watch where
  period := 40
  missN := 3
  next := none
  refA := none
  refAt := 0
  lastCommit := none
  expired := false
  runFrom := none
  reported := 0
  missDue := false
  lastNum := none
  expAt := none

/-- A capture record that waits to be sent: the edge's raw instant and channel (none for a record that is no edge, R165), QW0 and
QW1. -/
structure CapRec where
  edge : Option (Nat × Nat)
  q0 : Container
  q1 : Container
deriving DecidableEq, Repr

/-- An open CH_CAPTURE of one function (R163 to R167): tag, watched channels, edges, records asked, made so far,
records handed over, its end time, the unsent records and the discarded count with its first position. -/
structure Cap where
  tag : Nat
  mask : W48
  edge : Nat
  count : Nat
  made : Nat
  sent : Nat
  buf : Nat
  tEnd : Option Nat
  unsent : List CapRec
  lost : Nat
  lostPos : W48
deriving DecidableEq, Repr

/-- An OUT_WRITE whose word is committed and whose channels are not all judged yet (R145): tag, function, channels
still to be judged, the commit, and whether a sample mismatched. -/
structure OutWait where
  tag : Nat
  fn : Func
  left : W48
  mask : W48
  since : Nat
  bad : Bool
  held : Bool
deriving DecidableEq, Repr

/-- The 48 channels as the F-side holds them: the configuration in effect at the pins (R161), the ownership in effect
at the last refresh commit (R84), each function's current word, the levels commanded (`cmd`) on the channels that a level
is commanded on (`cmdOn`) and when each changed, the level each last drove and whether it drove one since the power-on
reset (R157), the channels held, the channels and functions waiting for a first OUT_WRITE (R87) with the place in
the fetch order at which a channel last got an owner (R84), the refused-refresh
counts and holds (R142), the filtered levels and the state of the comparators, the channels compared as the pins were last
taken with their mismatch counts (R145), the captures, the OUT_WRITEs being judged, the comparison samples due by bank (R144),
the Rest values applied (R160), what IMMEDIATE writes and slots have set in the cycle `cyc` (R155: the channels of the former,
and those of the latter by slot), and the places in the fetch order of the OUT_WRITEs that were in an
image when its function went to D3hot, which release nothing (R81, R87). -/
structure Chans where
  cfg : Tab Word
  own0 : Word
  own1 : Word
  own2 : Word
  wordA : W48
  wordB : W48
  cmd : W48
  cmdOn : W48
  cmdAt : Tab Nat
  lastDrv : W48
  driven : W48
  held : W48
  wait87 : W48
  ownOrd : Tab Nat
  waitA : Bool
  waitB : Bool
  refCntA : Nat
  refCntB : Nat
  refHoldA : Bool
  refHoldB : Bool
  level : W48
  cmp : W48
  mismCnt : Tab Nat
  capA : Option Cap
  capB : Option Cap
  outw : List OutWait
  due : Tab (List Nat)
  rest : Option (W48 × W48)
  standby : Bool
  enabled : Bool
  cyc : Nat
  cycImm : W48
  cycSlot : Tab W48
  noRelease : List Nat
deriving DecidableEq, Repr

/-- The channels after a power-on reset of the F-die: held, owned by no one, nothing driven (Table CH-3). -/
def Chans.reset : Chans where
  cfg := []
  own0 := 0
  own1 := 0
  own2 := 0
  wordA := 0
  wordB := 0
  cmd := 0
  cmdOn := 0
  cmdAt := []
  lastDrv := 0
  driven := 0
  held := BitVec.allOnes 48
  wait87 := BitVec.allOnes 48
  ownOrd := []
  waitA := true
  waitB := true
  refCntA := 0
  refCntB := 0
  refHoldA := false
  refHoldB := false
  level := 0
  cmp := 0
  mismCnt := []
  capA := none
  capB := none
  outw := []
  due := []
  rest := none
  standby := false
  enabled := false
  cyc := 0
  cycImm := 0
  cycSlot := []
  noRelease := []

/-- The slot states of Table CAR-3. -/
inductive SlotSt where
  | free | armed | pending | spent
deriving DecidableEq, Repr

/-- A slot record (Table CAR-2) with its arm: the tag a ONCE arm holds, the arming function and ring (the seed of its
value), the turn indices in which it has fired (R33), the placed instant while PENDING, and whether its prediction was
abandoned while it was PENDING (R28). -/
structure Slot where
  st : SlotSt
  last : Nat
  fn : Func
  ring : Nat
  tag : Option Nat
  target : Nat
  frac : Nat
  qual : Nat
  repeats : Bool
  drop : Bool
  notify : Bool
  lead : Nat
  action : Nat
  value : Container
  operand : W48
  fired : List Nat
  placed : Nat
  abandoned : Bool
deriving DecidableEq, Repr

/-- A FREE slot that was never used. -/
def Slot.free : Slot :=
  ⟨.free, 0, false, 0, none, 0, 0, 0, false, false, false, 0, 0, ⟨0, 0⟩, 0, [], 0, false⟩

/-- The Carousel on the F-side: position, the modulus in force, the turn counter and turn index with the last wrap, the source
in use, a source selected but not yet counted, loss in force, the position held by a loss under HOLD until a source selected
since then counts, running on INTERNAL after a loss, the start of holdover, the lock with its runs of good and bad phase errors,
the last eight counts under QUAD (times and directions, newest first), whether the source has counted since it took effect, the
recent positions with their times (a count or a load), the steered rate of the NCO in 2^-31 counts per cycle, that of a source
selected but not yet counted, the NCO's phase in 2^-31 counts at `ncoAt`, the first of a run of illegal transitions, the run of
bad ABS samples, the last sample, the direction of its step, what is added to a sample (the travel made in REST) with whether
the next sample is to find that out, the time at which EN was last cleared, the time-of-day load that waits, a Z load still to
come, the slots, what each function's CAR_POS_LO read latched, and the counts and wraps made so far, each with its sign
(R359). -/
structure Carousel where
  pos : Nat
  modulus : Nat
  turn : Nat
  index : Nat
  lastWrap : Option (Nat × Bool)
  src : Nat
  pendSrc : Option Nat
  lost : Bool
  held : Bool
  onInternal : Bool
  holdSince : Option Nat
  locked : Bool
  lockRun : Nat
  badRun : Nat
  edges : List (Nat × Bool)
  counted : Bool
  hist : List (Nat × Nat × Bool)
  rate : Nat
  pendRate : Nat
  acc : Nat
  ncoAt : Nat
  illFirst : Option Nat
  absBad : Nat
  absLast : Nat
  absDir : Nat
  absOff : Nat
  absRest : Bool
  offAt : Nat
  tod : Option (Nat × Nat)
  zArmed : Bool
  slots : Tab Slot
  hiA : Word
  hiB : Word
  moved : Int
  wraps : Int
deriving DecidableEq, Repr

/-- The Carousel after an F-side reset: position 0, M = 2^48, INTERNAL (R19, Table CAR-6). -/
def Carousel.reset : Carousel where
  pos := 0
  modulus := 2 ^ 48
  turn := 0
  index := 0
  lastWrap := none
  src := 0
  pendSrc := none
  lost := false
  held := false
  onInternal := false
  holdSince := none
  locked := false
  lockRun := 0
  badRun := 0
  edges := []
  counted := false
  hist := []
  rate := 0x80000000
  pendRate := 0x80000000
  acc := 0
  ncoAt := 0
  illFirst := none
  absBad := 0
  absLast := 0
  absDir := 0
  absOff := 0
  absRest := false
  offAt := 0
  tod := none
  zArmed := true
  slots := []
  hiA := 0
  hiB := 0
  moved := 0
  wraps := 0

/-- The H-side copy of the position (R37): position, direction, turn index, whether it holds a value yet, and the good forwards since a failed
check, up to 16 (Table CAR-4). -/
structure PosCopy where
  pos : Nat
  dir : Nat
  turn : Nat
  valid : Bool
  good : Nat
deriving DecidableEq, Repr

/-- How a timer's count moves (Tables FT-1, FT-3, FT-4): not by time, one unit a cycle, or on the low-frequency path that is in
use since a time. -/
inductive TmPace where
  | still
  | core
  | lf (since : Nat)
deriving DecidableEq, Repr

/-- One field timer (R226 to R238): its count at `since`, whether it runs, whether the next edge is the first after a start, the
capture register, the start mark, what each function's LO reads latched (and whether a capture has been stored since), an open
FT_CAPTURE, and how its count has moved lately (each pace with the time from which it holds, newest first; R232). The rest
settles events of one cycle (Table FT-2), each with its cycle: the last stop, the last wrap with WRAP before it, the last start
with the arming and the count before it, the last stored capture with the register, VALID and OVERRUN before it, and the last
read that cleared VALID. -/
structure Timer where
  base : Nat
  since : Nat
  run : Bool
  armed : Bool
  cap : Nat
  mark : Nat
  capHiA : Nat
  capHiB : Nat
  freshA : Bool
  freshB : Bool
  markHiA : Nat
  markHiB : Nat
  opened : Option Nat
  legs : List (Nat × TmPace)
  stopAt : Option Nat
  wrapAt : Option (Nat × Bool)
  startAt : Option (Nat × Bool × Nat)
  capAt : Option (Nat × Nat × Bool × Bool)
  clrAt : Option Nat
deriving DecidableEq, Repr

/-- A timer after an F-side reset. -/
def Timer.reset : Timer where
  base := 0
  since := 0
  run := false
  armed := true
  cap := 0
  mark := 0
  capHiA := 0
  capHiB := 0
  freshA := false
  freshB := false
  markHiA := 0
  markHiB := 0
  opened := none
  legs := []
  stopAt := none
  wrapAt := none
  startAt := none
  capAt := none
  clrAt := none

/-- The timer block: the eight timers, the time of the switch to the low-frequency path while it is in use (R238), and
whether a debugger holds the F-side sequencer (R237). -/
structure Timers where
  tm : Tab Timer
  lf : Option Nat
  halted : Bool
deriving DecidableEq, Repr

/-- A queue entry of the FSP controller (R176 to R180): loaded since the last F-side reset, phase words, ECTRL, the
transmit buffer and its length, the loading operation's function and ring, and the run counter. -/
structure FspEntry where
  loaded : Bool
  phases : List Nat
  ectrl : Nat
  buf : Nat
  txWords : Nat
  runs : Nat
deriving DecidableEq, Repr

/-- An entry that is not loaded. -/
def FspEntry.empty : FspEntry := ⟨false, [], 0, 0, 0, 0⟩

/-- A run of an entry (R180 to R188): its operation (none for a run that the FSP makes for the Carousel), entry,
function, ring, receive buffer and capacity, the address of its transmit data and their number, whether the H-side has been asked
for them, the staged containers, the next word, the containers received, the completion flags of R198 with the last ALIVE and the
partner's BAD_RX, and whether it has begun. -/
structure FspRun where
  tag : Option Nat
  entry : Nat
  fn : Func
  ring : Nat
  rxBuf : Nat
  rxCap : Nat
  txAddr : Nat
  txWords : Nat
  asked : Bool
  staged : Option (List Container)
  word : Nat
  got : Nat
  chk : Bool
  crc : Bool
  under : Bool
  alive : Nat
  badRx : Bool
  started : Bool
deriving DecidableEq, Repr

/-- One select's frame state (R191 to R197): last ALIVE sent (none before the first) and received, the pending flags,
whether the next completion shows UNDERRUN, and the previous reply. -/
structure FspSel where
  txAlive : Option Nat
  rxAlive : Nat
  pendBad : Bool
  pendAbort : Bool
  pendUnder : Bool
  prev : Option (Nat × List Container)
deriving DecidableEq, Repr

/-- A select after an F-side reset. -/
def FspSel.idle : FspSel := ⟨none, 0, false, false, false, none⟩

/-- A queued FSP_TARGET (R195). -/
structure FspTgt where
  tag : Nat
  sel : Nat
  fn : Func
  ring : Nat
  txWords : Nat
  rxBuf : Nat
  rxCap : Nat
  staged : Option (List Container)
deriving DecidableEq, Repr

/-- What waits in the order of R181: an entry load, by its tag; a run; or a run opened behind a load of its own entry, which waits
for that load before its entry is looked up. -/
inductive FspItem where
  | load (tag : Nat)
  | run (r : FspRun)
  | behind (tag : Nat)
deriving DecidableEq, Repr

/-- The FSP (R172 to R200): the entry table, the run in progress and whether a word of it is on the wires, the runs in
their order, those that wait for a slot start, those whose slot has fired, the ABS run that is due with the time the last one
fell due and whether the sample of the one in progress has been taken, the selects' frame state, the queued target operations,
the target word in progress (select and serving tag), the entry and word last run, and whether it stops at the end of the word
(R173). -/
structure Fsp where
  entries : Tab FspEntry
  cur : Option FspRun
  inWord : Bool
  queue : List FspItem
  waiting : List FspRun
  fired : List FspRun
  absDue : Bool
  absAt : Option Nat
  absTaken : Bool
  sels : Tab FspSel
  tgts : List FspTgt
  serving : Option (Nat × Option Nat)
  lastEntry : Nat
  lastWord : Nat
  stopping : Bool
deriving DecidableEq, Repr

/-- The FSP after an F-side reset (R200). -/
def Fsp.reset : Fsp where
  entries := []
  cur := none
  inWord := false
  queue := []
  waiting := []
  fired := []
  absDue := false
  absAt := none
  absTaken := false
  sels := []
  tgts := []
  serving := none
  lastEntry := 0
  lastWord := 0
  stopping := false

/-- The two-wire port (R205 to R225): the controller transfers in the order opened, the transfer begun and not completed
with the losses so far and whether an attempt of it is on the bus, the target operations in their order, the one that
serves, the bus (busy; busy only since an enable or a check, and since when; the last STOP), the stuck-SDA check (port
disabled, ended on SCL, pulses of the last one, none made since the F-side reset). -/
structure Twp where
  queue : List Nat
  cur : Option (Nat × Nat)
  onBus : Bool
  tgts : List Nat
  serving : Option Nat
  busy : Bool
  quietFrom : Option Nat
  lastStop : Nat
  stuck : Bool
  stuckScl : Bool
  clocks : Nat
  checked : Bool
deriving DecidableEq, Repr

/-- The port after an F-side reset. -/
def Twp.reset : Twp := ⟨[], none, false, [], none, true, none, 0, false, false, 0, false⟩


/-- One watchdog (R242 to R256): enabled, in the first window, the service state ARMED, the key armed, its count in cycles
at `since`, paused in Rest, and held at 0 by a reset of its domain or a boot. -/
structure Wd where
  en : Bool
  first : Bool
  armed : Bool
  keyArmed : Bool
  base : Nat
  since : Nat
  paused : Bool
  held : Bool
deriving DecidableEq, Repr

/-- A disabled watchdog. -/
def Wd.off : Wd := ⟨false, false, false, false, 0, 0, false, false⟩



/-- The Barker and the F-side's part of Rest (R277 to R292): the last eight samples of each input (newest first; none
before the first sample), the rules ignored for this Rest, the patterns that held at the previous
sample, the edges counted by each rule, the words of the set-up before a write made in REST, which hold until the next Rest entry
(R294), the time of the last sample, the time the idle time was last 0, the instant of
the wake event with whether it has been reported late, and which dies have begun to wake. -/
structure Brk where
  hist : Tab (List Bool)
  invalid : Nat
  held : Nat
  edges : Tab Nat
  setup : Tab (Option Word)
  sampleAt : Option Nat
  idleFrom : Nat
  wakeAt : Option Nat
  late : Bool
  awakeF : Bool
  awakeH : Bool
deriving DecidableEq, Repr

/-- The Barker after an F-side reset. -/
def Brk.reset : Brk := ⟨[], 0, 0, [], [], none, 0, none, false, false, false⟩

/-- A Rest entry under way on the H-side (R277): the tag of its REST_ENTER, none for the idle policy. -/
structure RestEntry where
  tag : Option Nat
deriving DecidableEq, Repr


/-- The flash areas (Table NVS-1); a slot's area stands for its header region (R311). -/
inductive Area where
  | slotA | slotB | settings | calibration | keyIndex | snapshot
deriving DecidableEq, Repr

/-- An area's number. -/
def Area.code : Area → Nat
  | .slotA => 0 | .slotB => 1 | .settings => 2 | .calibration => 3 | .keyIndex => 4 | .snapshot => 5

/-- The sectors of an area. -/
def Area.sectors : Area → Nat
  | .slotA => 16 | .slotB => 16 | .settings => 32 | .calibration => 16 | .keyIndex => 16 | .snapshot => 192

/-- The record type that an area holds (Table NVS-3). -/
def Area.typ : Area → Nat
  | .slotA => 3 | .slotB => 3 | .settings => 1 | .calibration => 2 | .keyIndex => 5 | .snapshot => 4

/-- A slot's header region: false is slot A. -/
def slotArea (s : Bool) : Area := if s then .slotB else .slotA

/-- A KEY_INDEX body (Table SEC-2) but for the wrapped keys, which no one reads (R329): generations, TRANSITION, the owner hash
(0: none) and the check value. -/
structure KeyIndex where
  recGen : Nat
  mirGen : Nat
  trans : Bool
  owner : BitVec 384
  kcv : Nat
deriving DecidableEq, Repr

/-- A word of the flash die that is erased. -/
def erasedWord : FlashWord := ⟨0xFFFFFFFF, 0xFFFFFFFF, 0xFFFFFFFF⟩

/-- A record in flash (Table NVS-3): its area, first sector and length in sectors, the header fields, the body, the key
generation under which its CMAC was made, the words COMMIT and RETIRE, whether its CRC or CMAC fails, and, for a slot header, the
tally of R315 (true a completion, oldest first). -/
structure Rec where
  area : Area
  sector : Nat
  len : Nat
  seq : Nat
  profile : Nat
  schema : Nat
  origin : Nat
  body : List Quad
  index : Option KeyIndex
  gen : Nat
  commit : FlashWord
  retire : FlashWord
  bad : Bool
  tally : List Bool
deriving DecidableEq, Repr

/-- One flash operation of a record write or of a chunk (R295, R298, R300, R307, R318): the RETIRE word of a record, an erase of a sector
of 4 KiB, a page of 256 bytes of a record, its COMMIT word, and a sector or a page of an image region. -/
inductive FlashStep where
  | retire (a : Area) (seq : Nat)
  | erase (a : Area) (sector : Nat)
  | page (r : Rec) (k : Nat)
  | commit (a : Area) (seq : Nat)
  | eraseImage (slot : Bool) (sector : Nat)
  | pageImage (slot : Bool) (page : Nat) (data : List Word)
deriving DecidableEq, Repr

/-- What a record write is for. -/
inductive JobKind where
  | settings
  | calibration
  | install (slot restart : Bool)
  | fallback
  | romInstall (slot : Bool)
  | enrol (other : Bool)
  | rekey (select : Nat)
  | snapshot
  | chunk (slot : Bool) (k : Nat)
deriving DecidableEq, Repr

/-- A write in the storage queue (R308): its purpose, the operation it completes, the record to write (its SEQ and place are
taken when it starts), the flash operations left, failures of the first of them, and whether it has been abandoned. -/
structure Job where
  kind : JobKind
  tag : Option Nat
  record : Option Rec
  data : List Word
  steps : List FlashStep
  tries : Nat
  abandoned : Bool
deriving DecidableEq, Repr

/-- Staging (R317, R318): chunk 0 and the image chunks staged in the open session. -/
structure Staging where
  chunk0 : Option (List Word)
  staged : List Nat
deriving DecidableEq, Repr

/-- The security block (R328 to R344): keys in secure RAM, the current KEY_INDEX contents, the secure fuses blocked since an
ERASE, a LOCK since the power-on reset, the first word of a lifecycle advance, and the fuse rows being programmed. -/
structure Sec where
  keyed : Bool
  index : Option KeyIndex
  blocked : Bool
  locked : Bool
  lcFirst : Option Word
  lcProg : Option Lifecycle
  svnProg : Option Nat
deriving DecidableEq, Repr

/-- The security block at power-on reset. -/
def Sec.reset : Sec := ⟨false, none, false, false, none, none, none⟩

/-- What the F-side latches at a forwarded HEAD (R355): counts and wraps made so far, the count of each CORE timer, and whether
the source has been lost since (R359). -/
structure HeadLatch where
  moved : Int
  wraps : Int
  cores : List Nat
  lost : Bool
deriving DecidableEq, Repr

/-- A session of the Mirror port: whether this device has the lower serial, the next counter to send, one above the last
accepted, and the last epoch of the partner's HELLO (R352). -/
structure Session where
  lower : Bool
  tx : Nat
  rx : Nat
  floor : Nat
deriving DecidableEq, Repr

/-- The receive buffer (R353): epoch, segments, length and profile of the HEAD, the segments received, when the last frame
came, when the HEAD came, whether the F-side has latched for it, and whether a frame of it was discarded. -/
structure MirRx where
  epoch : Nat
  segs : Nat
  len : Nat
  profile : Nat
  got : Tab (List Word)
  lastAt : Nat
  heard : Nat
  latched : Bool
  spoilt : Bool
deriving DecidableEq, Repr

/-- The committed snapshot (R353): body (Table MIR-2), profile, latch, the time of its HEAD, and its age in µs at that time (0
but for a snapshot loaded from flash, whose age is a free value). -/
structure Snap where
  words : List Word
  profile : Nat
  latch : Option HeadLatch
  heard : Nat
  age : Nat
deriving DecidableEq, Repr

/-- A takeover accepted and not yet committed (R358): the command's tag, whether the refresh tick has latched its images, and
what the stuck-SDA check will meet when the takeover commit enables the two-wire port. -/
structure Takeover where
  tag : Nat
  latched : Bool
  sda : SdaCheck
deriving DecidableEq, Repr

/-- The Mirror port (R347 to R365): the random bytes sent in HELLO, the session, the times of the last accepted frame, the last
STATUS sent, the last capture and the end of its frames, the receive buffer, the committed snapshot with the time of the last
commit, the time of the last store to flash, the start of the TAKE window (R364), and a takeover accepted and not yet
committed. -/
structure Mir where
  hello : Option Quad
  session : Option Session
  lastRx : Nat
  statusAt : Nat
  capAt : Nat
  sendEnd : Nat
  rx : Option MirRx
  snap : Option Snap
  commitAt : Nat
  storeAt : Nat
  take : Option Nat
  takeover : Option Takeover
deriving DecidableEq, Repr

/-- The Mirror port with no session. -/
def Mir.reset : Mir := ⟨none, none, 0, 0, 0, 0, none, none, 0, 0, none, none⟩

/-- The boot logic: the H-side's power-on reset released, PERST_N asserted, P1 done since the power-on reset, the F-side reset
of R379 still to come, the start of a boot that has not completed, a firmware restart due, what a boot meets
that waits at step B3 for the link or in SETTINGS_HOLD, and the flash operation that a reset has cut short. -/
structure Boot where
  released : Bool
  perst : Bool
  p1 : Bool
  fDue : Bool
  began : Option Nat
  restart : Bool
  env : Option BootEnv
  cut : Option FlashStep
deriving DecidableEq, Repr

/-- The H-side. `regs` is the register file of 0x0000-0x1FFF, of the supervisor page, the staging window and the MSI-X entries; Function B's
copies of the per-function registers are keyed 0x10000 higher. `sn` holds the sources that the H-side raises, `snF` those of the F-side as
their events have shown them (R272); `snWas` holds the words that SN_SEV and SN_QUIET registers held before a write, by offset, with the
cycle of the write, in which they still apply (R263, R267), and `cmpAt` the last point of the 10 ms schedule of R264 that has passed;
`recAt` is the cycle after the last one in which a source's recovery was counted (R13, R268); `powered` says that the die has its supply;
`bodies` holds command bodies fetched, `jobs` the storage queue and `job` the write that executes; `restEntry` is a Rest entry before the
F-side's confirming cycle and `pm` the link state that the H-side has entered for Rest (R82); `fReset` stands from an F-side reset until
the F-side sequencer starts again (R377). -/
structure HDie where
  regs : Tab Word
  dev : DevState
  sn : Tab Src
  snF : Tab Src
  snWas : Tab (Option (Nat × Word))
  cmpAt : Nat
  recAt : Tab Nat
  pulse : Option Nat
  powered : Bool
  ranOnce : Bool
  pciA : PciFn
  pciB : PciFn
  rings : Tab Ring
  sweepA : Sweep
  sweepB : Sweep
  turn : Func
  ops : Tab (Option Op)
  ord : Nat
  imgA : Image
  imgB : Image
  fwQ : List FwWrite
  shadowQ : List FwWrite
  syncPend : Bool
  fwReads : List FwRead
  bulk : BulkEnd
  link : Link
  param : Option (Nat × Nat × Nat)
  refNum : Nat
  lastTick : Nat
  copy : PosCopy
  irqRest : List (Func × Nat)
  wdA : Wd
  wdB : Wd
  fReset : Bool
  restEntry : Option RestEntry
  pm : LinkPm
  bodies : Tab (Option (List Quad))
  jobs : List Job
  job : Option Job
  stg : Staging
  sec : Sec
  mir : Mir
  boot : Boot
deriving DecidableEq, Repr

/-- The F-side. `regs` is the register file of the field window and of 0x1440-0x145F, with the shadow's copies of the H-side's severities,
quiet codes and F_MODE under their H-side offsets (R264). `snH` holds the reactions of H-side sources as their events have brought them,
`snWas` the shadow's words before a write of the present cycle. `powered` says that the die runs from its supply, `porHeld` that its
supply has returned and its power-on reset is not released yet. `released` is its power-on reset released, `image` the F_HASH of the image
loaded, `headLatch` the latch of the last HEAD, `posNum` the next forward number. -/
structure FDie where
  regs : Tab Word
  sn : Tab Src
  snH : Tab Src
  snWas : Tab (Option (Nat × Word))
  pulse : Option Nat
  ranOnce : Bool
  powered : Bool
  porHeld : Bool
  released : Bool
  bulk : BulkEnd
  watch : Watch
  ops : Tab (Option FOp)
  ch : Chans
  ft : Timers
  car : Carousel
  fsp : Fsp
  twp : Twp
  wdF : Wd
  brk : Brk
  image : Option (List Quad)
  headLatch : Option HeadLatch
  posNum : Nat
deriving DecidableEq, Repr

/-- The device but for what power loss leaves: the time in 800 MHz cycles, the two dies, what has been put out (newest
first), and how many free values have been drawn. -/
structure Dev where
  now : Nat
  h : HDie
  f : FDie
  out : List Emit
  freeCtr : Nat
deriving DecidableEq, Repr

/-- What power loss leaves: fuses (lifecycle, serial, stepping, the thermometer of the minimum security version, the public
identity key), the records in flash, each sector's erase count, the sectors in which a bit reads 0 at EV (R296: programmed, or weakly
erased), and the words of the image regions by sector, as far as they have been erased or programmed since. -/
structure NonVol where
  lifecycle : Lifecycle
  serial : BitVec 64
  stepping : BitVec 8
  svnMin : Nat
  dikPub : List Word
  recs : List Rec
  wear : Tab Nat
  dirty : List Nat
  img : Tab (List Word)
deriving DecidableEq, Repr

/-- The block: the device, its nonvolatile contents and the commands that wait, first in, first out. -/
structure State where
  dev : Dev
  nv : NonVol
  pending : List Instr
deriving DecidableEq, Repr

/-- No command of this block ends in a fault. -/
inductive Fault where
deriving DecidableEq, Repr

/-- Why a command may be refused. -/
inductive Refusal where
  /-- The dispatcher raises it for a command that has no meaning yet; safe. -/
  | notModelled (mnemonic : String)
deriving DecidableEq, Repr

/-! ## Reset (R375, Table RST-3; log entries 8 to 14 for what the spec does not give) -/

/-- A function's output image after a reset (R139): word 0 with a valid check under the refresh-word seed. -/
def Image.fresh (fn : Func) : Image :=
  { cur := Container.make 0 fn 0 routeRefresh, latched := Container.make 0 fn 0 routeRefresh, merged := [], carried := [],
    older := [] }

/-- A watchdog at power-on reset: disabled, its count held until its start point (R256, R374). -/
def Wd.power : Wd := { Wd.off with held := true }

/-- The boot logic once the H-side's power-on reset is released, with PERST_N asserted (R368). -/
def Boot.reset : Boot := ⟨true, true, false, true, none, false, none, none⟩

/-- The H-side after its power-on reset. -/
def HDie.reset : HDie where
  regs := []
  dev := .boot
  sn := []
  snF := []
  snWas := []
  cmpAt := 0
  recAt := []
  pulse := none
  powered := true
  ranOnce := false
  pciA := PciFn.reset
  pciB := PciFn.reset
  rings := []
  sweepA := Sweep.idle
  sweepB := Sweep.idle
  turn := false
  ops := []
  ord := 0
  imgA := Image.fresh false
  imgB := Image.fresh true
  fwQ := []
  shadowQ := []
  syncPend := false
  fwReads := []
  bulk := BulkEnd.idle
  link := Link.down
  param := none
  refNum := 0
  lastTick := 0
  copy := ⟨0, 0, 0, false, 16⟩
  irqRest := []
  wdA := Wd.power
  wdB := Wd.power
  fReset := false
  restEntry := none
  pm := .l0
  bodies := []
  jobs := []
  job := none
  stg := ⟨none, []⟩
  sec := Sec.reset
  mir := Mir.reset
  boot := Boot.reset

/-- The F-side after its power-on reset. -/
def FDie.power : FDie where
  regs := []
  sn := []
  snH := []
  snWas := []
  pulse := none
  ranOnce := false
  powered := true
  porHeld := false
  released := true
  bulk := BulkEnd.idle
  watch := Watch.reset
  ops := []
  ch := Chans.reset
  ft := ⟨[], none, false⟩
  car := Carousel.reset
  fsp := Fsp.reset
  twp := Twp.reset
  wdF := Wd.power
  brk := Brk.reset
  image := none
  headLatch := none
  posNum := 0

/-- COMMIT as a finished record holds it (Table NVS-3). -/
def commitWord : Word := 0xC3A55A3C
def programmedCommit : FlashWord := ⟨commitWord, commitWord, commitWord⟩

/-- What a device holds when it leaves the factory (log entry 12): DEVELOPMENT, a KEY_INDEX record with a Record Key and no
owner, the FACTORY calibration, and both firmware slots empty. -/
def NonVol.factory : NonVol where
  lifecycle := .development
  serial := Config.serial
  stepping := Config.stepping
  svnMin := 0
  dikPub := (List.range 24).map Config.dikPub
  recs := [⟨.keyIndex, 0, 1, 1, 1, 0, 0, [], some ⟨1, 0, false, 0, 0⟩, 0, programmedCommit, erasedWord, false, []⟩,
    ⟨.calibration, 0, 1, 1, 1, 0, 0, (List.range 38).map (fun k => Config.factoryCal (2 * k + 1) ++ Config.factoryCal (2 * k)),
      none, 1, programmedCommit, erasedWord, false, []⟩]
  wear := []
  dirty := [Area.calibration.code * 1024, Area.keyIndex.code * 1024]
  img := []

/-- The block right after the power-on resets of both dies: registers at the values of the index, PERST_N asserted, no command
waiting. -/
def State.reset : State := ⟨⟨0, HDie.reset, FDie.power, [], 0⟩, NonVol.factory, []⟩

end Sys2Proof.Machine
end

