-- ==== Sys2Proof/Machine/Ops.lean ====
section
/-!
DEFINITION. The named operations every family uses: time, the register files and their reset values, outputs, saturating
counters, the interrupt vectors, ring and resource ownership, completion entries, the bulk stream.
-/

namespace Sys2Proof

/-- The key of Function B's copy of a per-function register. -/
def copyB : Nat := 0x10000

/-- A per-function register's key. -/
def keyOf (fn : Func) (off : Nat) : Nat := if fn then off + copyB else off

/-- A field of a function's own copy. -/
def Fld.of (F : Fld) (fn : Func) : Fld := ⟨keyOf fn F.off, F.lo, F.w⟩

/-- Descriptor fields (Table RM-3). -/
def Desc.opcode (e : Desc) : Nat := bitsOf e.q0.toNat 0 8
def Desc.makeChk (e : Desc) : Bool := bitOf e.q0.toNat 8
def Desc.fence (e : Desc) : Bool := bitOf e.q0.toNat 9
def Desc.noIrq (e : Desc) : Bool := bitOf e.q0.toNat 10
def Desc.seq (e : Desc) : Nat := bitsOf e.q0.toNat 16 16
def Desc.dest (e : Desc) : Nat := bitsOf e.q0.toNat 32 9
def Desc.opt (e : Desc) : Nat := bitsOf e.q0.toNat 48 16
def Desc.buf (e : Desc) : Nat := e.q1.toNat

/-- The unit code of the block that takes an operation (Table PRZ-5). -/
def Desc.unit (e : Desc) : Nat :=
  match e.opcode / 16 with
  | 0 => 2
  | 1 => 1
  | 2 => 3
  | 3 => 4
  | 4 => 5
  | _ => 7

end Sys2Proof

namespace Sys2Proof.Machine

/-! ## Numbers and times -/

/-- Cycles of 1.25 ns in a microsecond and in a millisecond. -/
def usCycles : Nat := 800
def msCycles : Nat := 800000

/-- One channel's bit. -/
def chBit (n : Nat) : W48 := BitVec.ofNat 48 (2 ^ n)

/-- All 48 channels. -/
def allCh : W48 := BitVec.allOnes 48

/-- A word with a field replaced. -/
def setBits (w : Word) (lo width v : Nat) : Word :=
  let m : Word := BitVec.ofNat 32 ((2 ^ width - 1) * 2 ^ lo)
  (w &&& ~~~m) ||| (BitVec.ofNat 32 (v * 2 ^ lo) &&& m)

/-- The low and the high register of a 48-bit quantity. -/
def loWord (n : Nat) : Word := BitVec.ofNat 32 n
def hiWord (n : Nat) : Word := BitVec.ofNat 32 (n / 2 ^ 32)

/-- The device at a time: the time of a step is never before the last step's. -/
def Dev.at (d : Dev) (t : Nat) : Dev := { d with now := max d.now t }

/-- The device with something put out. -/
def Dev.emit (d : Dev) (e : Emit) : Dev := { d with out := e :: d.out }

/-- The pieces of a transfer of `len` bytes from an address, as address and length: none longer than `limit`, and none across a
4 KiB boundary (R71). The first argument bounds their number. -/
def pieces (limit : Nat) : Nat → Nat → Nat → List (Nat × Nat)
  | 0, _, _ => []
  | n + 1, addr, len =>
    if len = 0 then []
    else
      let k := min len (min limit (4096 - addr % 4096))
      (addr, k) :: pieces limit n (addr + k) (len - k)


/-- A fresh free value, and the device that has drawn it. -/
def Dev.draw (d : Dev) : Quad × Dev := (Config.freeValue d.freeCtr, { d with freeCtr := d.freeCtr + 1 })

/-- What a command answers. -/
abbrev Out := Host.Outcome State Fault Refusal

/-- A command acts on the device; the nonvolatile contents and the waiting commands stay. -/
def State.onDev (s : State) (g : Dev → Dev) : Out := .next { s with dev := g s.dev }

/-! ## Register files -/

/-- The offset a key stands for. -/
def baseOff (k : Nat) : Nat := if k / 0x10000 % 2 = 1 then k - 0x10000 else k

/-- Whether an offset's register is held on the F-side (Table IDX-1): the field window, and WDF at 0x1440-0x145F. -/
def onFSide (off : Nat) : Bool := (0x2000 ≤ off && off < 0x8000) || (0x1440 ≤ off && off < 0x1460)

/-- The reset value of a register (Tables IDX-2 to IDX-5); where the index marks a value S, the default without a
settings entry. -/
def resetWord (k : Nat) : Word :=
  if k = Reg.PCI_FUNC_ID + copyB then 1
  else if 0x20000 ≤ baseOff k ∧ baseOff k < 0x20040 then (if baseOff k % 16 = 12 then 1 else 0)
  else
    let off := baseOff k
    if 0x1010 ≤ off ∧ off < 0x1028 then BitVec.ofNat 32 (sevDefaultWord ((off - 0x1010) / 4))
    else if 0x1040 ≤ off ∧ off < 0x1070 then 0x33333333
    else if off = Reg.WD_OPEN 2 then 0x1F4
    else if off = Reg.WD_TIMEOUT 2 then 0x7D0
    else if off = Reg.WD_FIRST 2 then 0x32
    else if 0x1400 ≤ off ∧ off < 0x1460 then
      match (off - 0x1400) % 0x20 with
      | 4 => 0x3E8
      | 8 => 0x186A0
      | 12 => 0x3E8
      | _ => 0
    else if off = Reg.CH_CHK_SETTLE 0 then 0x32323232
    else if off = Reg.CH_CHK_SETTLE 1 then 0x3232
    else match specOf off with
      | some r => r.reset
      | none => 0

/-- The stored word of a register. -/
def Dev.rd (d : Dev) (k : Nat) : Word :=
  Tab.get resetWord (if onFSide (baseOff k) then d.f.regs else d.h.regs) k

/-- The device with a register's stored word replaced. -/
def Dev.wr (d : Dev) (k : Nat) (v : Word) : Dev :=
  if onFSide (baseOff k) then { d with f.regs := d.f.regs.set resetWord k v }
  else { d with h.regs := d.h.regs.set resetWord k v }

/-- A stored field. -/
def Dev.fld (d : Dev) (F : Fld) : Nat := bitsOf (d.rd F.off).toNat F.lo F.w

/-- A stored one-bit field. -/
def Dev.flag (d : Dev) (F : Fld) : Bool := d.fld F == 1

/-- The device with a stored field replaced. -/
def Dev.setFld (d : Dev) (F : Fld) (v : Nat) : Dev := d.wr F.off (setBits (d.rd F.off) F.lo F.w v)

/-- The shadow's copy of an H-side register (R264). -/
def Dev.shadow (d : Dev) (k : Nat) : Word := Tab.get resetWord d.f.regs k

/-- The shadow with a copy replaced. -/
def Dev.setShadow (d : Dev) (k : Nat) (v : Word) : Dev := { d with f.regs := d.f.regs.set resetWord k v }

/-- What a write that the block accepts does to a register's stored word (Table SYS-4): RW and RWL bits take the data,
W1C bits clear where the data has a 1, RO and RSV bits stay (R8, R9). -/
def writeBits (r : RegSpec) (old data : Word) : Word :=
  ((old &&& ~~~r.rw) &&& ~~~(r.w1c &&& data)) ||| (data &&& r.rw)

/-- The stored word of a register after an accepted write. -/
def Dev.wrAccess (d : Dev) (k : Nat) (data : Word) : Dev :=
  match specOf (baseOff k) with
  | some r => d.wr k (writeBits r (d.rd k) data)
  | none => d

/-! ## Counters (R11 to R13) -/

/-- A 32-bit saturating counter counts one; at its limit it sets its sticky SAT bit. -/
def Dev.bump (d : Dev) (cnt sat : Fld) : Dev :=
  let v := d.fld cnt
  if v ≥ 2 ^ 32 - 1 then d
  else
    let d1 := d.setFld cnt (v + 1)
    if v + 1 = 2 ^ 32 - 1 then d1.setFld sat 1 else d1

/-- A saturating counter counts `n` more. -/
def Dev.bumpBy (d : Dev) (cnt sat : Fld) (n : Nat) : Dev :=
  if n = 0 then d
  else
    let v := min (d.fld cnt + n) (2 ^ 32 - 1)
    let d1 := d.setFld cnt v
    if v = 2 ^ 32 - 1 then d1.setFld sat 1 else d1

/-- A software clear sets the counter and its SAT to 0; an increment of the same cycle is applied after it (R13). -/
def Dev.clearCnt (d : Dev) (cnt sat : Fld) : Dev := (d.setFld cnt 0).setFld sat 0

/-! ## Functions, vectors and interrupts (R78 to R80) -/

/-- A function's PCI state. -/
def Dev.pci (d : Dev) (fn : Func) : PciFn := if fn then d.h.pciB else d.h.pciA

/-- The device with a function's PCI state replaced. -/
def Dev.setPci (d : Dev) (fn : Func) (p : PciFn) : Dev :=
  if fn then { d with h.pciB := p } else { d with h.pciA := p }

/-- The endpoint takes a memory access of a function: the H-side has its power and PERST_N is deasserted, Memory Space Enable is 1,
and no reset of the function is in progress (R88, R89). -/
def Dev.barOpen (d : Dev) (fn : Func) : Bool :=
  d.h.dev != .off && !d.h.boot.perst && (d.pci fn).mse && (d.pci fn).resetAt.isNone

/-- The endpoint sends a packet for a function, with ECRC where its generation is enabled (R71). -/
def Dev.tlp (d : Dev) (fn : Func) (p : Tlp) : Dev := d.emit (.tlp fn (d.pci fn).ecrcGen p)

/-- The read requests for `len` bytes of host memory: none larger than the smaller of Max Read Request Size and 512 bytes, and none
across a 4 KiB boundary (R71). -/
def PciFn.reads (p : PciFn) (addr len : Nat) : List Tlp :=
  (pieces (min p.maxRead 512) len addr len).map (fun x => Tlp.read x.1 x.2)

/-- The posted writes of received data or samples: none larger than Max Payload Size, with Relaxed Ordering where it is enabled
(R71). -/
def PciFn.writes (p : PciFn) (addr : Nat) (data : List Quad) : List Tlp :=
  (pieces p.maxPayload (8 * data.length) addr (8 * data.length)).map (fun x =>
    Tlp.write x.1 ((data.drop ((x.1 - addr) / 8)).take (x.2 / 8)) p.relaxed)

/-- Packets of a function sent one after another, the first of the list first. -/
def Dev.tlps (d : Dev) (fn : Func) (l : List Tlp) : Dev :=
  { d with out := (l.map (fun p => Emit.tlp fn (d.pci fn).ecrcGen p)).reverse ++ d.out }

/-- Host memory is read for a function. -/
def Dev.hostRead (d : Dev) (fn : Func) (addr len : Nat) : Dev := d.tlps fn ((d.pci fn).reads addr len)

/-- Received data or samples are written to host memory for a function. -/
def Dev.hostWrite (d : Dev) (fn : Func) (addr : Nat) (data : List Quad) : Dev := d.tlps fn ((d.pci fn).writes addr data)

/-- An MSI-X table entry's registers. -/
def msixKey (fn : Func) (vec word : Nat) : Nat := keyOf fn (0x20000 + 16 * vec + 4 * word)

/-- A function's vector is masked, by itself or with all of the function's vectors. -/
def Dev.masked (d : Dev) (fn : Func) (vec : Nat) : Bool := (d.pci fn).msixMask || bitOf (d.rd (msixKey fn vec 3)).toNat 0

/-- One interrupt message of a vector. -/
def Dev.message (d : Dev) (fn : Func) (vec : Nat) : Dev :=
  d.tlp fn (.msix vec ((d.rd (msixKey fn vec 1)).toNat * 2 ^ 32 + (d.rd (msixKey fn vec 0)).toNat)
    (d.rd (msixKey fn vec 2)))

/-- The function asserts or deasserts its INTx as PCI_INT_CAUSE and Interrupt Disable say (R80). -/
def Dev.intx (d : Dev) (fn : Func) : Dev :=
  let p := d.pci fn
  let want := !p.msixEn && !p.intDis && !p.d3 && d.fld (Fld.PCI_INT_CAUSE_CAUSE.of fn) != 0
  if want == p.intx then d else (d.setPci fn { p with intx := want }).tlp fn (.intx want)

/-- An event of a vector reaches a function: a message, a pending bit while masked (R79), or PCI_INT_CAUSE and INTx
while MSI-X is disabled (R80). A function in D3hot sends none (R81): its pending bit, or its PCI_INT_CAUSE, holds the event until
D0_RETURN. In REST the report waits for the wake (R273). -/
def Dev.irq (d : Dev) (fn : Func) (vec : Nat) : Dev :=
  let p := d.pci fn
  if d.h.dev = .rest then { d with h.irqRest := d.h.irqRest ++ [(fn, vec)] }
  else if p.msixEn then
    if d.masked fn vec || p.d3 then d.setPci fn { p with pba := if bitOf p.pba vec then p.pba else p.pba + 2 ^ vec }
    else d.message fn vec
  else
    let F := Fld.PCI_INT_CAUSE_CAUSE.of fn
    let c := d.fld F
    (d.setFld F (if bitOf c vec then c else c + 2 ^ vec)).intx fn

/-- An event on a vector of both functions. -/
def Dev.irqBoth (d : Dev) (vec : Nat) : Dev := (d.irq false vec).irq true vec

/-! ## Ownership (R1, R83, R91, R31) -/

/-- The owner of a ring: Function A below RM_CTRL.A_RINGS, else Function B (R91). -/
def Dev.ringOwner (d : Dev) (n : Nat) : Func := d.fld Fld.RM_CTRL_A_RINGS ≤ n

/-- A ring's local index (R91). -/
def Dev.ringLocal (d : Dev) (n : Nat) : Nat := if d.ringOwner n then n - d.fld Fld.RM_CTRL_A_RINGS else n

/-- The 2-bit owner code of a function: 1 Function A, 2 Function B (R83). -/
def codeOf (fn : Func) : Nat := if fn then 2 else 1

/-- The owner code of a channel as the map's registers hold it. -/
def Dev.mapCode (d : Dev) (ch : Nat) : Nat := d.fld (Fld.PCI_OWN_CH_OWNER (ch / 16) (ch % 16))

/-- The channels that a function owns in three map words. -/
def ownMaskOf (w0 w1 w2 : Word) (fn : Func) : W48 :=
  (List.range 48).foldl (fun m n =>
    let w := if n < 16 then w0 else if n < 32 then w1 else w2
    if bitsOf w.toNat (2 * (n % 16)) 2 = codeOf fn then m ||| chBit n else m) 0

/-- The channels a function owns in the map as written. -/
def Dev.mapMask (d : Dev) (fn : Func) : W48 :=
  ownMaskOf (d.rd (Reg.PCI_OWN_CH 0)) (d.rd (Reg.PCI_OWN_CH 1)) (d.rd (Reg.PCI_OWN_CH 2)) fn

/-- The channels a function owns at the last refresh commit (R84). -/
def Chans.ownMask (c : Chans) (fn : Func) : W48 := ownMaskOf c.own0 c.own1 c.own2 fn

/-- Ownership of a port, an FSP select, a TWP role or a timer: the map field holds the function's code. -/
def Dev.owns (d : Dev) (F : Fld) (fn : Func) : Bool := d.fld F == codeOf fn

/-- The owner of a Carousel slot under CAR_SLOT_SPLIT (R31): its code, 0 for no one. -/
def Dev.slotCode (d : Dev) (n : Nat) : Nat :=
  if n < d.fld Fld.CAR_SLOT_SPLIT_A_COUNT then 1
  else if 256 ≤ n + d.fld Fld.CAR_SLOT_SPLIT_B_COUNT ∧ n < 256 then 2 else 0

/-- A map code as scope flags: (Function A, Function B); no one gives neither. -/
def scopeOf (code : Nat) : Bool × Bool := (code == 1, code == 2)

/-! ## Rings, tags and completion entries (R103, R110 to R116) -/

/-- A ring's state. -/
def Dev.ring (d : Dev) (n : Nat) : Ring := Tab.get (fun _ => Ring.idle) d.h.rings n

/-- The device with a ring's state replaced. -/
def Dev.setRing (d : Dev) (n : Nat) (r : Ring) : Dev := { d with h.rings := d.h.rings.set (fun _ => Ring.idle) n r }

/-- A ring is enabled. -/
def Dev.ringEn (d : Dev) (n : Nat) : Bool := d.flag (Fld.RM_RING_CFG_EN n)

/-- A ring's depth. -/
def Dev.ringDepth (d : Dev) (n : Nat) : Nat := 2 ^ d.fld (Fld.RM_RING_CFG_DEPTH_LOG2 n)

/-- The operation holding a tag. -/
def Dev.op (d : Dev) (tag : Nat) : Option Op := Tab.get (fun _ => none) d.h.ops tag

/-- The device with a tag's operation replaced. -/
def Dev.setOp (d : Dev) (tag : Nat) (o : Option Op) : Dev := { d with h.ops := d.h.ops.set (fun _ => none) tag o }

/-- The operations holding a tag, with their tags. -/
def Dev.opsList (d : Dev) : List (Nat × Op) := d.h.ops.filterMap (fun p => p.2.map (fun o => (p.1, o)))

/-- Tags held by a function, by a ring, and device-wide. -/
def Dev.heldBy (d : Dev) (fn : Func) : Nat := (d.opsList.filter (fun p => p.2.fn == fn)).length
def Dev.ringTags (d : Dev) (n : Nat) : Nat := (d.opsList.filter (fun p => p.2.ring == n)).length
def Dev.inflight (d : Dev) : Nat := d.opsList.length

/-- A base register pair as an address. -/
def Dev.addr (d : Dev) (lo hi : Nat) : Nat := (d.rd hi).toNat * 2 ^ 32 + (d.rd lo).toNat

/-- QW0 of a completion entry (Table RM-8). -/
def entryQ0 (seq tag ring : Nat) (phase : Bool) (status opcode ci : Nat) : Quad :=
  BitVec.ofNat 64 (seq % 2 ^ 16 + tag % 512 * 2 ^ 16 + ring % 64 * 2 ^ 25 + b2n phase * 2 ^ 31 + status % 256 * 2 ^ 32
    + opcode % 256 * 2 ^ 40 + ci % 2 ^ 16 * 2 ^ 48)

/-- A write of an operation's data to host memory. With Bus Master Enable 0 it is not sent and PCI_DROP_CNT counts it (R89). -/
def Dev.dma (d : Dev) (fn : Func) (addr : Nat) (data : List Quad) : Dev :=
  if data.isEmpty then d
  else if (d.pci fn).bme then d.hostWrite fn addr data
  else d.bump (Fld.PCI_DROP_CNT_COUNT.of fn) (Fld.PCI_CNT_SAT_SAT.of fn)

/-- The completion entry of an operation is written and its tag released (R110): one 16-byte write at CPL_PI, PHASE
inverting as CPL_PI wraps the ring, and the ring's V0 message made due (R114). With Bus Master Enable 0 the entry is not
sent and PCI_DROP_CNT counts it (R89). An operation that a function reset discarded leaves no entry (R86). -/
def Dev.complete (d : Dev) (tag : Nat) (o : Op) (status : Nat) (result : Quad) : Dev :=
  let d0 := d.setOp tag none
  if o.drop then d0
  else if !(d.pci o.fn).bme then
    d0.bump (Fld.PCI_DROP_CNT_COUNT.of o.fn) (Fld.PCI_CNT_SAT_SAT.of o.fn)
  else
    let r := d0.ring o.ring
    let depth := d0.ringDepth o.ring
    let base := d0.addr (Reg.RM_CPL_BASE_LO o.ring) (Reg.RM_CPL_BASE_HI o.ring)
    let d1 := d0.tlp o.fn (.write (base + 16 * (r.cplPi % depth))
      [entryQ0 o.desc.seq tag o.ring r.phase status o.desc.opcode r.ci, result] false)
    let pi := (r.cplPi + 1) % 2 ^ 16
    let want := !o.desc.noIrq && d.flag (Fld.RM_RING_CFG_IRQ_EN o.ring)
    let due := if want || r.irqDue.isSome then some d.now else none
    d1.setRing o.ring { r with cplPi := pi, phase := if pi % depth = 0 then !r.phase else r.phase, irqDue := due }

/-- An operation ends on the H-side with a status and RESULT: its completion entry is written. One that HALT caught open completes
WRONG_STATE instead, and while HALT lasts its entry waits (R117). -/
def Dev.finish (d : Dev) (tag status : Nat) (result : Quad) : Dev :=
  match d.op tag with
  | some o =>
    if !o.halted then d.complete tag o status result
    else if d.h.dev = .halt then d.setOp tag (some { o with ended := true })
    else d.complete tag o 0x09 0
  | none => d

/-- HALT has ended: the entries that waited are written (R117). -/
def Dev.haltEntries (d : Dev) : Dev :=
  d.opsList.foldl (fun d p => if p.2.ended then d.complete p.1 p.2 0x09 0 else d) d

/-- Status codes (Table RM-9). -/
def stOK : Nat := 0x00
def stFIRED : Nat := 0x01
def stPREDICTED : Nat := 0x02
def stEARLY : Nat := 0x03
def stLATE : Nat := 0x04
def stDISARMED : Nat := 0x05
def stDUPLICATE : Nat := 0x06
def stNOT_OWNER : Nat := 0x07
def stBAD_DESC : Nat := 0x08
def stWRONG_STATE : Nat := 0x09
def stBUSY : Nat := 0x0A
def stABORTED : Nat := 0x0B
def stDMA_ERR : Nat := 0x0C
def stCHK_PATH : Nat := 0x0D
def stCHK_PIN : Nat := 0x0E
def stARB_LOST : Nat := 0x0F
def stNACK : Nat := 0x10
def stTWP_STUCK : Nat := 0x11
def stTIMEOUT : Nat := 0x12
def stCRC_ERR : Nat := 0x13
def stUNDERRUN : Nat := 0x14
def stSEL_ABORT : Nat := 0x15
def stOVERRUN : Nat := 0x16
def stREFUSED : Nat := 0x17

/-! ## The bulk stream (R55, R62, R130) -/

/-- One die's end of the bulk stream. -/
def Dev.bulk (d : Dev) : Die → BulkEnd
  | .h => d.h.bulk
  | .f => d.f.bulk

/-- The device with one die's end replaced. -/
def Dev.setBulk (d : Dev) (x : Die) (b : BulkEnd) : Dev :=
  match x with
  | .h => { d with h.bulk := b }
  | .f => { d with f.bulk := b }

/-- A field-window item, which a held link still carries (R62). -/
def Cell.isFw : Cell → Bool
  | .fwWrite _ => true
  | .fwRead _ _ => true
  | .fwAck _ _ _ => true
  | .fwReply _ _ _ => true
  | _ => false

/-- The OP_OPEN and the OP_CLOSE of a tag. -/
def Cell.opens (tag : Nat) : Cell → Bool
  | .opOpen _ _ _ g _ => g == tag
  | _ => false
def Cell.closes (tag : Nat) : Cell → Bool
  | .opClose _ g _ => g == tag
  | _ => false

/-- The payload of a control container from its fields, each by the container's number of its lowest bit (Table PRZ-4). -/
def payloadOf (l : List (Nat × Nat)) : BitVec 40 := BitVec.ofNat 40 (l.foldl (fun n p => n + p.2 * 2 ^ (p.1 - 16)) 0)

/-- The 80 bits of a cell (R41 to R44, Tables PRZ-2 to PRZ-5), a bulk cell's with its SEQ. What the spec gives no layout for is a
free value (log entry 86). -/
def Cell.wire (seq : Nat) : Cell → Cell80
  | .refresh fn num c => Cell80.make 1 (16 * fn.idx) num c.bits
  | .position dir turn num c => Cell80.make 2 (8 * dir + turn) num c.bits
  | .ack n => Cell80.control 6 0 0 0x01 (payloadOf [(51, n)])
  | .nak n => Cell80.control 6 0 0 0x02 (payloadOf [(51, n)])
  | .retrain fwd ret => Cell80.control 6 0 0 0x03 (payloadOf [(52, fwd), (50, ret)])
  | .param period missN eff => Cell80.control 6 0 0 0x04 (payloadOf [(46, period), (42, missN), (32, eff)])
  | .paramAck period missN eff => Cell80.control 6 0 0 0x05 (payloadOf [(46, period), (42, missN), (32, eff)])
  | .rest request => Cell80.control 6 0 0 0x06 (payloadOf [(55, b2n request)])
  | .missStatus n => Cell80.control 6 0 0 0x07 (payloadOf [(52, n)])
  | .fwWrite c => Cell80.make 3 0 seq c.bits
  | .fwRead fn off => Cell80.control 4 0 seq 0x10 (payloadOf [(55, fn.idx), (41, off / 4 % 2 ^ 14)])
  | .fwAck fn off cause => Cell80.control 4 0 seq 0x11 (payloadOf [(55, fn.idx), (41, off / 4 % 2 ^ 14), (37, cause)])
  | .fwReply fn off v => Cell80.make 3 0 seq (Config.fwReplyBody fn off v)
  | .opOpen unit fn ring tag dest => Cell80.control 4 unit seq 0x20 (Config.opOpenPayload fn ring tag dest)
  | .opClose unit tag status => Cell80.control 4 unit seq 0x21 (Config.opClosePayload tag status)
  | .data unit _ c => Cell80.make 3 unit seq c.bits
  | .snEvent num src sev active a b =>
    Cell80.control 5 0 num 0x30 (payloadOf [(49, src), (47, sev), (46, b2n active), (45, b2n b), (44, b2n a)])

/-- A die sends a cell that is not of the bulk stream. -/
def Dev.emitCell (d : Dev) (x : Die) (c : Cell) : Dev := d.emit (.cell x (c.wire 0))

/-- A HALT reaction is in force at a die: the link is held (R62). -/
def Dev.haltAt (d : Dev) : Die → Bool
  | .h => d.h.sn.any (fun p => p.2.force == 3) || d.h.snF.any (fun p => p.2.force == 3)
  | .f => d.f.sn.any (fun p => p.2.force == 3) || d.f.snH.any (fun p => p.2.force == 3)

/-- The first of the reads with a property has been sent at a time. -/
def stampRead (p : FwRead → Bool) (now : Nat) : List FwRead → List FwRead
  | [] => []
  | r :: t => if p r then { r with sent := some now } :: t else r :: stampRead p now t

/-- A bulk item goes out as the stream's next cell. The time of an FW_READ is that of its sending (R65). -/
def Dev.sendNext (d : Dev) (x : Die) (b : BulkEnd) (c : Cell) : Dev :=
  let d1 := (d.setBulk x { b with
    txSeq := (b.txSeq + 1) % 32
    replayAt := if b.replay.isEmpty then d.now else b.replayAt
    replay := b.replay ++ [c] }).emit (.cell x (c.wire b.txSeq))
  match c with
  | .fwRead fn off => { d1 with h.fwReads := stampRead (fun r => r.fn == fn && r.off == off && r.queued && r.sent.isNone) d.now d1.h.fwReads }
  | _ => d1

/-- The next bulk items go out while the link is up, fewer than 16 cells are unacknowledged, and something may be sent:
field-window items and operation items alternate while both wait (R130), and a held link carries field-window items
only (R62). The first argument bounds the items sent at once. -/
def Dev.drainBulk (x : Die) : Nat → Dev → Dev
  | 0, d => d
  | n + 1, d =>
    let b := d.bulk x
    if !d.h.link.up || 16 ≤ b.replay.length then d
    else
      let opsMay := !d.haltAt x
      let pickFw := !b.waitFw.isEmpty && (b.fwTurn || b.waitOp.isEmpty || !opsMay)
      match (if pickFw then b.waitFw else if opsMay then b.waitOp else []) with
      | [] => d
      | c :: t =>
        Dev.drainBulk x n (d.sendNext x { b with
          waitFw := if pickFw then t else b.waitFw
          waitOp := if pickFw then b.waitOp else t
          fwTurn := !pickFw } c)

/-- A bulk item joins its queue and goes out as soon as the stream lets it. -/
def Dev.sendBulk (d : Dev) (x : Die) (c : Cell) : Dev :=
  let b := d.bulk x
  let b1 := if c.isFw then { b with waitFw := b.waitFw ++ [c] } else { b with waitOp := b.waitOp ++ [c] }
  (d.setBulk x b1).drainBulk x 16

/-! ## Operations on the F-side -/

/-- An operation's F-side context. -/
def Dev.fop (d : Dev) (tag : Nat) : Option FOp := Tab.get (fun _ => none) d.f.ops tag

/-- The device with an F-side context replaced. -/
def Dev.setFop (d : Dev) (tag : Nat) (o : Option FOp) : Dev := { d with f.ops := d.f.ops.set (fun _ => none) tag o }

/-- An operation ends on the F-side: status and RESULT are kept, and OP_CLOSE is sent (Table PRZ-4). One whose tag the H-side has
lost in its reset leaves nothing (R376). -/
def Dev.endF (d : Dev) (tag status : Nat) (result : Quad) : Dev :=
  match d.fop tag with
  | some o =>
    if o.ended.isSome then d
    else if (d.op tag).isNone then d.setFop tag none
    else (d.setFop tag (some { o with ended := some (status, result) })).sendBulk .f (.opClose o.desc.unit tag status)
  | none => d

/-- A RESULT container made at the F-side entry under the operation's seed (R112, R146). -/
def FOp.result (o : FOp) (w : W48) : Quad := (Container.make w o.fn o.ring o.desc.dest).bits

/-- A container received for an operation: its check is made at the F-side entry (R146) and it is sent on. -/
def Dev.receive (d : Dev) (tag : Nat) (w : W48) : Dev :=
  match d.fop tag with
  | some o =>
    let c := Container.make w o.fn o.ring o.desc.dest
    (d.setFop tag (some { o with got := o.got ++ [c] })).sendBulk .f (.data o.desc.unit tag c)
  | none => d

end Sys2Proof.Machine
end

