-- ==== Sys2Proof/Machine/Flags.lean ====
section
/-!
DEFINITION. The status flags that stand over every block: what the channels command at the balls and which of them are
held, the Safety Net sources and reactions, the FAULT pins, and the device state that follows from them.
-/

namespace Sys2Proof.Machine

/-! ## Channels: configuration, hold and commanded levels -/

/-- Fields of a channel configuration word (Table CH-9). -/
def cfgMode (w : Word) : Nat := bitsOf w.toNat 0 2
def cfgFs (w : Word) : Nat := bitsOf w.toNat 2 2
def cfgRest (w : Word) : Nat := bitsOf w.toNat 4 2
def cfgFilt (w : Word) : Nat := bitsOf w.toNat 8 8

/-- The channels whose configuration in effect has a property; a channel not listed is in HI_Z with all fields 0. -/
def Chans.maskOf (c : Chans) (p : Word → Bool) : W48 :=
  c.cfg.foldl (fun m e => if p e.2 && decide (e.1 < 48) then m ||| chBit e.1 else m) 0

/-- A channel's configuration in effect. -/
def Chans.cfgAt (c : Chans) (n : Nat) : Word := Tab.get (fun _ => 0) c.cfg n

/-- Channels in PUSH_PULL or OPEN_DRAIN (Table CH-1). -/
def Chans.outMask (c : Chans) : W48 := c.maskOf (fun w => 2 ≤ cfgMode w)

/-- A SAFE reaction that an F-side table holds names a function. -/
def safeFor (t : Tab Src) (fn : Func) : Bool :=
  t.any (fun p => p.2.force == 2 && (if fn then p.2.scB else p.2.scA))

/-- The channels to which a condition of Table CH-3 applies. -/
def Dev.holdMask (d : Dev) : W48 :=
  let c := d.f.ch
  let own := fun fn : Func => c.ownMask fn
  let part := fun (b : Bool) (m : W48) => if b then m else 0
  (~~~(own false ||| own true)) ||| c.wait87
    ||| part (c.waitA || c.refHoldA || d.h.pciA.d3 || safeFor d.f.sn false || safeFor d.f.snH false) (own false)
    ||| part (c.waitB || c.refHoldB || d.h.pciB.d3 || safeFor d.f.sn true || safeFor d.f.snH true) (own true)
    ||| part (d.haltAt .f || d.f.watch.expired || c.standby) allCh

/-- The levels commanded and the channels on which one is (R153, R156, R157, R160; Tables CH-1, CH-4): a free channel in
an output mode follows its owner's word, a held one its fail-safe value, HOLD keeping the level last driven; in REST the
Rest values stand, in STANDBY every channel is HI-Z. -/
def Chans.levels (c : Chans) : W48 × W48 :=
  match c.rest with
  | some r => r
  | none =>
    if c.standby then (0, 0)
    else
      let out := c.outMask
      let h := c.held &&& out
      let free := out &&& ~~~c.held
      let word := (c.ownMask false &&& c.wordA) ||| (c.ownMask true &&& c.wordB)
      let fs := fun k => h &&& c.maskOf (fun w => cfgFs w == k)
      let keep := fs 2 &&& c.driven
      ((free &&& word) ||| fs 1 ||| (keep &&& c.lastDrv), free ||| fs 0 ||| fs 1 ||| keep)

/-- The channels compared by readback (Table CHK-3): owned, in an output mode with a level commanded, outside REST and
STANDBY. -/
def Chans.compared (c : Chans) : W48 :=
  if c.rest.isSome || c.standby then 0
  else c.outMask &&& c.cmdOn &&& (c.ownMask false ||| c.ownMask true)

/-- The settle time of a bank in cycles (R144): units of 10 ns, 0 acting as 1. -/
def Dev.settle (d : Dev) (bank : Nat) : Nat :=
  8 * max 1 (d.fld (Fld.CH_CHK_SETTLE_SETTLE (bank / 4) (bank % 4)))

/-- The eight channels of a bank. -/
def bankMask (bank : Nat) : W48 := BitVec.ofNat 48 (255 * 2 ^ (8 * bank))

/-- A comparison sample of the banks that hold channels of a mask becomes due at SETTLE from now, one for each instant (R144). -/
def Dev.addDue (d : Dev) (m : W48) : Dev :=
  (List.range 6).foldl (fun d b =>
    if m &&& bankMask b = 0 then d
    else { d with f.ch.due := d.f.ch.due.upd (fun _ => []) b (fun l =>
      if l.contains (d.now + d.settle b) then l else l ++ [d.now + d.settle b]) }) d

/-- A pair of register fields as a 48-bit mask, and the pair with its mask replaced. -/
def Dev.mask48 (d : Dev) (lo hi : Nat) : W48 := BitVec.ofNat 48 ((d.rd hi).toNat * 2 ^ 32 + (d.rd lo).toNat)
def Dev.setMask48 (d : Dev) (lo hi : Nat) (m : W48) : Dev := (d.wr lo (loWord m.toNat)).wr hi (hiWord m.toNat)

/-! ## Sources -/

/-- A source on a die. -/
def Dev.src (d : Dev) (x : Die) (i : Nat) : Src :=
  Tab.get (fun _ => Src.idle) (match x with | .h => d.h.sn | .f => d.f.sn) i

/-- The device with a source of a die replaced. -/
def Dev.setSrc (d : Dev) (x : Die) (i : Nat) (s : Src) : Dev :=
  match x with
  | .h => { d with h.sn := d.h.sn.set (fun _ => Src.idle) i s }
  | .f => { d with f.sn := d.f.sn.set (fun _ => Src.idle) i s }

/-- An F-side source as the H-side knows it, and an H-side source as the shadow knows it. -/
def Dev.srcFAtH (d : Dev) (i : Nat) : Src := Tab.get (fun _ => Src.idle) d.h.snF i
def Dev.srcHAtF (d : Dev) (i : Nat) : Src := Tab.get (fun _ => Src.idle) d.f.snH i

/-- A word of SN_SEV or SN_QUIET as a die holds it: the H-side in its register, the F-side in the shadow's copy (R258, R264). -/
def Dev.snCopy (d : Dev) (x : Die) (off : Nat) : Word := match x with | .h => d.rd off | .f => d.shadow off

/-- The word that applies: in the cycle of a write the one before it (R263, R267). -/
def Dev.snWord (d : Dev) (x : Die) (off : Nat) : Word :=
  match Tab.get (fun _ => none) (match x with | .h => d.h.snWas | .f => d.f.snWas) off with
  | some (t, w) => if t = d.now then w else d.snCopy x off
  | none => d.snCopy x off

/-- A die notes the word that a write of this cycle replaces; of several writes the first. -/
def Dev.snNote (d : Dev) (x : Die) (off : Nat) : Dev :=
  let n := some (d.now, d.snWord x off)
  match x with
  | .h => { d with h.snWas := d.h.snWas.set (fun _ => none) off n }
  | .f => { d with f.snWas := d.f.snWas.set (fun _ => none) off n }

/-- The severity of a source in a word of SN_SEV. -/
def sevIn (w : Word) (i : Nat) : Nat := bitsOf w.toNat (2 * (i % 16)) 2

/-- The severity that a die applies to a source (R258, R264): its registers, or the shadow's copy. -/
def Dev.sevOf (d : Dev) (x : Die) (i : Nat) : Nat := sevIn (d.snWord x (Reg.SN_SEV (i / 16))) i

/-- The quiet period of a code in milliseconds (Table SN-3). -/
def quietMs (code : Nat) : Nat := [1, 2, 5, 10, 20, 50, 100, 200, 500, 1000, 2000, 5000, 10000].getD code 10000

/-- A source's quiet period at a die, in cycles (R267). -/
def Dev.quietOf (d : Dev) (x : Die) (i : Nat) : Nat :=
  quietMs (bitsOf (d.snWord x (Reg.SN_QUIET (i / 8))).toNat (4 * (i % 8)) 4) * msCycles

/-- The reaction of a source is in force on either die, as the H-side knows it (R258). -/
def Dev.inForce (d : Dev) (i : Nat) : Nat := max (d.src .h i).force (d.srcFAtH i).force

/-- A SAFE reaction is active for a function; a HALT reaction is active (Table SYS-7). -/
def Dev.safeAct (d : Dev) (fn : Func) : Bool := safeFor d.h.sn fn || safeFor d.h.snF fn
def Dev.haltAct (d : Dev) : Bool := d.haltAt .h

/-! ## Device state (R2, R3, R117) -/

/-- HALT begins (R117): fetched operations that have not been opened complete WRONG_STATE; the opened ones will. -/
def Dev.haltBegin (d : Dev) : Dev :=
  d.opsList.foldl (fun d p =>
    match p.2.stage with
    | .admitted => d.complete p.1 p.2 stWRONG_STATE 0
    | _ => d.setOp p.1 (some { p.2 with halted := true })) d

/-- The state among RUN, SAFE and HALT that the reactions in force give (R2, Table SYS-2). -/
def Dev.reactState (d : Dev) : DevState :=
  if d.haltAct then .halt else if d.safeAct false || d.safeAct true then .safe else .run

/-- The idle time of the Barker's idle policy is 0 from now (R292). -/
def Dev.idleReset (d : Dev) : Dev := { d with f.brk.idleFrom := d.now }

/-- A Rest entry that a SAFE or HALT reaction overtakes before the F-side confirms completes WRONG_STATE (R4, R278). -/
def Dev.restAbort (d : Dev) : Dev :=
  match d.h.restEntry with
  | some e =>
    let d1 := { d.idleReset with h.restEntry := none }
    match e.tag with
    | some g => d1.finish g stWRONG_STATE 0
    | none => d1
  | none => d

/-- The device state follows the reactions in force (R2, R3). BOOT, SETTINGS_HOLD, REST, STANDBY and OFF are not left by
a reaction alone (R16, R273). A held link is released when HALT ends (R62). -/
def Dev.followReactions (d : Dev) : Dev :=
  match d.h.dev with
  | .run | .safe | .halt =>
    let s := d.reactState
    let d0 := if s = .run then d else d.restAbort
    let d1 := { d0 with h.dev := s, h.ranOnce := d0.h.ranOnce || s == .run, f.ranOnce := d0.f.ranOnce || s == .run }
    if s = .halt then (if d.h.dev = .halt then d1 else d1.haltBegin)
    else if d.h.dev = .halt then ((d1.haltEntries).drainBulk .h 16).drainBulk .f 16
    else d1
  | _ => d

/-! ## FAULT pins (R269 to R271) -/

/-- A pulse of a die's FAULT pin begins, or begins again (R269). A mode of RELEASE returns to FOLLOW at the start of the
pin's pulse (R270): for FAULT_H_N in SN_ACK, for FAULT_F_N in the shadow's copies. -/
def Dev.pulse (d : Dev) (x : Die) : Dev :=
  match x with
  | .h =>
    let fix := fun (d : Dev) (fn : Func) =>
      let F := Fld.SN_ACK_H_MODE.of fn
      if d.fld F = 2 then d.setFld F 0 else d
    fix (fix { d with h.pulse := some d.now } false) true
  | .f =>
    let fix := fun (d : Dev) (fn : Func) =>
      let k := keyOf fn Reg.SN_ACK
      if bitsOf (d.shadow k).toNat 2 2 = 2 then d.setShadow k (setBits (d.shadow k) 2 2 0) else d
    fix (fix { d with f.pulse := some d.now } false) true

/-- The H-side learns that a pulse of FAULT_F_N has begun: a RELEASE in its F_MODE copies becomes FOLLOW (R270). -/
def Dev.learnPulseF (d : Dev) : Dev :=
  let fix := fun (d : Dev) (fn : Func) =>
    let F := Fld.SN_ACK_F_MODE.of fn
    if d.fld F = 2 then d.setFld F 0 else d
  fix (fix d false) true

/-- A SAFE or HALT reaction of a source raised on the die is in force. -/
def Dev.dieReacts (d : Dev) : Die → Bool
  | .h => d.h.sn.any (fun p => 2 ≤ p.2.force)
  | .f => d.f.sn.any (fun p => 2 ≤ p.2.force)

/-- Whether a FAULT pin is driven low (R269 to R271): during a pulse, by HOLD_LOW, by FOLLOW while a SAFE or HALT
reaction raised on the die is in force, and from the die's reset until it first reaches RUN or STANDBY. An unpowered die's
pin is high impedance. -/
def Dev.faultLow (d : Dev) (x : Die) : Bool :=
  let mode := fun fn : Func => match x with
    | .h => d.fld (Fld.SN_ACK_H_MODE.of fn)
    | .f => bitsOf (d.shadow (keyOf fn Reg.SN_ACK)).toNat 2 2
  let powered := match x with | .h => d.h.powered | .f => d.f.powered || d.f.porHeld
  let ran := match x with | .h => d.h.ranOnce | .f => d.f.ranOnce
  let pulsing := match x with | .h => d.h.pulse.isSome | .f => d.f.pulse.isSome
  powered && (!ran || pulsing || mode false == 1 || mode true == 1
    || (d.dieReacts x && (mode false == 0 || mode true == 0)))

/-! ## The end of a condition, and the commanded levels -/

/-- A die sends an SN_EVENT: twice, with one event number (R46, R266). While the link is not up the event waits (R60, R265). -/
def Dev.sendEvent (d : Dev) (x : Die) (i sev : Nat) (active a b : Bool) : Dev :=
  let k := d.bulk x
  if d.h.link.up then
    let c := Cell.snEvent k.evNum i sev active a b
    ((d.setBulk x { k with evNum := (k.evNum + 1) % 32 }).emitCell x c).emitCell x c
  else d.setBulk x { k with evWait := k.evWait ++ [(i, sev, active, a, b)] }

/-- The events that waited go out in their order once the link is up (R265). -/
def Dev.sendWaiting (d : Dev) (x : Die) : Dev :=
  (d.bulk x).evWait.foldl (fun d e => d.sendEvent x e.1 e.2.1 e.2.2.1 e.2.2.2.1 e.2.2.2.2)
    (d.setBulk x { d.bulk x with evWait := [] })

/-- A lasting source's condition ends on a die (R259): the quiet period is measured from here. For a source at INFO the
end is reported (R266). -/
def Dev.condEnd (d : Dev) (x : Die) (i : Nat) : Dev :=
  let s := d.src x i
  if !s.active then d
  else
    let d1 := d.setSrc x i { s with active := false, last := d.now }
    if s.force = 0 then d1.sendEvent x i 0 false s.scA s.scB else d1

/-- The commanded levels are taken anew: channels under a condition of Table CH-3 enter hold, a channel not held has driven its level
(R157), each channel whose commanded level changes is timed, every compared channel gets a comparison sample when one has
changed (R144), and a channel that stops being compared loses its mismatch bit and count (R145). -/
def Dev.pins (d : Dev) : Dev :=
  let c := { d.f.ch with held := d.f.ch.held ||| d.holdMask }
  let lv := c.levels
  let changed := (c.cmd ^^^ lv.1) ||| (c.cmdOn ^^^ lv.2)
  let live := lv.2 &&& ~~~c.held
  let c0 := { c with
    cmd := lv.1
    cmdOn := lv.2
    lastDrv := (c.lastDrv &&& ~~~live) ||| (lv.1 &&& live)
    driven := c.driven ||| live
    cmdAt := (List.range 48).foldl
      (fun t n => if changed &&& chBit n = 0 then t else t.set (fun _ => 0) n d.now) c.cmdAt }
  let c1 := { c0 with cmp := c0.compared }
  let dropped := d.f.ch.cmp &&& ~~~c1.cmp
  let d0 : Dev := { d with f.ch := c1 }
  let d1 := if changed = 0 then d0 else d0.addDue c1.cmp
  if dropped = 0 then d1
  else
    let mism := d1.mask48 Reg.CH_PIN_MISM_LO Reg.CH_PIN_MISM_HI &&& ~~~dropped
    let d2 := d1.setMask48 Reg.CH_PIN_MISM_LO Reg.CH_PIN_MISM_HI mism
    let d3 := { d2 with f.ch.mismCnt := d2.f.ch.mismCnt.filter (fun p => dropped &&& chBit p.1 == 0) }
    if mism = 0 then d3.condEnd .f Sn.CHK_PIN else d3

/-! ## Wake (R281, R291) -/

/-- Both dies have begun to wake: the link trains (R57, R63). -/
def Dev.wakeTrain (d : Dev) : Dev :=
  if d.f.brk.awakeF && d.f.brk.awakeH then { d with h.link.training := true } else d

/-- The H-side wakes: it asserts CLKREQ_N unless the host has (R82, R281). -/
def Dev.wakeH (d : Dev) (host : Bool) : Dev :=
  if d.f.brk.awakeH then d
  else
    let d1 := if host then d else d.emit .clkreq
    ({ d1 with f.brk.awakeH := true, h.pm := .l0 }).wakeTrain

/-- The F-side wakes. -/
def Dev.wakeF (d : Dev) : Dev := ({ d with f.brk.awakeF := true }).wakeTrain

/-- A wake event in REST (R281, R291): its cause is recorded, the first one sets the wake's instant, and the die that recognises
it asserts the beacon. Sources: 0 BARKER, 1 PCIE, 2 TWP, 3 SAFETY. -/
def Dev.wake (d : Dev) (x : Die) (src : Nat) : Dev :=
  if d.f.ch.rest.isNone then d
  else
    let v := d.fld Fld.BRK_WAKE_SRC
    let d1 := if bitOf v src then d else d.setFld Fld.BRK_WAKE_SRC (v + 2 ^ src)
    let d2 := if d1.f.brk.wakeAt.isSome then d1 else { d1 with f.brk.wakeAt := some d.now }
    let d3 := d2.emit (.wakeBeacon x)
    match x with
    | .h => d3.wakeH (src == 1)
    | .f => d3.wakeF

/-! ## The host's register writes (R10, R88, R89, R372) -/

/-- A request of the host reaches the endpoint: any access ends L1.2, which in REST is a wake event (R281). -/
def Dev.hostAccess (d : Dev) : Dev := if d.h.dev == .off || d.h.boot.perst then d else d.wake .h 1

/-- In BOOT a host's BAR0 write is ignored but for the staging registers in RECOVERY (R372). -/
def Dev.bootAllows (d : Dev) (off : Nat) : Bool :=
  d.h.dev != .boot || (d.flag Fld.FW_STATUS_RECOVERY && ((0x1800 ≤ off && off < 0x1900) || (0x8000 ≤ off && off < 0xC000)))

/-- A host's write to an H-side register: it acts where the endpoint takes it and the boot allows it, else it is ignored. -/
def Dev.hostDo (d : Dev) (fn : Func) (off : Nat) (g : Dev → Dev) : Dev :=
  let d1 := d.hostAccess
  if d1.barOpen fn && d1.bootAllows off then g d1 else d1

/-! ## Activation (R258 to R266, R272) -/

/-- The latch set of a function. -/
def latchFld (fn : Func) (i : Nat) : Fld := ⟨if fn then Reg.SN_LATCH_B (i / 32) else Reg.SN_LATCH_A (i / 32), i % 32, 1⟩

/-- The H-side records an activation (R272): both latch bits, a V2 message for each that was 0, LAST and LAST_SEV, and the
device state. -/
def Dev.record (d : Dev) (i sev : Nat) : Dev :=
  let one := fun (d : Dev) (fn : Func) =>
    if d.flag (latchFld fn i) then d else (d.setFld (latchFld fn i) 1).irq fn 2
  (((one (one d false) true).setFld Fld.SN_STATUS_LAST i).setFld Fld.SN_STATUS_LAST_SEV sev).followReactions

/-- A reaction that starts or rises to SAFE or HALT pulses the die's FAULT pin (R269) and wakes a resting device (R281). -/
def Dev.startPulse (d : Dev) (x : Die) (on : Bool) : Dev := if on then (d.pulse x).wake x 3 else d

/-- A reaction that starts or escalates is sent to the other die; the H-side records its own, the F-side applies its own to the
pins. -/
def Dev.announce (d : Dev) (x : Die) (i f : Nat) (a b : Bool) : Dev :=
  let d1 := d.sendEvent x i f true a b
  match x with
  | .h => d1.record i f
  | .f => d1.pins

/-- An activation at INFO within 10 µs of the last one reported joins it (R266). -/
def Src.merged (s : Src) (now : Nat) : Bool :=
  match s.infoAt with
  | some t => decide (now < t + 10 * usCycles)
  | none => false

/-- An activation at INFO (R261, R266): one is reported per 10 µs, and of a lasting source its beginning alone; a second
function's occurrence joins its scope (R260). -/
def Dev.raiseInfo (d : Dev) (x : Die) (i : Nat) (a b : Bool) : Dev :=
  let s := d.src x i
  let lasting := (srcRow i).lasting
  let more := lasting && s.active
  let s1 := { s with active := lasting, last := d.now, scA := a || (more && s.scA), scB := b || (more && s.scB) }
  if s.merged d.now || more then d.setSrc x i s1
  else
    let d1 := (d.setSrc x i { s1 with infoAt := some d.now }).sendEvent x i 0 true a b
    match x with
    | .h => d1.record i 0
    | .f => d1

/-- The scope of a reaction after an activation (R260): that of every occurrence since it began. -/
def Src.widen (s : Src) (a b : Bool) : Bool × Bool := if s.force = 0 then (a, b) else (s.scA || a, s.scB || b)

/-- An activation at DEGRADE or higher, or under a reaction in force: the reaction starts, or escalates when the severity rises or
the scope widens (R263). -/
def Dev.raiseForce (d : Dev) (x : Die) (i sev : Nat) (a b : Bool) : Dev :=
  let s := d.src x i
  let f := max s.force sev
  let sc := s.widen a b
  let d1 := d.setSrc x i { s with active := (srcRow i).lasting, last := d.now, force := f, scA := sc.1, scB := sc.2 }
  let rises := decide (s.force < f)
  if rises || (sc.1 != s.scA) || (sc.2 != s.scB) then
    (d1.startPulse x (rises && decide (2 ≤ f))).announce x i f sc.1 sc.2
  else d1

/-- A source becomes active on a die with a scope (R259 to R269). -/
def Dev.raise (d : Dev) (x : Die) (i : Nat) (a b : Bool) : Dev :=
  if d.sevOf x i = 0 ∧ (d.src x i).force = 0 then d.raiseInfo x i a b else d.raiseForce x i (d.sevOf x i) a b

/-- A source with both functions in scope, or with none stated (R260). -/
def Dev.raiseBoth (d : Dev) (x : Die) (i : Nat) : Dev := d.raise x i true true

/-- A source whose scope is one function. -/
def Dev.raiseFn (d : Dev) (x : Die) (i : Nat) (fn : Func) : Dev := d.raise x i (!fn) fn

/-- A source whose scope is the owner of a resource, by its code; no one's resource gives both (R260). -/
def Dev.raiseCode (d : Dev) (x : Die) (i code : Nat) : Dev :=
  if code = 1 then d.raise x i true false else if code = 2 then d.raise x i false true else d.raiseBoth x i

/-- A source of the F-side whose scope is the owner of a port or a timer, as the shadow knows it (R260, R264). -/
def Dev.raiseOwner (d : Dev) (i : Nat) (F : Fld) : Dev := d.raiseCode .f i (bitsOf (d.shadow F.off).toNat F.lo F.w)

/-- The functions that own channels of a mask, or both when none of them does (R260). -/
def Dev.maskScope (d : Dev) (m : W48) : Bool × Bool :=
  let a := (d.f.ch.ownMask false &&& m) != 0
  let b := (d.f.ch.ownMask true &&& m) != 0
  (a || !b, b || !a)

/-- The functions for which a lasting condition holds now (R260): for the channel sources the owners of the channels concerned, for
another source the functions named since it began. -/
def Dev.condScope (d : Dev) (x : Die) (i : Nat) : Bool × Bool :=
  if i = Sn.CHK_PIN then d.maskScope (d.mask48 Reg.CH_PIN_MISM_LO Reg.CH_PIN_MISM_HI)
  else if i = Sn.CH_OVERLOAD then d.maskScope (d.mask48 Reg.CH_OVL_LO Reg.CH_OVL_HI)
  else if i = Sn.CH_VIO_LOW then
    d.maskScope ((List.range 6).foldl (fun m b => if bitOf (d.fld Fld.CH_STATUS_VIO_LOW) b then m ||| bankMask b else m) 0)
  else ((d.src x i).scA, (d.src x i).scB)

/-- Raised severities act on the lasting sources of a register whose condition holds on a die (R263): the reaction starts, for the
functions concerned, or rises. -/
def Dev.sevRaised (d : Dev) (x : Die) (i : Nat) : Dev :=
  (List.range 16).foldl (fun d k =>
    let j := 16 * i + k
    let s := d.src x j
    let v := sevIn (d.snCopy x (Reg.SN_SEV i)) j
    let sc := if s.force = 0 then d.condScope x j else (s.scA, s.scB)
    if s.active && decide (s.force < v) then d.raiseForce x j v sc.1 sc.2 else d) d

/-! ## Recovery (R267, R268) -/

/-- A reaction has ended on both dies: the recovery counter counts it; on reaching 0xFFFF it sets SAT and raises
SN_REC_SAT once (R268). The cycle is noted for a clear that comes in it (R13). SN_INFORCE has cleared a bit, which both functions hear of on V2 (R272). -/
def Dev.recover (d : Dev) (i : Nat) : Dev :=
  let F := Fld.SN_REC_COUNT (i / 2) (i % 2)
  let v := d.fld F
  let d1 :=
    if v = 0xFFFF then d
    else
      let d2 := d.setFld F (v + 1)
      if v + 1 = 0xFFFF then (d2.setFld ⟨Reg.SN_REC_SAT (i / 32), i % 32, 1⟩ 1).raiseBoth .h Sn.SN_REC_SAT else d2
  (({ d1 with h.recAt := d1.h.recAt.set (fun _ => 0) i (d.now + 1) }).irqBoth 2).followReactions

/-- The reaction of a source ends on a die: the end is sent, holds may end at the next commit, and on the H-side the
recovery is counted once the other die's reaction has ended too. -/
def Dev.endReaction (d : Dev) (x : Die) (i : Nat) : Dev :=
  let s := d.src x i
  let d1 := ((d.setSrc x i { s with force := 0, scA := false, scB := false }).sendEvent x i 0 false s.scA s.scB).idleReset
  match x with
  | .h => if (d1.srcFAtH i).force = 0 then d1.recover i else d1.followReactions
  | .f => d1

end Sys2Proof.Machine
end

