-- ==== Sys2Proof/Machine/Operands.lean ====
section
/-!
DEFINITION. The operand forms: the payload fields of each opcode (Tables RM-3 to RM-7) and the admission checks on
them (R106 to R109, R416), and the outcome of a field-window write.
-/

namespace Sys2Proof

/-- Opcodes (Table RM-5). -/
def opNOP : Nat := 0x00
def opOUT_WRITE : Nat := 0x01
def opCH_SAMPLE : Nat := 0x02
def opCH_CAPTURE : Nat := 0x03
def opSLOT_ARM : Nat := 0x10
def opSLOT_DISARM : Nat := 0x11
def opTOD_LOAD : Nat := 0x12
def opFSP_ENTRY_LOAD : Nat := 0x20
def opFSP_RUN : Nat := 0x21
def opFSP_TARGET : Nat := 0x22
def opTWP_XFER : Nat := 0x30
def opTWP_TARGET : Nat := 0x31
def opFT_CAPTURE : Nat := 0x40
def opMGMT : Nat := 0xE0

/-- Management commands (Table RM-7). -/
def cmdREST_ENTER : Nat := 0x0001
def cmdSETTINGS_COMMIT : Nat := 0x0010
def cmdCAL_WRITE : Nat := 0x0011
def cmdFW_INSTALL : Nat := 0x0020
def cmdFW_FALLBACK : Nat := 0x0021
def cmdOWNER_ENROL : Nat := 0x0030
def cmdREKEY : Nat := 0x0031
def cmdMIR_TAKEOVER : Nat := 0x0040

/-- The low 48 bits of a quadword. -/
def low48 (q : Quad) : W48 := q.extractLsb' 0 48

/-- Payload fields (Table RM-6). -/
def Desc.value (e : Desc) : Container := Container.ofBits e.q2
def Desc.update (e : Desc) : Nat := bitsOf e.opt 0 2
def Desc.outMask (e : Desc) : W48 := low48 e.q3
def Desc.chMask (e : Desc) : W48 := low48 e.q2
def Desc.capEdge (e : Desc) : Nat := bitsOf e.q3.toNat 0 2
def Desc.capTimeout (e : Desc) : Nat := bitsOf e.q3.toNat 32 32
def Desc.target (e : Desc) : Nat := bitsOf e.q2.toNat 0 48
def Desc.frac (e : Desc) : Nat := bitsOf e.q2.toNat 48 8
def Desc.qual (e : Desc) : Nat := bitsOf e.q2.toNat 56 2
def Desc.repeats (e : Desc) : Bool := bitOf e.q2.toNat 58
def Desc.lateDrop (e : Desc) : Bool := bitOf e.q2.toNat 59
def Desc.notify (e : Desc) : Bool := bitOf e.q2.toNat 60
def Desc.lead (e : Desc) : Nat := bitsOf e.q3.toNat 0 24
def Desc.action (e : Desc) : Nat := bitsOf e.q3.toNat 24 4
def Desc.slotValue (e : Desc) : Container := Container.ofBits e.q4
def Desc.operand1 (e : Desc) : W48 := low48 e.q5
def Desc.entry (e : Desc) : Nat := bitsOf e.opt 0 8
def Desc.ectrl (e : Desc) : Nat := bitsOf e.q6.toNat 0 32
def Desc.txWords (e : Desc) : Nat := bitsOf e.q6.toNat 32 16
def Desc.rxCap (e : Desc) : Nat := bitsOf e.q2.toNat 0 16
def Desc.tgtTxWords (e : Desc) : Nat := bitsOf e.q2.toNat 0 16
def Desc.twpAddr (e : Desc) : Nat := bitsOf e.opt 0 10
def Desc.twpA10 (e : Desc) : Bool := bitOf e.opt 10
def Desc.twpRetries (e : Desc) : Nat := bitsOf e.opt 11 3
def Desc.twpWrLen (e : Desc) : Nat := bitsOf e.q2.toNat 0 6
def Desc.twpRdLen (e : Desc) : Nat := bitsOf e.q2.toNat 8 8
def Desc.cmd (e : Desc) : Nat := e.opt

/-- The eight phase words of an FSP_ENTRY_LOAD. -/
def Desc.phases (e : Desc) : List Nat :=
  [e.q2, e.q3, e.q4, e.q5].flatMap (fun q => [bitsOf q.toNat 0 32, bitsOf q.toNat 32 32])

/-- The arguments of Table NVS-4. -/
def Desc.bodyCrc (e : Desc) : Nat := bitsOf e.q2.toNat 0 32
def Desc.bodyLen (e : Desc) : Nat := bitsOf e.q3.toNat 0 16
def Desc.bodySchema (e : Desc) : Nat := bitsOf e.q3.toNat 16 16
def Desc.bodyProfile (e : Desc) : Nat := bitsOf e.q3.toNat 32 16

/-- The arguments of FW_INSTALL (R319), of the owner commands (R339, R340) and of MIR_TAKEOVER (R357). -/
def Desc.nChunks (e : Desc) : Nat := bitsOf e.q2.toNat 0 7
def Desc.restart (e : Desc) : Bool := bitOf e.q2.toNat 8
def Desc.slot (e : Desc) : Bool := bitOf e.q2.toNat 9
def Desc.ownerLen (e : Desc) : Nat := bitsOf e.q2.toNat 0 16
def Desc.force (e : Desc) : Bool := bitOf e.q2.toNat 0
def Desc.forceStored (e : Desc) : Bool := bitOf e.q2.toNat 1

/-- The payload and argument quadwords. -/
def Desc.args (e : Desc) : List Quad := [e.q2, e.q3, e.q4, e.q5, e.q6, e.q7]

/-- The DEST that an opcode takes (Table RM-5, Table RM-4). -/
def destOk (opcode dest : Nat) : Bool :=
  if opcode = opNOP then dest == 0x000
  else if opcode = opOUT_WRITE then dest == 0x100
  else if opcode = opCH_SAMPLE ∨ opcode = opCH_CAPTURE then dest == 0x101
  else if opcode = opSLOT_ARM ∨ opcode = opSLOT_DISARM then decide (dest < 0x100)
  else if opcode = opTOD_LOAD then dest == 0x130
  else if opcode = opFSP_ENTRY_LOAD ∨ opcode = opFSP_RUN then dest == 0x118
  else if opcode = opFSP_TARGET then 0x110 ≤ dest && dest < 0x118
  else if opcode = opTWP_XFER then dest == 0x120
  else if opcode = opTWP_TARGET then dest == 0x121
  else if opcode = opFT_CAPTURE then 0x128 ≤ dest && dest < 0x130
  else if opcode = opMGMT then dest == 0x1F0
  else false

/-- The bits of OPT and of QW2 to QW7 that Table RM-6 names for an opcode. -/
def namedBits (opcode : Nat) : BitVec 16 × List Quad :=
  let w48 : Quad := 0xFFFFFFFFFFFF
  let all : Quad := 0xFFFFFFFFFFFFFFFF
  if opcode = opOUT_WRITE then (0x0003, [all, w48, 0, 0, 0, 0])
  else if opcode = opCH_SAMPLE then (0, [w48, 0, 0, 0, 0, 0])
  else if opcode = opCH_CAPTURE then (0xFFFF, [w48, 0xFFFFFFFF00000003, 0, 0, 0, 0])
  else if opcode = opSLOT_ARM then (0, [0x1FFFFFFFFFFFFFFF, 0xFFFFFFF, all, w48, 0, 0])
  else if opcode = opTOD_LOAD then (0, [all, 0, 0, 0, 0, 0])
  else if opcode = opFSP_ENTRY_LOAD then (0x00FF, [all, all, all, all, w48, 0])
  else if opcode = opFSP_RUN then (0x00FF, [0xFFFF, 0, 0, 0, 0, 0])
  else if opcode = opFSP_TARGET then (0, [0xFFFF, all, 0xFFFF, 0, 0, 0])
  else if opcode = opTWP_XFER then (0x3FFF, [0xFF3F, all, all, all, all, 0])
  else if opcode = opTWP_TARGET then (0, [0xFF3F, all, all, all, all, 0])
  else (0, [0, 0, 0, 0, 0, 0])

/-- A bit outside those that Table RM-6 names for the opcode is 1 (R107, R416). MGMT arguments are not examined. -/
def Desc.strayBits (e : Desc) : Bool :=
  if e.opcode = opMGMT then false
  else
    let n := namedBits e.opcode
    (BitVec.ofNat 16 e.opt &&& ~~~n.1) != 0 || (e.args.zip n.2).any (fun p => (p.1 &&& ~~~p.2) != 0)

/-- An action's OPERAND1 bits beyond its operand, and an OPERAND0 outside CHANNEL (Table RM-6). -/
def Desc.actionStray (e : Desc) : Bool :=
  let o := e.operand1.toNat
  (e.action != 1 && e.q4 != 0) ||
  (if e.action = 2 then 2 ^ 8 ≤ o else if e.action = 4 then 2 ^ 8 ≤ o else if e.action = 5 then 2 ^ 32 ≤ o else false)

/-- The descriptor uses its buffer (R416): an opcode that names BUF uses it unless its lengths call for no transfer. -/
def Desc.usesBuf (e : Desc) : Bool :=
  if e.opcode = opCH_CAPTURE then true
  else if e.opcode = opFSP_RUN then e.rxCap != 0
  else if e.opcode = opFSP_TARGET then e.tgtTxWords != 0
  else if e.opcode = opFSP_ENTRY_LOAD then e.txWords != 0
  else if e.opcode = opTWP_XFER ∨ e.opcode = opTWP_TARGET then e.twpRdLen != 0
  else false

/-- An opcode that names no buffer in Table RM-6. -/
def Desc.noBuf (e : Desc) : Bool :=
  [opNOP, opOUT_WRITE, opCH_SAMPLE, opSLOT_ARM, opSLOT_DISARM, opTOD_LOAD, opFT_CAPTURE].contains e.opcode

/-- A management command that Table RM-7 lists. -/
def cmdListed (cmd : Nat) : Bool :=
  [cmdREST_ENTER, cmdSETTINGS_COMMIT, cmdCAL_WRITE, cmdFW_INSTALL, cmdFW_FALLBACK, cmdOWNER_ENROL, cmdREKEY,
    cmdMIR_TAKEOVER].contains cmd

/-- A length outside the range that Table RM-6 states for it: TX_WORDS 0-8192, WR_LEN and TX_LEN 0-32 bytes. -/
def Desc.lengthBad (e : Desc) : Bool :=
  (e.opcode == opFSP_ENTRY_LOAD && decide (8192 < e.txWords))
    || ((e.opcode == opTWP_XFER || e.opcode == opTWP_TARGET) && decide (32 < e.twpWrLen))

/-- The BAD_DESC cases that admission finds from the descriptor alone (R104, R106, R107, R416, Table RM-6). -/
def Desc.bad (e : Desc) : Bool :=
  !destOk e.opcode e.dest || bitsOf e.q0.toNat 11 5 != 0 || bitsOf e.q0.toNat 41 7 != 0 || e.strayBits
  || (e.noBuf && e.q1 != 0) || (e.usesBuf && e.buf % 8 != 0)
  || (e.opcode == opOUT_WRITE && decide (2 ≤ e.update))
  || (e.opcode == opCH_CAPTURE && (e.buf == 0 || e.opt == 0 || e.capEdge == 0))
  || (e.opcode == opSLOT_ARM &&
      (e.qual == 0 || e.action == 0 || decide (5 < e.action) || (e.notify && !e.repeats) || e.actionStray))
  || (e.opcode == opMGMT && !cmdListed e.cmd) || e.lengthBad

/-- Under MAKE_CHK the Ringmaster makes the check of every container that the descriptor holds (R105, R138). -/
def Desc.made (e : Desc) (fn : Func) (n : Nat) : Desc :=
  let mk := fun q : Quad => (Container.make (Container.ofBits q).word fn n e.dest).bits
  if !e.makeChk then e
  else if e.opcode = opOUT_WRITE ∨ e.opcode = opTOD_LOAD then { e with q2 := mk e.q2 }
  else if e.opcode = opSLOT_ARM ∧ e.action = 1 then { e with q4 := mk e.q4 }
  else e

/-- The length in bytes of the body that a management command reads at BUF; none reads none. -/
def Desc.bodyBytes (e : Desc) : Option Nat :=
  if e.cmd = cmdSETTINGS_COMMIT ∨ e.cmd = cmdCAL_WRITE then some e.bodyLen
  else if e.cmd = cmdOWNER_ENROL ∨ e.cmd = cmdREKEY then some e.ownerLen
  else none

/-- An operation is opened by an OP_OPEN cell; a NOP ends there and a MGMT command runs on the H-side. -/
def Desc.crosses (e : Desc) : Bool := e.opcode != opNOP && e.opcode != opMGMT

/-- The opcodes whose RESULT is a container (Table RM-10). -/
def Desc.boxed (e : Desc) : Bool := e.opcode == opOUT_WRITE || e.opcode == opCH_SAMPLE || e.opcode == opFT_CAPTURE

/-- Where an operation's containers are written. -/
def Desc.writeAt (e : Desc) : Nat := if e.opcode = opFSP_TARGET then e.q3.toNat else e.buf

end Sys2Proof

namespace Sys2Proof.Machine

/-- The outcome of a field-window write at the F-side: applied, or refused with a cause of Table PRZ-9. -/
abbrev FwOut := Except Nat Dev

/-- A write from a function that does not own the resource: cause 1. -/
def notOwner : FwOut := .error 1

/-- A write to a locked field: cause 2. -/
def lockedOut : FwOut := .error 2

/-- A write that the block's rules refuse: cause 3. -/
def badValue : FwOut := .error 3

/-- The write would change bits that a lock protects (R415): RWL bits in `m`. -/
def changes (old data m : Word) : Bool := (old &&& m) != (data &&& m)

/-- An F-side operation of an opcode that has not ended. -/
def Dev.liveOp (d : Dev) (tag opcode : Nat) : Option FOp :=
  match d.fop tag with
  | some o => if o.ended.isNone && o.desc.opcode == opcode then some o else none
  | none => none

/-- An opened operation whose block has not taken it yet; a REFRESHED OUT_WRITE acts through its image (R139). -/
def Dev.untaken (d : Dev) (tag : Nat) (o : Op) : Bool :=
  o.stage != .admitted && o.desc.crosses && !o.ended && !(o.desc.opcode == opOUT_WRITE && o.desc.update != 1)
    && (match d.fop tag with | some x => !x.begun && x.ended.isNone | none => true)

/-- No operation of the same DEST that was opened before waits for its block (R113): operations of one DEST take effect in the order
in which they were opened. -/
def Dev.effectTurn (d : Dev) (tag : Nat) : Bool :=
  match d.op tag with
  | some o => d.opsList.all (fun p =>
      !(decide (p.2.ord < o.ord) && p.2.desc.dest == o.desc.dest && d.untaken p.1 p.2))
  | none => true

/-- An F-side operation of an opcode that its block has not taken yet, in its turn. -/
def Dev.freshOp (d : Dev) (tag opcode : Nat) : Option FOp :=
  match d.liveOp tag opcode with
  | some o => if o.begun || !d.effectTurn tag then none else some o
  | none => none

/-- An operation on the H-side, opened, of an opcode. -/
def Dev.openedOp (d : Dev) (tag opcode : Nat) : Option Op :=
  match d.op tag with
  | some o => if o.stage == .opened && o.desc.opcode == opcode then some o else none
  | none => none

end Sys2Proof.Machine
end

