-- ==== Sys2Proof/Machine/Channels.lean ====
section
/-!
DEFINITION. The 48 isolated channels and the field end of the integrity chain (R139 to R171): verification before the
pins, immediate writes, samples, captures, comparison samples, bank supplies, overload and configuration writes.
-/

namespace Sys2Proof.Machine

/-! ## The pin driver stage (R140, R141) -/

/-- Sources of a refused word (CH_CHK_STATUS.PATH_SRC). -/
def pathREF_A : Nat := 0
def pathREF_B : Nat := 1
def pathIMMEDIATE : Nat := 2
def pathSLOT : Nat := 3
def pathFSP : Nat := 4
def pathTOD : Nat := 5

/-- A word is refused at the F-side (R141): PATH_FAIL, the source and the function are recorded, the counter counts and
CHK_PATH is raised. -/
def Dev.refuse (d : Dev) (source : Nat) (fn : Func) (slot : Nat) : Dev :=
  let d1 := ((d.setFld Fld.CH_CHK_STATUS_PATH_FAIL 1).setFld Fld.CH_CHK_STATUS_PATH_SRC source).setFld
    Fld.CH_CHK_STATUS_PATH_FUNC fn.idx
  let d2 := if source = pathSLOT then d1.setFld Fld.CH_CHK_STATUS_PATH_SLOT slot else d1
  (d2.bump Fld.CH_CHK_PATH_CNT_COUNT Fld.CH_CHK_SAT_SAT_PATH).raiseFn .f Sn.CHK_PATH fn

/-- A function's current word, and the channels with it replaced. -/
def Chans.word (c : Chans) (fn : Func) : W48 := if fn then c.wordB else c.wordA
def Chans.setWord (c : Chans) (fn : Func) (w : W48) : Chans := if fn then { c with wordB := w } else { c with wordA := w }

/-- The channels that IMMEDIATE writes have set in this cycle, and those that slots have, from a slot number on (R155). -/
def Chans.immNow (c : Chans) (now : Nat) : W48 := if c.cyc = now then c.cycImm else 0
def Chans.slotNow (c : Chans) (now from_ : Nat) : W48 :=
  if c.cyc = now then c.cycSlot.foldl (fun m p => if from_ ≤ p.1 then m ||| p.2 else m) 0 else 0

/-- The channels that a slot of a higher number has set in this cycle (R35). -/
def Chans.setHigher (c : Chans) (now n : Nat) : W48 := c.slotNow now (n + 1)

/-- An IMMEDIATE write, or a slot, sets channels in this cycle. -/
def Chans.noteImm (c : Chans) (now : Nat) (m : W48) : Chans :=
  { c with cyc := now, cycImm := c.immNow now ||| m, cycSlot := if c.cyc = now then c.cycSlot else [] }
def Chans.noteSlot (c : Chans) (now : Nat) (m : W48) (n : Nat) : Chans :=
  { c with cyc := now, cycImm := c.immNow now, cycSlot := (if c.cyc = now then c.cycSlot else []).upd (fun _ => 0) n (fun x => x ||| m) }

/-- Bits of a mask enter a function's current word until the next refresh commit (R153). -/
def Dev.applyBits (d : Dev) (fn : Func) (value mask : W48) : Dev :=
  ({ d with f.ch := d.f.ch.setWord fn ((d.f.ch.word fn &&& ~~~mask) ||| (value &&& mask)) }).pins

/-- The levels that CH_LEVEL, samples and captures read (R150, R152): 0 in a bank whose supply is low. -/
def Dev.levels (d : Dev) : W48 :=
  (List.range 6).foldl (fun m b => if bitOf (d.fld Fld.CH_STATUS_VIO_LOW) b then m &&& ~~~bankMask b else m) d.f.ch.level

/-- What a channel's driver does at the ball (Tables CH-1, CH-4; R157, R168): nothing, LOW or HIGH. An open-drain HIGH is a
released line; a driver turned off by overload stays off; an unpowered F-side drives nothing (R169). -/
def Dev.drive (d : Dev) (n : Nat) : Option Bool :=
  let c := d.f.ch
  let on := c.cmdOn &&& chBit n != 0
  let lv := c.cmd &&& chBit n != 0
  let ovl := d.mask48 Reg.CH_OVL_LO Reg.CH_OVL_HI &&& chBit n != 0
  if !d.f.powered || !on || ovl then none
  else if cfgMode (c.cfgAt n) = 3 && lv then none
  else some lv

/-! ## OUT_WRITE at the pins (R145, R155, R158) -/

/-- The levels in an OUT_WRITE's RESULT: the function's owned channels (R145, Table RM-10). -/
def Dev.outResult (d : Dev) (tag : Nat) (rb : W48) : Quad :=
  match d.fop tag with
  | some o => o.result (rb &&& d.f.ch.ownMask o.fn)
  | none => 0

/-- The status of a judged OUT_WRITE: WRONG_STATE if a masked output channel was held at its commit (R158), CHK_PIN if a
sample mismatched (R145), else OK. -/
def OutWait.status (w : OutWait) : Nat := if w.held then stWRONG_STATE else if w.bad then stCHK_PIN else stOK

/-- An OUT_WRITE's word has been committed: each compared channel of its mask is to be judged at its own first sample (R145), and
whether a masked channel in an output mode is held now is taken down (R158). With none to judge it waits for the sample of its
mask's banks all the same, whose readback its RESULT holds (R155). -/
def Dev.judge (d : Dev) (tag : Nat) (fn : Func) (mask : W48) : Dev :=
  let c := d.f.ch
  let held := (mask &&& c.outMask &&& c.held) != 0
  let m := mask &&& c.compared
  let left := if m != 0 then m else if mask != 0 then mask else bankMask 0
  ({ d with f.ch.outw := c.outw ++ [(⟨tag, fn, left, mask, d.now, false, held⟩ : OutWait)] }).addDue left

/-- One bank's comparison sample (R143 to R145) with the readback levels `rb`; `pull` are the channels whose own pull-down is on,
which is what an open-drain channel is judged by while it is commanded HIGH (Table CHK-3). -/
def Dev.sampleBank (d : Dev) (bank : Nat) (rb pull : W48) : Dev :=
  let c := d.f.ch
  let settle := d.settle bank
  let old := fun n => decide (Tab.get (fun _ => 0) c.cmdAt n + settle ≤ d.now)
  let chs := (List.range 8).map (fun k => 8 * bank + k)
  let sampled := chs.foldl (fun m n => if c.compared &&& chBit n != 0 && old n then m ||| chBit n else m) 0
  let released := c.maskOf (fun w => cfgMode w == 3) &&& c.cmd
  let wrong := sampled &&& (((c.cmd ^^^ rb) &&& ~~~released) ||| (pull &&& released))
  let pinN := d.fld Fld.CH_CHK_CFG_PIN_N
  let d1 := chs.foldl (fun (d : Dev) n =>
    if sampled &&& chBit n = 0 then d
    else if wrong &&& chBit n = 0 then
      let m := d.mask48 Reg.CH_PIN_MISM_LO Reg.CH_PIN_MISM_HI
      let d1 := { d with f.ch.mismCnt := d.f.ch.mismCnt.set (fun _ => 0) n 0 }
      if m &&& chBit n = 0 then d1
      else
        let m1 := m &&& ~~~chBit n
        let d2 := d1.setMask48 Reg.CH_PIN_MISM_LO Reg.CH_PIN_MISM_HI m1
        if m1 = 0 then d2.condEnd .f Sn.CHK_PIN else d2
    else
      let k := Tab.get (fun _ => 0) d.f.ch.mismCnt n + 1
      let d1 := { d with f.ch.mismCnt := d.f.ch.mismCnt.set (fun _ => 0) n k }
      let m := d.mask48 Reg.CH_PIN_MISM_LO Reg.CH_PIN_MISM_HI
      if pinN ≤ k ∧ m &&& chBit n = 0 then
        let d2 := d1.setMask48 Reg.CH_PIN_MISM_LO Reg.CH_PIN_MISM_HI (m ||| chBit n)
        let d3 := (d2.setFld Fld.CH_CHK_STATUS_PIN_FAIL 1).setFld Fld.CH_CHK_STATUS_PIN_CH n
        let w := if n < 16 then c.own0 else if n < 32 then c.own1 else c.own2
        (d3.bump Fld.CH_CHK_PIN_CNT_COUNT Fld.CH_CHK_SAT_SAT_PIN).raiseCode .f Sn.CHK_PIN (bitsOf w.toNat (2 * (n % 16)) 2)
      else d1) d
  let due := d.f.ch.outw.map (fun w =>
    if w.since + settle ≤ d.now then
      { w with left := w.left &&& ~~~bankMask bank, bad := w.bad || (w.left &&& wrong) != 0 }
    else w)
  let done := due.filter (fun w => w.left == 0)
  done.foldl (fun d w => d.endF w.tag w.status (d.outResult w.tag rb))
    { d1 with f.ch.outw := due.filter (fun w => w.left != 0) }

/-- READBACK_SAMPLE (R144, R145): the oldest due sample of a bank is taken with the readback levels `rb` and the pull-downs that are
on. -/
def doReadbackSample (bank : Nat) (rb pull : W48) (t : Nat) (d : Dev) : Dev :=
  let d := d.at t
  match Tab.get (fun _ => []) d.f.ch.due bank with
  | [] => d
  | e :: rest =>
    if d.now < e then d
    else ({ d with f.ch.due := d.f.ch.due.set (fun _ => []) bank rest }).sampleBank bank rb pull

/-- IMMEDIATE_WRITE_APPLY (R140, R154, R155), of a write that has been merged: VALUE is verified under the operation's seed; if it holds, the masked bits
enter the function's word, but for channels that a slot has set in this cycle, and comparison samples fall due, else the word
is refused and the operation completes CHK_PATH. -/
def doImmediateWriteApply (tag : Nat) (value : Container) (t : Nat) (d : Dev) : Dev :=
  let d := d.at t
  match d.freshOp tag opOUT_WRITE with
  | some o =>
    if o.desc.update != 1 || (match d.op tag with | some x => x.stage != .closing | none => true) then d
    else if value.good o.fn o.ring 0x100 then
      let c := d.f.ch
      let m := o.desc.outMask &&& ~~~c.slotNow d.now 0
      let d1 := (({ d with f.ch := c.noteImm d.now m }).setFop tag (some { o with begun := true })).applyBits o.fn value.word m
      (d1.addDue d1.f.ch.compared).judge tag o.fn o.desc.outMask
    else (d.refuse pathIMMEDIATE o.fn 0).endF tag stCHK_PATH 0
  | none => d

/-- CH_SAMPLE (R162): the filtered levels of MASK in one cycle. In REST samples stop (R160). -/
def doChSample (tag : Nat) (t : Nat) (d : Dev) : Dev :=
  let d := d.at t
  match (if d.f.ch.rest.isSome then none else d.freshOp tag opCH_SAMPLE) with
  | some o =>
    let d := d.setFop tag (some { o with begun := true })
    d.endF tag stOK (o.result (d.levels &&& o.desc.chMask))
  | none => d

/-! ## Captures (R163 to R167) -/

/-- A function's open capture, and the device with it replaced. -/
def Dev.cap (d : Dev) (fn : Func) : Option Cap := if fn then d.f.ch.capB else d.f.ch.capA
def Dev.setCap (d : Dev) (fn : Func) (c : Option Cap) : Dev :=
  if fn then { d with f.ch.capB := c } else { d with f.ch.capA := c }

/-- Records or samples are lost: CAP_LOST is set and CH_CAP_LOST raised. -/
def Dev.capLost (d : Dev) (fn : Func) : Dev := (d.setFld Fld.CH_STATUS_CAP_LOST 1).raiseFn .f Sn.CH_CAP_LOST fn

/-- A record takes its place among the unsent ones: last, but an edge record before those of higher channels with the same
timestamp that stand last (R165). -/
def CapRec.place (r : CapRec) (l : List CapRec) : List CapRec :=
  match r.edge with
  | none => l ++ [r]
  | some (t, ch) =>
    let after := (l.reverse.takeWhile (fun x => match x.edge with | some (u, c) => u == t && decide (ch < c) | none => false)).length
    l.take (l.length - after) ++ r :: l.drop (l.length - after)

/-- A record is discarded: the counter counts it (R167). -/
def Dev.capDiscard (d : Dev) : Dev := d.bump Fld.CH_CAP_LOST_CNT_COUNT Fld.CH_CNT_SAT_SAT

/-- A capture record made for a function: queued, or discarded and counted while 64 are unsent (R167). One that comes after the
record that reaches COUNT is counted too, and reported by CAP_LOST alone. -/
def Dev.capRecord (d : Dev) (fn : Func) (edge : Option (Nat × Nat)) (pos q1 : W48) (first : W48) : Dev :=
  match d.cap fn with
  | none => d
  | some c =>
    if c.count ≤ c.made then d.capDiscard.capLost fn
    else if c.unsent.length < 64 && c.lost == 0 then
      match d.fop c.tag with
      | some o =>
        let mk := fun w => Container.make w o.fn o.ring o.desc.dest
        d.setCap fn (some { c with made := c.made + 1, unsent := (CapRec.mk edge (mk pos) (mk q1)).place c.unsent })
      | none => d
    else
      d.capDiscard.setCap fn
        (some { c with lost := min (c.lost + 1) 0xFFFFFF, lostPos := if c.lost = 0 then first else c.lostPos })

/-- The word QW1 of a record (Table CH-5). -/
def recordQ1 (ch edge kind slot low : Nat) : W48 :=
  BitVec.ofNat 48 (ch * 2 ^ 42 + edge * 2 ^ 40 + kind * 2 ^ 38 + slot * 2 ^ 30 + low)

/-- Once space has returned, one LOST record carries the discarded count (R167). -/
def Dev.capFlushLost (d : Dev) (fn : Func) : Dev :=
  match d.cap fn with
  | none => d
  | some c =>
    if c.lost = 0 || decide (64 ≤ c.unsent.length) then d
    else
      let d1 := d.capLost fn
      if c.count ≤ c.made then d1.setCap fn (some { c with lost := 0 })
      else match d1.fop c.tag with
        | some o =>
          let mk := fun w => Container.make w o.fn o.ring o.desc.dest
          d1.setCap fn (some { c with
            made := c.made + 1
            lost := 0
            unsent := c.unsent ++ [⟨none, mk c.lostPos, mk (recordQ1 0 0 2 0 c.lost)⟩] })
        | none => d1

/-- One record is handed to the return bulk stream. -/
def Dev.capSendOne (d : Dev) (fn : Func) : Dev :=
  match d.cap fn with
  | none => d
  | some c =>
    match c.unsent with
    | [] => d
    | r :: rest =>
      let d1 := (d.setCap fn (some { c with unsent := rest, sent := c.sent + 1 })).receive c.tag r.q0.word
      (d1.receive c.tag r.q1.word)

/-- A capture ends with a status: queued records and any LOST record go first, as far as COUNT allows (R160, R167). -/
def Dev.capEnd (d : Dev) (fn : Func) (status : Nat) : Dev :=
  match d.cap fn with
  | none => d
  | some _ =>
    let d1 := (List.range 64).foldl (fun d _ => d.capSendOne fn) d
    let d2 := (d1.capFlushLost fn).capSendOne fn
    match d2.cap fn with
    | some c => (d2.setCap fn none).endF c.tag status (BitVec.ofNat 64 c.sent)
    | none => d2

/-- A capture completes OK once COUNT records have been handed over; what was discarded by then is reported by CAP_LOST
alone. -/
def Dev.capCheck (d : Dev) (fn : Func) : Dev :=
  match d.cap fn with
  | some c =>
    if c.count ≤ c.sent then
      let d1 := if c.lost = 0 then d else d.capLost fn
      (d1.setCap fn none).endF c.tag stOK (BitVec.ofNat 64 c.sent)
    else d
  | none => d

/-- CH_CAPTURE (R163, R277): opens the function's capture; a second one completes BUSY. While the device goes to REST it completes
OK at once; in REST captures stop (R160). -/
def doChCapture (tag : Nat) (t : Nat) (d : Dev) : Dev :=
  let d := d.at t
  match (if d.f.ch.rest.isSome then none else d.freshOp tag opCH_CAPTURE) with
  | some o =>
    let d := d.setFop tag (some { o with begun := true })
    if (d.cap o.fn).isSome then d.endF tag stBUSY 0
    else if d.h.restEntry.isSome then d.endF tag stOK 0
    else
      let tm := o.desc.capTimeout
      d.setCap o.fn (some ⟨tag, o.desc.chMask, o.desc.capEdge, o.desc.opt, 0, 0, o.desc.buf,
        if tm = 0 then none else some (d.now + tm * usCycles), [], 0, 0⟩)
  | none => d

/-- CAPTURE_RECORD_SEND (R167): the oldest queued record is handed over, and a waiting LOST record takes the space. -/
def doCaptureRecordSend (fn : Func) (t : Nat) (d : Dev) : Dev :=
  (((d.at t).capSendOne fn).capFlushLost fn).capCheck fn

/-- CAPTURE_TIMEOUT (R163, R167): at the end of TIMEOUT the capture completes TIMEOUT. -/
def doCaptureTimeout (fn : Func) (t : Nat) (d : Dev) : Dev :=
  let d := d.at t
  match d.cap fn with
  | some c =>
    match c.tEnd with
    | some e => if e ≤ d.now then d.capEnd fn stTIMEOUT else d
    | none => d
  | none => d

/-- The position in effect at an instant and the time since the last count before it, in cycles (R165): SUB saturates,
and reads all ones while the source in use has made no count. -/
def Dev.posAt (d : Dev) (t : Nat) : W48 × Nat :=
  let car := d.f.car
  let past := car.hist.filter (fun e => decide (e.1 ≤ t))
  let pos := match past with | e :: _ => e.2.1 | [] => car.pos
  let sub := match past.find? (fun e => e.2.2) with
    | some e => if car.counted then min (t - e.1) 0xFFFFFF else 0xFFFFFF
    | none => 0xFFFFFF
  (BitVec.ofNat 48 pos, sub)

/-- An accepted edge of a channel makes a record in each open capture that watches it (R163, R165). -/
def Dev.edgeRecord (d : Dev) (ch : Nat) (level : Bool) (raw : Nat) : Dev :=
  let ps := d.posAt raw
  let one := fun (d : Dev) (fn : Func) =>
    match d.cap fn with
    | some c =>
      let wants := if level then c.edge % 2 == 1 else decide (2 ≤ c.edge)
      if (c.mask &&& d.f.ch.ownMask fn &&& chBit ch) != 0 && wants then
        (d.capRecord fn (some (raw, ch)) ps.1 (recordQ1 ch (if level then 1 else 2) 0 0 ps.2) ps.1)
      else d
    | none => d
  one (one d false) true

/-! ## Supplies and overload (R150, R168) -/

/-- VIO_LOW_DETECT (R150). -/
def doVioLowDetect (bank : Nat) (t : Nat) (d : Dev) : Dev :=
  let d := d.at t
  let v := d.fld Fld.CH_STATUS_VIO_LOW
  if 6 ≤ bank || bitOf v bank then d
  else
    let own := fun fn => (d.f.ch.ownMask fn &&& bankMask bank) != 0
    let a := own false
    let b := own true
    (d.setFld Fld.CH_STATUS_VIO_LOW (v + 2 ^ bank)).raise .f Sn.CH_VIO_LOW (a || !b) (b || !a)

/-- VIO_LOW_CLEAR (R150): the source ends when no bank is low. -/
def doVioLowClear (bank : Nat) (t : Nat) (d : Dev) : Dev :=
  let d := d.at t
  let v := d.fld Fld.CH_STATUS_VIO_LOW
  if !bitOf v bank then d
  else
    let d1 := d.setFld Fld.CH_STATUS_VIO_LOW (v - 2 ^ bank)
    if v - 2 ^ bank = 0 then d1.condEnd .f Sn.CH_VIO_LOW else d1

/-- A channel's owner code in effect (R84). -/
def Dev.ownCode (d : Dev) (n : Nat) : Nat :=
  let c := d.f.ch
  bitsOf (if n < 16 then c.own0 else if n < 32 then c.own1 else c.own2).toNat (2 * (n % 16)) 2

/-- OVERLOAD_TRIP (R168): the driver of a channel in an output mode is turned off. -/
def doOverloadTrip (ch : Nat) (t : Nat) (d : Dev) : Dev :=
  let d := d.at t
  if d.f.ch.outMask &&& chBit ch = 0 then d
  else
    let m := d.mask48 Reg.CH_OVL_LO Reg.CH_OVL_HI
    (d.setMask48 Reg.CH_OVL_LO Reg.CH_OVL_HI (m ||| chBit ch)).raiseCode .f Sn.CH_OVERLOAD (d.ownCode ch)

/-! ## Register writes of the block (R149, R161, R171) -/

/-- A channel may be configured by its owner, or by Function A while no one owns it (R161). -/
def Dev.mayConfigure (d : Dev) (fn : Func) (n : Nat) : Bool :=
  d.ownCode n == codeOf fn || (d.ownCode n == 0 && !fn)

/-- An accepted CH_CFG write (R161): in effect at the pins at once, except between steps B7 and B8 of a boot. -/
def Dev.setChCfg (d : Dev) (n : Nat) (data : Word) : Dev :=
  let d1 := d.wrAccess (Reg.CH_CFG n) data
  if d1.f.ch.enabled then ({ d1 with f.ch.cfg := d1.f.ch.cfg.set (fun _ => 0) n (d1.rd (Reg.CH_CFG n)) }).pins else d1

/-- A write of CH_CFG[n]. -/
def Dev.chCfgWrite (d : Dev) (fn : Func) (n : Nat) (data : Word) : FwOut :=
  if !d.mayConfigure fn n then notOwner
  else if bitOf (d.fld Fld.CH_LOCK_LOCK) (n / 8) && changes (d.rd (Reg.CH_CFG n)) data 0xFFFF then lockedOut
  else .ok (d.setChCfg n data)

/-- A write of CH_OVL_LO or CH_OVL_HI: a 1 turns the channel's driver on again; a 1 for a channel that the writer may not
write refuses the whole write (R168, R171). -/
def Dev.chOvlWrite (d : Dev) (fn : Func) (off : Nat) (data : Word) : FwOut :=
  let base := if off = Reg.CH_OVL_HI then 32 else 0
  let n := if off = Reg.CH_OVL_HI then 16 else 32
  if (List.range n).any (fun k => bitOf data.toNat k && !d.mayConfigure fn (base + k)) then notOwner
  else
    let d1 := d.wrAccess off data
    .ok (if d1.mask48 Reg.CH_OVL_LO Reg.CH_OVL_HI = 0 then d1.condEnd .f Sn.CH_OVERLOAD else d1)

/-- A write to a register of the channel block (R149, R171). -/
def Dev.chWrite (d : Dev) (fn : Func) (off : Nat) (data : Word) : FwOut :=
  if off < 0x24C0 then d.chCfgWrite fn ((off - 0x2400) / 4) data
  else if off = Reg.CH_OVL_LO ∨ off = Reg.CH_OVL_HI then d.chOvlWrite fn off data
  else if off = Reg.CH_LOCK then
    if fn then notOwner else .ok (d.wr off (d.rd off ||| (data &&& 0x3F)))
  else if off = Reg.CH_STATUS then if fn then notOwner else .ok (d.wrAccess off data)
  else if off = Reg.CH_CNT_SAT then
    if fn then notOwner
    else .ok (if bitOf data.toNat 1 then d.clearCnt Fld.CH_CAP_LOST_CNT_COUNT Fld.CH_CNT_SAT_SAT else d)
  else if off = Reg.CH_CHK_CFG then
    if fn then notOwner
    else if 1 ≤ bitsOf data.toNat 0 4 ∧ bitsOf data.toNat 0 4 ≤ 8 then .ok (d.wrAccess off data) else badValue
  else if off = Reg.CH_CHK_SETTLE 0 ∨ off = Reg.CH_CHK_SETTLE 1 then
    if fn then notOwner
    else .ok (d.wrAccess off (if off = Reg.CH_CHK_SETTLE 1 then data &&& 0xFFFF else data))
  else if off = Reg.CH_CHK_STATUS then .ok (d.wrAccess off data)
  else if off = Reg.CH_CHK_SAT then
    let d1 := if bitOf data.toNat 2 then d.clearCnt Fld.CH_CHK_PATH_CNT_COUNT Fld.CH_CHK_SAT_SAT_PATH else d
    .ok (if bitOf data.toNat 3 then d1.clearCnt Fld.CH_CHK_PIN_CNT_COUNT Fld.CH_CHK_SAT_SAT_PIN else d1)
  else badValue

/-- A register of the channel block as read (Tables CH-9, CHK-6): levels and holds come from their homes. -/
def Dev.chRead (d : Dev) (off : Nat) : Word :=
  let held := if d.f.ch.enabled then d.f.ch.held &&& d.f.ch.outMask else d.f.ch.held
  if off = Reg.CH_LEVEL_LO then loWord d.levels.toNat
  else if off = Reg.CH_LEVEL_HI then hiWord d.levels.toNat
  else if off = Reg.CH_HELD_LO then loWord held.toNat
  else if off = Reg.CH_HELD_HI then hiWord held.toNat
  else d.rd off

/-- The device after a field-window write applied directly as a step: a refused write changes nothing here; its FW_ACK is
the window's own step. -/
def FwOut.orSame (r : FwOut) (d : Dev) : Dev :=
  match r with
  | .ok d1 => d1
  | .error _ => d

/-- A refused write sets the block's CFG_REJ (R415). -/
def FwOut.orRej (r : FwOut) (d : Dev) (F : Fld) : Dev :=
  match r with
  | .ok d1 => d1
  | .error _ => d.setFld F 1

/-- CH_OVL_CLEAR (R168). -/
def doChOvlClear (fn : Func) (off : Nat) (data : Word) (t : Nat) (d : Dev) : Dev :=
  ((d.at t).chOvlWrite fn (if off = Reg.CH_OVL_HI then off else Reg.CH_OVL_LO) data).orSame (d.at t)

/-- CH_CFG_WRITE (R161). -/
def doChCfgWrite (fn : Func) (ch : Nat) (data : Word) (t : Nat) (d : Dev) : Dev :=
  if ch < 48 then ((d.at t).chCfgWrite fn ch data).orSame (d.at t) else d.at t

/-! ## The commands' meanings -/

/-- The meaning of the command: `doReadbackSample` on the device. -/
def execReadbackSample (bank : Nat) (rb pull : W48) (t : Nat) (s : State) : Out :=
  s.onDev (doReadbackSample bank rb pull t)

/-- The meaning of the command: `doImmediateWriteApply` on the device. -/
def execImmediateWriteApply (tag : Nat) (value : Container) (t : Nat) (s : State) : Out :=
  s.onDev (doImmediateWriteApply tag value t)

/-- The meaning of the command: `doChSample` on the device. -/
def execChSample (tag : Nat) (t : Nat) (s : State) : Out :=
  s.onDev (doChSample tag t)

/-- The meaning of the command: `doChCapture` on the device. -/
def execChCapture (tag : Nat) (t : Nat) (s : State) : Out :=
  s.onDev (doChCapture tag t)

/-- The meaning of the command: `doCaptureRecordSend` on the device. -/
def execCaptureRecordSend (fn : Func) (t : Nat) (s : State) : Out :=
  s.onDev (doCaptureRecordSend fn t)

/-- The meaning of the command: `doCaptureTimeout` on the device. -/
def execCaptureTimeout (fn : Func) (t : Nat) (s : State) : Out :=
  s.onDev (doCaptureTimeout fn t)

/-- The meaning of the command: `doVioLowDetect` on the device. -/
def execVioLowDetect (bank : Nat) (t : Nat) (s : State) : Out :=
  s.onDev (doVioLowDetect bank t)

/-- The meaning of the command: `doVioLowClear` on the device. -/
def execVioLowClear (bank : Nat) (t : Nat) (s : State) : Out :=
  s.onDev (doVioLowClear bank t)

/-- The meaning of the command: `doOverloadTrip` on the device. -/
def execOverloadTrip (ch : Nat) (t : Nat) (s : State) : Out :=
  s.onDev (doOverloadTrip ch t)

/-- The meaning of the command: `doChOvlClear` on the device. -/
def execChOvlClear (fn : Func) (off : Nat) (data : Word) (t : Nat) (s : State) : Out :=
  s.onDev (doChOvlClear fn off data t)

/-- The meaning of the command: `doChCfgWrite` on the device. -/
def execChCfgWrite (fn : Func) (ch : Nat) (data : Word) (t : Nat) (s : State) : Out :=
  s.onDev (doChCfgWrite fn ch data t)

end Sys2Proof.Machine
end

