-- ==== Sys2Proof/Machine/FieldTimers.lean ====
section
/-!
DEFINITION. The field timers FT[0..7] (R226 to R241): counts computed from their last known value, starts, stops, wraps,
captures, debug halt and the low-frequency path.
-/

namespace Sys2Proof.Machine

/-- A timer, and the device with it replaced. -/
def Dev.tm (d : Dev) (k : Nat) : Timer := Tab.get (fun _ => Timer.reset) d.f.ft.tm k
def Dev.setTm (d : Dev) (k : Nat) (x : Timer) : Dev := { d with f.ft.tm := d.f.ft.tm.set (fun _ => Timer.reset) k x }

/-- A timer's owner code (R83), and whether a function may write its controls: its owner, or Function A while it has
none (R241). -/
def Dev.tmCode (d : Dev) (k : Nat) : Nat := d.fld (Fld.PCI_OWN_FT_FT k)
def Dev.tmMay (d : Dev) (fn : Func) (k : Nat) : Bool := d.tmCode k == codeOf fn || (d.tmCode k == 0 && !fn)

/-- A V1 event to the owner that a code names (Table PCI-6). -/
def Dev.v1 (d : Dev) (code : Nat) : Dev :=
  if code = 1 then d.irq false 1 else if code = 2 then d.irq true 1 else d

/-- LF ticks of 30.517 578 125 µs in a number of cycles. -/
def lfTicks (cycles : Nat) : Nat := cycles * 16 / 390625

/-- Units that a timer counts at a pace from one time to another (Tables FT-1, FT-4). -/
def paceUnits (k : Nat) (p : TmPace) (a b : Nat) : Nat :=
  match p with
  | .still => 0
  | .core => b - a
  | .lf s =>
    let x := lfTicks (a - s)
    let y := lfTicks (b - s)
    if k < 4 then 24414 * (y - x) + (y / 16 - x / 16) else y - x

/-- The pace of a timer now (Tables FT-1, FT-3, FT-4): stopped, frozen, on the low-frequency path whatever SRC is, counting
edges, or on the 800 MHz clock. -/
def Dev.tmPace (d : Dev) (k : Nat) : TmPace :=
  if !(d.tm k).run || (decide (4 ≤ k) && d.f.ft.halted) then .still
  else match d.f.ft.lf with
    | some s => .lf s
    | none => if d.flag (Fld.FT_CFG_SRC k) then .still else .core

/-- Units by which a timer has advanced from `since` to a time. -/
def Dev.tmAdvance (d : Dev) (k t : Nat) : Nat := paceUnits k (d.tmPace k) (d.tm k).since t

/-- A timer's count now. -/
def Dev.tmCount (d : Dev) (k : Nat) : Nat := ((d.tm k).base + d.tmAdvance k d.now) % 2 ^ 48

/-- WRAP is set and, with WRAP_IRQ, reported on V1 (R14, R230). -/
def Dev.tmWrapped (d : Dev) (k : Nat) : Dev :=
  let w := d.fld Fld.FT_STATUS_WRAP
  let d1 := if bitOf w k then d else d.setFld Fld.FT_STATUS_WRAP (w + 2 ^ k)
  if d.flag (Fld.FT_CFG_WRAP_IRQ k) then d1.v1 (d.tmCode k) else d1

/-- A timer's count is taken down as of now; a wrap met on the way sets WRAP. A wrap of this very cycle is left out where a load
stands over it (Table FT-2). -/
def Dev.tmTake (d : Dev) (k : Nat) (loaded : Bool) : Dev :=
  let x := d.tm k
  let v := x.base + d.tmAdvance k d.now
  let y := { x with base := v % 2 ^ 48, since := d.now }
  if v < 2 ^ 48 then d.setTm k y
  else
    let now := decide (x.base + d.tmAdvance k (d.now - 1) < 2 ^ 48)
    if now && loaded then d.setTm k y
    else (d.setTm k { y with wrapAt := if now then some (d.now, bitOf (d.fld Fld.FT_STATUS_WRAP) k) else none }).tmWrapped k

/-- A timer's count is taken down as of now. -/
def Dev.tmSync (d : Dev) (k : Nat) : Dev := d.tmTake k false

/-- A timer's pace from now on is noted, beside those that a capture may still reach back to (R232): an accepted edge is never
older than the longest filter and input delay. -/
def Dev.tmNote (d : Dev) (k : Nat) : Dev :=
  let x := d.tm k
  let p := d.tmPace k
  if (match x.legs with | (_, q) :: _ => q == p | [] => p == TmPace.still) then d
  else
    let near := x.legs.takeWhile (fun (e : Nat × TmPace) => decide (d.now < e.1 + 8192))
    d.setTm k { x with legs := (d.now, p) :: (near ++ (x.legs.drop near.length).take 1) }

/-- The units counted between two times, from the paces noted, newest first. -/
def legUnits (k a : Nat) : List (Nat × TmPace) → Nat → Nat
  | [], _ => 0
  | e :: rest, b => if b ≤ a then 0 else paceUnits k e.2 (max a e.1) b + legUnits k a rest (min b e.1)

/-- All eight counts are taken down. -/
def Dev.tmSyncAll (d : Dev) : Dev := (List.range 8).foldl (fun d k => d.tmSync k) d

/-- All eight paces are noted. -/
def Dev.tmNoteAll (d : Dev) : Dev := (List.range 8).foldl (fun d k => d.tmNote k) d

/-- WRAP of a timer is cleared. -/
def Dev.tmUnwrap (d : Dev) (k : Nat) : Dev :=
  let w := d.fld Fld.FT_STATUS_WRAP
  if bitOf w k then d.setFld Fld.FT_STATUS_WRAP (w - 2 ^ k) else d

/-- A start of one timer (R228, Table FT-2): the load under ZERO (which stands over a wrap of the same cycle), the mark, the
re-arming, LF_UNIT cleared unless the low-frequency path is in use, and a timer that no stop of this cycle names runs from the
next cycle. -/
def Dev.tmStart (d : Dev) (k : Nat) : Dev :=
  let zero := d.flag (Fld.FT_CFG_ZERO k)
  let d0 := d.tmTake k zero
  let x := d0.tm k
  let d1 := if zero && x.wrapAt == some (d.now, false) then d0.tmUnwrap k else d0
  let c := if zero then 0 else x.base
  let run := x.stopAt != some d.now
  let lu := d1.fld Fld.FT_FLAGS_LF_UNIT
  let lf := run && d.f.ft.lf.isSome
  let d2 := if 4 ≤ k && bitOf lu (k - 4) != lf
    then d1.setFld Fld.FT_FLAGS_LF_UNIT (if lf then lu + 2 ^ (k - 4) else lu - 2 ^ (k - 4)) else d1
  let first := match x.startAt with
    | some (t, a, n) => if t = d.now then some (t, a, n) else some (d.now, x.armed, x.base)
    | none => some (d.now, x.armed, x.base)
  (d2.setTm k { x with base := c, since := d.now, mark := c, armed := true, run := run, startAt := first }).tmNote k

/-- All timers that a mask names start in one cycle. -/
def Dev.tmStartMask (d : Dev) (mask : Nat) : Dev :=
  (List.range 8).foldl (fun d k => if bitOf mask k then d.tmStart k else d) d

/-- A stop (R229, Table FT-2): the timer keeps its count and its flags. -/
def Dev.tmStop (d : Dev) (k : Nat) : Dev :=
  let d1 := d.tmSync k
  (d1.setTm k { d1.tm k with run := false, stopAt := some d.now }).tmNote k

/-- A capture value goes to an open FT_CAPTURE, or into the capture register with VALID or OVERRUN (R233, R234). A read of this
cycle that would clear VALID does not (Table FT-2). -/
def Dev.tmStore (d : Dev) (k value : Nat) : Dev :=
  let x := d.tm k
  match x.opened with
  | some tag =>
    let r := match d.fop tag with | some o => o.result (BitVec.ofNat 48 value) | none => 0
    (d.setTm k { x with opened := none }).endF tag stOK r
  | none =>
    let v0 := d.fld Fld.FT_STATUS_VALID
    let v := if x.clrAt = some d.now && !bitOf v0 k then v0 + 2 ^ k else v0
    let o := d.fld Fld.FT_STATUS_OVERRUN
    let d1 := (d.setFld Fld.FT_STATUS_VALID v).setTm k { x with
      cap := value, freshA := false, freshB := false, capAt := some (d.now, x.cap, bitOf v k, bitOf o k) }
    let d2 :=
      if bitOf v k then
        let d3 := (if bitOf o k then d1 else d1.setFld Fld.FT_STATUS_OVERRUN (o + 2 ^ k)).raiseOwner Sn.FT_OVERRUN (Fld.PCI_OWN_FT_FT k)
        if d.flag (Fld.FT_CFG_OVR_IRQ k) then d3.v1 (d.tmCode k) else d3
      else d1.setFld Fld.FT_STATUS_VALID (v + 2 ^ k)
    if d.flag (Fld.FT_CFG_CAP_IRQ k) then d2.v1 (d.tmCode k) else d2

/-- A capture event of one timer (R231, R232): the count in the accepting cycle less the units counted since the edge, which was at
`raw`. One in the cycle of a start belongs to the arming before it (Table FT-2). -/
def Dev.tmEvent (d : Dev) (k raw : Nat) : Dev :=
  let d1 := d.tmSync k
  let x := d1.tm k
  let same := match x.startAt with | some e => e.1 == d.now | none => false
  let armed := match x.startAt with | some e => if e.1 = d.now then e.2.1 else x.armed | none => x.armed
  let count := match x.startAt with | some e => if e.1 = d.now then e.2.2 else x.base | none => x.base
  if d.flag (Fld.FT_CFG_CAP_ARM k) && !armed then d1
  else
    let back := if d.flag (Fld.FT_CFG_SRC k) then 0 else legUnits k raw x.legs d.now
    (d1.setTm k { x with
      armed := same, startAt := if same then some (d.now, false, count) else x.startAt }).tmStore k
      ((count + 2 ^ 48 - back % 2 ^ 48) % 2 ^ 48)

/-- Whether an edge direction is one that a two-bit selector takes. -/
def edgeTaken (sel : Nat) (rising : Bool) : Bool := if rising then sel % 2 == 1 else decide (2 ≤ sel)

/-- An edge of an input reaches the timers that name it as CAP_SRC (R231). In REST no capture event is taken (R238). -/
def Dev.tmEdge (d : Dev) (capSrc : Nat) (rising : Bool) (raw : Nat) : Dev :=
  if d.f.ch.rest.isSome then d
  else (List.range 8).foldl (fun d k =>
    if d.fld (Fld.FT_CFG_CAP_SRC k) = capSrc ∧ edgeTaken (d.fld (Fld.FT_CFG_CAP_EDGE k)) rising
    then d.tmEvent k raw else d) d

/-- One unit of an EDGE-counting timer; a wrap sets WRAP. -/
def Dev.tmTick (d : Dev) (k : Nat) : Dev :=
  let x := d.tm k
  let v := x.base + 1
  if v = 2 ^ 48 then
    (d.setTm k { x with base := 0, wrapAt := some (d.now, bitOf (d.fld Fld.FT_STATUS_WRAP) k) }).tmWrapped k
  else d.setTm k { x with base := v }

/-- An accepted edge of a channel reaches the timers that count it or capture on it, where the timer's owner owns the
channel (R227, R231). -/
def Dev.tmChannelEdge (d : Dev) (ch : Nat) (rising : Bool) (raw : Nat) : Dev :=
  (List.range 8).foldl (fun d k =>
    let mine := d.tmCode k == d.ownCode ch
    let x := d.tm k
    let counts := 4 ≤ k && d.flag (Fld.FT_CFG_SRC k) && d.fld (Fld.FT_CFG_CNT_CH k) == ch
      && edgeTaken (d.fld (Fld.FT_CFG_CNT_EDGE k)) rising && x.run && !d.f.ft.halted && d.f.ft.lf.isNone && mine
    let d1 := if counts then d.tmTick k else d
    if d.fld (Fld.FT_CFG_CAP_SRC k) = 1 ∧ d.fld (Fld.FT_CFG_CAP_CH k) = ch ∧ mine
        ∧ edgeTaken (d.fld (Fld.FT_CFG_CAP_EDGE k)) rising
    then d1.tmEvent k raw else d1) d

/-- FILTER_ACCEPT (R152, R163, R165, R231): a channel's filtered level changes; edge records and timer events are made
from the raw transition that began the run. The filter has held the level for FILT × 10 ns. With VIO low there are no
edges (R150); in REST the filters stop (R160); before step B8 there is no level (R152). -/
def doFilterAccept (ch : Nat) (level : Bool) (raw : Nat) (t : Nat) (d : Dev) : Dev :=
  let d := d.at t
  let c := d.f.ch
  let cur := c.level &&& chBit ch != 0
  if 48 ≤ ch || cur == level || !c.enabled || c.rest.isSome then d
  else if d.now < raw + 8 * cfgFilt (c.cfgAt ch) then d
  else
    let d1 := { d with f.ch.level := if level then c.level ||| chBit ch else c.level &&& ~~~chBit ch }
    if bitOf (d.fld Fld.CH_STATUS_VIO_LOW) (ch / 8) then d1
    else (d1.edgeRecord ch level raw).tmChannelEdge ch level raw

/-- The capture register of a timer, with VALID and OVERRUN. -/
def Dev.tmReg (d : Dev) (k cap : Nat) (valid overrun : Bool) : Dev :=
  let put := fun (w : Nat) (b : Bool) => if bitOf w k == b then w else if b then w + 2 ^ k else w - 2 ^ k
  ((d.setTm k { d.tm k with cap := cap, capAt := none }).setFld Fld.FT_STATUS_VALID
    (put (d.fld Fld.FT_STATUS_VALID) valid)).setFld Fld.FT_STATUS_OVERRUN (put (d.fld Fld.FT_STATUS_OVERRUN) overrun)

/-- FT_CAPTURE (R234): it completes with a value that the register holds, or waits for the next capture event. One of this very
cycle it takes itself, unless the register held a value before (Table FT-2). -/
def doFtCapture (tag : Nat) (t : Nat) (d : Dev) : Dev :=
  let d := d.at t
  match d.freshOp tag opFT_CAPTURE with
  | none => d
  | some o =>
    let d := d.setFop tag (some { o with begun := true })
    let k := o.desc.dest - 0x128
    let x := d.tm k
    let valid := bitOf (d.fld Fld.FT_STATUS_VALID) k
    let ov := bitOf (d.fld Fld.FT_STATUS_OVERRUN) k
    let done := fun (d : Dev) (cap : Nat) (lost : Bool) => d.endF tag (if lost then stOVERRUN else stOK) (o.result (BitVec.ofNat 48 cap))
    if d.fld (Fld.FT_CFG_CAP_SRC k) = 0 then d.endF tag stWRONG_STATE 0
    else if x.opened.isSome then d.endF tag stBUSY 0
    else match x.capAt with
      | some (at_, cap0, valid0, ov0) =>
        if at_ = d.now then
          if valid0 then done (d.tmReg k x.cap true false) cap0 ov0 else done (d.tmReg k cap0 false ov0) x.cap false
        else if valid then done (d.tmReg k x.cap false false) x.cap ov
        else d.setTm k { x with opened := some tag }
      | none => if valid then done (d.tmReg k x.cap false false) x.cap ov else d.setTm k { x with opened := some tag }

/-- FT_WRAP (R230): a running timer has passed 2^48 - 1. -/
def doFtWrap (k : Nat) (t : Nat) (d : Dev) : Dev :=
  if k < 8 then (d.at t).tmSync k else d.at t

/-- A write of FT_START (R228, R229): refused as a whole when it names a timer the writer may not start. -/
def Dev.ftStartWrite (d : Dev) (fn : Func) (mask : Nat) : FwOut :=
  if (List.range 8).any (fun k => bitOf mask k && !d.tmMay fn k) then notOwner else .ok (d.tmStartMask mask)

/-- A write of FT_STOP (R229): cause 3 where it names FT[0..3], whoever owns them (the case of a stop written for FT[1]). -/
def Dev.ftStopWrite (d : Dev) (fn : Func) (mask : Nat) : FwOut :=
  if mask % 16 != 0 then badValue
  else if (List.range 8).any (fun k => bitOf mask k && !d.tmMay fn k) then notOwner
  else .ok ((List.range 8).foldl (fun d k => if bitOf mask k then d.tmStop k else d) d)

/-- A write of FT_CFG[t] (R241). -/
def Dev.ftCfgWrite (d : Dev) (fn : Func) (k : Nat) (data : Word) : FwOut :=
  let n := data.toNat
  let capSrc := bitsOf n 3 3
  let owner := d.tmCode k
  let mine := fun ch => d.ownCode ch == owner
  if !d.tmMay fn k then notOwner
  else if bitOf (d.fld Fld.FT_LOCK_LOCK) k && changes (d.rd (Reg.FT_CFG k)) data 0x1FFFFFF then lockedOut
  else if (k < 4 && bitOf n 0) || ((d.tm k).run && bitOf n 0 != d.flag (Fld.FT_CFG_SRC k)) || decide (5 ≤ capSrc)
      || (bitsOf n 6 2 == 0 && capSrc != 0) || (bitsOf n 20 2 == 0 && bitOf n 0)
      || decide (48 ≤ bitsOf n 8 6) || decide (48 ≤ bitsOf n 14 6) then badValue
  else if (capSrc == 1 && !mine (bitsOf n 8 6)) || (bitOf n 0 && !mine (bitsOf n 14 6)) then notOwner
  else .ok ((d.tmSync k).wrAccess (Reg.FT_CFG k) data)

/-- A write to a register of the timer block. A WRAP bit is cleared before a wrap of the same cycle sets it again (Table FT-2). -/
def Dev.ftWrite (d : Dev) (fn : Func) (off : Nat) (data : Word) : FwOut :=
  let n := data.toNat
  if off = Reg.FT_START then d.ftStartWrite fn (n % 256)
  else if off = Reg.FT_STOP then d.ftStopWrite fn (n % 256)
  else if off = Reg.FT_STATUS then
    if (List.range 8).any (fun k => (bitOf n (16 + k) || bitOf n (24 + k)) && !d.tmMay fn k) then notOwner
    else
      let d1 := d.tmSyncAll
      .ok ((List.range 8).foldl (fun e k => if bitOf n (16 + k) && (match (d1.tm k).wrapAt with | some w => w.1 == d1.now | none => false)
        && bitOf (d1.fld Fld.FT_STATUS_WRAP) k then e.setFld Fld.FT_STATUS_WRAP (e.fld Fld.FT_STATUS_WRAP + 2 ^ k) else e)
        (d1.wrAccess off data))
  else if off = Reg.FT_FLAGS then
    if (List.range 4).any (fun k => bitOf n (4 + k) && !d.tmMay fn (4 + k)) then notOwner else .ok (d.wrAccess off data)
  else if off = Reg.FT_LOCK then
    if (List.range 8).any (fun k => bitOf n k && !d.tmMay fn k) then notOwner
    else .ok (d.wr off (d.rd off ||| (data &&& 0xFF)))
  else if 0x3040 ≤ off ∧ off < 0x3140 ∧ (off - 0x3040) % 0x20 = 0 then d.ftCfgWrite fn ((off - 0x3040) / 0x20) data
  else badValue

/-- A timer register as read. -/
def Dev.ftRead (d : Dev) (fn : Func) (off : Nat) : Word :=
  let run := (List.range 8).foldl (fun a k => a + b2n (d.tm k).run * 2 ^ k) 0
  if off = Reg.FT_STATUS then d.rd off ||| BitVec.ofNat 32 run
  else if off = Reg.FT_FLAGS then
    let fz := if d.f.ft.halted then (List.range 4).foldl (fun a k => a + b2n (d.tm (4 + k)).run * 2 ^ (12 + k)) 0 else 0
    d.rd off ||| BitVec.ofNat 32 fz
  else if 0x3040 ≤ off ∧ off < 0x3140 then
    let k := (off - 0x3040) / 0x20
    let x := d.tm k
    match (off - 0x3040) % 0x20 with
    | 4 => loWord (d.tmCount k)
    | 8 => hiWord (d.tmCount k)
    | 12 => loWord x.cap
    | 16 => BitVec.ofNat 32 (if fn then x.capHiB else x.capHiA)
    | 20 => loWord x.mark
    | 24 => BitVec.ofNat 32 (if fn then x.markHiB else x.markHiA)
    | _ => d.rd off
  else d.rd off

/-- FT_START, FT_STOP as steps of their own (R228, R229). -/
def doFtStart (fn : Func) (mask : Nat) (t : Nat) (d : Dev) : Dev :=
  ((d.at t).ftStartWrite fn (mask % 256)).orRej (d.at t) Fld.FT_FLAGS_CFG_REJ

/-- FT_STOP (R229). -/
def doFtStop (fn : Func) (mask : Nat) (t : Nat) (d : Dev) : Dev :=
  ((d.at t).ftStopWrite fn (mask % 256)).orRej (d.at t) Fld.FT_FLAGS_CFG_REJ

/-- FT_CAP_LO_READ (R233): latches the upper bits for the reader. -/
def doFtCapLoRead (fn : Func) (k : Nat) (t : Nat) (d : Dev) : Dev :=
  let d := d.at t
  let x := d.tm k
  if 8 ≤ k then d
  else d.setTm k (if fn then { x with capHiB := x.cap / 2 ^ 32, freshB := true }
    else { x with capHiA := x.cap / 2 ^ 32, freshA := true })

/-- FT_CAP_HI_READ (R233): clears VALID if no capture has been stored since the reader's FT_CAP_LO read. -/
def doFtCapHiRead (fn : Func) (k : Nat) (t : Nat) (d : Dev) : Dev :=
  let d := d.at t
  let v := d.fld Fld.FT_STATUS_VALID
  if k < 8 && (if fn then (d.tm k).freshB else (d.tm k).freshA) && bitOf v k
  then (d.setFld Fld.FT_STATUS_VALID (v - 2 ^ k)).setTm k { d.tm k with clrAt := some d.now } else d

/-- FT_MARK_LO_READ (R233). -/
def doFtMarkLoRead (fn : Func) (k : Nat) (t : Nat) (d : Dev) : Dev :=
  let d := d.at t
  let x := d.tm k
  if 8 ≤ k then d
  else d.setTm k (if fn then { x with markHiB := x.mark / 2 ^ 32 } else { x with markHiA := x.mark / 2 ^ 32 })

/-- ENC_Z_EDGE (R231). -/
def doEncZEdge (rising : Bool) (raw : Nat) (t : Nat) (d : Dev) : Dev := (d.at t).tmEdge 4 rising raw

/-- LOW_FREQUENCY_PATH_SWITCH (R238): the running timers move to the LF path at the first LF tick after REST is confirmed,
FT[4..7] setting LF_UNIT, and back at the first LF tick after the F-side has begun to wake and its PLL has locked. -/
def doLowFrequencyPathSwitch (toLf : Bool) (t : Nat) (d : Dev) : Dev :=
  let d := d.at t
  if toLf then
    if d.f.ft.lf.isSome || d.f.ch.rest.isNone || d.f.brk.awakeF then d
    else
      let d1 := d.tmSyncAll
      let lu := (List.range 4).foldl (fun a k => if (d1.tm (4 + k)).run && !bitOf a k then a + 2 ^ k else a)
        (d1.fld Fld.FT_FLAGS_LF_UNIT)
      ({ d1.setFld Fld.FT_FLAGS_LF_UNIT lu with f.ft.lf := some d.now }).tmNoteAll
  else if d.f.ft.lf.isNone || (d.f.ch.rest.isSome && !d.f.brk.awakeF) then d
  else ({ d.tmSyncAll with f.ft.lf := none }).tmNoteAll

/-! ## The commands' meanings -/

/-- The meaning of the command: `doFilterAccept` on the device. -/
def execFilterAccept (ch : Nat) (level : Bool) (raw : Nat) (t : Nat) (s : State) : Out :=
  s.onDev (doFilterAccept ch level raw t)

/-- The meaning of the command: `doFtCapture` on the device. -/
def execFtCapture (tag : Nat) (t : Nat) (s : State) : Out :=
  s.onDev (doFtCapture tag t)

/-- The meaning of the command: `doFtWrap` on the device. -/
def execFtWrap (k : Nat) (t : Nat) (s : State) : Out :=
  s.onDev (doFtWrap k t)

/-- The meaning of the command: `doFtStart` on the device. -/
def execFtStart (fn : Func) (mask : Nat) (t : Nat) (s : State) : Out :=
  s.onDev (doFtStart fn mask t)

/-- The meaning of the command: `doFtStop` on the device. -/
def execFtStop (fn : Func) (mask : Nat) (t : Nat) (s : State) : Out :=
  s.onDev (doFtStop fn mask t)

/-- The meaning of the command: `doFtCapLoRead` on the device. -/
def execFtCapLoRead (fn : Func) (k : Nat) (t : Nat) (s : State) : Out :=
  s.onDev (doFtCapLoRead fn k t)

/-- The meaning of the command: `doFtCapHiRead` on the device. -/
def execFtCapHiRead (fn : Func) (k : Nat) (t : Nat) (s : State) : Out :=
  s.onDev (doFtCapHiRead fn k t)

/-- The meaning of the command: `doFtMarkLoRead` on the device. -/
def execFtMarkLoRead (fn : Func) (k : Nat) (t : Nat) (s : State) : Out :=
  s.onDev (doFtMarkLoRead fn k t)

/-- The meaning of the command: `doEncZEdge` on the device. -/
def execEncZEdge (rising : Bool) (raw : Nat) (t : Nat) (s : State) : Out :=
  s.onDev (doEncZEdge rising raw t)

/-- The meaning of the command: `doLowFrequencyPathSwitch` on the device. -/
def execLowFrequencyPathSwitch (toLf : Bool) (t : Nat) (s : State) : Out :=
  s.onDev (doLowFrequencyPathSwitch toLf t)

end Sys2Proof.Machine
end

