-- ==== Sys2Proof/Machine/FieldSerial.lean ====
section
/-!
DEFINITION. The field serial port (R172 to R204): queue entries and their phases, runs and their order, slot starts, words
and frames with alive counter and CRC-32C, the target role.
-/

namespace Sys2Proof.Machine

/-! ## Bits, containers and frames -/

/-- The low `w` bits of a number, most significant first. -/
def bitsMsb (n w : Nat) : List Bool := (List.range w).map (fun i => n.testBit (w - 1 - i))

/-- A number from its bits, most significant first. -/
def natOfBits (l : List Bool) : Nat := l.foldl (fun a b => 2 * a + b2n b) 0

/-- The first `len` bits that containers carry, each word from its bit 47 (Table FSP-4). -/
def bitsOfContainers (cs : List Container) (len : Nat) : List Bool :=
  (cs.flatMap (fun c => bitsMsb c.word.toNat 48)).take len

/-- Received bits as 48-bit words, the first into bit 47, unused low bits 0 (Table FSP-4). -/
def wordsOfBits (l : List Bool) : List W48 :=
  (List.range ((l.length + 47) / 48)).map (fun i =>
    BitVec.ofNat 48 (natOfBits (((l.drop (48 * i)).take 48) ++ List.replicate (48 - ((l.drop (48 * i)).take 48).length) false)))

/-- CRC-32C over bits in transmission order, the first bit of each byte as its bit 7, a final partial byte completed with
0 bits (R190). -/
def frameCrc (l : List Bool) : Nat :=
  let bytes := (List.range ((l.length + 7) / 8)).map (fun i =>
    ((l.drop (8 * i)).take 8) ++ List.replicate (8 - ((l.drop (8 * i)).take 8).length) false)
  (~~~ crc32cBits (bytes.flatMap List.reverse) 0xFFFFFFFF#32).toNat

/-- A frame header (Table FSP-6). -/
def frameHeader (alive : Nat) (badRx under selAbort : Bool) (len : Nat) : List Bool :=
  bitsMsb alive 4 ++ [badRx, under, selAbort] ++ List.replicate 11 false ++ bitsMsb len 14

/-- A frame: header, payload, CRC. -/
def frameBits (alive : Nat) (badRx under selAbort : Bool) (payload : List Bool) : List Bool :=
  let h := frameHeader alive badRx under selAbort payload.length
  h ++ payload ++ bitsMsb (frameCrc (h ++ payload)) 32

/-- A received frame as the FSP reads it (R189, R192). -/
structure RxFrame where
  alive : Nat
  badRx : Bool
  under : Bool
  selAbort : Bool
  payload : List Bool
  bad : Bool
deriving DecidableEq, Repr

/-- A frame read from received bits, with the largest payload the receiver takes (R192). -/
def readFrame (l : List Bool) (maxLen : Nat) : RxFrame :=
  let len := natOfBits ((l.drop 18).take 14)
  let n := min len maxLen
  let payload := (l.drop 32).take n
  let crc := natOfBits ((l.drop (32 + n)).take 32)
  { alive := natOfBits (l.take 4)
    badRx := l.getD 4 false
    under := l.getD 5 false
    selAbort := l.getD 6 false
    payload := payload
    bad := crc != frameCrc (l.take 32 ++ payload) || natOfBits ((l.drop 7).take 11) != 0 || decide (maxLen < len) }

/-- The next value of an alive counter: 1 to 15, wrapping 15 to 1 (R191). -/
def nextAlive (n : Nat) : Nat := if n = 15 then 1 else n + 1

/-! ## Lanes (R175, Table FSP-2) -/

/-- The lanes of a width code. -/
def lanesWide (w : Nat) : Nat := 2 ^ w

/-- Bits driven at a width, group by group: the earliest bit of a group on the highest lane, 0 on the lanes beyond the last bit, and
D1 in place of D0 where `d1` says so. The first argument bounds the clocks. -/
def lanesOut (w : Nat) (d1 : Bool) : Nat → List Bool → List Lanes
  | 0, _ => []
  | n + 1, l =>
    if l.isEmpty then []
    else
      let k := lanesWide w
      let g := l.take k
      let v := natOfBits (g ++ List.replicate (k - g.length) false)
      let up := if w = 0 ∧ d1 then 2 else 1
      ⟨BitVec.ofNat 8 ((2 ^ k - 1) * up), BitVec.ofNat 8 (v * up)⟩ :: lanesOut w d1 n (l.drop k)

/-- All lanes released for some clocks. -/
def lanesFree (n : Nat) : List Lanes := List.replicate n ⟨0, 0⟩

/-- The clocks that a number of bits takes at a width. -/
def clocksOf (w len : Nat) : Nat := (len + lanesWide w - 1) / lanesWide w

/-- The bits received at a width, from the levels of the lanes in each clock. -/
def laneBits (w : Nat) (d1 : Bool) (rx : List (BitVec 8)) : List Bool :=
  rx.flatMap (fun c => if w = 0 ∧ d1 then [c.toNat.testBit 1] else bitsMsb (c.toNat % 2 ^ lanesWide w) (lanesWide w))

/-! ## Phases and entries -/

/-- Phase word fields (Table FSP-3). -/
def phKind (p : Nat) : Nat := bitsOf p 0 3
def phWidth (p : Nat) : Nat := bitsOf p 3 2
def phD1 (p : Nat) : Bool := bitOf p 5
def phLen (p : Nat) : Nat := bitsOf p 6 13 + 1
def phLit (p : Nat) : Nat := bitsOf p 19 8

/-- The phases of a list, up to the first END (R177). -/
def livePhases (l : List Nat) : List Nat := l.takeWhile (fun p => phKind p != 0)

/-- ECTRL fields (Table FSP-5). -/
def ecSel (e : Nat) : Nat := bitsOf e 0 3
def ecCont (e : Nat) : Bool := bitOf e 3
def ecFramed (e : Nat) : Bool := bitOf e 4
def ecStartSlot (e : Nat) : Bool := bitOf e 5
def ecTxRing (e : Nat) : Bool := bitOf e 6
def ecRingLog2 (e : Nat) : Nat := bitsOf e 7 4
def ecWords (e : Nat) : Nat := bitsOf e 11 12 + 1

/-- Containers that a phase takes from or gives to memory (Table FSP-4). -/
def phTx (p : Nat) : Nat := if phKind p = 2 then 1 else if phKind p = 3 then (phLen p + 47) / 48 else 0
def phRx (p : Nat) : Nat := if phKind p = 5 then (phLen p + 47) / 48 else 0

/-- Containers that one word takes and gives. -/
def wordTx (ps : List Nat) : Nat := (ps.map phTx).foldl (· + ·) 0
def wordRx (ps : List Nat) : Nat := (ps.map phRx).foldl (· + ·) 0

/-- A phase word on its own: reserved kind, reserved field, or LEN outside Table FSP-4. -/
def phBad (p : Nat) : Bool :=
  let k := phKind p
  decide (6 ≤ k) || decide (2 ^ 27 ≤ p) || ((k == 0 || k == 4) && phWidth p != 0)
    || (k == 1 && decide (8 < phLen p)) || (k == 2 && decide (48 < phLen p)) || (k != 0 && decide (8192 < phLen p))

/-- An Out phase next to an In phase without a TURN between them. -/
def outInAdjacent : List Nat → Bool
  | a :: b :: t =>
    let out := fun p => 1 ≤ phKind p && phKind p ≤ 3
    let inn := fun p => phKind p == 5
    (out a && inn b) || (inn a && out b) || outInAdjacent (b :: t)
  | _ => false

/-- The BAD_DESC cases of an FSP_ENTRY_LOAD (R178, R179), with the range of TX_WORDS (Table RM-6). -/
def fspLoadBad (e : Desc) : Bool :=
  let ps := livePhases e.phases
  let ec := e.ectrl
  let kinds := ps.map phKind
  (e.phases.take (ps.length + 1)).any phBad || ps.isEmpty || outInAdjacent ps
    || (ecFramed ec && !(kinds == [3] || kinds == [4, 5] || kinds == [3, 4, 5]))
    || e.txWords != ecWords ec * wordTx ps || decide (8192 < e.txWords)
    || decide (2 ^ 23 ≤ ec) || (ecTxRing ec && decide (12 < ecRingLog2 ec))

/-! ## State access -/

/-- An entry, a select's frame state. -/
def Dev.fspEntry (d : Dev) (e : Nat) : FspEntry := Tab.get (fun _ => FspEntry.empty) d.f.fsp.entries e
def Dev.setFspEntry (d : Dev) (e : Nat) (x : FspEntry) : Dev :=
  { d with f.fsp.entries := d.f.fsp.entries.set (fun _ => FspEntry.empty) e x }
def Dev.fspSel (d : Dev) (s : Nat) : FspSel := Tab.get (fun _ => FspSel.idle) d.f.fsp.sels s
def Dev.setFspSel (d : Dev) (s : Nat) (x : FspSel) : Dev :=
  { d with f.fsp.sels := d.f.fsp.sels.set (fun _ => FspSel.idle) s x }

/-- The owner code of a select (R172). -/
def Dev.selCode (d : Dev) (s : Nat) : Nat := d.fld (Fld.PCI_OWN_PORT_FSP_SEL s)

/-- The FSP may act: enabled, not in STANDBY, and neither in REST nor stopped for it (R173, R200, R277). -/
def Dev.fspOn (d : Dev) (role : Nat) : Bool :=
  d.flag Fld.FSP_CTRL_EN && d.fld Fld.FSP_CTRL_ROLE == role && !d.f.ch.standby && d.f.ch.rest.isNone && d.h.restEntry.isNone

/-- An entry is on a select that a function does not own (R1, R176). -/
def Dev.entryForeign (d : Dev) (fn : Func) (e : Nat) : Bool :=
  (d.fspEntry e).loaded && d.selCode (ecSel (d.fspEntry e).ectrl) != codeOf fn

/-- The entry that serves the Carousel's ABS source, while it does (R188). -/
def Dev.absEntry (d : Dev) : Option Nat :=
  if d.fld Fld.CAR_SRC_SEL = 2 ∧ d.flag Fld.CAR_CTRL_EN then some (d.fld Fld.CAR_ABS_CFG_ENTRY) else none

/-- Receive containers still in F-side staging: those of FSP operations not yet handed to the return bulk stream (R185). -/
def Dev.rxStaged (d : Dev) : Nat :=
  (d.f.bulk.waitOp.filter (fun c => match c with | .data unit _ _ => unit == 3 | _ => false)).length

/-! ## Ends of runs -/

/-- A run's completion status (R198) and RESULT (Table RM-10). -/
def FspRun.status (r : FspRun) : Nat :=
  if r.chk then stCHK_PATH else if r.crc then stCRC_ERR else if r.under then stUNDERRUN else stOK
def FspRun.result (r : FspRun) : Quad :=
  BitVec.ofNat 64 (r.got % 2 ^ 16 + r.alive % 16 * 2 ^ 16 + b2n r.badRx * 2 ^ 20)

/-- A run ends with a status; a run that the FSP made for the Carousel has no operation. -/
def Dev.fspRunEnd (d : Dev) (r : FspRun) (status : Nat) : Dev :=
  match r.tag with
  | some tag => d.endF tag status r.result
  | none => d

/-- An entry load executes (R176, R178): BUSY while a run of the entry waits for its slot start, or for its turn after it, or the entry serves
the Carousel, else the whole entry is replaced and its run counter is 0. -/
def Dev.fspLoadNow (d : Dev) (tag : Nat) : Dev :=
  match d.liveOp tag opFSP_ENTRY_LOAD with
  | none => d
  | some o =>
    let e := o.desc.entry
    let x := d.fspEntry e
    if d.selCode (ecSel o.desc.ectrl) != codeOf o.fn || (x.loaded && d.selCode (ecSel x.ectrl) != codeOf o.fn) then
      d.endF tag stNOT_OWNER 0
    else if fspLoadBad o.desc then d.endF tag stBAD_DESC 0
    else if (d.f.fsp.waiting ++ d.f.fsp.fired).any (fun r => r.entry == e) || d.absEntry == some e then d.endF tag stBUSY 0
    else (d.setFspEntry e ⟨true, livePhases o.desc.phases, o.desc.ectrl, o.desc.buf, o.desc.txWords, 0⟩).endF tag stOK 0

/-- The run counter of an entry that is loaded advances (R180). -/
def Dev.fspCount (d : Dev) (e : Nat) : Dev :=
  let x := d.fspEntry e
  if x.loaded then d.setFspEntry e { x with runs := (x.runs + 1) % 2 ^ 32 } else d

/-- An FSP_RUN is looked up in its entry (R173, R176, R180, R186): the run counter advances, and the run takes a place in the order,
which it answers, or waits aside for its slot start. -/
def Dev.fspLookup (d : Dev) (tag : Nat) (o : FOp) : Dev × Option FspRun :=
  let e := o.desc.entry
  let x := d.fspEntry e
  let d1 := d.fspCount e
  if d.flag Fld.FSP_CTRL_ROLE || !x.loaded then (d1.endF tag stWRONG_STATE 0, none)
  else if d.selCode (ecSel x.ectrl) != codeOf o.fn then (d1.endF tag stNOT_OWNER 0, none)
  else if d.absEntry == some e || (ecStartSlot x.ectrl && d.f.fsp.waiting.any (fun r => r.entry == e)) then
    (d1.endF tag stBUSY 0, none)
  else
    let off := if ecTxRing x.ectrl then x.runs % 2 ^ ecRingLog2 x.ectrl * 8 * x.txWords else 0
    let r : FspRun := ⟨some tag, e, o.fn, o.ring, o.desc.buf, o.desc.rxCap, x.buf + off, x.txWords, false,
      if x.txWords = 0 then some [] else none, 0, 0, false, false, false, 0, false, false⟩
    if ecStartSlot x.ectrl then ({ d1 with f.fsp.waiting := d1.f.fsp.waiting ++ [r] }, none) else (d1, some r)

/-- A run of the order, with its place. -/
def FspItem.run? : FspItem → Option FspRun
  | .run r => some r
  | .load _ => none
  | .behind _ => none

/-- The runs that the FSP holds. -/
def Fsp.runs (s : Fsp) : List FspRun := s.cur.toList ++ s.queue.filterMap FspItem.run? ++ s.waiting ++ s.fired

/-- Every run that the FSP holds, passed through a function. -/
def Fsp.mapRuns (s : Fsp) (g : FspRun → FspRun) : Fsp :=
  { s with
    cur := s.cur.map g, waiting := s.waiting.map g, fired := s.fired.map g
    queue := s.queue.map (fun i => match i with | .run r => .run (g r) | .load t => .load t | .behind t => .behind t) }

/-- The H-side reads a run's transmit containers, where the F-side's staging of 16 384 containers has room for them (R182). -/
def Dev.fspAsk (d : Dev) (r : FspRun) : Dev :=
  let taken := ((d.f.fsp.runs.filter (fun x => x.asked)).map (fun x => x.txWords)).foldl (· + ·) 0
  if r.asked || r.txWords = 0 || decide (16384 < taken + r.txWords) then d
  else ({ d with f.fsp := d.f.fsp.mapRuns (fun x => if x.tag == r.tag then { x with asked := true } else x) }).hostRead
    r.fn r.txAddr (8 * r.txWords)

/-- The runs whose transmit containers are to be read: those that wait for a slot start or have had it, the run in progress, and the
next one in line (R182, R186). -/
def Dev.fspFetch (d : Dev) : Dev :=
  let s := d.f.fsp
  let line := s.cur.toList.map FspItem.run ++ s.queue
  (s.waiting ++ s.fired ++ (line.take 2).filterMap FspItem.run?).foldl Dev.fspAsk d

/-- A load of an entry waits in the order. -/
def Dev.loadAhead (d : Dev) (e : Nat) : Bool :=
  d.f.fsp.queue.any (fun i => match i with
    | .load g => (match d.fop g with | some o => o.desc.entry == e | none => false)
    | .run _ => false
    | .behind _ => false)

/-- The order is gone through anew: a run that waited for a load of its entry is looked up once none stands before it. The order
so far is in the device, what follows is the first argument. -/
def Dev.fspSettle : List FspItem → Dev → Dev
  | [], d => d
  | i :: rest, d =>
    let keep := fun (d : Dev) (i : FspItem) => { d with f.fsp.queue := d.f.fsp.queue ++ [i] }
    match i with
    | .behind tag =>
      match d.fop tag with
      | none => Dev.fspSettle rest d
      | some o =>
        if d.loadAhead o.desc.entry then Dev.fspSettle rest (keep d i)
        else
          let a := d.fspLookup tag o
          Dev.fspSettle rest (match a.2 with | some r => keep a.1 (.run r) | none => a.1)
    | _ => Dev.fspSettle rest (keep d i)

/-- The order goes on (R181): a load at its head executes while no run is in progress. -/
def Dev.fspTurn : Nat → Dev → Dev
  | 0, d => d
  | n + 1, d =>
    match d.f.fsp.cur, d.f.fsp.queue with
    | none, .load tag :: rest => Dev.fspTurn n ((({ d with f.fsp.queue := [] }).fspLoadNow tag).fspSettle rest)
    | _, _ => d

/-- The order is taken up again, and the runs next in line are read for. -/
def Dev.fspNext (d : Dev) : Dev := (d.fspTurn d.f.fsp.queue.length).fspFetch

/-- FSP_ENTRY_LOAD (R176, R181): takes its place in the order. In the target role it completes WRONG_STATE (R173). -/
def doFspEntryLoad (tag : Nat) (t : Nat) (d : Dev) : Dev :=
  let d := d.at t
  match d.freshOp tag opFSP_ENTRY_LOAD with
  | none => d
  | some o =>
    let d := d.setFop tag (some { o with begun := true })
    if d.flag Fld.FSP_CTRL_ROLE then d.endF tag stWRONG_STATE 0
    else ({ d with f.fsp.queue := d.f.fsp.queue ++ [FspItem.load tag] }).fspNext

/-- FSP_RUN (R176, R180, R181, R186): its entry is looked up, behind any load of that entry that was opened before it. -/
def doFspRun (tag : Nat) (t : Nat) (d : Dev) : Dev :=
  let d := d.at t
  match d.freshOp tag opFSP_RUN with
  | none => d
  | some o => ((d.setFop tag (some { o with begun := true })).fspSettle [FspItem.behind tag]).fspNext

/-- FSP_TARGET (R173, R195): queues on its select; its reply containers are read. -/
def doFspTarget (tag : Nat) (t : Nat) (d : Dev) : Dev :=
  let d := d.at t
  match d.freshOp tag opFSP_TARGET with
  | none => d
  | some o =>
    let d := d.setFop tag (some { o with begun := true })
    let s := o.desc.dest - 0x110
    let tx := bitsOf o.desc.q2.toNat 0 16
    let rx := bitsOf o.desc.q4.toNat 0 16
    if !d.flag Fld.FSP_CTRL_ROLE then d.endF tag stWRONG_STATE 0
    else if tx != (d.fld (Fld.FSP_TGT_LEN_RPL_LENM1 s) + 48) / 48
        || decide (rx < (d.fld (Fld.FSP_TGT_LEN_RQ_MAXM1 s) + 48) / 48) then d.endF tag stBAD_DESC 0
    else ({ d with f.fsp.tgts := d.f.fsp.tgts ++ [FspTgt.mk tag s o.fn o.ring tx o.desc.q3.toNat rx none] }).hostRead o.fn
      o.desc.buf (8 * tx)

/-- Transmit or reply containers reach F-side staging (R182, R195). A target operation whose reply fails verification
completes CHK_PATH at once (R199). -/
def Dev.fspStage (d : Dev) (tag : Nat) (cs : List Container) : Dev :=
  let fsp := d.f.fsp.mapRuns (fun r => if r.tag == some tag && r.asked then { r with staged := some cs } else r)
  match d.f.fsp.tgts.find? (fun x => x.tag == tag) with
  | none => { d with f.fsp := fsp }
  | some x =>
    if cs.all (fun c => c.good x.fn x.ring (0x110 + x.sel)) then
      { d with f.fsp := { fsp with
        tgts := d.f.fsp.tgts.map (fun y => if y.tag == tag then { y with staged := some cs } else y) } }
    else
      let d1 := { d with f.fsp := { fsp with tgts := d.f.fsp.tgts.filter (fun y => y.tag != tag) } }
      ((d1.setFspSel x.sel { d1.fspSel x.sel with pendUnder := false }).refuse pathFSP x.fn 0).endF tag stCHK_PATH 0

/-- A slot FSP_START fires (R186, R187): the waiting run of its entry is to start, or the start is lost. A slot starts no entry on a
select that its function does not own (R1). -/
def Dev.fspSlotStart (d : Dev) (e : Nat) (fn : Func) : Dev :=
  match (if d.entryForeign fn e then none else d.f.fsp.waiting.find? (fun r => r.entry == e)) with
  | some r =>
    { d with f.fsp.waiting := d.f.fsp.waiting.filter (fun x => x.entry != e), f.fsp.fired := d.f.fsp.fired ++ [r] }
  | none =>
    ((d.setFld Fld.FSP_STATUS_START_LOST 1).bump Fld.FSP_START_LOST_CNT_COUNT ⟨Reg.FSP_CNT_SAT, 4, 1⟩).raiseFn .f
      Sn.FSP_START_LOST fn

/-- ABS_SAMPLE_RUN (R188): once in every PERIOD a run of the Carousel's entry falls due, or the entry cannot be run and ABS_BAD is
set. -/
def doAbsSampleRun (t : Nat) (d : Dev) : Dev :=
  let d := d.at t
  let early := match d.f.fsp.absAt with
    | some a => decide (d.now < a + 64 * d.fld Fld.CAR_ABS_CFG_PERIOD)
    | none => false
  match d.absEntry with
  | none => d
  | some e =>
    if early then d
    else
      let x := d.fspEntry e
      let d := { d with f.fsp.absAt := some d.now }
      if x.loaded && x.txWords == 0 && ecWords x.ectrl == 1 && x.phases.any (fun p => phKind p == 5) then
        { d with f.fsp.absDue := true }
      else (d.setFld Fld.FSP_STATUS_ABS_BAD 1).raiseOwner Sn.FSP_ABS_BAD Fld.PCI_OWN_PORT_CAR

/-- What the Carousel takes of its entry's first DATA_IN phase while its run is on the wires (R188), from the lanes in each clock of
that phase: nothing while no such run is, else the payload, or none where the frame is bad. -/
def Dev.absReceived (d : Dev) (rx : List (BitVec 8)) : Option (Option (List Bool)) :=
  match d.f.fsp.cur with
  | none => none
  | some r =>
    let x := d.fspEntry r.entry
    if r.tag.isSome || !d.f.fsp.inWord || d.f.fsp.absTaken then none
    else match x.phases.find? (fun p => phKind p == 5) with
      | none => none
      | some p =>
        let l := laneBits (phWidth p) (phD1 p) rx
        if ecFramed x.ectrl then
          let fr := readFrame l (phLen p)
          some (if fr.bad then none else some fr.payload)
        else some (some (l.take (phLen p)))

/-- A run begins (R182): with too small an RX_CAP it completes BAD_DESC and sends nothing. -/
def Dev.fspBegin (d : Dev) (r : FspRun) : Dev :=
  let x := d.fspEntry r.entry
  if !r.started && r.tag.isSome && decide (r.rxCap < ecWords x.ectrl * wordRx x.phases) then
    (d.fspRunEnd r stBAD_DESC).fspNext
  else ({ d with f.fsp.cur := some { r with started := true }, f.fsp.lastEntry := r.entry }).fspFetch

/-- FSP_RUN_START (R181, R182, R186, R188): the ABS run that is due, a run whose slot has fired, or the run at the head of
the order begins, once its containers are staged. The first two may also begin between the words of an entry with CONT 0,
whose run resumes its place after them. -/
def doFspRunStart (t : Nat) (d : Dev) : Dev :=
  let d := d.at t
  let s := d.f.fsp
  if !d.fspOn 0 || s.inWord || s.stopping then d
  else
    let open? := match s.cur with
      | none => true
      | some r => !ecCont (d.fspEntry r.entry).ectrl
    let shelve := match s.cur with
      | none => d
      | some r => { d with f.fsp.cur := none, f.fsp.queue := FspItem.run r :: s.queue }
    if !open? then d
    else if s.absDue then
      match d.absEntry with
      | some e => ({ shelve with f.fsp.absDue := false }).fspBegin
          ⟨none, e, false, 0, 0, 0, 0, 0, false, some [], 0, 0, false, false, false, 0, false, false⟩
      | none => { d with f.fsp.absDue := false }
    else match s.fired with
      | r :: rest =>
        if r.staged.isSome then ({ shelve with f.fsp.fired := rest }).fspBegin r else d
      | [] =>
        match s.cur, s.queue with
        | none, .run r :: rest => if r.staged.isSome then ({ d with f.fsp.queue := rest }).fspBegin r else d
        | _, _ => d

/-! ## Words in the controller role -/

/-- What a word drives, phase by phase and clock by clock (R175, Table FSP-4), from its containers; a framed DATA_OUT carries a frame
whose header is given. Turnaround and received phases release every lane; a framed DATA_IN, which is the last phase, takes as many
clocks as the received header says (R193). -/
def wordOut (framed : Bool) (alive : Nat) (badRx selAbort : Bool) : List Nat → List Container → List Lanes
  | [], _ => []
  | p :: ps, cs =>
    let n := phTx p
    let out := fun bits : List Bool => lanesOut (phWidth p) false bits.length bits
    let clocks :=
      if phKind p = 1 then out (bitsMsb (phLit p) (phLen p))
      else if phKind p = 2 then out (match cs with | c :: _ => bitsMsb c.word.toNat (phLen p) | [] => [])
      else if phKind p = 3 then
        let pl := bitsOfContainers (cs.take n) (phLen p)
        out (if framed then frameBits alive badRx false selAbort pl else pl)
      else if phKind p = 4 then lanesFree (phLen p)
      else if framed then [] else lanesFree (clocksOf (phWidth p) (phLen p))
    clocks ++ wordOut framed alive badRx selAbort ps (cs.drop n)

/-- FSP_WORD_START (R183 to R185, R199): the word begins once receive staging has room; its transmit containers are verified
under the run's route (R140). A container that fails ends the run at the preceding word boundary with CHK_PATH. -/
def doFspWordStart (t : Nat) (d : Dev) : Dev :=
  let d := d.at t
  match d.f.fsp.cur with
  | none => d
  | some r =>
    let x := d.fspEntry r.entry
    let n := wordTx x.phases
    let cs := ((r.staged.getD []).drop (n * r.word)).take n
    let sel := ecSel x.ectrl
    if !d.fspOn 0 || d.f.fsp.inWord || decide (16384 < d.rxStaged + wordRx x.phases) then d
    else if !cs.all (fun c => c.good r.fn r.ring 0x118) then
      let r1 := { r with chk := true }
      ((((({ d with f.fsp.cur := none }).setFld Fld.FSP_STATUS_CHK_END 1).refuse pathFSP r.fn 0).fspRunEnd r1 r1.status)).fspNext
    else
      let k := d.fspSel sel
      let sends := ecFramed x.ectrl && x.phases.any (fun p => phKind p == 3)
      let alive := match k.txAlive with | none => 0 | some a => nextAlive a
      let clocks := wordOut (ecFramed x.ectrl) alive k.pendBad k.pendAbort x.phases cs
      let d1 := if sends then d.setFspSel sel { k with txAlive := some alive, pendBad := false, pendAbort := false } else d
      ({ d1 with f.fsp.inWord := true, f.fsp.absTaken := false, f.fsp.lastWord := r.word }).emit (.fspWord sel clocks)

/-- A frame is received on a select (R191 to R193): alive and flags of a good frame are taken, a bad frame is counted and
flagged in the next frame sent. -/
def Dev.fspFrameIn (d : Dev) (sel : Nat) (fr : RxFrame) : Dev :=
  let k := d.fspSel sel
  let owner := Fld.PCI_OWN_PORT_FSP_SEL sel
  if fr.bad then
    ((d.setFspSel sel { k with pendBad := true }).bump Fld.FSP_CRC_CNT_COUNT ⟨Reg.FSP_CNT_SAT, 0, 1⟩).raiseOwner Sn.FSP_CRC owner
  else
    let d1 := d.setFspSel sel { k with rxAlive := fr.alive }
    let d2 := if fr.alive = 0 then d1.setFld (Fld.FSP_LINK_ST_RX_RESET sel) 1
      else if fr.under || fr.alive == nextAlive k.rxAlive then d1
      else (d1.bump Fld.FSP_ALIVE_CNT_COUNT ⟨Reg.FSP_CNT_SAT, 1, 1⟩).raiseOwner Sn.FSP_ALIVE owner
    let d3 := if fr.badRx then d2.setFld (Fld.FSP_LINK_ST_PARTNER_BAD sel) 1 else d2
    if fr.under then (d3.setFld (Fld.FSP_LINK_ST_PARTNER_UNDERRUN sel) 1).raiseOwner Sn.FSP_UNDERRUN owner else d3

/-- Containers received for a run are staged and sent on; the Carousel's own run keeps none (R188). -/
def Dev.fspDeliver (d : Dev) (tag : Option Nat) (l : List Bool) : Dev :=
  match tag with
  | some g => (wordsOfBits l).foldl (fun d w => d.receive g w) d
  | none => d

/-- An opcode of the FSP. -/
def isFsp (opcode : Nat) : Bool := opcode == opFSP_ENTRY_LOAD || opcode == opFSP_RUN || opcode == opFSP_TARGET

/-- Every operation of the FSP that is open and not finished completes WRONG_STATE (R173), one that the block has not yet taken too;
an FSP_RUN whose entry has not been looked up advances its run counter all the same (R180). -/
def Dev.fspAbortAll (d : Dev) : Dev :=
  let s := d.f.fsp
  let d1 := { d with f.fsp := { s with
    cur := none, inWord := false, queue := [], waiting := [], fired := [], absDue := false, tgts := [], serving := none,
    stopping := false } }
  let d2 := s.runs.foldl (fun d r => d.fspRunEnd r stWRONG_STATE) d1
  d2.f.ops.foldl (fun d p =>
    match p.2 with
    | some o =>
      if o.ended.isSome || !isFsp o.desc.opcode then d
      else
        let d := if o.desc.opcode = opFSP_RUN then d.fspCount o.desc.entry else d
        d.endF p.1 stWRONG_STATE 0
    | none => d) d2

/-- The word in progress has ended: an FSP that was to stop stops now (R173). -/
def Dev.fspWordDone (d : Dev) : Dev := if d.f.fsp.stopping then d.fspAbortAll else d

/-- FSP_WORD_END (R185, R188 to R193, R198): `rx` is what the lanes carried in each clock of each DATA_IN phase, and its bits are
taken; after the last word the run completes. Under R173 the FSP stops here. -/
def doFspWordEnd (rx : List (List (BitVec 8))) (t : Nat) (d : Dev) : Dev :=
  let d := d.at t
  match d.f.fsp.cur with
  | none => d
  | some r =>
    if !d.f.fsp.inWord then d
    else
      let x := d.fspEntry r.entry
      let sel := ecSel x.ectrl
      let ins := (x.phases.filter (fun p => phKind p == 5)).zip rx
      let step := fun (a : Dev × FspRun) (p : Nat × List (BitVec 8)) =>
        let bits := laneBits (phWidth p.1) (phD1 p.1) p.2
        if ecFramed x.ectrl then
          let fr := readFrame bits (phLen p.1)
          let d1 := (a.1.fspFrameIn sel fr).fspDeliver r.tag fr.payload
          (d1, { a.2 with
            got := a.2.got + (fr.payload.length + 47) / 48
            crc := a.2.crc || fr.bad
            under := a.2.under || (!fr.bad && fr.under)
            alive := fr.alive
            badRx := a.2.badRx || (!fr.bad && fr.badRx) })
        else
          let l := bits.take (phLen p.1)
          (a.1.fspDeliver r.tag l, { a.2 with got := a.2.got + phRx p.1 })
      let res := ins.foldl step (d, { r with word := r.word + 1 })
      let d1 := { res.1 with f.fsp.inWord := false }
      if res.2.word = ecWords x.ectrl then
        let d2 := ({ d1 with f.fsp.cur := none }).fspRunEnd res.2 res.2.status
        if d2.f.fsp.stopping then d2.fspWordDone else d2.fspNext
      else ({ d1 with f.fsp.cur := some res.2 }).fspWordDone

/-! ## The target role -/

/-- The oldest ready operation of a select (R195). -/
def Dev.fspReady (d : Dev) (sel : Nat) : Option FspTgt :=
  d.f.fsp.tgts.find? (fun x => x.sel == sel && x.staged.isSome)

/-- A word of a select is aborted (R197): the partial word is discarded, and the operation that serves it completes
SEL_ABORT. -/
def Dev.fspAbortWord (d : Dev) (sel : Nat) (tag : Option Nat) : Dev :=
  let d1 := (d.setFspSel sel { d.fspSel sel with pendAbort := true }).bump Fld.FSP_ABORT_CNT_COUNT ⟨Reg.FSP_CNT_SAT, 3, 1⟩
  let d2 := d1.raiseOwner Sn.FSP_SEL_ABORT (Fld.PCI_OWN_PORT_FSP_SEL sel)
  match tag with
  | some g => (({ d2 with f.fsp.tgts := d2.f.fsp.tgts.filter (fun x => x.tag != g) }).setFspSel sel
      { d2.fspSel sel with pendUnder := false }).endF g stSEL_ABORT 0
  | none => d2

/-- FSP_TARGET_WORD_BEGIN (R194 to R197): the oldest ready operation serves the word; with none, the word underruns. A
word on another select than the one in progress is treated as aborted, as is one for which receive staging has no room. The word
begins with the select, or with HELD at a clock after the last word; without HELD such clocks are ignored. -/
def doFspTargetWordBegin (sel : Nat) (asserted : Bool) (t : Nat) (d : Dev) : Dev :=
  let d := d.at t
  if !d.fspOn 1 || decide (8 ≤ sel) || (!asserted && !d.flag (Fld.FSP_TGT_CFG_HELD sel)) then d
  else
    let ready := (d.fspReady sel).map (fun x => x.tag)
    match d.f.fsp.serving with
    | some (s, _) => if s = sel then d else d.fspAbortWord sel ready
    | none =>
      if decide (16384 < d.rxStaged + (d.fld (Fld.FSP_TGT_LEN_RQ_MAXM1 sel) + 48) / 48) then
        (d.setFld Fld.FSP_STATUS_RX_FULL 1).fspAbortWord sel ready
      else
        let d1 := { d with f.fsp.serving := some (sel, ready) }
        if ready.isSome then d1
        else ((d1.setFspSel sel { d1.fspSel sel with pendUnder := true }).bump Fld.FSP_UNDERRUN_CNT_COUNT
          ⟨Reg.FSP_CNT_SAT, 2, 1⟩).raiseOwner Sn.FSP_UNDERRUN (Fld.PCI_OWN_PORT_FSP_SEL sel)

/-- What the target drives after a request (R194): TA clocks with every lane released, then the reply frame at its width, on D1 at ×1
with W1_D1. -/
def Dev.fspReply (d : Dev) (sel : Nat) (bits : List Bool) : Dev :=
  d.emit (.fspWord sel (lanesFree (d.fld (Fld.FSP_TGT_CFG_TA sel))
    ++ lanesOut (d.fld (Fld.FSP_TGT_CFG_RP_W sel)) (d.flag (Fld.FSP_TGT_CFG_W1_D1 sel)) bits.length bits))

/-- FSP_TARGET_WORD_END (R191, R194 to R198): the request frame is taken from the lanes in each of its clocks, the reply has been
sent, and the serving operation completes; with none serving, the previous reply went out again and the request is discarded. -/
def doFspTargetWordEnd (sel : Nat) (request : List (BitVec 8)) (t : Nat) (d : Dev) : Dev :=
  let d := d.at t
  match d.f.fsp.serving with
  | none => d
  | some (s, tag) =>
    if s != sel then d
    else
      let d0 := { d with f.fsp.serving := none }
      let rpl := d.fld (Fld.FSP_TGT_LEN_RPL_LENM1 sel) + 1
      let fr := readFrame (laneBits (d.fld (Fld.FSP_TGT_CFG_RQ_W sel)) false request) (d.fld (Fld.FSP_TGT_LEN_RQ_MAXM1 sel) + 1)
      match tag.bind (fun g => d.f.fsp.tgts.find? (fun x => x.tag == g)) with
      | none =>
        let k := d0.fspSel sel
        let pr := k.prev.getD (0, [])
        let bits := if k.prev.isNone then List.replicate rpl false else bitsOfContainers pr.2 rpl
        ((d0.setFspSel sel { k with
          txAlive := if k.prev.isNone then some 0 else k.txAlive
          pendBad := false
          pendAbort := false }).fspReply sel (frameBits pr.1 k.pendBad true k.pendAbort bits)).fspWordDone
      | some x =>
        let d1 := d0.fspFrameIn sel fr
        let k := d1.fspSel sel
        let alive := match k.txAlive with | none => 0 | some a => nextAlive a
        let cs := x.staged.getD []
        let d2 := (d1.setFspSel sel { k with
          txAlive := some alive
          pendBad := false
          pendAbort := false
          pendUnder := false
          prev := some (alive, cs) }).fspReply sel (frameBits alive k.pendBad false k.pendAbort (bitsOfContainers cs rpl))
        let d3 := (d2.fspDeliver (some x.tag) fr.payload)
        let st := if fr.bad then stCRC_ERR else if k.pendUnder || fr.under then stUNDERRUN else stOK
        let res := BitVec.ofNat 64 ((fr.payload.length + 47) / 48 % 2 ^ 16 + fr.alive * 2 ^ 16 + b2n (!fr.bad && fr.badRx) * 2 ^ 20)
        (({ d3 with f.fsp.tgts := d3.f.fsp.tgts.filter (fun y => y.tag != x.tag) }).endF x.tag st res).fspWordDone

/-- FSP_SEL_ABORT (R197): the select is released mid-word. -/
def doFspSelAbort (sel : Nat) (t : Nat) (d : Dev) : Dev :=
  let d := d.at t
  match d.f.fsp.serving with
  | some (s, tag) => if s = sel then (({ d with f.fsp.serving := none }).fspAbortWord sel tag).fspWordDone else d
  | none => d

/-! ## Register writes (R173, R204) -/

/-- A write of FSP_CTRL. EN from 1 to 0 stops the FSP at the end of its word. -/
def Dev.fspCtrlWrite (d : Dev) (fn : Func) (data : Word) : FwOut :=
  let old := d.rd Reg.FSP_CTRL
  let en := bitOf old.toNat 0
  if !d.owns Fld.PCI_OWN_PORT_FSP fn then notOwner
  else if d.flag Fld.FSP_CTRL_LOCK && changes old data 0x6 then lockedOut
  else if en && changes old data 0x6 then badValue
  else
    let d1 := d.wr Reg.FSP_CTRL ((data &&& 0x7) ||| ((old ||| data) &&& 0x8))
    if en && !bitOf data.toNat 0 then
      .ok (if d.f.fsp.inWord || d.f.fsp.serving.isSome then { d1 with f.fsp.stopping := true } else d1.fspAbortAll)
    else .ok d1

/-- A write of FSP_TGT_CFG[s] or FSP_TGT_LEN[s]: it clears the select's previous reply and alive state. -/
def Dev.fspTgtWrite (d : Dev) (fn : Func) (off : Nat) (data : Word) : FwOut :=
  let s := (off - 0x2860) / 8
  let busy := d.f.fsp.tgts.any (fun x => x.sel == s) || (match d.f.fsp.serving with | some (k, _) => k == s | none => false)
    || (d.f.fsp.inWord && (match d.f.fsp.cur with | some r => ecSel (d.fspEntry r.entry).ectrl == s | none => false))
  if d.selCode s != codeOf fn then notOwner
  else if busy || ((off - 0x2860) % 8 == 0 && decide (bitsOf data.toNat 6 8 < 2)) then badValue
  else .ok ((d.wrAccess off data).setFspSel s { d.fspSel s with txAlive := none, rxAlive := 0, prev := none })

/-- Counter and SAT bit of each CLR bit of FSP_CNT_SAT, in offset order. -/
def fspCounters : List Fld :=
  [Fld.FSP_CRC_CNT_COUNT, Fld.FSP_ALIVE_CNT_COUNT, Fld.FSP_UNDERRUN_CNT_COUNT, Fld.FSP_ABORT_CNT_COUNT,
    Fld.FSP_START_LOST_CNT_COUNT]

/-- A write to a register of the FSP block. -/
def Dev.fspWrite (d : Dev) (fn : Func) (off : Nat) (data : Word) : FwOut :=
  let owner := d.owns Fld.PCI_OWN_PORT_FSP fn
  if off = Reg.FSP_CTRL then d.fspCtrlWrite fn data
  else if off = Reg.FSP_STATUS then if owner then .ok (d.wrAccess off data) else notOwner
  else if 0x2810 ≤ off ∧ off < 0x2850 then
    if !owner then notOwner
    else if d.flag Fld.FSP_CTRL_LOCK && changes (d.rd off) data (match specOf off with | some r => r.rw | none => 0) then lockedOut
    else if off % 8 = 0 ∧ bitsOf data.toNat 0 12 < 4 then badValue
    else .ok (d.wrAccess off data)
  else if 0x2860 ≤ off ∧ off < 0x28A0 then d.fspTgtWrite fn off data
  else if 0x28C0 ≤ off ∧ off < 0x28E0 then
    if d.selCode ((off - 0x28C0) / 4) == codeOf fn then .ok (d.wrAccess off data) else notOwner
  else if off = Reg.FSP_CNT_SAT then
    if owner then .ok ((List.range 5).foldl (fun d k =>
      if bitOf data.toNat (8 + k) then d.clearCnt (fspCounters.getD k Fld.FSP_CRC_CNT_COUNT) ⟨Reg.FSP_CNT_SAT, k, 1⟩ else d) d)
    else notOwner
  else badValue

/-- An FSP register as read. -/
def Dev.fspRead (d : Dev) (off : Nat) : Word :=
  let s := d.f.fsp
  if off = Reg.FSP_STATUS then
    let wait := match s.cur with
      | none => (match s.queue with | .run r :: _ => r.staged.isNone | _ => false)
      | some r => !s.inWord && decide (16384 < d.rxStaged + wordRx (d.fspEntry r.entry).phases)
    d.rd off ||| BitVec.ofNat 32 (b2n (s.inWord || s.serving.isSome) + b2n wait * 2 + s.lastEntry * 4 + s.lastWord * 2 ^ 10)
  else if 0x28C0 ≤ off ∧ off < 0x28E0 then
    let k := d.fspSel ((off - 0x28C0) / 4)
    d.rd off ||| BitVec.ofNat 32 (k.txAlive.getD 0 + k.rxAlive * 16 + b2n k.pendBad * 2 ^ 8 + b2n k.pendAbort * 2 ^ 9)
  else d.rd off

/-- FSP_DISABLE (R173): a write of FSP_CTRL with EN 0. -/
def doFspDisable (fn : Func) (data : Word) (t : Nat) (d : Dev) : Dev :=
  ((d.at t).fspCtrlWrite fn (data &&& 0xFFFFFFFE)).orRej (d.at t) Fld.FSP_STATUS_CFG_REJ

/-- FSP_TGT_CFG_WRITE (R204). -/
def doFspTgtCfgWrite (fn : Func) (off : Nat) (data : Word) (t : Nat) (d : Dev) : Dev :=
  if 0x2860 ≤ off ∧ off < 0x28A0 ∧ off % 4 = 0 then ((d.at t).fspTgtWrite fn off data).orRej (d.at t) Fld.FSP_STATUS_CFG_REJ else d.at t

/-! ## The commands' meanings -/

/-- The meaning of the command: `doFspEntryLoad` on the device. -/
def execFspEntryLoad (tag : Nat) (t : Nat) (s : State) : Out :=
  s.onDev (doFspEntryLoad tag t)

/-- The meaning of the command: `doFspRun` on the device. -/
def execFspRun (tag : Nat) (t : Nat) (s : State) : Out :=
  s.onDev (doFspRun tag t)

/-- The meaning of the command: `doFspTarget` on the device. -/
def execFspTarget (tag : Nat) (t : Nat) (s : State) : Out :=
  s.onDev (doFspTarget tag t)

/-- The meaning of the command: `doAbsSampleRun` on the device. -/
def execAbsSampleRun (t : Nat) (s : State) : Out :=
  s.onDev (doAbsSampleRun t)

/-- The meaning of the command: `doFspRunStart` on the device. -/
def execFspRunStart (t : Nat) (s : State) : Out :=
  s.onDev (doFspRunStart t)

/-- The meaning of the command: `doFspWordStart` on the device. -/
def execFspWordStart (t : Nat) (s : State) : Out :=
  s.onDev (doFspWordStart t)

/-- The meaning of the command: `doFspWordEnd` on the device. -/
def execFspWordEnd (rx : List (List (BitVec 8))) (t : Nat) (s : State) : Out :=
  s.onDev (doFspWordEnd rx t)

/-- The meaning of the command: `doFspTargetWordBegin` on the device. -/
def execFspTargetWordBegin (sel : Nat) (asserted : Bool) (t : Nat) (s : State) : Out :=
  s.onDev (doFspTargetWordBegin sel asserted t)

/-- The meaning of the command: `doFspTargetWordEnd` on the device. -/
def execFspTargetWordEnd (sel : Nat) (request : List (BitVec 8)) (t : Nat) (s : State) : Out :=
  s.onDev (doFspTargetWordEnd sel request t)

/-- The meaning of the command: `doFspSelAbort` on the device. -/
def execFspSelAbort (sel : Nat) (t : Nat) (s : State) : Out :=
  s.onDev (doFspSelAbort sel t)

/-- The meaning of the command: `doFspDisable` on the device. -/
def execFspDisable (fn : Func) (data : Word) (t : Nat) (s : State) : Out :=
  s.onDev (doFspDisable fn data t)

/-- The meaning of the command: `doFspTgtCfgWrite` on the device. -/
def execFspTgtCfgWrite (fn : Func) (off : Nat) (data : Word) (t : Nat) (s : State) : Out :=
  s.onDev (doFspTgtCfgWrite fn off data t)

end Sys2Proof.Machine
end

