-- ==== Sys2Proof/Machine/Carousel.lean ====
section
/-!
DEFINITION. The Carousel (R18 to R36, R38, R39): position, turns and modulus, the five sources with their losses, locks and
holdover, prediction, slot arming, placement and firing, and the register writes of the block.
-/

namespace Sys2Proof.Machine

/-! ## Access -/

/-- A slot, and the device with it replaced. -/
def Dev.slot (d : Dev) (n : Nat) : Slot := Tab.get (fun _ => Slot.free) d.f.car.slots n
def Dev.setSlot (d : Dev) (n : Nat) (x : Slot) : Dev :=
  { d with f.car.slots := d.f.car.slots.set (fun _ => Slot.free) n x }

/-- The owner code of the Carousel. -/
def Dev.carCode (d : Dev) : Nat := d.fld Fld.PCI_OWN_PORT_CAR

/-- The Carousel is enabled. -/
def Dev.carEn (d : Dev) : Bool := d.flag Fld.CAR_CTRL_EN

/-- The position is frozen: by a loss under HOLD until a source selected since then counts (R22, R23), or in REST (R280). -/
def Dev.carFrozen (d : Dev) : Bool := d.f.car.held || d.f.ch.rest.isSome

/-- The Carousel counts. -/
def Dev.carRuns (d : Dev) : Bool := d.carEn && !d.carFrozen

/-- Slots act: not in STANDBY (R354). -/
def Dev.slotsAct (d : Dev) : Bool := d.carRuns && !d.f.ch.standby

/-- A source that the NCO generates. -/
def isNco (src : Nat) : Bool := src == 0 || src == 3 || src == 4

/-- The rate at which the NCO generates a source whose steered rate is `steered`, in 2^-31 counts per cycle (R21): CAR_INT_RATE, at
most one count per cycle, or the steered rate. -/
def Dev.rateOf (d : Dev) (src steered : Nat) : Nat :=
  if src = 0 then min (d.fld Fld.CAR_INT_RATE_RATE) 0x80000000 else steered

/-- The NCO's rate for the source in use. -/
def Dev.ncoRate (d : Dev) : Nat := d.rateOf d.f.car.src d.f.car.rate

/-- The rate at which the NCO's phase advances now (R21): that of the source in use, else that of a selected source that it is
to generate; 0 while EN is 0 and in REST. -/
def Dev.ncoRun (d : Dev) : Nat :=
  let c := d.f.car
  if !d.carEn || d.f.ch.rest.isSome then 0
  else if isNco c.src && !c.held then d.ncoRate
  else match c.pendSrc with
    | some s => if isNco s then d.rateOf s c.pendRate else 0
    | none => 0

/-- The NCO's phase in 2^-31 counts. -/
def Dev.ncoPhase (d : Dev) : Nat := d.f.car.acc + d.ncoRun * (d.now - d.f.car.ncoAt)

/-- The phase is taken down as of now, before what it advances by changes. -/
def Dev.ncoSettle (d : Dev) : Dev := { d with f.car.acc := d.ncoPhase, f.car.ncoAt := d.now }

/-! ## Prediction (R24) -/

/-- The acceleration bound of R24, in cycles: |v2 - v1| / ((t8 + t4 - t5 - t1) / 2) against CAR_ACC_MAX counts/s². -/
def accOk (acc t1 t4 t5 t8 : Nat) : Bool :=
  let a := t5 - t1
  let b := t8 - t4
  let dd := (t8 + t4) - (t5 + t1)
  let diff := (a - b) + (b - a)
  a != 0 && b != 0 && dd != 0 && decide (8 * diff * (800000000 * 800000000) ≤ acc * (a * b * dd))

/-- Prediction is available (R24). -/
def Dev.predOk (d : Dev) : Bool :=
  let c := d.f.car
  if !d.carRuns then false
  else if isNco c.src then d.ncoRate != 0
  else if c.src = 1 then
    match c.edges with
    | [e8, e7, _, e5, e4, _, _, e1] =>
      c.edges.all (fun e => e.2 == e8.2) && decide (d.now - e8.1 ≤ 2 * (e8.1 - e7.1))
        && accOk (d.fld Fld.CAR_ACC_MAX_ACC) e1.1 e4.1 e5.1 e8.1
    | _ => false
  else false

/-- The current direction (R24): 0 still, 1 forward, 2 reverse. R24 states DIR while the position is frozen, and nothing for EN at 0,
when nothing counts either: it reads still then too, so that no EITHER arm is late (DESIGN CHOICE, log entry 97). -/
def Dev.carDir (d : Dev) : Nat :=
  let c := d.f.car
  if !d.carRuns then 0
  else if isNco c.src then (if d.ncoRate = 0 then 0 else 1)
  else if c.src = 1 then
    match c.edges with
    | e8 :: e7 :: _ => if d.now - e8.1 ≤ 2 * (e8.1 - e7.1) then (if e8.2 then 1 else 2) else 0
    | _ => 0
  else if c.src = 2 then c.absDir
  else 0

/-! ## Slot actions and completions -/

/-- PENDING slots return to ARMED. -/
def Dev.unpend (d : Dev) : Dev :=
  { d with f.car.slots := d.f.car.slots.mapVals (fun _ => Slot.free) (fun x => if x.st = .pending then { x with st := .armed } else x) }

/-- PENDING slots whose prediction has become unavailable are abandoned (R28): ARMED, to fire at the real count. -/
def Dev.abandon (d : Dev) : Dev :=
  { d with f.car.slots := d.f.car.slots.mapVals (fun _ => Slot.free) (fun x =>
      if x.st = .pending then { x with st := .armed, abandoned := true } else x) }

/-- The predictions that hold no longer are abandoned. -/
def Dev.predCheck (d : Dev) : Dev := if d.predOk then d else d.abandon

/-- A slot action that touches a channel it may not (R158, R159): SUPPRESS and CH_SUPPRESS for the slot's function. -/
def Dev.suppress (d : Dev) (fn : Func) : Dev :=
  (d.setFld (if fn then Fld.CH_STATUS_SUPPRESS_B else Fld.CH_STATUS_SUPPRESS_A) 1).raiseFn .f Sn.CH_SUPPRESS fn

/-- A CHANNEL action whose value holds (R35, R158, R159): the owned channels of the mask take it, but for those that a
higher-numbered slot has set in this cycle. -/
def Dev.slotChannels (d : Dev) (n : Nat) (x : Slot) : Dev :=
  let c := d.f.ch
  let m := x.operand &&& c.ownMask x.fn
  let m1 := m &&& ~~~(c.setHigher d.now n)
  let d1 := ({ d with f.ch := c.noteSlot d.now m1 n }).applyBits x.fn x.value.word m1
  if (x.operand &&& ~~~m) != 0 || (m &&& c.outMask &&& c.held) != 0 then d1.suppress x.fn else d1

/-- A CAPTURE action (R159, R166): the levels of the owned channels of the mask, as a SLOT record or as a lost sample. -/
def Dev.slotCapture (d : Dev) (n : Nat) (x : Slot) : Dev :=
  let m := x.operand &&& d.f.ch.ownMask x.fn
  let ps := d.posAt d.now
  let d1 := if (d.cap x.fn).isSome then d.capRecord x.fn none (d.levels &&& m) (recordQ1 0 0 1 n ps.2) ps.1
    else d.capDiscard.capLost x.fn
  if (x.operand &&& ~~~m) != 0 then d1.suppress x.fn else d1

/-- A slot's action executes (Table CAR-2), and NOTIFY reports the firing. The result says whether a CHANNEL value was
refused (R141). -/
def Dev.slotAct (d : Dev) (n : Nat) (x : Slot) : Dev × Bool :=
  let bad := x.action == 1 && !x.value.good x.fn x.ring n
  let d1 :=
    if x.action = 1 then (if bad then d.refuse pathSLOT x.fn n else d.slotChannels n x)
    else if x.action = 2 then d.fspSlotStart (x.operand.toNat % 256) x.fn
    else if x.action = 3 then d.slotCapture n x
    else if x.action = 4 then
      d.tmStartMask ((List.range 8).foldl (fun m k =>
        if bitOf x.operand.toNat k && d.tmCode k == codeOf x.fn then m + 2 ^ k else m) 0)
    else d.v1 (codeOf x.fn)
  (if x.notify then d1.v1 (codeOf x.fn) else d1, bad)

/-- Position and turn counter as a SLOT_ARM's RESULT (Table RM-10). -/
def Dev.slotResult (d : Dev) : Quad := BitVec.ofNat 64 (d.f.car.pos % 2 ^ 48 + d.f.car.turn % 2 ^ 16 * 2 ^ 48)

/-- The status code of a LAST value (Table CAR-6, Table RM-9). -/
def lastStatus (last : Nat) : Nat :=
  if last = 1 then stFIRED else if last = 2 then stPREDICTED else if last = 3 then stEARLY
  else if last = 4 then stLATE else stDISARMED

/-- Another turn index within 2^30 of one, either way: far enough for every index that the travel can enter again (R33). -/
def indexNear (idx i : Nat) : Bool :=
  i != idx && (decide ((i + 2 ^ 32 - idx) % 2 ^ 32 < 2 ^ 30) || decide ((idx + 2 ^ 32 - i) % 2 ^ 32 < 2 ^ 30))

/-- A slot fires with a LAST value (R33, Table CAR-3): its action, unless it is LATE under DROP, the counters and sources of
LATE and EARLY_ABANDONED, the state, and a ONCE arm's completion. -/
def Dev.slotFire (d : Dev) (n : Nat) (last : Nat) : Dev :=
  let x := d.slot n
  let res := if last = 4 && x.drop then (d, false) else d.slotAct n x
  let d1 :=
    if last = 4 then (res.1.bump Fld.CAR_LATE_CNT_COUNT Fld.CAR_CNT_SAT_SAT_LATE).raiseBoth .f Sn.CAR_LATE
    else if last = 3 then
      (res.1.bump Fld.CAR_ABANDON_CNT_COUNT Fld.CAR_CNT_SAT_SAT_ABANDON).raiseBoth .f Sn.CAR_ABANDON
    else res.1
  if x.repeats then
    let idx := d1.f.car.index
    d1.setSlot n { x with st := .spent, last := last, fired := idx :: x.fired.filter (indexNear idx), abandoned := false }
  else
    let d2 := d1.setSlot n { Slot.free with last := last }
    match x.tag with
    | some g => d2.endF g (if res.2 then stCHK_PATH else lastStatus last) d2.slotResult
    | none => d2

/-- A slot goes to FREE without firing: LAST reads DISARMED, and a ONCE arm completes DISARMED. -/
def Dev.slotFree (d : Dev) (n : Nat) : Dev :=
  let x := d.slot n
  if x.st = .free then d
  else
    let d1 := d.setSlot n { Slot.free with last := 5 }
    match x.tag with
    | some g => d1.endF g stDISARMED 0
    | none => d1

/-- The slots in use, in ascending order. -/
def Dev.slotKeys (d : Dev) : List Nat := (d.f.car.slots.filter (fun p => p.2.st != .free)).map (·.1)

/-- A function's slots go to FREE without completion (Table PCI-7). -/
def Dev.slotsReset (d : Dev) (fn : Func) : Dev :=
  d.slotKeys.foldl (fun d n => if (d.slot n).fn == fn then d.setSlot n Slot.free else d) d

/-- ONCE arms of a ring complete DISARMED as their ring is disabled (R115). -/
def Dev.slotsDisarm (d : Dev) (ring : Nat) : Dev :=
  d.slotKeys.foldl (fun d n => if (d.slot n).ring = ring ∧ (d.slot n).tag.isSome then d.slotFree n else d) d

/-! ## Turns (R20, R33) -/

/-- The turn index has changed: a REPEAT slot is SPENT while it has fired in the present index, and ARMED else (R33). -/
def Dev.turnChanged (d : Dev) : Dev :=
  let idx := d.f.car.index
  { d with f.car.slots := d.f.car.slots.mapVals (fun _ => Slot.free) (fun x =>
      if !x.repeats then x
      else if x.st = .spent ∧ !x.fired.contains idx then { x with st := .armed }
      else if (x.st = .armed ∨ x.st = .pending) ∧ x.fired.contains idx then { x with st := .spent }
      else x) }

/-- The turn counter after one wrap (R20). -/
def Dev.turnCount (d : Dev) (forward : Bool) : Dev :=
  let c := d.f.car
  if d.flag Fld.CAR_TURN_SAT then d
  else if forward then
    let d1 := { d with f.car.turn := c.turn + 1 }
    if c.turn + 1 = 0xFFFF then (d1.setFld Fld.CAR_TURN_SAT 1).v1 d.carCode else d1
  else if c.turn = 0 then d.setFld Fld.CAR_TURN_BELOW 1
  else { d with f.car.turn := c.turn - 1 }

/-- One wrap: the turn counter, the turn index and the slots that follow it. -/
def Dev.wrap (d : Dev) (forward : Bool) : Dev :=
  let d1 := d.turnCount forward
  ({ d1 with
    f.car.index := (d1.f.car.index + (if forward then 1 else 2 ^ 32 - 1)) % 2 ^ 32
    f.car.lastWrap := some (d1.now, forward)
    f.car.wraps := d1.f.car.wraps + (if forward then 1 else -1) }).turnChanged

/-! ## Travel -/

/-- A time and position enter the recent history, which reaches back far enough for every filter and input delay. -/
def Dev.carNote (d : Dev) (count : Bool) : Dev :=
  let h := d.f.car.hist
  let near := h.takeWhile (fun e => decide (d.now < e.1 + 8192))
  let far := h.drop near.length
  let keep := far.take 1 ++ (match far.drop 1 |>.find? (fun e => e.2.2) with | some e => [e] | none => [])
  { d with f.car.hist := (d.now, d.f.car.pos, count) :: (near ++ keep) }

/-- The position takes a loaded value (R36): no slot fires, pends or becomes LATE by it. It re-establishes the position after a
Rest, so that the next sample under ABS is taken as it is (R280; log entry 24). -/
def Dev.carLoad (d : Dev) (v : Nat) : Dev :=
  ({ d with f.car.pos := v, f.car.absOff := 0, f.car.absRest := false }).carNote false

/-- The qualifier allows a direction. -/
def qualAllows (qual : Nat) (forward : Bool) : Bool := if forward then qual % 2 == 1 else decide (2 ≤ qual)

/-- The distance from a position to T + fraction in 1/256 counts along a direction, modulo M (R25). -/
def dist256 (m target frac pos : Nat) (forward : Bool) : Nat :=
  let t := target * 256 + frac
  let p := pos * 256
  if forward then (t + m * 256 - p) % (m * 256) else (p + m * 256 - t) % (m * 256)

/-- Whether one count from `old` reaches T + fraction (R32), and, for R28, the integer part of the target. -/
def crosses (m : Nat) (x : Slot) (old : Nat) (forward : Bool) : Bool :=
  let a := dist256 m x.target x.frac old forward
  decide (0 < a) && decide (a ≤ 256)
def crossesInt (m : Nat) (x : Slot) (old : Nat) (forward : Bool) : Bool :=
  let a := dist256 m x.target 0 old forward
  (decide (0 < a) && decide (a ≤ 256)) || (forward && x.frac != 0 && a == 0)

/-- The placed instant of a slot at a count at `now` (R25, R29): the time from the last count to the crossing less the lead, to the
nearest cycle. `dist` is in 1/256 counts, negative for a target that this count has passed, `phase` is the NCO's phase beyond the
count in 2^-31 counts, and the velocity is `vn / vd` counts per cycle (`vd` is 2^31 where there is a phase). -/
def placedAt (now : Nat) (dist : Int) (phase vn vd lead : Nat) : Int :=
  now + (2 * (dist * vd - 256 * phase) + 256 * vn) / (2 * 256 * vn) - lead

/-- One slot at one count (R25 to R29, R32; Table CAR-3). -/
def Dev.slotAtCount (d : Dev) (n old : Nat) (forward : Bool) : Dev :=
  let c := d.f.car
  let x := d.slot n
  if !(x.st = .armed ∨ x.st = .pending) || !qualAllows x.qual forward then d
  else if x.frac = 0 ∧ x.lead = 0 then
    if crosses c.modulus x old forward then d.slotFire n 1 else d
  else if x.abandoned || !d.predOk then
    let d1 := if x.st = .pending then d.setSlot n { x with st := .armed, abandoned := true } else d
    if crossesInt c.modulus x old forward then d1.slotFire n 3 else d1
  else
    let nco := isNco c.src
    let t1 := match c.edges.getLast? with | some e => e.1 | none => d.now
    let t7 := match c.edges with | _ :: e7 :: _ => e7.1 | _ => d.now
    let vn := if nco then d.ncoRate else 7
    let vd := if nco then 2 ^ 31 else d.now - t1
    let phase := if nco then c.acc else 0
    let a := dist256 c.modulus x.target x.frac old forward
    let dist : Int := if 0 < a ∧ a ≤ 256 then (a : Int) - 256
      else (dist256 c.modulus x.target x.frac c.pos forward : Int)
    let p := placedAt d.now dist phase vn vd x.lead
    let late : Int := d.now - p
    let inPeriod := if nco then decide (late * (vn : Int) ≤ (vd : Int)) else decide (late ≤ ((d.now - t7 : Nat) : Int))
    if p ≤ (d.now : Int) then
      if inPeriod then d.slotFire n (if nco then 1 else 2) else d.slotFire n 4
    else if x.st = .pending ∨ (p - d.now) * (vn : Int) + phase < (vd : Int) then
      d.setSlot n { x with st := .pending, placed := p.toNat }
    else d

/-- Every slot at one count, in ascending order, so that the value of the highest-numbered slot stands (R35). -/
def Dev.slotsAtCount (d : Dev) (old : Nat) (forward : Bool) : Dev :=
  if d.slotsAct then d.slotKeys.foldl (fun d n => d.slotAtCount n old forward) d else d

/-- One count (R18, R20): the position modulo M, the wrap, and the turn index before the slots are evaluated. -/
def Dev.carStep (d : Dev) (forward : Bool) : Dev :=
  let c := d.f.car
  let wraps := if forward then c.pos + 1 = c.modulus else c.pos = 0
  let p := if forward then (c.pos + 1) % c.modulus else (c.pos + c.modulus - 1) % c.modulus
  let d1 := { d with f.car.pos := p, f.car.counted := true, f.car.moved := c.moved + (if forward then 1 else -1) }
  if wraps then d1.wrap forward else d1

/-! ## Sources (R21 to R23) -/

/-- A source takes effect at its first count (R22): the prediction history is cleared, PENDING slots return to ARMED, and a
position that a loss has held moves again (R23). -/
def Dev.takeSource (d : Dev) (src : Nat) : Dev :=
  let d := d.ncoSettle
  ({ d with f.car := { d.f.car with
    src := src, pendSrc := none, held := false, rate := if isNco src then d.f.car.pendRate else d.f.car.rate
    edges := [], counted := false, absDir := 0, absOff := 0, absRest := false, onInternal := false } }).unpend

/-- A count of source `src` is taken while it is in use, or makes the selected source take effect (R22). While a loss holds the
position, only a source selected since then counts (R23). -/
def Dev.sourceCounts (d : Dev) (src : Nat) : Option Dev :=
  let c := d.f.car
  if !d.carEn || d.f.ch.rest.isSome then none
  else if c.pendSrc = some src then some (d.takeSource src)
  else if c.src = src && !c.held then some d
  else none

/-- A loss in STANDBY spoils the latches that a takeover would count from (R359). -/
def Dev.latchLost (d : Dev) : Dev :=
  { d with
    f.headLatch := d.f.headLatch.map (fun l => { l with lost := true })
    h.mir.snap := d.h.mir.snap.map (fun s => { s with latch := s.latch.map (fun l => { l with lost := true }) }) }

/-- The selected source is lost (R23): under HOLD the position freezes, under INTERNAL the NCO counts at CAR_INT_RATE. In REST no
input is sampled and the Carousel does not count (R279, R280): nothing is lost there. -/
def Dev.carLose (d : Dev) : Dev :=
  let c := d.f.car
  if !d.carEn || c.lost || d.f.ch.rest.isSome then d
  else
    let d := d.latchLost.ncoSettle
    let d1 := (d.setFld Fld.CAR_STATUS_SRC_LOST 1).raiseBoth .f Sn.CAR_SRC_LOST
    let d2 := ({ d1 with f.car := { d1.f.car with lost := true, pendSrc := none, illFirst := none } }).unpend
    if d.fld Fld.CAR_LOSS_POL = 1 then
      { d2 with f.car := { d2.f.car with src := 0, held := false, edges := [], counted := false, onInternal := true } }
    else { d2 with f.car.held := true }

/-- The load value of CAR_LOAD_LO/HI. -/
def Dev.loadValue (d : Dev) : Nat := d.fld Fld.CAR_LOAD_LO_LOAD + 2 ^ 32 * d.fld Fld.CAR_LOAD_HI_LOAD

/-- The set-up write that the Carousel ignored, or a load it did not take (R19). -/
def Dev.carRej (d : Dev) : Dev := d.setFld Fld.CAR_STATUS_CFG_REJ 1

/-- QUAD_COUNT (R18, R20, R21, R24 to R28): a legal A/B step; `z` is the level of ENC_Z. A Z load is a load and acts no slot (R36), also
where its value is the one that the edge's own count gives (DESIGN CHOICE, log entry 23). -/
def doQuadCount (forward z : Bool) (t : Nat) (d : Dev) : Dev :=
  let d := d.at t
  if (d.fld Fld.CAR_SRC_SEL != 1 && d.f.car.src != 1) || d.f.ch.rest.isSome then d
  else
    let d := { d with f.car.illFirst := none }
    match d.sourceCounts 1 with
    | none => d
    | some d =>
      let old := d.f.car.pos
      let turned := match d.f.car.edges with | e :: _ => e.2 != forward | [] => false
      let d1 := if turned then d.unpend else d
      let d2 := (d1.carStep forward)
      let d3 := { d2 with f.car.edges := ((d.now, forward) :: d2.f.car.edges).take 8 }
      let zmode := d.fld Fld.CAR_SRC_Z_MODE
      let zHit := z && forward && d.f.car.zArmed
      let d4 := { d3 with f.car.zArmed := if zHit then false else d3.f.car.zArmed || !z }
      let v := d.loadValue
      if zHit && zmode == 1 && decide (d.f.car.modulus ≤ v) then ((d4.carRej).carNote true).slotsAtCount old forward
      else if zHit && zmode == 1 then ({ d4 with f.car.pos := v }).carNote true
      else
        let d5 := if zHit && zmode == 2 && v != d4.f.car.pos
          then (d4.setFld Fld.CAR_STATUS_Z_MISMATCH 1).raiseBoth .f Sn.CAR_Z_MISMATCH else d4
        (d5.carNote true).slotsAtCount old forward

/-- QUAD_ILLEGAL_TRANSITION (R21, Table CAR-1). While EN is 0 the detector runs and loses nothing (R23); in REST the inputs are not
sampled (R279). -/
def doQuadIllegalTransition (t : Nat) (d : Dev) : Dev :=
  let d := d.at t
  if d.fld Fld.CAR_SRC_SEL != 1 || d.f.ch.rest.isSome then d
  else
    let d1 := (d.bump Fld.CAR_QERR_CNT_COUNT Fld.CAR_CNT_SAT_SAT_QERR).raiseBoth .f Sn.CAR_QUAD_ERR
    if d.f.car.lost then d1
    else match d.f.car.illFirst with
      | none => { d1 with f.car.illFirst := some d.now }
      | some s => if d.carEn && decide (s + msCycles ≤ d.now) then d1.carLose else d1

/-- ENC_BIAS_OPEN (Table CAR-1): ENC_A and ENC_B both read open. -/
def doEncBiasOpen (t : Nat) (d : Dev) : Dev :=
  let d := d.at t
  if d.fld Fld.CAR_SRC_SEL = 1 then d.carLose else d

/-- NCO_COUNT (R21, R29): the NCO carries a count. It carries one when its phase has reached a whole count, and for the selected
source once one waits that it is to generate. -/
def doNcoCount (t : Nat) (d : Dev) : Dev :=
  let d := d.at t
  let want := match d.f.car.pendSrc with
    | some s => if isNco s then s else d.f.car.src
    | none => d.f.car.src
  if !isNco want || d.ncoRun = 0 || decide (d.ncoPhase < 2 ^ 31) then d
  else
    let d0 := d.ncoSettle
    match ({ d0 with f.car.acc := d0.f.car.acc - 2 ^ 31 }).sourceCounts want with
    | none => d
    | some d1 =>
      let old := d1.f.car.pos
      ((d1.carStep true).carNote true).slotsAtCount old true

/-- The steered rate of TIME within ±200 ppm of one count per cycle (R21). -/
def clampRate (rate : Nat) : Nat := max (2 ^ 31 - 429496) (min (2 ^ 31 + 429496) rate)

/-- The NCO is steered to a rate under the source selected, which takes effect with that source (R21, R22). -/
def Dev.steer (d : Dev) (rate : Nat) : Dev :=
  let d := d.ncoSettle
  if d.f.car.pendSrc.isSome then { d with f.car.pendRate := rate }
  else ({ d with f.car.rate := rate, f.car.pendRate := rate }).predCheck

/-- A reference event ends holdover, and with it CAR_SYNC_UNLOCK. -/
def Dev.syncBack (d : Dev) : Dev :=
  if d.f.car.holdSince.isNone then d else ({ d with f.car.holdSince := none }).condEnd .f Sn.CAR_SYNC_UNLOCK

/-- The time-of-day load that waits is applied (R21, R36). -/
def Dev.todApply (d : Dev) : Dev :=
  match d.f.car.tod with
  | none => d
  | some (tag, v) =>
    let d1 := { d with f.car.tod := none }
    if d.f.car.modulus ≤ v then d1.endF tag stBAD_DESC 0
    else (d1.carLoad v).endF tag stOK (BitVec.ofNat 64 v)

/-- PPS_EDGE (R21, R231): at a rising edge the NCO is steered under TIME with the rate that the loop gives, the lock follows the
phase error and a time-of-day load is applied; timers that capture on PPS_IN take either edge, whose transition at the ball was
at `raw`. In REST PPS_IN is not sampled (R279, R280). -/
def doPpsEdge (rising : Bool) (phaseErr : Int) (rate raw : Nat) (t : Nat) (d : Dev) : Dev :=
  let d := d.at t
  if d.f.ch.rest.isSome then d
  else
    let d1 := (if rising then d.todApply else d).tmEdge 2 rising raw
    if d.fld Fld.CAR_SRC_SEL != 3 || !rising then d1
    else
      let d2 := d1.syncBack
      let run := if phaseErr.natAbs ≤ 8 then min 4 (d2.f.car.lockRun + 1) else 0
      ({ d2 with f.car := { d2.f.car with lockRun := run, locked := decide (4 ≤ run) } }).steer (clampRate rate)

/-- MAINS_ZERO_CROSS (R21, R231): at a rising zero-cross the loop is steered under MAINS, lock after 8 cycles within DIV/1024, lost
out of band or after 4 cycles beyond DIV/64; timers that capture on ZC_IN take either edge. In REST the loop does not run. -/
def doMainsZeroCross (rising : Bool) (phaseErr : Int) (rate raw : Nat) (inBand : Bool) (t : Nat) (d : Dev) : Dev :=
  let d := d.at t
  let d1 := d.tmEdge 3 rising raw
  if d.fld Fld.CAR_SRC_SEL != 4 || !rising || d.f.ch.rest.isSome then d1
  else
    let d2 := d1.syncBack
    let div := d.fld Fld.CAR_SYNC_CFG_DIV
    let e := phaseErr.natAbs
    let run := if e * 1024 ≤ div then min 8 (d2.f.car.lockRun + 1) else 0
    let bad := if div < e * 64 then min 4 (d2.f.car.badRun + 1) else 0
    let unlock := !inBand || decide (4 ≤ bad)
    ({ d2 with f.car := { d2.f.car with
      lockRun := if unlock then 0 else run, badRun := bad
      locked := !unlock && (d2.f.car.locked || decide (8 ≤ run)) } }).steer rate

/-- SYNC_REFERENCE_LOSS (R21): TIME or MAINS enters holdover at its last rate. -/
def doSyncReferenceLoss (t : Nat) (d : Dev) : Dev :=
  let d := d.at t
  let sel := d.fld Fld.CAR_SRC_SEL
  if !(sel = 3 ∨ sel = 4) || d.f.car.holdSince.isSome || d.f.ch.rest.isSome then d
  else
    ({ d with f.car := { d.f.car with holdSince := some d.now, locked := false, lockRun := 0, badRun := 0 } }).raiseBoth
      .f Sn.CAR_SYNC_UNLOCK

/-- HOLDOVER_EXPIRE (R21): holdover has lasted HOLD seconds, 0 acting as 1. -/
def doHoldoverExpire (t : Nat) (d : Dev) : Dev :=
  let d := d.at t
  match d.f.car.holdSince with
  | some s => if s + max 1 (d.fld Fld.CAR_SYNC_CFG_HOLD) * 800000000 ≤ d.now then d.carLose else d
  | none => d

/-- ABS_SAMPLE_TIMEOUT (Table CAR-1): no sample for 4 × PERIOD, PERIOD in units of 64 cycles. -/
def doAbsSampleTimeout (t : Nat) (d : Dev) : Dev :=
  let d := d.at t
  if d.fld Fld.CAR_SRC_SEL = 2 ∧ d.f.car.absLast + 256 * d.fld Fld.CAR_ABS_CFG_PERIOD ≤ d.now then d.carLose else d

/-- The slots whose targets travel of `n` counts from `old` reaches or passes (R29, R32); a slot with neither fraction nor lead fires
FIRED, any other EARLY_ABANDONED. They fire in the order the travel meets them (R36). -/
def Dev.absTravel (d : Dev) (old n : Nat) (forward : Bool) : Dev :=
  if !d.slotsAct then d
  else
    let m := d.f.car.modulus
    let hits := d.slotKeys.filterMap (fun k =>
      let x := d.slot k
      let a := dist256 m x.target x.frac old forward
      if (x.st = .armed ∨ x.st = .pending) && qualAllows x.qual forward && decide (0 < a) && decide (a ≤ 256 * n)
      then some (a, k) else none)
    let sorted := hits.mergeSort (fun p q => decide (p.1 < q.1) || (p.1 == q.1 && decide (p.2 ≤ q.2)))
    sorted.foldl (fun d p =>
      let x := d.slot p.2
      d.slotFire p.2 (if x.frac = 0 ∧ x.lead = 0 then 1 else 3)) d

/-- Travel of `n` counts, at most half a turn, in one cycle: up to the wrap, the wrap, and beyond it. -/
def Dev.absMove (d : Dev) (n : Nat) (forward : Bool) : Dev :=
  let c := d.f.car
  let m := c.modulus
  let toWrap := if forward then m - 1 - c.pos else c.pos
  let go := fun (d : Dev) (k : Nat) =>
    let p := d.f.car.pos
    let q := if forward then (p + k) % m else (p + m - k) % m
    ({ d with f.car.pos := q }).absTravel p k forward
  let d0 := { d with f.car := { c with
    counted := true, absDir := if forward then 1 else 2, moved := c.moved + (if forward then (n : Int) else -(n : Int)) } }
  if n ≤ toWrap then go d0 n
  else
    let d1 := go d0 toWrap
    let p := d1.f.car.pos
    let d2 := (({ d1 with f.car.pos := if forward then 0 else m - 1 }).wrap forward).absTravel p 1 forward
    go d2 (n - toWrap - 1)

/-- A good ABS sample of value `v` (R21, R29, R36): the position follows it by the shorter way modulo M. The first one after a Rest
moves nothing, and what was travelled in REST is left out of those that follow (R280). -/
def Dev.absSample (d : Dev) (v : Nat) : Dev :=
  let m := d.f.car.modulus
  let c := d.f.car
  let off := if c.absRest then (c.pos + m - v % m) % m else c.absOff % m
  let d := { d with f.car.absOff := off, f.car.absRest := false }
  let up := ((v + off) % m + m - c.pos) % m
  if up = 0 then { d with f.car.absDir := 0, f.car.counted := true }
  else if up * 2 ≤ m then (d.absMove up true).carNote true
  else (d.absMove (m - up) false).carNote true

/-- ABS_SAMPLE_COMMIT (R21, R188): `rx` is what the lanes carried in each clock of the ABS entry's first DATA_IN phase, and the sample is
taken from it. A sample that is bad changes nothing; the third in a row loses the source. -/
def doAbsSampleCommit (rx : List (BitVec 8)) (t : Nat) (d : Dev) : Dev :=
  let d := d.at t
  let n := d.fld Fld.CAR_ABS_CFG_BITS
  match d.absReceived rx with
  | none => d
  | some payload =>
    let d := { d with f.fsp.absTaken := true }
    if d.fld Fld.CAR_SRC_SEL != 2 || !d.carEn || n = 0 || d.f.car.lost || d.f.ch.rest.isSome then d
    else match payload with
      | none =>
        let k := d.f.car.absBad + 1
        let d1 := { d with f.car.absBad := k }
        if 3 ≤ k then d1.carLose else d1
      | some p =>
        let d1 := { d with f.car := { d.f.car with absBad := 0, absLast := d.now } }
        match d1.sourceCounts 2 with
        | none => d1
        | some d2 => d2.absSample (natOfBits (p.take n))

/-- PREDICTION_TIMEOUT (R24, R28): prediction is no longer available, and PENDING slots are abandoned. -/
def doPredictionTimeout (t : Nat) (d : Dev) : Dev := (d.at t).predCheck

/-- SLOT_PLACED_FIRE (R25, R29). -/
def doSlotPlacedFire (slot : Nat) (t : Nat) (d : Dev) : Dev :=
  let d := d.at t
  let x := d.slot slot
  if x.st = .pending ∧ x.placed ≤ d.now ∧ d.slotsAct then
    if d.predOk then d.slotFire slot (if isNco d.f.car.src then 1 else 2)
    else d.setSlot slot { x with st := .armed, abandoned := true }
  else d

/-! ## Arming (R30, R33, R34) -/

/-- The late window in counts (R19, R34). -/
def Dev.lateWin (d : Dev) : Nat :=
  let m := d.f.car.modulus
  let w := d.fld Fld.CAR_LATE_WIN_LO_LW + 2 ^ 32 * d.fld Fld.CAR_LATE_WIN_HI_LW
  if w = 0 then m / 2 else min w (m - 1)

/-- The target counts as just passed (R34): its distance along the slot's direction is above M - LW. -/
def Dev.targetLate (d : Dev) (qual target : Nat) : Bool :=
  let m := d.f.car.modulus
  let p := d.f.car.pos
  let fwd := decide (m - d.lateWin < (target + m - p) % m)
  let rev := decide (m - d.lateWin < (p + m - target) % m)
  if qual = 1 then fwd else if qual = 2 then rev
  else match d.carDir with
    | 1 => fwd
    | 2 => rev
    | _ => false

/-- SLOT_ARM (R19, R30, R33, R34; Table CAR-3). A ONCE arm that reaches the Carousel after its ring was stopped completes DISARMED
(R115; DEDUCED). A LATE arm under EXEC acts in the cycle of arming (R34), also while EN is 0 or a loss holds the position, for which
the spec states no exception (DESIGN CHOICE, log entry 24). -/
def doSlotArm (tag : Nat) (t : Nat) (d : Dev) : Dev :=
  let d := d.at t
  match d.freshOp tag opSLOT_ARM with
  | none => d
  | some o =>
    let d := d.setFop tag (some { o with begun := true })
    let e := o.desc
    let n := e.dest
    if d.slotCode n != codeOf o.fn then d.endF tag stNOT_OWNER 0
    else if d.f.car.modulus ≤ e.target then d.endF tag stBAD_DESC 0
    else if e.action = 2 && d.entryForeign o.fn (e.operand1.toNat % 256) then d.endF tag stNOT_OWNER 0
    else if (d.slot n).st ≠ .free then d.endF tag stBUSY 0
    else if !e.repeats && !(d.ring o.ring).running then d.endF tag stDISARMED 0
    else
      let x : Slot :=
        { st := .armed, last := (d.slot n).last, fn := o.fn, ring := o.ring
          tag := if e.repeats then none else some tag
          target := e.target, frac := e.frac, qual := e.qual, repeats := e.repeats, drop := e.lateDrop, notify := e.notify
          lead := e.lead, action := e.action, value := e.slotValue, operand := e.operand1, fired := [], placed := 0, abandoned := false }
      let d1 := d.setSlot n x
      if !d.f.ch.standby && d.targetLate e.qual e.target then
        let d2 := d1.slotFire n 4
        if e.repeats then d2.endF tag stLATE 0 else d2
      else if e.repeats then d1.endF tag stOK 0 else d1

/-- SLOT_DISARM (R33, Table CAR-3). -/
def doSlotDisarm (tag : Nat) (t : Nat) (d : Dev) : Dev :=
  let d := d.at t
  match d.freshOp tag opSLOT_DISARM with
  | none => d
  | some o =>
    let d := d.setFop tag (some { o with begun := true })
    if d.slotCode o.desc.dest != codeOf o.fn then d.endF tag stNOT_OWNER 0
    else (d.slotFree o.desc.dest).endF tag stOK 0

/-- TOD_LOAD (R19, R21, R140, R141): verified, and held for the next PPS edge. Where another one waits and POS is M or above, BUSY is
answered before BAD_DESC (DESIGN CHOICE, log entry 26). -/
def doTodLoad (tag : Nat) (t : Nat) (d : Dev) : Dev :=
  let d := d.at t
  match d.freshOp tag opTOD_LOAD with
  | none => d
  | some o =>
    let d := d.setFop tag (some { o with begun := true })
    if d.carCode != codeOf o.fn then d.endF tag stNOT_OWNER 0
    else if !o.desc.value.good o.fn o.ring 0x130 then (d.refuse pathTOD o.fn 0).endF tag stCHK_PATH 0
    else if d.f.car.tod.isSome then d.endF tag stBUSY 0
    else if d.f.car.modulus ≤ o.desc.value.word.toNat then d.endF tag stBAD_DESC 0
    else { d with f.car.tod := some (tag, o.desc.value.word.toNat) }

/-! ## Register writes (R19 to R23, R31) -/

/-- EN from 0 to 1 (R19): M, the position reduced, slots at M or above freed. Time with EN at 0 does not count toward a
loss (R23). -/
def Dev.carEnable (d : Dev) (m : Nat) : Dev :=
  let d := d.ncoSettle
  let c := d.f.car
  let shift := fun s : Nat => s + (d.now - max s c.offAt)
  let c1 := { c with
    modulus := m, pos := c.pos % m, holdSince := c.holdSince.map shift, absLast := shift c.absLast
    illFirst := c.illFirst.map shift }
  let d1 := (({ d with f.car := c1 }).setFld Fld.CAR_CTRL_EN 1).carNote false
  d1.slotKeys.foldl (fun d n => if m ≤ (d.slot n).target then d.slotFree n else d) d1

/-- TURN_CLR (R20, R13): 0 and SAT cleared; a wrap made in the same cycle before it is applied again after it. -/
def Dev.turnClear (d : Dev) : Dev :=
  let d1 := ({ d with f.car.turn := 0 }).setFld Fld.CAR_TURN_SAT 0
  match d1.f.car.lastWrap with
  | some (t, forward) => if t = d1.now then d1.turnCount forward else d1
  | none => d1

/-- A write of CAR_CTRL (R19): EN, POS_LOAD, TURN_CLR, LOCK, in that order in one cycle. -/
def Dev.carCtrlWrite (d : Dev) (fn : Func) (data : Word) : FwOut :=
  let n := data.toNat
  let m := d.fld Fld.CAR_MOD_LO_MODM1_LO + 2 ^ 32 * d.fld Fld.CAR_MOD_HI_MODM1_HI + 1
  let en := d.carEn
  if d.carCode != codeOf fn then notOwner
  else if bitOf n 0 && !en && m == 1 then badValue
  else
    let d1 := if bitOf n 0 && !en then d.carEnable m
      else if !bitOf n 0 && en then ({ (d.ncoSettle.setFld Fld.CAR_CTRL_EN 0) with f.car.offAt := d.now }).unpend
      else d
    let d2 := if bitOf n 3 then (if d1.f.car.modulus ≤ d1.loadValue then d1.carRej else d1.carLoad d1.loadValue) else d1
    let d3 := if bitOf n 1 then d2.turnClear else d2
    .ok (if bitOf n 2 then d3.setFld Fld.CAR_CTRL_LOCK 1 else d3)

/-- The loss ends: the owner has written CAR_SRC (R23). -/
def Dev.lossEnd (d : Dev) : Dev :=
  if d.f.car.lost then
    ({ d with f.car := { d.f.car with
      lost := false, onInternal := false, illFirst := none, absBad := 0, absLast := d.now } }).condEnd .f Sn.CAR_SRC_LOST
  else d

/-- An accepted write of CAR_SRC (R22, R23): the loss ends, and a source that is not in use waits for its first count. Two points
that the spec leaves open are DESIGN CHOICES: from its selection to its first steering pulse, TIME or MAINS is generated at one
count per cycle, whatever CAR_INT_RATE holds (log entry 97); and a holdover goes on, with its start, when MAINS is selected in
place of TIME or the reverse, or the source again (log entry 97). -/
def Dev.carSelect (d : Dev) (data : Word) : Dev :=
  let d := d.ncoSettle
  let c := d.f.car
  let sel := bitsOf data.toNat 0 3
  let d1 := d.wrAccess Reg.CAR_SRC data
  let kept := sel == c.src && !c.held && (!c.lost || (c.onInternal && sel == 0))
  let left := !(sel = 3 ∨ sel = 4) && c.holdSince.isSome
  let d2 := d1.lossEnd
  let d3 := if left then d2.syncBack else d2
  if kept then { d3 with f.car.pendSrc := none }
  else { d3 with f.car := { d3.f.car with
    pendSrc := some sel, illFirst := none, absLast := d.now, absBad := 0, locked := false, lockRun := 0, badRun := 0
    pendRate := if sel == d.fld Fld.CAR_SRC_SEL then c.pendRate else 0x80000000 } }

/-- A write of CAR_SRC (R22, R23). Under LOCK only the re-selection of a source that is lost is taken. A write that is wrong in
its values and locked too is answered for its values (cause 3; DESIGN CHOICE, log entry 97). -/
def Dev.carSrcWrite (d : Dev) (fn : Func) (data : Word) : FwOut :=
  let sel := bitsOf data.toNat 0 3
  let z := bitsOf data.toNat 3 2
  let same := sel == d.fld Fld.CAR_SRC_SEL && z == d.fld Fld.CAR_SRC_Z_MODE
  if d.carCode != codeOf fn then notOwner
  else if 5 ≤ sel ∨ z = 3 then badValue
  else if d.flag Fld.CAR_CTRL_LOCK && !(same && d.f.car.lost) then lockedOut
  else .ok (d.carSelect data)

/-- Fields of the block that CAR_CTRL.LOCK locks, by offset (Table CAR-6). -/
def carLocked (off : Nat) : Word :=
  if off = Reg.CAR_MOD_LO then 0xFFFFFFFF else if off = Reg.CAR_MOD_HI then 0xFFFF
  else if off = Reg.CAR_LOSS then 1 else if off = Reg.CAR_SLOT_SPLIT then 0x3FFFF else 0

/-- A write to a register of the Carousel (R19, R22, R31). A CAR_SLOT_SPLIT that is out of range, or written while EN is 1, changes
nothing (cause 3 and CFG_REJ, R415), nor does a CAR_ABS_CFG that names an entry on the other function's select (cause 1, R1). A
write of the modulus that EN and LOCK both forbid is answered for LOCK (cause 2; DESIGN CHOICE, log entry 97). -/
def Dev.carWrite (d : Dev) (fn : Func) (off : Nat) (data : Word) : FwOut :=
  let n := data.toNat
  if d.carCode != codeOf fn then notOwner
  else if off = Reg.CAR_CTRL then d.carCtrlWrite fn data
  else if off = Reg.CAR_SRC then d.carSrcWrite fn data
  else if d.flag Fld.CAR_CTRL_LOCK && changes (d.rd off) data (carLocked off) then lockedOut
  else if (off = Reg.CAR_MOD_LO ∨ off = Reg.CAR_MOD_HI) && d.carEn then badValue
  else if off = Reg.CAR_SLOT_SPLIT then
    if d.carEn || decide (256 < bitsOf n 0 9 + bitsOf n 9 9) then badValue else .ok (d.wrAccess off data)
  else if off = Reg.CAR_ABS_CFG && d.entryForeign fn (bitsOf n 0 8) then notOwner
  else if off = Reg.CAR_CNT_SAT then
    let d1 := if bitOf n 3 then d.clearCnt Fld.CAR_LATE_CNT_COUNT Fld.CAR_CNT_SAT_SAT_LATE else d
    let d2 := if bitOf n 4 then d1.clearCnt Fld.CAR_ABANDON_CNT_COUNT Fld.CAR_CNT_SAT_SAT_ABANDON else d1
    .ok (if bitOf n 5 then d2.clearCnt Fld.CAR_QERR_CNT_COUNT Fld.CAR_CNT_SAT_SAT_QERR else d2)
  else match specOf off with
    | some r => if r.rw = 0 ∧ r.w1c = 0 then badValue else .ok ((d.ncoSettle.wrAccess off data).predCheck)
    | none => badValue

/-- What a read of CAR_POS_LO latches for its function (R38). -/
def Dev.carPosLatch (d : Dev) (fn : Func) : Dev :=
  let w := BitVec.ofNat 32 (d.f.car.pos / 2 ^ 32 % 2 ^ 16 + d.f.car.turn * 2 ^ 16)
  if fn then { d with f.car.hiB := w } else { d with f.car.hiA := w }

/-- Slot states as CAR_SLOT_STATE shows them (Table CAR-6). -/
def SlotSt.code : SlotSt → Nat
  | .free => 0 | .armed => 1 | .pending => 2 | .spent => 3

/-- A Carousel register as read (Table CAR-6). -/
def Dev.carRead (d : Dev) (fn : Func) (off : Nat) : Word :=
  let c := d.f.car
  if off = Reg.CAR_POS_LO then loWord c.pos
  else if off = Reg.CAR_POS_HI then (if fn then c.hiB else c.hiA)
  else if off = Reg.CAR_TURN then
    d.rd off ||| BitVec.ofNat 32 (if d.flag Fld.CAR_TURN_SAT then 0xFFFF else c.turn)
  else if off = Reg.CAR_STATUS then
    d.rd off ||| BitVec.ofNat 32 (c.src + b2n d.predOk * 8 + d.carDir * 16 + b2n c.locked * 64
      + b2n c.holdSince.isSome * 128 + b2n c.onInternal * 512)
  else if 0x2100 ≤ off ∧ off < 0x2200 then
    BitVec.ofNat 32 ((List.range 4).foldl (fun a k =>
      let x := d.slot (off - 0x2100 + k)
      a + (x.st.code + x.last * 4) * 2 ^ (8 * k)) 0)
  else d.rd off

/-- The Carousel at Rest entry (R280). -/
def Dev.carRest (d : Dev) : Dev := ({ d.ncoSettle with f.car.edges := [], f.car.absRest := true, f.car.illFirst := none }).unpend

/-- The Carousel at the first refresh commit after a wake: its clock stood still since Rest entry, and the times that it measures go on
from there (R279, R280). -/
def Dev.carWake (d : Dev) : Dev :=
  let c := d.f.car
  let dt := d.now - c.ncoAt
  { d with f.car := { c with ncoAt := d.now, absLast := c.absLast + dt, holdSince := c.holdSince.map (fun s => s + dt) } }

/-! ## Register writes as steps of their own -/

/-- CAR_EN_WRITE (R19): CAR_CTRL is written, all its fields acting in their order. -/
def doCarEnWrite (fn : Func) (data : Word) (t : Nat) (d : Dev) : Dev :=
  ((d.at t).carCtrlWrite fn data).orRej (d.at t) Fld.CAR_STATUS_CFG_REJ

/-- CAR_POS_LOAD (R19): a write of CAR_CTRL with POS_LOAD 1. -/
def doCarPosLoad (fn : Func) (data : Word) (t : Nat) (d : Dev) : Dev :=
  ((d.at t).carCtrlWrite fn (data ||| 8)).orRej (d.at t) Fld.CAR_STATUS_CFG_REJ

/-- TURN_CLR (R20): a write of CAR_CTRL with TURN_CLR 1. `count` is a count of the source in the same cycle, by its direction:
a wrap that it makes is applied after the clear (R13), with all that a wrap does. -/
def doTurnClr (fn : Func) (data : Word) (count : Option Bool) (t : Nat) (d : Dev) : Dev :=
  let d1 := ((d.at t).carCtrlWrite fn (data ||| 2)).orRej (d.at t) Fld.CAR_STATUS_CFG_REJ
  match count with
  | none => d1
  | some forward => if isNco d1.f.car.src then (if forward then doNcoCount t d1 else d1) else doQuadCount forward false t d1

/-- CAR_LOCK (R19): a write of CAR_CTRL with LOCK 1. -/
def doCarLock (fn : Func) (data : Word) (t : Nat) (d : Dev) : Dev :=
  ((d.at t).carCtrlWrite fn (data ||| 4)).orRej (d.at t) Fld.CAR_STATUS_CFG_REJ

/-- CAR_SRC_WRITE (R22). -/
def doCarSrcWrite (fn : Func) (data : Word) (t : Nat) (d : Dev) : Dev :=
  ((d.at t).carSrcWrite fn data).orRej (d.at t) Fld.CAR_STATUS_CFG_REJ

/-- CAR_POS_LO_READ (R38). -/
def doCarPosLoRead (fn : Func) (t : Nat) (d : Dev) : Dev := (d.at t).carPosLatch fn

/-! ## The commands' meanings -/

/-- The meaning of the command: `doQuadCount` on the device. -/
def execQuadCount (forward z : Bool) (t : Nat) (s : State) : Out :=
  s.onDev (doQuadCount forward z t)

/-- The meaning of the command: `doQuadIllegalTransition` on the device. -/
def execQuadIllegalTransition (t : Nat) (s : State) : Out :=
  s.onDev (doQuadIllegalTransition t)

/-- The meaning of the command: `doEncBiasOpen` on the device. -/
def execEncBiasOpen (t : Nat) (s : State) : Out :=
  s.onDev (doEncBiasOpen t)

/-- The meaning of the command: `doNcoCount` on the device. -/
def execNcoCount (t : Nat) (s : State) : Out :=
  s.onDev (doNcoCount t)

/-- The meaning of the command: `doPpsEdge` on the device. -/
def execPpsEdge (rising : Bool) (phaseErr : Int) (rate raw : Nat) (t : Nat) (s : State) : Out :=
  s.onDev (doPpsEdge rising phaseErr rate raw t)

/-- The meaning of the command: `doMainsZeroCross` on the device. -/
def execMainsZeroCross (rising : Bool) (phaseErr : Int) (rate raw : Nat) (inBand : Bool) (t : Nat) (s : State) : Out :=
  s.onDev (doMainsZeroCross rising phaseErr rate raw inBand t)

/-- The meaning of the command: `doSyncReferenceLoss` on the device. -/
def execSyncReferenceLoss (t : Nat) (s : State) : Out :=
  s.onDev (doSyncReferenceLoss t)

/-- The meaning of the command: `doHoldoverExpire` on the device. -/
def execHoldoverExpire (t : Nat) (s : State) : Out :=
  s.onDev (doHoldoverExpire t)

/-- The meaning of the command: `doAbsSampleTimeout` on the device. -/
def execAbsSampleTimeout (t : Nat) (s : State) : Out :=
  s.onDev (doAbsSampleTimeout t)

/-- The meaning of the command: `doAbsSampleCommit` on the device. -/
def execAbsSampleCommit (rx : List (BitVec 8)) (t : Nat) (s : State) : Out :=
  s.onDev (doAbsSampleCommit rx t)

/-- The meaning of the command: `doPredictionTimeout` on the device. -/
def execPredictionTimeout (t : Nat) (s : State) : Out :=
  s.onDev (doPredictionTimeout t)

/-- The meaning of the command: `doSlotPlacedFire` on the device. -/
def execSlotPlacedFire (slot : Nat) (t : Nat) (s : State) : Out :=
  s.onDev (doSlotPlacedFire slot t)

/-- The meaning of the command: `doSlotArm` on the device. -/
def execSlotArm (tag : Nat) (t : Nat) (s : State) : Out :=
  s.onDev (doSlotArm tag t)

/-- The meaning of the command: `doSlotDisarm` on the device. -/
def execSlotDisarm (tag : Nat) (t : Nat) (s : State) : Out :=
  s.onDev (doSlotDisarm tag t)

/-- The meaning of the command: `doTodLoad` on the device. -/
def execTodLoad (tag : Nat) (t : Nat) (s : State) : Out :=
  s.onDev (doTodLoad tag t)

/-- The meaning of the command: `doCarEnWrite` on the device. -/
def execCarEnWrite (fn : Func) (data : Word) (t : Nat) (s : State) : Out :=
  s.onDev (doCarEnWrite fn data t)

/-- The meaning of the command: `doCarPosLoad` on the device. -/
def execCarPosLoad (fn : Func) (data : Word) (t : Nat) (s : State) : Out :=
  s.onDev (doCarPosLoad fn data t)

/-- The meaning of the command: `doTurnClr` on the device. -/
def execTurnClr (fn : Func) (data : Word) (count : Option Bool) (t : Nat) (s : State) : Out :=
  s.onDev (doTurnClr fn data count t)

/-- The meaning of the command: `doCarLock` on the device. -/
def execCarLock (fn : Func) (data : Word) (t : Nat) (s : State) : Out :=
  s.onDev (doCarLock fn data t)

/-- The meaning of the command: `doCarSrcWrite` on the device. -/
def execCarSrcWrite (fn : Func) (data : Word) (t : Nat) (s : State) : Out :=
  s.onDev (doCarSrcWrite fn data t)

/-- The meaning of the command: `doCarPosLoRead` on the device. -/
def execCarPosLoRead (fn : Func) (t : Nat) (s : State) : Out :=
  s.onDev (doCarPosLoRead fn t)

end Sys2Proof.Machine
end

