-- ==== Sys2Proof/Machine/TwoWire.lean ====
section
/-!
DEFINITION. The two-wire port (R205 to R225): controller transfers with arbitration and retries, the stuck-SDA check, the
low timeout, target transfers, and the register writes of the block.
-/

namespace Sys2Proof.Machine

/-- Owner codes of the two roles. -/
def Dev.twpCtl (d : Dev) : Nat := d.fld Fld.PCI_OWN_PORT_TWP_CTL
def Dev.twpTgt (d : Dev) : Nat := d.fld Fld.PCI_OWN_PORT_TWP_TGT

/-- The controller role may drive the bus; the target role may answer: enabled, not stuck, not in STANDBY or REST
(R206, R217, R222, R223). -/
def Dev.twpUp (d : Dev) : Bool := d.flag Fld.TWP_CTRL_EN && !d.f.twp.stuck && !d.f.ch.standby && d.f.ch.rest.isNone
def Dev.twpCtlOn (d : Dev) : Bool := d.twpUp && d.flag Fld.TWP_CTRL_CTL_EN
def Dev.twpTgtOn (d : Dev) : Bool := d.twpUp && d.flag Fld.TWP_TGT_CFG_TGT_EN

/-- Bytes packed 6 to a word, the first in the high bits, unused bytes 0 (R212). -/
def packBytes (l : List (BitVec 8)) : List W48 :=
  (List.range ((l.length + 5) / 6)).map (fun i =>
    BitVec.ofNat 48 ((List.range 6).foldl (fun a k => a * 256 + (l.getD (6 * i + k) 0).toNat) 0))

/-- The written bytes of a TWP_XFER, or the reply bytes of a TWP_TARGET: byte k of QW3 to QW6, low byte first
(Table RM-6). -/
def twpBytesOf (e : Desc) (n : Nat) : List (BitVec 8) :=
  (List.range n).map (fun k =>
    ([e.q3, e.q4, e.q5, e.q6].getD (k / 8) 0).extractLsb' (8 * (k % 8)) 8)

/-- t_BUF in cycles by mode (Table TWP-1). -/
def tBuf (mode : Nat) : Nat := if mode = 0 then 3760 else if mode = 1 then 1040 else 400

/-- Default LOW and HIGH and the minima of LOW, HIGH and their sum, in units of 10 ns (Table TWP-1). -/
def sclMode (mode : Nat) : Nat × Nat × Nat × Nat × Nat :=
  if mode = 0 then (470, 530, 470, 400, 1000) else if mode = 1 then (130, 120, 130, 60, 250) else (50, 50, 50, 26, 100)

/-- TWP_SCL_TIM is outside the limits of a mode (R225). -/
def sclBad (mode : Nat) (tim : Word) : Bool :=
  let (dl, dh, ml, mh, ms) := sclMode mode
  let l := bitsOf tim.toNat 0 10
  let h := bitsOf tim.toNat 10 10
  (l != 0 && decide (l < ml)) || (h != 0 && decide (h < mh))
    || decide ((if l = 0 then dl else l) + (if h = 0 then dh else h) < ms)

/-! ## Ends -/

/-- Every operation of the port completes TWP_STUCK (R217). -/
def Dev.twpStuckAll (d : Dev) : Dev :=
  let w := d.f.twp
  let tags := (match w.cur with | some (g, _) => [g] | none => []) ++ w.queue ++ w.tgts
  tags.foldl (fun d g => d.endF g stTWP_STUCK 0)
    { d with f.twp := { w with cur := none, onBus := false, queue := [], tgts := [], serving := none } }

/-- The stuck-SDA check (R216, R217). It runs with CTL_EN at 1, and not in STANDBY, where both lines stay released (R223). With SDA
high it passes; else up to nine pulses and a STOP free it, or STUCK is set. Passed after the owner's write of EN from 0 to 1
(`owner`) it clears STUCK; no other check does. -/
def Dev.sdaCheck (d : Dev) (c : SdaCheck) (owner : Bool) : Dev :=
  if !d.flag Fld.TWP_CTRL_CTL_EN || d.f.ch.standby then d
  else
    let n := min c.low 9
    let d1 := { d with f.twp := { d.f.twp with clocks := n, checked := true, stuckScl := n != 0 && c.sclLow } }
    if n != 0 && (c.sclLow || c.held) then
      (({ d1 with f.twp.stuck := true }).twpStuckAll).raiseOwner Sn.TWP_STUCK Fld.PCI_OWN_PORT_TWP_CTL
    else
      let d2 := if owner && d.f.twp.stuck then ({ d1 with f.twp.stuck := false }).condEnd .f Sn.TWP_STUCK else d1
      if n = 0 then { d2 with f.twp := { d2.f.twp with busy := true, quietFrom := some d.now } }
      else
        (({ d2 with f.twp := { d2.f.twp with busy := false, quietFrom := none, lastStop := d.now } }).setFld
          Fld.TWP_STATUS_RECOVERED 1).raiseOwner Sn.TWP_RECOVERED Fld.PCI_OWN_PORT_TWP_CTL

/-- The address phase of a transfer (R210): the address with its direction, of one byte, or of the two bytes of a 10-bit address in
write direction; a 10-bit read is reached by a repeated START and the first byte with R/W 1. -/
def twpAddress (addr : Nat) (a10 read : Bool) : List TwpSym :=
  let first := fun r : Bool => TwpSym.byte (BitVec.ofNat 8 (0xF0 + addr / 2 ^ 8 % 4 * 2 + b2n r))
  if !a10 then [.start, .byte (BitVec.ofNat 8 (addr % 2 ^ 7 * 2 + b2n read))]
  else [.start, first false, .byte (BitVec.ofNat 8 addr)] ++ (if read then [.start, first true] else [])

/-- The bus in one attempt of a TWP_XFER that nothing cuts short (Table TWP-2). -/
def twpShape (e : Desc) : List TwpSym :=
  let wr := (twpBytesOf e e.twpWrLen).map TwpSym.byte
  let again := if e.twpA10 then [TwpSym.start, .byte (BitVec.ofNat 8 (0xF1 + e.twpAddr / 2 ^ 8 % 4 * 2))]
    else [TwpSym.start, .byte (BitVec.ofNat 8 (e.twpAddr % 2 ^ 7 * 2 + 1))]
  (if e.twpRdLen = 0 then twpAddress e.twpAddr e.twpA10 false ++ wr
    else if e.twpWrLen = 0 then twpAddress e.twpAddr e.twpA10 true ++ [.take e.twpRdLen]
    else twpAddress e.twpAddr e.twpA10 false ++ wr ++ again ++ [.take e.twpRdLen]) ++ [.stop]

/-- The bytes that the target sends in read direction for the bytes clocked (R220): TX_DATA, then 0xFF. -/
def twpReply (e : Desc) (clocked : Nat) : List TwpSym :=
  let tx := (twpBytesOf e e.twpWrLen).take clocked
  (tx ++ List.replicate (clocked - tx.length) 0xFF).map TwpSym.byte

/-- A controller transfer completes (R212, R215). -/
def Dev.twpXferDone (d : Dev) (tag status : Nat) (rx : List (BitVec 8)) (extra : Nat) : Dev :=
  let d1 := { d with f.twp := { d.f.twp with cur := none, onBus := false } }
  ((packBytes rx).foldl (fun d w => d.receive tag w) d1).endF tag status (BitVec.ofNat 64 (rx.length % 256 + extra))

/-- The serving TWP_TARGET ends with a status (R218, R220). -/
def Dev.twpTargetDone (d : Dev) (status : Nat) (rx : List (BitVec 8)) (clocked : Nat) : Dev :=
  match d.f.twp.serving with
  | none => d
  | some tag =>
    let d1 := { d with f.twp := { d.f.twp with serving := none, tgts := d.f.twp.tgts.filter (fun g => g != tag) } }
    match d1.fop tag with
    | none => d1
    | some o =>
      let got := rx.take o.desc.twpRdLen
      let sent := min clocked o.desc.twpWrLen
      let d2 := if clocked = 0 then d1 else d1.emit (.twp (twpReply o.desc clocked))
      ((packBytes got).foldl (fun d w => d.receive tag w) d2).endF tag status
        (BitVec.ofNat 64 (got.length % 256 + sent * 256))

/-! ## Operations -/

/-- The BAD_DESC cases of a TWP_XFER (R211). -/
def Dev.twpXferBad (d : Dev) (e : Desc) : Bool :=
  let a := e.twpAddr
  (!e.twpA10 && decide (2 ^ 7 ≤ a)) || (!e.twpA10 && (decide (a < 8) || (decide (0x78 ≤ a) && decide (a < 0x80))))
    || decide (32 < e.twpWrLen) || (e.twpRdLen != 0 && e.buf == 0)
    || (d.flag Fld.TWP_TGT_CFG_TGT_EN && a == d.fld Fld.TWP_TGT_CFG_ADDR && e.twpA10 == d.flag Fld.TWP_TGT_CFG_A10)

/-- TWP_XFER (R206, R210, R211, R217, R222): checked and queued; while the device goes to REST it completes WRONG_STATE. -/
def doTwpXfer (tag : Nat) (t : Nat) (d : Dev) : Dev :=
  let d := d.at t
  match d.freshOp tag opTWP_XFER with
  | none => d
  | some o =>
    let d := d.setFop tag (some { o with begun := true })
    if d.twpXferBad o.desc then d.endF tag stBAD_DESC 0
    else if d.f.twp.stuck then d.endF tag stTWP_STUCK 0
    else if !d.flag Fld.TWP_CTRL_EN || !d.flag Fld.TWP_CTRL_CTL_EN || d.h.restEntry.isSome || d.f.ch.rest.isSome then
      d.endF tag stWRONG_STATE 0
    else { d with f.twp.queue := d.f.twp.queue ++ [tag] }

/-- TWP_TARGET (R206, R217, R219): checked and queued, ready at once. -/
def doTwpTarget (tag : Nat) (t : Nat) (d : Dev) : Dev :=
  let d := d.at t
  match d.freshOp tag opTWP_TARGET with
  | none => d
  | some o =>
    let d := d.setFop tag (some { o with begun := true })
    if 32 < o.desc.twpWrLen ∨ (o.desc.twpRdLen ≠ 0 ∧ o.desc.buf = 0) then d.endF tag stBAD_DESC 0
    else if d.f.twp.stuck then d.endF tag stTWP_STUCK 0
    else if !d.flag Fld.TWP_CTRL_EN || !d.flag Fld.TWP_TGT_CFG_TGT_EN then d.endF tag stWRONG_STATE 0
    else { d with f.twp.tgts := d.f.twp.tgts ++ [tag] }

/-- TWP_XFER_START (R209, R210, R215): with the bus free and t_BUF passed, the transfer begun or the next in the order makes
a START. The attempt puts out the shape of the transfer. -/
def doTwpXferStart (t : Nat) (d : Dev) : Dev :=
  let d := d.at t
  let w := d.f.twp
  if !d.twpCtlOn || w.onBus || w.busy || decide (d.now < w.lastStop + tBuf (d.fld Fld.TWP_CTRL_MODE)) then d
  else
    let go := fun (tag losses : Nat) (q : List Nat) =>
      let d1 := { d with f.twp := { w with
        cur := some (tag, losses), queue := q, onBus := true, busy := true, quietFrom := none } }
      match d.fop tag with
      | some o => d1.emit (.twp (twpShape o.desc))
      | none => d1
    match w.cur, w.queue with
    | some (tag, losses), q => go tag losses q
    | none, tag :: q => go tag 0 q
    | none, [] => d

/-- TWP_XFER_END (R212): the transfer on the bus ends with STOP, after its last byte or after a byte that was not
acknowledged, whose index RESULT holds. -/
def doTwpXferEnd (nackAt : Option Nat) (rx : List (BitVec 8)) (t : Nat) (d : Dev) : Dev :=
  let d := d.at t
  match d.f.twp.cur with
  | none => d
  | some (tag, _) =>
    if !d.f.twp.onBus then d
    else
      let d1 := { d with f.twp := { d.f.twp with busy := false, lastStop := d.now } }
      let cap := match d.fop tag with | some o => o.desc.twpRdLen | none => 0
      match nackAt with
      | some i => d1.twpXferDone tag stNACK [] (i % 256 * 2 ^ 16)
      | none => d1.twpXferDone tag stOK (rx.take cap) 0

/-- TWP_ARB_LOSS (R213, R215): counted and recorded; the transfer is repeated up to RETRIES times, else it completes
ARB_LOST. The bus stays with the other controller. -/
def doTwpArbLoss (byte bit lossAt : Nat) (rx : List (BitVec 8)) (t : Nat) (d : Dev) : Dev :=
  let d := d.at t
  match d.f.twp.cur with
  | none => d
  | some (tag, losses) =>
    if !d.f.twp.onBus then d
    else
      let b := if lossAt % 4 = 0 then bit % 8 else 0
      let d1 := (((d.bump Fld.TWP_ARB_CNT_COUNT ⟨Reg.TWP_CNT_SAT, 0, 1⟩).setFld Fld.TWP_LAST_LOSS_BYTE byte).setFld
        Fld.TWP_LAST_LOSS_BIT b).setFld Fld.TWP_LAST_LOSS_LOSS_AT lossAt
      let retries := match d.fop tag with | some o => o.desc.twpRetries | none => 0
      let cap := match d.fop tag with | some o => o.desc.twpRdLen | none => 0
      if losses < retries then { d1 with f.twp := { d1.f.twp with cur := some (tag, losses + 1), onBus := false } }
      else
        (d1.twpXferDone tag stARB_LOST (rx.take cap) (byte % 256 * 2 ^ 16 + b * 2 ^ 24 + lossAt % 4 * 2 ^ 27)).raiseOwner
          Sn.TWP_ARB_LOST Fld.PCI_OWN_PORT_TWP_CTL

/-! ## The bus -/

/-- TWP_BUS_IDLE_TIMEOUT (R209): after an enable, both lines have been high for 50 µs. -/
def doTwpBusIdleTimeout (t : Nat) (d : Dev) : Dev :=
  let d := d.at t
  match d.f.twp.quietFrom with
  | some s => if s + 50 * usCycles ≤ d.now then { d with f.twp := { d.f.twp with busy := false, quietFrom := none } } else d
  | none => d

/-- TWP_START_DETECT (R209). -/
def doTwpStartDetect (t : Nat) (d : Dev) : Dev :=
  let d := d.at t
  { d with f.twp := { d.f.twp with busy := true, quietFrom := none } }

/-- TWP_STOP_DETECT (R209, R219): the bus is free, and a transfer that the target serves ends. -/
def doTwpStopDetect (rx : List (BitVec 8)) (clocked : Nat) (t : Nat) (d : Dev) : Dev :=
  let d := d.at t
  ({ d with f.twp := { d.f.twp with busy := false, quietFrom := none, lastStop := d.now } }).twpTargetDone stOK rx clocked

/-- TWP_TARGET_ADDRESS_MATCH (R214, R219): the oldest ready operation serves the transfer, or the address is not
acknowledged. -/
def doTwpTargetAddressMatch (t : Nat) (d : Dev) : Dev :=
  let d := d.at t
  if !d.twpTgtOn || d.f.twp.serving.isSome then d
  else match d.f.twp.tgts with
    | tag :: _ => { d with f.twp.serving := some tag }
    | [] => ((d.bump Fld.TWP_TGT_NR_CNT_COUNT ⟨Reg.TWP_CNT_SAT, 2, 1⟩).setFld Fld.TWP_STATUS_TGT_NOT_READY 1).raiseOwner
        Sn.TWP_TGT_NR Fld.PCI_OWN_PORT_TWP_TGT

/-- TWP_TARGET_END (R219, R220). -/
def doTwpTargetEnd (rx : List (BitVec 8)) (clocked : Nat) (t : Nat) (d : Dev) : Dev := (d.at t).twpTargetDone stOK rx clocked

/-- TWP_SCL_LOW_TIMEOUT (R216, R218): the controller's transfer, or the target's, completes TIMEOUT, and the stuck-SDA check runs
after the abort of either. -/
def doTwpSclLowTimeout (sda : SdaCheck) (t : Nat) (d : Dev) : Dev :=
  let d := d.at t
  let count := fun (d : Dev) (owner : Fld) =>
    (d.bump Fld.TWP_LTO_CNT_COUNT ⟨Reg.TWP_CNT_SAT, 1, 1⟩).raiseOwner Sn.TWP_LTO owner
  if !d.flag Fld.TWP_CTRL_LTO_EN then d
  else match d.f.twp.cur, d.f.twp.onBus with
    | some (tag, _), true => (count (d.twpXferDone tag stTIMEOUT [] 0) Fld.PCI_OWN_PORT_TWP_CTL).sdaCheck sda false
    | _, _ => if d.f.twp.serving.isSome then (count (d.twpTargetDone stTIMEOUT [] 0) Fld.PCI_OWN_PORT_TWP_TGT).sdaCheck sda false else d

/-- TWP_SDA_LOW_TIMEOUT (R216, R218). -/
def doTwpSdaLowTimeout (sda : SdaCheck) (t : Nat) (d : Dev) : Dev :=
  let d := d.at t
  if d.flag Fld.TWP_CTRL_LTO_EN && d.twpUp then d.sdaCheck sda false else d

/-! ## Register writes (R206, R216, R223, R225) -/

/-- Who may write TWP_CTRL and TWP_SCL_TIM. -/
def Dev.twpMay (d : Dev) (fn : Func) : Bool :=
  if d.twpCtl != 0 then d.twpCtl == codeOf fn else if d.twpTgt != 0 then d.twpTgt == codeOf fn else !fn

/-- A controller transfer or a target transfer is in progress. -/
def Dev.twpActive (d : Dev) : Bool := d.f.twp.cur.isSome || d.f.twp.serving.isSome

/-- Operations of a list complete WRONG_STATE. -/
def Dev.endAll (d : Dev) (tags : List Nat) : Dev := tags.foldl (fun d g => d.endF g stWRONG_STATE 0) d

/-- A write of TWP_CTRL. `c` is what the stuck-SDA check meets if the write makes it run. -/
def Dev.twpCtrlWrite (d : Dev) (fn : Func) (data : Word) (c : SdaCheck) : FwOut :=
  let n := data.toNat
  let mode := bitsOf n 2 2
  let modeChg := mode != d.fld Fld.TWP_CTRL_MODE
  let en := bitOf n 0
  let ctl := bitOf n 1
  let rst := bitOf n 5
  if !d.twpMay fn then notOwner
  else if d.flag Fld.TWP_CTRL_LOCK && modeChg then lockedOut
  else if mode = 3 ∨ sclBad mode (d.rd Reg.TWP_SCL_TIM) then badValue
  else if d.twpActive && (!en || !ctl || modeChg) then badValue
  else
    let rise := en && !d.flag Fld.TWP_CTRL_EN
    let ctlRise := ctl && !d.flag Fld.TWP_CTRL_CTL_EN
    let d1 := d.wr Reg.TWP_CTRL ((data &&& 0x1F) ||| ((data ||| d.rd Reg.TWP_CTRL) &&& 0x40))
    let d2 := if ctlRise then { d1 with f.twp := { d1.f.twp with busy := true, quietFrom := some d.now } } else d1
    let d3 := if ctl then d2 else ({ d2 with f.twp.queue := [] }).endAll d2.f.twp.queue
    let d4 := if rst then
        match d3.f.twp.cur with
        | some (g, _) => ({ d3 with f.twp := { d3.f.twp with cur := none, onBus := false } }).endF g stWRONG_STATE 0
        | none => d3
      else d3
    .ok (if rise || (en && ctl && !d.f.twp.checked) || rst then d4.sdaCheck c rise else d4)

/-- A write of TWP_TGT_CFG. -/
def Dev.twpTgtCfgWrite (d : Dev) (fn : Func) (data : Word) : FwOut :=
  if d.twpTgt != codeOf fn then notOwner
  else if d.flag Fld.TWP_CTRL_LOCK && changes (d.rd Reg.TWP_TGT_CFG) data 0x7FF then lockedOut
  else if d.twpActive then badValue
  else
    let tgtEn := bitOf data.toNat 11
    let rise := tgtEn && !d.flag Fld.TWP_TGT_CFG_TGT_EN
    let d1 := d.wrAccess Reg.TWP_TGT_CFG data
    let d2 := if rise then { d1 with f.twp := { d1.f.twp with busy := true, quietFrom := some d.now } } else d1
    .ok (if tgtEn then d2 else ({ d2 with f.twp.tgts := [] }).endAll d2.f.twp.tgts)

/-- A write to a register of the two-wire port (R225). W1C and CLR bits are written for the role that the writer owns: the
target's are TGT_NOT_READY, WAKE_MATCH and the third counter's. -/
def Dev.twpWrite (d : Dev) (fn : Func) (off : Nat) (data : Word) (c : SdaCheck) : FwOut :=
  let ctl := d.twpCtl == codeOf fn
  let tgt := d.twpTgt == codeOf fn
  if off = Reg.TWP_CTRL then d.twpCtrlWrite fn data c
  else if off = Reg.TWP_SCL_TIM then
    if !d.twpMay fn then notOwner
    else if d.flag Fld.TWP_CTRL_LOCK && changes (d.rd off) data 0x3FFFFFF then lockedOut
    else if sclBad (d.fld Fld.TWP_CTRL_MODE) data || d.twpActive then badValue
    else .ok (d.wrAccess off data)
  else if off = Reg.TWP_TGT_CFG then d.twpTgtCfgWrite fn data
  else if off = Reg.TWP_STATUS then
    if (!ctl && bitOf data.toNat 5) || (!tgt && (bitOf data.toNat 10 || bitOf data.toNat 11)) || (!ctl && !tgt) then notOwner
    else .ok (d.wrAccess off data)
  else if off = Reg.TWP_CNT_SAT then
    if (!ctl && (bitOf data.toNat 8 || bitOf data.toNat 9)) || (!tgt && bitOf data.toNat 10) || (!ctl && !tgt) then notOwner
    else
      let d1 := if bitOf data.toNat 8 then d.clearCnt Fld.TWP_ARB_CNT_COUNT ⟨Reg.TWP_CNT_SAT, 0, 1⟩ else d
      let d2 := if bitOf data.toNat 9 then d1.clearCnt Fld.TWP_LTO_CNT_COUNT ⟨Reg.TWP_CNT_SAT, 1, 1⟩ else d1
      .ok (if bitOf data.toNat 10 then d2.clearCnt Fld.TWP_TGT_NR_CNT_COUNT ⟨Reg.TWP_CNT_SAT, 2, 1⟩ else d2)
  else badValue

/-- A register of the port as read (Table TWP-5). -/
def Dev.twpRead (d : Dev) (off : Nat) : Word :=
  let w := d.f.twp
  if off = Reg.TWP_STATUS then
    (d.rd off &&& 0x1C20) ||| BitVec.ofNat 32 (b2n w.busy + b2n w.cur.isSome * 2 + b2n w.serving.isSome * 4
      + b2n w.stuck * 8 + b2n w.stuckScl * 16 + w.clocks * 64)
  else d.rd off

/-- TWP_ENABLE (R216): a write of TWP_CTRL with EN 1. -/
def doTwpEnable (fn : Func) (data : Word) (sda : SdaCheck) (t : Nat) (d : Dev) : Dev :=
  ((d.at t).twpCtrlWrite fn (data ||| 1) sda).orRej (d.at t) Fld.TWP_STATUS_CFG_REJ

/-- TWP_CTL_EN_WRITE (R206): a write of TWP_CTRL with CTL_EN 0, or (`tgt`) of TWP_TGT_CFG with TGT_EN 0. -/
def doTwpCtlEnWrite (fn : Func) (tgt : Bool) (data : Word) (t : Nat) (d : Dev) : Dev :=
  (if tgt then (d.at t).twpTgtCfgWrite fn (data &&& 0xFFFFF7FF)
    else (d.at t).twpCtrlWrite fn (data &&& 0xFFFFFFFD) ⟨0, false, false⟩).orRej (d.at t) Fld.TWP_STATUS_CFG_REJ

/-- TWP_CTL_RST (R216, R223): a write of TWP_CTRL with CTL_RST 1. -/
def doTwpCtlRst (fn : Func) (data : Word) (sda : SdaCheck) (t : Nat) (d : Dev) : Dev :=
  ((d.at t).twpCtrlWrite fn (data ||| 32) sda).orRej (d.at t) Fld.TWP_STATUS_CFG_REJ

/-! ## The commands' meanings -/

/-- The meaning of the command: `doTwpXfer` on the device. -/
def execTwpXfer (tag : Nat) (t : Nat) (s : State) : Out :=
  s.onDev (doTwpXfer tag t)

/-- The meaning of the command: `doTwpTarget` on the device. -/
def execTwpTarget (tag : Nat) (t : Nat) (s : State) : Out :=
  s.onDev (doTwpTarget tag t)

/-- The meaning of the command: `doTwpXferStart` on the device. -/
def execTwpXferStart (t : Nat) (s : State) : Out :=
  s.onDev (doTwpXferStart t)

/-- The meaning of the command: `doTwpXferEnd` on the device. -/
def execTwpXferEnd (nackAt : Option Nat) (rx : List (BitVec 8)) (t : Nat) (s : State) : Out :=
  s.onDev (doTwpXferEnd nackAt rx t)

/-- The meaning of the command: `doTwpArbLoss` on the device. -/
def execTwpArbLoss (byte bit lossAt : Nat) (rx : List (BitVec 8)) (t : Nat) (s : State) : Out :=
  s.onDev (doTwpArbLoss byte bit lossAt rx t)

/-- The meaning of the command: `doTwpBusIdleTimeout` on the device. -/
def execTwpBusIdleTimeout (t : Nat) (s : State) : Out :=
  s.onDev (doTwpBusIdleTimeout t)

/-- The meaning of the command: `doTwpStartDetect` on the device. -/
def execTwpStartDetect (t : Nat) (s : State) : Out :=
  s.onDev (doTwpStartDetect t)

/-- The meaning of the command: `doTwpStopDetect` on the device. -/
def execTwpStopDetect (rx : List (BitVec 8)) (clocked : Nat) (t : Nat) (s : State) : Out :=
  s.onDev (doTwpStopDetect rx clocked t)

/-- The meaning of the command: `doTwpTargetAddressMatch` on the device. -/
def execTwpTargetAddressMatch (t : Nat) (s : State) : Out :=
  s.onDev (doTwpTargetAddressMatch t)

/-- The meaning of the command: `doTwpTargetEnd` on the device. -/
def execTwpTargetEnd (rx : List (BitVec 8)) (clocked : Nat) (t : Nat) (s : State) : Out :=
  s.onDev (doTwpTargetEnd rx clocked t)

/-- The meaning of the command: `doTwpSclLowTimeout` on the device. -/
def execTwpSclLowTimeout (sda : SdaCheck) (t : Nat) (s : State) : Out :=
  s.onDev (doTwpSclLowTimeout sda t)

/-- The meaning of the command: `doTwpSdaLowTimeout` on the device. -/
def execTwpSdaLowTimeout (sda : SdaCheck) (t : Nat) (s : State) : Out :=
  s.onDev (doTwpSdaLowTimeout sda t)

/-- The meaning of the command: `doTwpEnable` on the device. -/
def execTwpEnable (fn : Func) (data : Word) (sda : SdaCheck) (t : Nat) (s : State) : Out :=
  s.onDev (doTwpEnable fn data sda t)

/-- The meaning of the command: `doTwpCtlEnWrite` on the device. -/
def execTwpCtlEnWrite (fn : Func) (tgt : Bool) (data : Word) (t : Nat) (s : State) : Out :=
  s.onDev (doTwpCtlEnWrite fn tgt data t)

/-- The meaning of the command: `doTwpCtlRst` on the device. -/
def execTwpCtlRst (fn : Func) (data : Word) (sda : SdaCheck) (t : Nat) (s : State) : Out :=
  s.onDev (doTwpCtlRst fn data sda t)

end Sys2Proof.Machine
end

