-- ==== Sys2Proof/Machine/Resets.lean ====
section
/-!
DEFINITION. The operations that the resets are made of: the writes that keep the Safety Net shadow in step (R264, R417), link
down (R60, R389), function resets (R86 to R88, Table PCI-7) and the F-side reset (R375, R377, Table RST-3).
-/

namespace Sys2Proof.Machine

/-! ## The Safety Net shadow -/

/-- The word of a field-window write (R64). -/
def fwWord (fn : Func) (off : Nat) (data : Word) : W48 :=
  BitVec.ofNat 48 (fn.idx * 2 ^ 47 + off / 4 % 2 ^ 14 * 2 ^ 32 + data.toNat)

/-- The container of a field-window write, its check made under the field-window route as the H-side forms the cell. -/
def fwContainer (fn : Func) (off : Nat) (data : Word) : Container :=
  Container.make (fwWord fn off data) fn 0 routeFieldWindow

/-- A write to the shadow is sent as a field-window write; SYNC_PEND reads 1 until it is acknowledged (R264). While the link
is down it is held, and the writes of link-up carry it (R417). -/
def Dev.shadowSend (d : Dev) (fn : Func) (off : Nat) (data : Word) : Dev :=
  let d1 := { d with h.syncPend := true }
  if d.h.link.up || d.h.link.training then
    ({ d1 with h.shadowQ := d1.h.shadowQ ++ [FwWrite.mk fn off data false] }).sendBulk .h (.fwWrite (fwContainer fn off data))
  else d1

/-- The H-side registers whose values the shadow copies for both functions: severities, quiet codes, and the owners of the ports and
timers (R264). -/
def shadowRegs : List Nat := (List.range 6).map Reg.SN_SEV ++ (List.range 12).map Reg.SN_QUIET ++ [Reg.PCI_OWN_PORT, Reg.PCI_OWN_FT]

/-- Every SN_SEV and SN_QUIET value, the ownership that scopes need and both functions' F_MODE are written to the shadow (R417). -/
def Dev.shadowSync (d : Dev) : Dev :=
  let d1 := shadowRegs.foldl (fun d off => d.shadowSend false off (d.rd off)) { d with h.shadowQ := [] }
  (d1.shadowSend false Reg.SN_ACK (d1.rd Reg.SN_ACK)).shadowSend true Reg.SN_ACK (d1.rd (keyOf true Reg.SN_ACK))

/-! ## Link down -/

/-- The bits of SYS_LOCK_STATUS that show F-side locks (R389). -/
def fLockBits : Word := 0xA79

/-- A retrain is counted and reported (R58). -/
def Dev.retrainNoted (d : Dev) : Dev :=
  (d.bump Fld.PRZ_RETRAIN_CNT_COUNT ⟨Reg.PRZ_CNT_SAT, 3, 1⟩).raiseBoth .h Sn.PRZ_RETRAIN

/-- The link is down (R60, R65, R389, R417): PRZ_LINK_DOWN, the F-side lock bits cleared and stale, waiting field-window
reads completed with all ones, and the H-side's F_MODE copies as at a FAULT_F_N pulse (R270). The retries come every 1 ms from
here, on the schedule that already runs where a retry has failed. -/
def Dev.linkDown (d : Dev) : Dev :=
  let l := { d.h.link with
    up := false, training := false, fwd := 0, ret := 0, fwdBad := 0, retBad := 0
    retryAt := if d.now < d.h.link.retryAt then d.h.link.retryAt else d.now + msCycles }
  let d1 := { d with h.link := l, h.syncPend := true, h.shadowQ := [], h.fwReads := [], f.watch.refA := none }
  let d2 := d.h.fwReads.foldl (fun d r => d.tlp r.fn (.cpl 0xFFFFFFFF)) d1
  let d3 := d2.wr Reg.SYS_LOCK_STATUS (d2.rd Reg.SYS_LOCK_STATUS &&& ~~~fLockBits)
  ((d3.setFld Fld.SYS_LOCK_STATUS_F_STALE 1).learnPulseF).raiseBoth .h Sn.PRZ_LINK_DOWN

/-- The lock fields of the F-side as SYS_LOCK_STATUS shows them (R389, Table IDX-8). -/
def Dev.fLocks (d : Dev) : Word :=
  BitVec.ofNat 32 (d.fld Fld.CAR_CTRL_LOCK + b2n (d.fld Fld.CH_LOCK_LOCK == 63) * 2 ^ 3 + d.fld Fld.FSP_CTRL_LOCK * 2 ^ 4
    + d.fld Fld.TWP_CTRL_LOCK * 2 ^ 5 + b2n (d.fld Fld.FT_LOCK_LOCK == 255) * 2 ^ 6
    + d.fld (Fld.WD_CTRL_LOCK 2) * 2 ^ 9 + d.fld Fld.BRK_CTRL_LOCK * 2 ^ 11)

/-- The bits of SYS_LOCK_STATUS whose lock fields a register of the F-side holds (Table IDX-8). -/
def fLockAt (off : Nat) : Word :=
  if off = Reg.CAR_CTRL then 0x1 else if off = Reg.CH_LOCK then 0x8 else if off = Reg.FSP_CTRL then 0x10
  else if off = Reg.TWP_CTRL then 0x20 else if off = Reg.FT_LOCK then 0x40 else if off = Reg.WD_CTRL 2 then 0x200
  else if off = Reg.BRK_CTRL then 0x800 else 0

/-- The H-side's copy of F-side locks is brought up to date in some of its bits (R389). -/
def Dev.lockCopy (d : Dev) (m : Word) : Dev :=
  d.wr Reg.SYS_LOCK_STATUS ((d.rd Reg.SYS_LOCK_STATUS &&& ~~~m) ||| (d.fLocks &&& m))

/-! ## Function resets -/

/-- A function's image, sweep and watchdog, and the device with each replaced. -/
def Dev.img (d : Dev) (fn : Func) : Image := if fn then d.h.imgB else d.h.imgA
def Dev.setImg (d : Dev) (fn : Func) (i : Image) : Dev := if fn then { d with h.imgB := i } else { d with h.imgA := i }
def Dev.sweep (d : Dev) (fn : Func) : Sweep := if fn then d.h.sweepB else d.h.sweepA
def Dev.setSweep (d : Dev) (fn : Func) (s : Sweep) : Dev := if fn then { d with h.sweepB := s } else { d with h.sweepA := s }
def Dev.wd (d : Dev) (k : Nat) : Wd := if k = 0 then d.h.wdA else if k = 1 then d.h.wdB else d.f.wdF
def Dev.setWd (d : Dev) (k : Nat) (w : Wd) : Dev :=
  if k = 0 then { d with h.wdA := w } else if k = 1 then { d with h.wdB := w } else { d with f.wdF := w }

/-- A watchdog whose domain is in reset: C held at 0, the service state IDLE, the key not armed (R251). -/
def Wd.inReset (w : Wd) : Wd := { w with first := w.en, armed := false, keyArmed := false, base := 0, held := true }

/-- A watchdog restarts in its first window (R251, R374). -/
def Wd.restart (w : Wd) (now : Nat) : Wd := { w with first := w.en, armed := false, base := 0, since := now, held := false }

/-- Registers put back to their reset values. -/
def Dev.resetRegs (d : Dev) (p : Nat → Bool) : Dev := { d with h.regs := d.h.regs.filter (fun e => !p e.1) }

/-- The registers of a ring. -/
def ringReg (n k : Nat) : Bool := decide (0x0800 + 32 * n ≤ k) && decide (k < 0x0820 + 32 * n)

/-- An operation that waits for a field event and serves none (Table PCI-7) ends with its function's reset: one that its block holds,
and one that has been opened and not reached its block yet. -/
def Dev.waitsField (d : Dev) (tag : Nat) (o : Op) : Bool :=
  (match d.f.ch.capA with | some c => c.tag == tag | none => false)
    || (match d.f.ch.capB with | some c => c.tag == tag | none => false)
    || (List.range 8).any (fun k => (d.tm k).opened == some tag)
    || d.f.fsp.waiting.any (fun r => r.tag == some tag)
    || (d.f.fsp.tgts.any (fun x => x.tag == tag) && !(match d.f.fsp.serving with | some (_, g) => g == some tag | none => false))
    || (d.f.twp.tgts.contains tag && d.f.twp.serving != some tag)
    || d.f.car.slots.any (fun p => p.2.tag == some tag)
    || (!(match d.fop tag with | some x => x.begun | none => false)
      && ([opCH_CAPTURE, opFT_CAPTURE, opFSP_TARGET, opTWP_TARGET, opSLOT_ARM].contains o.desc.opcode
        || (o.desc.opcode == opFSP_RUN && ecStartSlot (d.fspEntry o.desc.entry).ectrl)))

/-- Every trace of an operation that waits is taken from the F-side blocks. A run that was open has advanced its entry's counter
(R180). -/
def Dev.dropWaiting (d : Dev) (tag : Nat) (o : Op) : Dev :=
  let fresh := !(match d.fop tag with | some x => x.begun | none => false)
  let d := if fresh && o.desc.opcode == opFSP_RUN then d.fspCount o.desc.entry else d
  let gone := fun c : Option Cap => match c with | some x => if x.tag = tag then none else some x | none => none
  let f := { d.f with
    ops := d.f.ops.del tag
    ch := { d.f.ch with capA := gone d.f.ch.capA, capB := gone d.f.ch.capB }
    fsp := { d.f.fsp with
      waiting := d.f.fsp.waiting.filter (fun r => r.tag != some tag)
      tgts := d.f.fsp.tgts.filter (fun x => x.tag != tag) }
    twp := { d.f.twp with tgts := d.f.twp.tgts.filter (fun g => g != tag) } }
  let d1 := { d with f := f }
  ((List.range 8).foldl (fun d k => if (d.tm k).opened = some tag then d.setTm k { d.tm k with opened := none } else d) d1).setOp
    tag none

/-- An OUT_WRITE that will never be judged, since its function's image is reset (R139): not merged yet, or merged and not committed. -/
def Dev.outLost (d : Dev) (tag : Nat) (o : Op) : Bool :=
  o.desc.opcode == opOUT_WRITE
    && (o.stage == .opened || (o.desc.update == 0 && !d.f.ch.outw.any (fun w => w.tag == tag)
      && !(match d.fop tag with | some x => x.ended.isSome | none => false)))

/-- The operations of a function at its reset (Table PCI-7): discarded when not yet opened or when they wait for a field event,
else their results are. -/
def Dev.opsReset (d : Dev) (fn : Func) : Dev :=
  d.opsList.foldl (fun d p =>
    if p.2.fn != fn then d
    else if p.2.stage == .admitted then d.setOp p.1 none
    else if d.waitsField p.1 p.2 || d.outLost p.1 p.2 then d.dropWaiting p.1 p.2
    else d.setOp p.1 (some { p.2 with drop := true })) d

/-- A function's rings go to their reset values (R86): stopped, histories cleared. -/
def Dev.ringsReset (d : Dev) (fn : Func) : Dev :=
  let mine := (List.range 64).filter (fun n => d.ringOwner n == fn)
  let d1 := d.resetRegs (fun k => mine.any (fun n => ringReg n k || k == Reg.RM_BACKLOG n))
  { d1 with h.rings := d1.h.rings.filter (fun p => !mine.contains p.1) }

/-- A function's output channels are held until its first OUT_WRITE has been committed (R81, R86, R87). -/
def Dev.holdFn (d : Dev) (fn : Func) : Dev :=
  (if fn then { d with f.ch.waitB := true } else { d with f.ch.waitA := true }).pins

/-- A function's SN_ACK modes return to FOLLOW; F_MODE is carried to the shadow (R270). -/
def Dev.ackReset (d : Dev) (fn : Func) : Dev :=
  let k := keyOf fn Reg.SN_ACK
  (d.wr k (d.rd k &&& ~~~(0xF : Word))).shadowSend fn Reg.SN_ACK (d.rd k &&& ~~~(0xF : Word))

/-- A broader reset is in progress (R380). -/
def Dev.broaderReset (d : Dev) : Bool := d.h.fReset || d.h.dev == .boot || d.h.dev == .off

/-- A configuration dword's key. -/
def cfgKey (fn : Func) (off : Nat) : Nat := keyOf fn (0x40000 + off)

/-- A function reset begins (R86 to R88, Table PCI-7). The arbiter's round goes on (R120, R121). -/
def Dev.functionReset (d : Dev) (fn : Func) (flr : Bool) : Dev :=
  if d.broaderReset then d
  else
    let p := d.pci fn
    let d1 := ((d.opsReset fn).slotsReset fn).ringsReset fn
    let own := fun k => k == keyOf fn Reg.PCI_LINK_STATUS || k == keyOf fn Reg.PCI_INT_CAUSE || k == keyOf fn Reg.PCI_DROP_CNT
      || k == keyOf fn Reg.PCI_CNT_SAT
    let msix := fun k => flr && decide (keyOf fn 0x20000 ≤ k) && decide (k < keyOf fn 0x20040)
    let cfg := fun k => flr && decide (cfgKey fn 0 ≤ k) && decide (k < cfgKey fn 0x1000) && k != cfgKey fn 0x2C
    let d2 := d1.resetRegs (fun k => own k || msix k || cfg k)
    let d3 := (d2.setPci fn (if flr then { PciFn.reset with resetAt := some d.now, intx := p.intx }
      else { p with pba := 0, resetAt := some d.now })).intx fn
    let d3 := if fn then d3 else d3.setFld Fld.FW_STATUS_STAGE_OPEN 0
    let sw := d3.sweep fn
    let d4 := (d3.setImg fn (Image.fresh fn)).setSweep fn { Sweep.idle with credits := sw.credits, lastRing := sw.lastRing }
    let d5 := { d4 with h.fwReads := d4.h.fwReads.filter (fun r => r.fn != fn) }
    ((d5.setWd fn.idx (d5.wd fn.idx).inReset).ackReset fn).holdFn fn

/-- A function reset ends: its watchdog restarts in its first window (R88, R251). -/
def Dev.functionResetEnd (d : Dev) (fn : Func) : Dev :=
  let p := d.pci fn
  if p.resetAt.isNone then d
  else
    let d1 := d.setPci fn { p with resetAt := none }
    d1.setWd fn.idx ((d1.wd fn.idx).restart d.now)

/-! ## The F-side reset -/

/-- The F-side registers that an F-side reset keeps: WDF's (R251), and CH_CFG and CH_LOCK until step B7 (R161). -/
def keptByFReset (k : Nat) : Bool :=
  (0x1440 ≤ k && k < 0x1460) || (0x2400 ≤ k && k < 0x24C0) || k == Reg.CH_LOCK

/-- The channels after an F-side reset with VDD_F present (R152, R157, R161): the pins keep their configuration, and the levels that
they drove when the reset began, held, with no word and no operation; the comparators' filtered levels read 0 until step B8. -/
def Chans.fReset (c : Chans) : Chans :=
  { Chans.reset with
    cfg := c.cfg, lastDrv := (c.lastDrv &&& ~~~c.cmdOn) ||| (c.cmd &&& c.cmdOn), driven := c.driven ||| c.cmdOn
    cmd := c.cmd, cmdOn := c.cmdOn, cmdAt := c.cmdAt, cmp := c.cmp
    standby := c.standby, own0 := c.own0, own1 := c.own1, own2 := c.own2 }

/-- Lasting sources of the F-side whose condition its reset does not end: a refresh missed, and the supplies, clocks, oscillator,
temperatures and FAULT pin that its detectors watch (Table SN-1). -/
def outlastsFReset (i : Nat) : Bool :=
  [Sn.PRZ_REF_MISS, Sn.CH_VIO_LOW, Sn.SYS_VDD_F, Sn.SYS_VREG_F, Sn.SYS_XTAL_F, Sn.SYS_PLL_F, Sn.SYS_LF_OSC, Sn.SYS_TEMP_F_HIGH,
    Sn.SYS_TEMP_F_CRIT, Sn.SN_FAULT_PIN_F].contains i

/-- A source of the F-side across an F-side reset: a condition that stood in a register of a block ends with the reset, and a reaction
in force runs its quiet period from there (log entry 30). -/
def Src.fReset (i : Nat) (s : Src) (now : Nat) : Src :=
  if outlastsFReset i then s else { s with active := false, last := if s.active then now else s.last }

/-- Registers of the channels at their reset values, but for VIO_LOW, which the banks' supply monitors hold (R150). -/
def vioKept (old new : Tab Word) : Tab Word :=
  new.set resetWord Reg.CH_STATUS (Tab.get resetWord old Reg.CH_STATUS &&& 0x3F)

/-- The F-side goes to its reset state (R375): its blocks and registers, the shadow's copies at their defaults (R417), FAULT_F_N
low until the device runs again (R271). -/
def FDie.reset (f : FDie) (now : Nat) : FDie :=
  { f with
    regs := vioKept f.regs (f.regs.filter (fun e => keptByFReset e.1))
    sn := (f.sn.map (fun p => (p.1, Src.fReset p.1 p.2 now))).filter (fun p => decide (p.2 ≠ Src.idle))
    snWas := []
    ranOnce := false
    bulk := { BulkEnd.idle with evNum := f.bulk.evNum, evWait := f.bulk.evWait }
    watch := Watch.reset
    ops := []
    ch := f.ch.fReset
    ft := ⟨[], none, false⟩
    car := Carousel.reset
    fsp := Fsp.reset
    twp := Twp.reset
    wdF := { f.wdF.inReset with paused := false }
    brk := { Brk.reset with idleFrom := now }
    headLatch := none }

/-- The operations open on the F-side complete WRONG_STATE, the ONCE arms among them DISARMED (Table RST-3). MGMT commands run on the
H-side. -/
def Dev.opsLost (d : Dev) (slotTags : List Nat) : Dev :=
  d.opsList.foldl (fun d p =>
    if p.2.stage == .admitted || p.2.desc.opcode == opMGMT then d
    else d.complete p.1 p.2 (if slotTags.contains p.1 then stDISARMED else stWRONG_STATE) 0) d

/-- The F-side is reset: bulk items of operations are dropped, and images, latches and the stream start afresh (R375). -/
def Dev.fSideClear (d : Dev) : Dev :=
  let b := d.h.bulk
  let keep := fun l : List Cell => l.filter Cell.isFw
  let d1 := { d with
    f := d.f.reset d.now
    h.fReset := true
    h.imgA := { d.h.imgA with merged := [], carried := [], older := [] }
    h.imgB := { d.h.imgB with merged := [], carried := [], older := [] }
    h.mir.snap := d.h.mir.snap.map (fun s : Snap => { s with latch := none })
    h.bulk := { b with
      replay := keep b.replay, txSeq := (keep b.replay).length, waitOp := [], rxSeq := 0, since := 0, nakSent := false } }
  d1.pins

/-- An F-side reset begins while the H-side runs (R375, R377): open operations complete, and the link goes down, which the H-side
reports as link down and as a retrain (R250). -/
def Dev.fSideReset (d : Dev) : Dev :=
  let d1 := (d.fSideClear.opsLost (d.f.car.slots.filterMap (fun p => p.2.tag))).linkDown
  if d.h.link.up || d.h.link.training then d1.retrainNoted else d1

end Sys2Proof.Machine
end

