-- ==== Sys2Proof/Machine/Watchdogs.lean ====
section
/-!
DEFINITION. The watchdogs WDA, WDB and WDF (R242 to R257): count and windows, service, reactions, keys, set-up writes, and the
halt of the F-side sequencer by a debugger (R237, R255).
-/

namespace Sys2Proof.Machine

/-- WDF is frozen: DBG_FREEZE is 1 while a debugger holds the F-side sequencer (R255). -/
def Dev.wdFrozen (d : Dev) (k : Nat) : Bool := k == 2 && d.flag (Fld.WD_CTRL_DBG_FREEZE 2) && d.f.ft.halted

/-- A watchdog's count in cycles of its die clock, and C in ticks of 800 cycles (R243). -/
def Dev.wdCycles (d : Dev) (k : Nat) : Nat :=
  let w := d.wd k
  if w.en && !w.held && !w.paused && !d.wdFrozen k then w.base + (d.now - w.since) else w.base
def Dev.wdCount (d : Dev) (k : Nat) : Nat := if (d.wd k).en then d.wdCycles k / usCycles else 0

/-- The count is taken down as of now. -/
def Dev.wdSync (d : Dev) (k : Nat) : Dev := d.setWd k { d.wd k with base := d.wdCycles k, since := d.now }

/-- The opening and expiry counts of the present window (Table WD-2). -/
def Dev.wdOpen (d : Dev) (k : Nat) : Nat :=
  if (d.wd k).first && d.fld (Fld.WD_FIRST_FIRST k) != 0 then 0 else d.fld (Fld.WD_OPEN_OPEN k)
def Dev.wdLimit (d : Dev) (k : Nat) : Nat :=
  if (d.wd k).first && d.fld (Fld.WD_FIRST_FIRST k) != 0 then d.fld (Fld.WD_FIRST_FIRST k) * 1000
  else d.fld (Fld.WD_TIMEOUT_TIMEOUT k)

/-- A watchdog's reaction (R249): its FAULT pin is pulsed and its domain reset; nothing is recorded (R250). A function reset that a
reset of the F-side absorbs (R380) leaves the watchdog in reset until that one ends (R251). -/
def Dev.wdReact (d : Dev) (k : Nat) : Dev :=
  if 2 ≤ k then (d.pulse .f).fSideReset
  else if d.h.fReset then (d.pulse .h).setWd k (d.wd k).inReset
  else (d.pulse .h).functionReset (k == 1) false

/-- An enabled watchdog that runs has reached T (R244). -/
def Dev.wdDue (d : Dev) (k : Nat) : Bool :=
  let w := d.wd k
  w.en && !w.held && !w.paused && !d.wdFrozen k && decide (d.wdLimit k ≤ d.wdCount k)

/-- A valid service (R246): C restarts at 0 in the normal window; a paused or frozen watchdog stays so. -/
def Dev.wdServed (d : Dev) (k : Nat) : Dev :=
  d.setWd k { d.wd k with first := false, armed := false, base := 0, since := d.now }

/-- A word written to the service register of an enabled watchdog whose domain is not in reset (Table WD-3); an expiry of
the same cycle is taken first (R245). -/
def Dev.wdServe (d : Dev) (k : Nat) (word : Word) : Dev :=
  let w := d.wd k
  if !w.en || w.held then d
  else if d.wdDue k then d.wdReact k
  else if word = 0x0000C1A0 ∧ !w.armed then d.setWd k { w with armed := true }
  else if word = 0x00003E5F ∧ w.armed ∧ d.wdOpen k ≤ d.wdCount k then d.wdServed k
  else d.wdReact k

/-- WD_SERVICE (R242, R246, R256): by the master of watchdog `k`; in BOOT a host's write is ignored (R372). -/
def doWdService (k : Nat) (data : Word) (t : Nat) (d : Dev) : Dev :=
  let d := d.at t
  if 2 < k then d else if k = 2 then d.wdServe k data else d.hostDo (k == 1) Reg.WD_SERVICE (·.wdServe k data)

/-- WD_EXPIRE (R244, R249). -/
def doWdExpire (k : Nat) (t : Nat) (d : Dev) : Dev :=
  let d := d.at t
  if k ≤ 2 && d.wdDue k then d.wdReact k else d

/-! ## Set-up writes (R252, R253, R255, R257) -/

/-- The function that writes a watchdog's registers (Table WD-1). -/
def wdWriter (k : Nat) : Func := k == 1

/-- A write that the block ignores: CFG_REJ of the watchdog written. -/
def Dev.wdRej (d : Dev) (k : Nat) : Dev := d.setFld (Fld.WD_STATUS_CFG_REJ k) 1

/-- The limits of R248 and R253 on a watchdog's window registers. -/
def wdWindowBad (k opn tmo fst : Nat) : Bool :=
  opn == 0 || decide (tmo ≤ opn) || (k == 2 && (decide (950 < opn) || decide (tmo < 1051) || decide (fst < 41)))

/-- A write of WD_CTRL: EN_SET, LOCK, and DBG_FREEZE of WDF, which only DEVELOPMENT lets be set. A watchdog that is enabled outside a
boot and a reset of its domain runs at once in its normal window (R252); in a boot it waits for its start point (R374). -/
def Dev.wdCtrlWrite (d : Dev) (dev : Bool) (k : Nat) (data : Word) : Dev :=
  let n := data.toNat
  let w := d.wd k
  if (k = 2 ∧ bitOf n 2 ∧ !dev) ∨ (bitOf n 1 ∧ !d.flag (Fld.WD_CTRL_LOCK k) ∧ !w.en ∧ !bitOf n 0) then d.wdRej k
  else
    let d1 := if bitOf n 0 && !w.en
      then d.setWd k { w with
        en := true, first := false, armed := false, base := 0, since := d.now, held := w.held && (d.h.dev == .boot || d.h.fReset) }
      else d
    let d2 := if bitOf n 1 && !d.flag (Fld.WD_CTRL_LOCK k)
      then (d1.setWd k { d1.wd k with keyArmed := false }).setFld (Fld.WD_CTRL_LOCK k) 1 else d1
    if k = 2 then (d2.wdSync 2).setFld (Fld.WD_CTRL_DBG_FREEZE 2) (b2n (bitOf n 2 && dev)) else d2

/-- A write of WD_KEY (R252). -/
def Dev.wdKeyWrite (d : Dev) (k : Nat) (data : Word) : Dev :=
  let w := d.wd k
  if d.flag (Fld.WD_CTRL_LOCK k) then d.wdRej k
  else if data = 0x00006D79 then d.setWd k { w with keyArmed := true }
  else if data = 0x00007269 ∧ w.keyArmed then
    d.setWd k { w with en := false, first := false, armed := false, keyArmed := false, base := 0 }
  else d.setWd k { w with keyArmed := false }

/-- A write to a register of watchdog `k` at offset `r` of its block. `dev` says that the lifecycle is DEVELOPMENT. An expiry
of the same cycle is taken first (R245). -/
def Dev.wdWrite (d : Dev) (dev : Bool) (fn : Func) (k r : Nat) (data : Word) : Dev :=
  let w := d.wd k
  if fn != wdWriter k then d.wdRej k
  else if d.wdDue k && r != 0x18 then d.wdReact k
  else if r = 0 then d.wdCtrlWrite dev k data
  else if r = 0x10 then d.wdKeyWrite k data
  else if r = 0x18 then d.wrAccess (Reg.WD_STATUS k) data
  else if r = 4 ∨ r = 8 ∨ r = 12 then
    let d1 := d.wrAccess (Reg.WD_CTRL k + r) data
    if w.en || d.flag (Fld.WD_CTRL_LOCK k)
        || wdWindowBad k (d1.fld (Fld.WD_OPEN_OPEN k)) (d1.fld (Fld.WD_TIMEOUT_TIMEOUT k)) (d1.fld (Fld.WD_FIRST_FIRST k))
    then d.wdRej k else d1
  else d.wdRej k

/-- A watchdog register as read (Table WD-5). -/
def Dev.wdRead (d : Dev) (k r : Nat) : Word :=
  let w := d.wd k
  if r = 0x14 then BitVec.ofNat 32 (d.wdCount k)
  else if r = 0x18 then
    (d.rd (Reg.WD_STATUS k) &&& 0x80) ||| BitVec.ofNat 32 (b2n w.en + b2n w.first * 2
      + b2n (w.en && decide (d.wdOpen k ≤ d.wdCount k)) * 4 + b2n w.armed * 8 + b2n w.keyArmed * 16 + b2n w.paused * 32
      + b2n (d.wdFrozen k) * 64)
  else d.rd (Reg.WD_CTRL k + r)

/-- WD_ENABLE (R252): WD_CTRL written with EN_SET 1. -/
def doWdEnable (dev : Bool) (fn : Func) (k : Nat) (data : Word) (t : Nat) (d : Dev) : Dev :=
  if k = 2 then (d.at t).wdWrite dev fn k 0 (data ||| 1)
  else if k < 2 then (d.at t).hostDo fn (Reg.WD_CTRL k) (·.wdWrite dev fn k 0 (data ||| 1))
  else d.at t

/-- WD_KEY (R252). -/
def doWdKey (fn : Func) (k : Nat) (data : Word) (t : Nat) (d : Dev) : Dev :=
  if k = 2 then (d.at t).wdWrite false fn k 0x10 data
  else if k < 2 then (d.at t).hostDo fn (Reg.WD_KEY k) (·.wdWrite false fn k 0x10 data)
  else d.at t

/-! ## Pauses and starts -/

/-- Pause in Rest and its end (R254). An expiry of the same cycle is taken first (R245). -/
def Dev.wdPause (d : Dev) (k : Nat) : Dev :=
  let d0 := if d.wdDue k then d.wdReact k else d
  let d1 := d0.wdSync k
  d1.setWd k { d1.wd k with paused := true }
def Dev.wdResume (d : Dev) (k : Nat) : Dev :=
  if (d.wd k).paused then d.setWd k { d.wd k with paused := false, since := d.now } else d

/-- A held watchdog reaches its start point and runs in its first window (R374). -/
def Dev.wdStart (d : Dev) (k : Nat) : Dev :=
  let w := d.wd k
  if w.held then d.setWd k (w.restart d.now) else d

/-- A debugger holds the F-side sequencer: FT[4..7] freeze, and WDF with DBG_FREEZE, unless it expires in this cycle (R245). -/
def Dev.debugHalt (d : Dev) : Dev :=
  let d0 := if d.wdDue 2 then d.wdReact 2 else d
  let d1 := (d0.tmSyncAll).wdSync 2
  { d1 with f.ft.halted := true }.tmNoteAll

/-- The debugger lets the sequencer go: what was frozen advances again from its value. -/
def Dev.debugFree (d : Dev) : Dev :=
  if d.f.ft.halted then { (d.tmSyncAll).wdSync 2 with f.ft.halted := false }.tmNoteAll else d

/-- The sequencers' debug ports are open (R331, Table SEC-5): before PRODUCTION, and with SEC_LOCKED not in force. -/
def debugOpen (lc : Lifecycle) (d : Dev) : Bool := decide (lc.code < 2) && d.inForce Sn.SEC_LOCKED == 0

/-! ## The commands' meanings -/

/-- The meaning of the command: `doWdService` on the device. -/
def execWdService (k : Nat) (data : Word) (t : Nat) (s : State) : Out :=
  s.onDev (doWdService k data t)

/-- The meaning of the command: `doWdExpire` on the device. -/
def execWdExpire (k : Nat) (t : Nat) (s : State) : Out :=
  s.onDev (doWdExpire k t)

/-- The meaning of the command: `doWdEnable` on the device, in its lifecycle state. -/
def execWdEnable (fn : Func) (k : Nat) (data : Word) (t : Nat) (s : State) : Out :=
  s.onDev (doWdEnable (s.nv.lifecycle == .development) fn k data t)

/-- The meaning of the command: `doWdKey` on the device. -/
def execWdKey (fn : Func) (k : Nat) (data : Word) (t : Nat) (s : State) : Out :=
  s.onDev (doWdKey fn k data t)

/-- F_SEQ_DEBUG_HALT (R237, R255), where the lifecycle opens the debug ports (R331). -/
def execFSeqDebugHalt (t : Nat) (s : State) : Out :=
  s.onDev (fun d => if debugOpen s.nv.lifecycle d then (d.at t).debugHalt else d.at t)

/-- F_SEQ_DEBUG_RELEASE (R237, R255). -/
def execFSeqDebugRelease (t : Nat) (s : State) : Out :=
  s.onDev (fun d => (d.at t).debugFree)

end Sys2Proof.Machine
end

