-- ==== Sys2Proof/Machine/Rest.lean ====
section
/-!
DEFINITION. Rest and the Barker (R276 to R294): Rest entry and exit, the sampler with its votes, travel and match rules, wake
events, the idle policy and the block's register writes; and the TWP's address recogniser in REST (R222).
-/

namespace Sys2Proof.Machine

/-! ## The Barker's set-up -/

/-- A set-up field of the Barker in force: that of a register written in REST stays until the next Rest entry (R294). -/
def Dev.brk (d : Dev) (F : Fld) : Nat :=
  bitsOf ((Tab.get (fun _ => none) d.f.brk.setup F.off).getD (d.rd F.off)).toNat F.lo F.w

/-- An input is enabled (R285). -/
def Dev.brkEnabled (d : Dev) (k : Nat) : Bool :=
  if k < 16 then d.brk (Fld.BRK_SEL_EN (k / 4) (k % 4)) == 1
  else if k = 16 then d.brk Fld.BRK_CTRL_ZC_EN == 1 else k < 19 && d.brk Fld.BRK_CTRL_ENC_EN == 1

/-- The filtered level of an input that is not enabled reads 0, and its history is gone (R285). A change of a filtered level restarts
the idle time (R292). -/
def Dev.brkLevels (d : Dev) : Dev :=
  let old := d.fld Fld.BRK_STATUS_LEVEL
  let new := (List.range 19).foldl (fun a k => if bitOf old k && d.brkEnabled k then a + 2 ^ k else a) 0
  let d1 := { d with f.brk.hist := d.f.brk.hist.filter (fun p => d.brkEnabled p.1) }
  if new = old then d1
  else
    let d2 := d1.setFld Fld.BRK_STATUS_LEVEL new
    if d2.f.ch.rest.isNone then d2.idleReset else d2

/-- The Barker samples in this cycle (R285): an LF tick begins in it, every 2^(15 - RATE)-th one is a sample's, and it has not been
taken. LF ticks are counted from time 0 (DESIGN CHOICE, log entry 88). -/
def Dev.sampleTick (d : Dev) : Bool :=
  let k := lfTicks d.now
  (d.now == 0 || lfTicks (d.now - 1) != k) && k % 2 ^ (15 - d.brk Fld.BRK_CTRL_RATE) == 0 && d.f.brk.sampleAt != some d.now

/-- The level of an input at a sample: a channel of a bank whose supply is low, and a code that names no channel, read 0. -/
def Dev.brkRaw (d : Dev) (k : Nat) (lv : BitVec 19) : Bool :=
  if k < 16 then
    let ch := d.brk (Fld.BRK_SEL_CH (k / 4) (k % 4))
    lv.getLsbD k && decide (ch < 48) && !bitOf (d.fld Fld.CH_STATUS_VIO_LOW) (ch / 8)
  else lv.getLsbD k

/-- M and N of an input's vote (R286). -/
def Dev.brkVote (d : Dev) (k : Nat) : Nat × Nat :=
  if k < 16 then (d.brk Fld.BRK_VOTE_CH_MM1 + 1, d.brk Fld.BRK_VOTE_CH_NM1 + 1)
  else (d.brk Fld.BRK_VOTE_ENC_MM1 + 1, d.brk Fld.BRK_VOTE_ENC_NM1 + 1)

/-- The filtered level after a vote over the newest samples (R286): a level that N of the last M samples read, else the level
it had. -/
def voteLevel (m n : Nat) (hist : List Bool) (old : Bool) : Bool :=
  let l := hist.take m
  if n ≤ l.countP (· == true) then true else if n ≤ l.countP (· == false) then false else old

/-- BRK_TRAVEL as a signed number, and a count added to it, clamped (R287). -/
def Dev.travel (d : Dev) : Int := (d.rd Reg.BRK_TRAVEL).toInt
def Dev.setTravel (d : Dev) (v : Int) : Dev :=
  d.wr Reg.BRK_TRAVEL (BitVec.ofInt 32 (max (-(2 ^ 31 - 1)) (min (2 ^ 31 - 1) v)))

/-- The place of the two encoder levels in the forward sequence, in which A leads B (R21). -/
def quadPhase (a b : Bool) : Nat := if a then (if b then 2 else 1) else (if b then 3 else 0)

/-! ## Match rules (R288 to R290) -/

/-- A rule's MASK and VALUE compared with levels. -/
def Dev.patternHolds (d : Dev) (r level : Nat) : Bool :=
  BitVec.ofNat 19 (level ^^^ d.brk (Fld.BRK_RULE_VAL_VALUE r)) &&& BitVec.ofNat 19 (d.brk (Fld.BRK_RULE_MASK_MASK r)) == 0

/-- A rule that is not OFF is invalid at Rest entry (R289). -/
def Dev.ruleBad (d : Dev) (r : Nat) : Bool :=
  let inp := d.brk (Fld.BRK_RULE_CFG_INPUT r)
  let mask := d.brk (Fld.BRK_RULE_MASK_MASK r)
  match d.brk (Fld.BRK_RULE_CFG_TYPE r) with
  | 1 => mask == 0 || (List.range 19).any (fun k => bitOf mask k && !d.brkEnabled k)
  | 2 => d.brk (Fld.BRK_RULE_LIM_LO r) == 0 || d.brk (Fld.BRK_RULE_CFG_EDGE r) == 0 || decide (18 < inp)
      || !d.brkEnabled inp
  | 3 => !d.brkEnabled 17
  | _ => false

/-- A rule at a sample in REST (Table BRK-4), with the levels before and after: whether it matches, and the rule's new state. -/
def Dev.ruleAt (d : Dev) (r old new : Nat) (illegal : Bool) : Bool × Dev :=
  if bitOf d.f.brk.invalid r then (false, d)
  else match d.brk (Fld.BRK_RULE_CFG_TYPE r) with
    | 1 =>
      let was := bitOf d.f.brk.held r
      let holds := d.patternHolds r new
      let h := if holds == was then d.f.brk.held else if holds then d.f.brk.held + 2 ^ r else d.f.brk.held - 2 ^ r
      (holds && !was, { d with f.brk.held := h })
    | 2 =>
      let i := d.brk (Fld.BRK_RULE_CFG_INPUT r)
      let e := d.brk (Fld.BRK_RULE_CFG_EDGE r)
      let hit := bitOf old i != bitOf new i && (if bitOf new i then e % 2 == 1 else decide (2 ≤ e))
      let n := Tab.get (fun _ => 0) d.f.brk.edges r + b2n hit
      (hit && n == d.brk (Fld.BRK_RULE_LIM_LO r), { d with f.brk.edges := d.f.brk.edges.set (fun _ => 0) r n })
    | 3 => (illegal || decide (d.travel < -(d.brk (Fld.BRK_RULE_LIM_LO r) : Int))
        || decide ((d.brk (Fld.BRK_RULE_LIM_HI r) : Int) < d.travel), d)
    | _ => (false, d)

/-- Every rule at a sample in REST (R290): those that match are recorded together, and the first such sample is the wake
event. -/
def Dev.rulesAt (d : Dev) (old new : Nat) (illegal : Bool) : Dev :=
  let p := (List.range 8).foldl (fun (a : Nat × Dev) r =>
    let x := a.2.ruleAt r old new illegal
    (if x.1 then a.1 + 2 ^ r else a.1, x.2)) (0, d)
  if p.1 = 0 then p.2
  else (p.2.setFld Fld.BRK_WAKE_RULES (p.2.fld Fld.BRK_WAKE_RULES ||| p.1)).wake .f 0

/-! ## The sampler (R285 to R287) -/

/-- One input at a sample: its history and filtered level. The first sample fills the history. A missed sample repeats the
previous one. -/
def Dev.sampleInput (d : Dev) (k : Nat) (lv : BitVec 19) (miss : Bool) (old : Bool) : List Bool × Bool :=
  let h := Tab.get (fun _ => []) d.f.brk.hist k
  if !d.brkEnabled k then ([], false)
  else
    let s := if miss then h.head? else some (d.brkRaw k lv)
    match s, h with
    | none, _ => (h, old)
    | some b, [] => (List.replicate 8 b, b)
    | some b, _ =>
      let h1 := (b :: h).take 8
      let v := d.brkVote k
      (h1, voteLevel v.1 v.2 h1 old)

/-- BARKER_SAMPLE (R285 to R290): at a sample's LF tick every enabled input is sampled and voted, travel is decoded, and in REST the
rules are evaluated. `lv` holds the comparator levels of inputs 0 to 18; `miss` says that the clock paths were switching. -/
def doBarkerSample (lv : BitVec 19) (miss : Bool) (t : Nat) (d : Dev) : Dev :=
  let d := d.at t
  if !d.f.powered || d.brk Fld.BRK_CTRL_EN = 0 || !d.sampleTick then d
  else
    let d := { d with f.brk.sampleAt := some d.now }
    let d0 := if miss then d.raiseFn .f Sn.BRK_SAMPLE_MISS false else d
    let old := d0.fld Fld.BRK_STATUS_LEVEL
    let p := (List.range 19).foldl (fun (a : Nat × Tab (List Bool)) k =>
      let x := d0.sampleInput k lv miss (bitOf old k)
      (a.1 + b2n x.2 * 2 ^ k, a.2.set (fun _ => []) k x.1)) (0, d0.f.brk.hist)
    let new := p.1
    let first := (Tab.get (fun _ => []) d0.f.brk.hist 17).isEmpty
    let d1 := ({ d0 with f.brk.hist := p.2 }).setFld Fld.BRK_STATUS_LEVEL new
    let d2 := if new = old then d1 else if d1.f.ch.rest.isNone then d1.idleReset else d1
    let step := if !d2.brkEnabled 17 || first then 0
      else (quadPhase (bitOf new 17) (bitOf new 18) + 4 - quadPhase (bitOf old 17) (bitOf old 18)) % 4
    let d3 := if step = 1 then d2.setTravel (d2.travel + 1) else if step = 3 then d2.setTravel (d2.travel - 1)
      else if step = 2 then d2.setFld Fld.BRK_STATUS_ILLEGAL 1 else d2
    if d3.f.ch.rest.isSome then d3.rulesAt old new (step == 2) else d3

/-! ## Rest entry (R276 to R280) -/

/-- A record write executes or waits (R276, R308). -/
def Dev.storageBusy (d : Dev) : Bool := d.h.job.isSome || !d.h.jobs.isEmpty

/-- A Rest command is refused (R276, R5). -/
def Dev.restRefused (d : Dev) : Bool :=
  decide (1 ≤ d.inForce Sn.SYS_LF_OSC) || d.h.dev != .run || d.storageBusy || d.h.restEntry.isSome

/-- Steps 1 and 2 of R277: sweeps and fetches stop, what is not opened and what must not stay open completes: every open CH_CAPTURE
OK, and every TWP_XFER that has not begun WRONG_STATE, also one that its block has not taken yet (R222). -/
def Dev.restBegin (d : Dev) (tag : Option Nat) : Dev :=
  let d1 := d.opsList.foldl (fun d p =>
    if p.2.stage == .admitted then d.complete p.1 p.2 stWRONG_STATE 0 else d) { d with h.restEntry := some ⟨tag⟩ }
  let d2 := ({ d1 with f.twp.queue := [] }).endAll d1.f.twp.queue
  let d3 := (d2.capEnd false stOK).capEnd true stOK
  d3.opsList.foldl (fun d p =>
    if !d.untaken p.1 p.2 then d
    else if p.2.desc.opcode = opTWP_XFER then d.endF p.1 stWRONG_STATE 0
    else if p.2.desc.opcode = opCH_CAPTURE then d.endF p.1 stOK 0
    else d) d3

/-- An operation that has to be complete before the Rest command is (R160, R222, R277). -/
def Dev.restOpen (d : Dev) : Bool :=
  d.opsList.any (fun p => p.2.desc.opcode == opTWP_XFER || p.2.desc.opcode == opCH_CAPTURE)

/-- An open management operation of a command. -/
def Dev.mgmtOp (d : Dev) (tag cmd : Nat) : Option Op :=
  match d.openedOp tag opMGMT with
  | some o => if o.desc.cmd = cmd then some o else none
  | none => none

/-- The command executes, once. -/
def Dev.taken (d : Dev) (tag : Nat) : Dev :=
  match d.op tag with
  | some o => d.setOp tag (some { o with stage := .closing })
  | none => d

/-- REST_ENTER (R276, R277). -/
def doRestEnter (tag : Nat) (t : Nat) (d : Dev) : Dev :=
  let d := d.at t
  match d.mgmtOp tag cmdREST_ENTER with
  | none => d
  | some _ =>
    let d := d.taken tag
    if d.restRefused then d.finish tag stWRONG_STATE 0 else d.restBegin (some tag)

/-- The Rest values of the channels (R160, Table CH-4): HOLD keeps the level driven at this cycle. -/
def Chans.restLevels (c : Chans) : W48 × W48 :=
  let m := fun k => c.outMask &&& c.maskOf (fun w => cfgRest w == k)
  let keep := m 2 &&& c.cmdOn
  (m 1 ||| (keep &&& c.cmd), m 0 ||| m 1 ||| keep)

/-- The link stops for Rest without an event (R63): the F-side disarms its refresh watch; field-window reads that wait end as
on a link that is down (R65). -/
def Dev.watchDisarm (d : Dev) : Dev :=
  { d with f.watch := { d.f.watch with lastCommit := none, runFrom := none, refA := none, expired := false } }
def Dev.linkStop (d : Dev) : Dev :=
  let d1 := { d with
    h.link := { d.h.link with up := false, training := false, stopped := true, fwd := 0, ret := 0 }, h.fwReads := [] }
  d.h.fwReads.foldl (fun d r => d.tlp r.fn (.cpl 0xFFFFFFFF)) d1

/-- The F-side's confirming cycle (R160, R254, R280, R287 to R289): OUT_WRITEs still being judged complete on what has been
judged, since no channel is compared from here on. -/
def Dev.restConfirm (d : Dev) : Dev :=
  let c := d.f.ch
  let d1 := c.outw.foldl (fun d w => d.endF w.tag w.status (d.outResult w.tag d.levels)) d
  let d2 := ({ d1.carRest with f.ch := { d1.f.ch with rest := some c.restLevels, outw := [], due := [] } }).pins
  let d3 := d2.wdPause 2
  let starts := d3.brk Fld.BRK_CTRL_EN == 0 && d3.flag Fld.BRK_CTRL_EN
  let d4 := ({ d3 with f.brk := { d3.f.brk with
    setup := [], hist := if starts then [] else d3.f.brk.hist
    edges := [], wakeAt := none, late := false, awakeF := false, awakeH := false } }).brkLevels
  let lvl := d4.fld Fld.BRK_STATUS_LEVEL
  let bad : Nat := (List.range 8).foldl (fun a r => if d4.ruleBad r then a + 2 ^ r else a) 0
  let held : Nat := (List.range 8).foldl (fun a r => if d4.patternHolds r lvl then a + 2 ^ r else a) 0
  let d5 := { d4 with f.brk := { d4.f.brk with invalid := bad, held := held } }
  let d6 := ((d5.setTravel 0).setFld Fld.BRK_WAKE_RULES 0).setFld Fld.BRK_WAKE_SRC 0
  if bad = 0 then d6 else d6.raiseFn .f Sn.BRK_RULE_BAD false

/-- The deepest link state that the host has enabled (R82), by Function A's enables. -/
def PciFn.deepest (p : PciFn) : LinkPm := if p.l12 then .l12 else if p.l11 then .l11 else if p.l1 then .l1 else .l0

/-- V0 messages that are due are sent now (R114). -/
def Dev.v0Now (d : Dev) : Dev :=
  (List.range 64).foldl (fun d n =>
    let r := d.ring n
    if r.irqDue.isSome then (d.setRing n { r with irqDue := none }).irq (d.ringOwner n) 0 else d) d

/-- REST_EXCHANGE (R277, steps 3 to 5): once the FSP word and the TWP transfer in progress have ended and the operations of step 2 are
complete, the dies exchange REST cells, the F-side confirms, and the H-side completes the command and enters the deepest link state
that the host has enabled (R82). A SAFE or HALT reaction at the F-side holds the confirmation back (R278). -/
def doRestExchange (t : Nat) (d : Dev) : Dev :=
  let d := d.at t
  match d.h.restEntry with
  | none => d
  | some e =>
    if d.h.dev != .run || d.f.fsp.inWord || d.f.fsp.serving.isSome || d.f.twp.cur.isSome || d.restOpen || !(d.h.link.up || d.h.link.stopped)
        || d.f.sn.any (fun p => 2 ≤ p.2.force) || d.f.snH.any (fun p => 2 ≤ p.2.force) then d
    else
      let d1 := ((d.emitCell .h (.rest true)).emitCell .f (.rest false)).restConfirm
      let d2 := (d1.watchDisarm).linkStop
      let d3 := match e.tag with
        | some g => d2.finish g stOK 0
        | none => (d2.setFld Fld.BRK_STATUS_IDLE_ENTRY 1).irq false 1
      let d4 := ((d3.v0Now).wdPause 0).wdPause 1
      { d4 with h.dev := .rest, h.restEntry := none, h.pm := d4.h.pciA.deepest }

/-! ## Idle policy (R292) -/

/-- The last change of the Carousel position. -/
def lastMove : List (Nat × Nat × Bool) → Nat
  | [] => 0
  | [e] => e.1
  | e :: e1 :: t => if e.2.2 || e.2.1 != e1.2.1 then e.1 else lastMove (e1 :: t)

/-- IDLE_TIMEOUT (R292, R5): the idle time has reached IDLE_S, and a Rest command is carried out or refused. -/
def doIdleTimeout (t : Nat) (d : Dev) : Dev :=
  let d := d.at t
  let from_ := max d.f.brk.idleFrom (lastMove d.f.car.hist)
  let react := d.f.sn.any (fun p => 1 ≤ p.2.force) || d.f.snH.any (fun p => 1 ≤ p.2.force)
  let due := d.brk Fld.BRK_CTRL_IDLE_EN == 1 && d.h.dev == .run && d.h.restEntry.isNone && !react
    && decide (from_ + d.brk Fld.BRK_IDLE_IDLE_S * 1000 * msCycles ≤ d.now)
  if !due then d
  else if d.restRefused then d.idleReset
  else d.restBegin none

/-! ## Wake (R281 to R283, R291) -/

/-- WAKE_EVENT (R281, R291): an event of Table BRK-2 in REST (0 BARKER, 1 PCIE, 2 TWP, 3 SAFETY) asserts the beacon and, on the
H-side, CLKREQ_N. -/
def doWakeEvent (src : Nat) (t : Nat) (d : Dev) : Dev :=
  let d := d.at t
  if 4 ≤ src then d else d.wake (if src = 1 then .h else .f) src

/-- WAKE_BEACON (R281): the die that receives the beacon starts its part of the wake. -/
def doWakeBeacon (x : Die) (t : Nat) (d : Dev) : Dev :=
  let d := d.at t
  if d.f.brk.wakeAt.isNone then d
  else match x with
    | .h => d.wakeH false
    | .f => d.wakeF

/-- WAKE_LATE (R282): no refresh commit has come 180 µs after the wake event. -/
def doWakeLate (t : Nat) (d : Dev) : Dev :=
  let d := d.at t
  match d.f.brk.wakeAt with
  | some w =>
    if d.f.ch.rest.isSome && !d.f.brk.late && decide (w + 180 * usCycles < d.now) then
      ({ d with f.brk.late := true }).raiseBoth .f Sn.SYS_WAKE_LATE
    else d
  | none => d

/-- The first refresh commit after a wake (R283, R291): the channels leave their Rest values, the Carousel and the watchdog of the F-side
resume, the report is complete, what waited is reported, and the device enters RUN, SAFE or HALT. -/
def Dev.restExit (d : Dev) : Dev :=
  if d.f.ch.rest.isNone then d
  else
    let b := { d.f.brk with wakeAt := none, awakeF := false, awakeH := false }
    let d0 : Dev := { d with f.ch.rest := none, f.brk := b, h.dev := if d.h.dev = DevState.rest then DevState.run else d.h.dev, h.link.stopped := false }
    let d1 := d0.carWake.wdResume 2
    let d2 := (d1.setFld Fld.BRK_WAKE_NEW 1).irq false 1
    let d3 := d2.h.irqRest.foldl (fun d e => d.irq e.1 e.2) { d2 with h.irqRest := [] }
    (d3.idleReset).followReactions

/-- TWP_WAKE_MATCH (R222): the address recogniser matches in REST; it sets WAKE_MATCH and signals a wake event. -/
def doTwpWakeMatch (t : Nat) (d : Dev) : Dev :=
  let d := d.at t
  if d.f.ch.rest.isSome && d.flag Fld.TWP_TGT_CFG_TGT_EN && d.flag Fld.TWP_TGT_CFG_WAKE_EN then
    (d.setFld Fld.TWP_STATUS_WAKE_MATCH 1).wake .f 2
  else d

/-! ## Register writes (R294) -/

/-- A vote field pair with 2N at most M. -/
def voteBad (w lo : Nat) : Bool := decide (2 * (bitsOf w (lo + 3) 3 + 1) ≤ bitsOf w lo 3 + 1)

/-- The values of the block that R294 refuses with cause 3. -/
def Dev.brkBad (d : Dev) (off : Nat) (data : Word) : Bool :=
  let n := data.toNat
  if off = Reg.BRK_CTRL then
    decide (10 < bitsOf n 1 4) || (bitOf n 5 && d.fld Fld.BRK_IDLE_IDLE_S == 0)
  else if off = Reg.BRK_VOTE then voteBad n 0 || voteBad n 6
  else if off = Reg.BRK_IDLE then bitsOf n 0 16 == 0 && d.flag Fld.BRK_CTRL_IDLE_EN
  else if 0x3440 ≤ off ∧ off % 16 = 0 then
    decide (18 < bitsOf n 2 5) || (bitsOf n 0 2 == 2 && bitsOf n 7 2 == 0)
  else false

/-- A write to a register of the Barker (R294). -/
def Dev.brkWrite (d : Dev) (fn : Func) (off : Nat) (data : Word) : FwOut :=
  match specOf off with
  | none => badValue
  | some r =>
    if fn then notOwner
    else if r.rw = 0 ∧ r.w1c = 0 then badValue
    else if d.flag Fld.BRK_CTRL_LOCK && changes (d.rd off) (if off = Reg.BRK_CTRL then data ||| 0x40 else data) r.rw then
      lockedOut
    else if d.brkBad off data then badValue
    else
      let lock := off == Reg.BRK_CTRL && d.flag Fld.BRK_CTRL_LOCK
      let d1 := d.wrAccess off (if lock then data ||| 0x40 else data)
      if d.f.ch.rest.isSome then
        .ok { d1 with f.brk.setup := d1.f.brk.setup.upd (fun _ => none) off (fun o => some (o.getD (d.rd off))) }
      else
        let was := fun F : Fld => d.brk F == 1
        let d2 := { d1 with f.brk.setup := d1.f.brk.setup.del off }
        let d3 := if off == Reg.BRK_CTRL && !was Fld.BRK_CTRL_EN && d2.flag Fld.BRK_CTRL_EN then { d2 with f.brk.hist := [] } else d2
        let d4 := d3.brkLevels
        .ok (if off == Reg.BRK_CTRL && !was Fld.BRK_CTRL_IDLE_EN && d4.flag Fld.BRK_CTRL_IDLE_EN then d4.idleReset else d4)

/-! ## The commands' meanings -/

/-- The meaning of the command: `doBarkerSample` on the device. -/
def execBarkerSample (lv : BitVec 19) (miss : Bool) (t : Nat) (s : State) : Out :=
  s.onDev (doBarkerSample lv miss t)

/-- The meaning of the command: `doRestEnter` on the device. -/
def execRestEnter (tag : Nat) (t : Nat) (s : State) : Out :=
  s.onDev (doRestEnter tag t)

/-- The meaning of the command: `doRestExchange` on the device. -/
def execRestExchange (t : Nat) (s : State) : Out :=
  s.onDev (doRestExchange t)

/-- The meaning of the command: `doIdleTimeout` on the device. -/
def execIdleTimeout (t : Nat) (s : State) : Out :=
  s.onDev (doIdleTimeout t)

/-- The meaning of the command: `doWakeEvent` on the device. -/
def execWakeEvent (src : Nat) (t : Nat) (s : State) : Out :=
  s.onDev (doWakeEvent src t)

/-- The meaning of the command: `doWakeBeacon` on the device. -/
def execWakeBeacon (x : Die) (t : Nat) (s : State) : Out :=
  s.onDev (doWakeBeacon x t)

/-- The meaning of the command: `doWakeLate` on the device. -/
def execWakeLate (t : Nat) (s : State) : Out :=
  s.onDev (doWakeLate t)

/-- The meaning of the command: `doTwpWakeMatch` on the device. -/
def execTwpWakeMatch (t : Nat) (s : State) : Out :=
  s.onDev (doTwpWakeMatch t)

end Sys2Proof.Machine
end

