-- ==== Sys2Proof/Machine/SafetyNet.lean ====
section
/-!
DEFINITION. The Safety Net's own steps (R258 to R275, R417): detection and recovery of sources, events across the barrier, severity
and quiet-period writes, recovery counters, FAULT pins, the comparison with the shadow; and the supply, clock, temperature,
sequencer and memory sources (R394, R395, R401).
-/

namespace Sys2Proof.Machine

/-! ## Detection and recovery -/

/-- Sources that are not evaluated in REST (R273, R279, Table BRK-1): the clocks that are stopped there, and the sources of the blocks
that are stopped: the Carousel and the link (0 to 14), the PCIe link's speed and errors, the Ringmaster and the checks (16 to 26),
captures and word suppression, the FSP, the TWP and the timers' captures (29 to 42), the sequencers and the memories (61 to 66), flash,
calibration and firmware (72 to 80), and the Mirror port (89 to 95). -/
def notInRest (i : Nat) : Bool :=
  i < 15 || (16 ≤ i && i < 27) || (29 ≤ i && i < 43) || (52 ≤ i && i < 56) || (61 ≤ i && i < 67) || (72 ≤ i && i < 81)
    || (89 ≤ i && i < 96)

/-- The die raises the source (Table SN-1). -/
def raisedOn (x : Die) (i : Nat) : Bool := match x with | .h => (srcRow i).onH | .f => (srcRow i).onF

/-- A detector of a die finds a source active with a scope. -/
def Dev.detect (d : Dev) (x : Die) (i : Nat) (a b : Bool) : Dev :=
  if !raisedOn x i || (d.f.ch.rest.isSome && notInRest i) then d else d.raise x i a b

/-- SN_SOURCE_ACTIVE (R259 to R266): the reaction starts or escalates by severity and scope. -/
def doSnSourceActive (x : Die) (src : Nat) (scA scB : Bool) (t : Nat) (d : Dev) : Dev :=
  (d.at t).detect x src scA scB

/-- The time up to which quiet periods have advanced: in REST the last LF tick (R273). -/
def Dev.quietNow (d : Dev) : Nat :=
  if d.f.ch.rest.isSome then (lfTicks d.now * 390625 + 15) / 16 else d.now

/-- SN_QUIET_EXPIRE (R267): a reaction ends once its source has been inactive for the quiet period, which completes in the cycle that
lies the period after the last active one; a detection in that cycle still keeps the reaction. SEC_ERASED never recovers. -/
def doSnQuietExpire (x : Die) (src : Nat) (t : Nat) (d : Dev) : Dev :=
  let d := d.at t
  let s := d.src x src
  if s.force = 0 || s.active || src == Sn.SEC_ERASED || decide (d.quietNow ≤ s.last + d.quietOf x src) then d
  else d.endReaction x src

/-! ## Events across the barrier (R46, R266, R272) -/

/-- An event of an F-side source reaches the H-side. -/
def Dev.eventAtH (d : Dev) (i sev : Nat) (active a b : Bool) : Dev :=
  let s := d.srcFAtH i
  let put := fun (d : Dev) (x : Src) => { d with h.snF := d.h.snF.set (fun _ => Src.idle) i x }
  if active then
    let d1 := put d { s with active := (srcRow i).lasting, force := max s.force sev, scA := a, scB := b, last := d.now }
    let d2 := if 2 ≤ sev ∧ s.force < sev then d1.learnPulseF else d1
    d2.record i sev
  else
    let d1 := put d { s with active := false, force := 0, scA := false, scB := false }
    if s.force != 0 && (d.src .h i).force == 0 then d1.recover i else d1.followReactions

/-- An event of an H-side source reaches the shadow: its reaction is applied to the channels, or its hold released. -/
def Dev.eventAtF (d : Dev) (i sev : Nat) (active a b : Bool) : Dev :=
  let s := d.srcHAtF i
  let x := if active then { s with force := max s.force sev, scA := a, scB := b } else { s with force := 0, scA := false, scB := false }
  (({ d with f.snH := d.f.snH.set (fun _ => Src.idle) i x }).pins).drainBulk .f 16

/-! ## Set-up writes (R263, R267, R268, R270, R275) -/

/-- The block ignores a write. -/
def Dev.snRej (d : Dev) : Dev := d.setFld Fld.SN_STATUS_CFG_REJ 1

/-- An SN_SEV word is refused (R263): a field below its floor, or SN_REC_SAT other than INFO. -/
def sevBad (i : Nat) (data : Word) : Bool :=
  (List.range 16).any (fun k =>
    let v := bitsOf data.toNat (2 * k) 2
    decide (v < sevFloor (16 * i + k)) || (16 * i + k == Sn.SN_REC_SAT && v != 0))

/-- A quiet code above 12 (R267). -/
def quietBad (data : Word) : Bool := (List.range 8).any (fun k => decide (12 < bitsOf data.toNat (4 * k) 4))

/-- A write of SN_SEV[i] (R263): in its own cycle the severities of before still stand. -/
def Dev.sevWrite (d : Dev) (fn : Func) (i : Nat) (data : Word) : Dev :=
  if fn || d.flag Fld.SN_CTRL_LOCK || sevBad i data then d.snRej
  else (((d.snNote .h (Reg.SN_SEV i)).wr (Reg.SN_SEV i) data).sevRaised .h i).shadowSend false (Reg.SN_SEV i) data

/-- A write of SN_QUIET[i] (R267): the codes apply from the next cycle. -/
def Dev.quietWrite (d : Dev) (fn : Func) (i : Nat) (data : Word) : Dev :=
  if fn || d.flag Fld.SN_CTRL_LOCK || quietBad data then d.snRej
  else ((d.snNote .h (Reg.SN_QUIET i)).wr (Reg.SN_QUIET i) data).shadowSend false (Reg.SN_QUIET i) data

/-- A field of SN_ACK after a write: 3 leaves it unchanged (Table SN-6). -/
def ackField (old data lo : Nat) : Nat := if bitsOf data lo 2 = 3 then bitsOf old lo 2 else bitsOf data lo 2

/-- A write of SN_ACK by a function (R270). -/
def Dev.ackWrite (d : Dev) (fn : Func) (data : Word) : Dev :=
  let k := keyOf fn Reg.SN_ACK
  let old := (d.rd k).toNat
  let v := BitVec.ofNat 32 (ackField old data.toNat 0 + 4 * ackField old data.toNat 2)
  (d.wr k v).shadowSend fn Reg.SN_ACK v

/-- A write of SN_REC_CLR (R268, R275). A recovery counted in the cycle of the clear is applied after it (R13). -/
def Dev.recClrWrite (d : Dev) (fn : Func) (data : Word) : Dev :=
  let all := bitOf data.toNat 7
  let i := bitsOf data.toNat 0 7
  let clear := fun (d : Dev) (i : Nat) =>
    let now := b2n (Tab.get (fun _ => 0) d.h.recAt i == d.now + 1)
    (d.setFld (Fld.SN_REC_COUNT (i / 2) (i % 2)) now).setFld ⟨Reg.SN_REC_SAT (i / 32), i % 32, 1⟩ 0
  if fn || (!all && decide (96 ≤ i)) then d.snRej
  else if all then (List.range 96).foldl clear d else clear d i

/-- SN_SEV_WRITE (R263). -/
def doSnSevWrite (fn : Func) (i : Nat) (data : Word) (t : Nat) (d : Dev) : Dev :=
  if i < 6 then (d.at t).hostDo fn (Reg.SN_SEV i) (·.sevWrite fn i data) else d.at t

/-- SN_QUIET_WRITE (R267). -/
def doSnQuietWrite (fn : Func) (i : Nat) (data : Word) (t : Nat) (d : Dev) : Dev :=
  if i < 12 then (d.at t).hostDo fn (Reg.SN_QUIET i) (·.quietWrite fn i data) else d.at t

/-- SN_REC_CLR (R268). -/
def doSnRecClr (fn : Func) (data : Word) (t : Nat) (d : Dev) : Dev :=
  (d.at t).hostDo fn Reg.SN_REC_CLR (·.recClrWrite fn data)

/-- SN_ACK_WRITE (R270): in BOOT a host's write is ignored (R372). -/
def doSnAckWrite (fn : Func) (data : Word) (t : Nat) (d : Dev) : Dev :=
  (d.at t).hostDo fn Reg.SN_ACK (·.ackWrite fn data)

/-- A write to a register of the Safety Net in BAR0 (R275). -/
def Dev.snWrite (d : Dev) (fn : Func) (off : Nat) (data : Word) : Dev :=
  if off = Reg.SN_CTRL then
    if fn then d.snRej else d.wr off (d.rd off ||| (data &&& 1))
  else if off = Reg.SN_STATUS then d.wrAccess off data
  else if off = Reg.SN_REC_CLR then d.recClrWrite fn data
  else if 0x1010 ≤ off ∧ off < 0x1028 then d.sevWrite fn ((off - 0x1010) / 4) data
  else if 0x1040 ≤ off ∧ off < 0x1070 then d.quietWrite fn ((off - 0x1040) / 4) data
  else if 0x10A0 ≤ off ∧ off < 0x10AC then if fn then d.snRej else d.wrAccess off data
  else if 0x10B0 ≤ off ∧ off < 0x10BC then if fn then d.wrAccess off data else d.snRej
  else d.snRej

/-- A severity lowered under a reaction in force waits (R263). -/
def Dev.sevPend (d : Dev) : Bool :=
  (List.range 96).any (fun i => decide (d.sevOf .h i < d.inForce i))

/-- A 32-source register of flags. -/
def flagWord (j : Nat) (p : Nat → Bool) : Word :=
  BitVec.ofNat 32 ((List.range 32).foldl (fun a b => a + b2n (p (32 * j + b)) * 2 ^ b) 0)

/-- A register of the Safety Net as read (Table SN-6). -/
def Dev.snRead (d : Dev) (off : Nat) : Word :=
  if off = Reg.SN_STATUS then
    (d.rd off &&& ~~~(6 : Word)) ||| BitVec.ofNat 32 (b2n d.h.syncPend * 2 + b2n d.sevPend * 4)
  else if 0x1080 ≤ off ∧ off < 0x108C then
    flagWord ((off - 0x1080) / 4) (fun i => (d.src .h i).active || (d.srcFAtH i).active)
  else if 0x1090 ≤ off ∧ off < 0x109C then flagWord ((off - 0x1090) / 4) (fun i => d.inForce i != 0)
  else d.rd off

/-! ## Shadow comparison (R264, R417) -/

/-- The shadow's copies equal the H-side's (R264): severities, quiet codes, and the ownership of ports and timers. -/
def Dev.shadowSame (d : Dev) : Bool := shadowRegs.all (fun off => d.rd off == d.shadow off)

/-- The last point of the 10 ms schedule of the comparison (R264). -/
def Dev.comparePoint (d : Dev) : Nat := d.now / (10 * msCycles) * (10 * msCycles)

/-- SHADOW_COMPARE (R264, R417): at a point of the 10 ms schedule that has not been served; skipped in a boot up to the end of B7,
while the link is down and while writes are outstanding. The reads across the barrier and the comparison are one step (DESIGN CHOICE,
log entry 89). -/
def doShadowCompare (t : Nat) (d : Dev) : Dev :=
  let d := d.at t
  let due := decide (d.h.cmpAt < d.comparePoint)
  let d := { d with h.cmpAt := max d.h.cmpAt d.comparePoint }
  if !due || d.h.dev == .boot || d.h.dev == .off || !d.h.link.up || d.h.syncPend || d.h.fReset || d.shadowSame then d
  else d.raiseBoth .h Sn.SN_SHADOW

/-! ## FAULT pins (R259, R269) -/

/-- FAULT_PULSE_END (R269): 10 µs after the pulse's last start the pin follows its modes. -/
def doFaultPulseEnd (x : Die) (t : Nat) (d : Dev) : Dev :=
  let d := d.at t
  let stay := fun p : Option Nat => match p with
    | some s => if s + 10 * usCycles ≤ d.now then none else some s
    | none => none
  match x with
  | .h => { d with h.pulse := stay d.h.pulse }
  | .f => { d with f.pulse := stay d.f.pulse }

/-- A condition begins or ends at a detector of a die. -/
def Dev.condition (d : Dev) (x : Die) (i : Nat) (holds : Bool) : Dev :=
  if holds then d.detect x i true true else d.condEnd x i

/-- FAULT_PIN_MISMATCH (R259): the pin has read another level than the die sets for 10 µs, or reads its level again. -/
def doFaultPinMismatch (x : Die) (bad : Bool) (t : Nat) (d : Dev) : Dev :=
  (d.at t).condition x (match x with | .h => Sn.SN_FAULT_PIN_H | .f => Sn.SN_FAULT_PIN_F) bad

/-! ## Supplies, clocks, temperature, sequencers and memories -/

/-- A supply source of Table SN-1 and the die that raises it. -/
def supplyDie (src : Nat) : Option Die :=
  if 46 ≤ src ∧ src ≤ 49 then some .h else if src = 50 ∨ src = 51 then some .f else none

/-- SUPPLY_OUT_OF_RANGE (R394). -/
def doSupplyOutOfRange (src : Nat) (t : Nat) (d : Dev) : Dev :=
  match supplyDie src with
  | some x => (d.at t).condition x src true
  | none => d.at t

/-- A rail that had been lost below its reset threshold is back: its die is powered again, and in reset until the power-on reset is
released (R271, R368). -/
def Dev.powerBack (d : Dev) (src : Nat) : Dev :=
  if src = Sn.SYS_VCORE_H then { d with h.powered := true }
  else if src = Sn.SYS_VDD_F then { d with f.porHeld := d.f.porHeld || !d.f.powered }
  else d

/-- SUPPLY_RETURN_IN_RANGE (R394). -/
def doSupplyReturnInRange (src : Nat) (t : Nat) (d : Dev) : Dev :=
  match supplyDie src with
  | some x => ((d.at t).powerBack src).condition x src false
  | none => d.at t

/-- TEMPERATURE_THRESHOLD (R401): a junction crosses 115 °C or, with `crit`, 130 °C. -/
def doTemperatureThreshold (x : Die) (crit above : Bool) (t : Nat) (d : Dev) : Dev :=
  let i := match x with
    | .h => if crit then Sn.SYS_TEMP_H_CRIT else Sn.SYS_TEMP_H_HIGH
    | .f => if crit then Sn.SYS_TEMP_F_CRIT else Sn.SYS_TEMP_F_HIGH
  (d.at t).condition x i above

/-- A clock source of Table SN-1 and the die that raises it. -/
def clockDie (src : Nat) : Option Die :=
  if src = 52 ∨ src = 53 then some .h else if src = 54 ∨ src = 55 then some .f else none

/-- CLOCK_LOSS (R395). -/
def doClockLoss (src : Nat) (t : Nat) (d : Dev) : Dev :=
  match clockDie src with
  | some x => (d.at t).condition x src true
  | none => d.at t

/-- CLOCK_RETURN (R395). -/
def doClockReturn (src : Nat) (t : Nat) (d : Dev) : Dev :=
  match clockDie src with
  | some x => (d.at t).condition x src false
  | none => d.at t

/-- LF_OSCILLATOR_FAULT (R259): the LF oscillator stops or leaves its tolerance, or re-enters it. -/
def doLfOscillatorFault (bad : Bool) (t : Nat) (d : Dev) : Dev := (d.at t).condition .f Sn.SYS_LF_OSC bad

/-- SEQUENCER_TRAP (R259). -/
def doSequencerTrap (x : Die) (t : Nat) (d : Dev) : Dev :=
  (d.at t).detect x (match x with | .h => Sn.SYS_SEQ_H | .f => Sn.SYS_SEQ_F) true true

/-- ECC_ERROR (R259). -/
def doEccError (x : Die) (uncorrectable : Bool) (t : Nat) (d : Dev) : Dev :=
  let i := match x with
    | .h => if uncorrectable then Sn.SYS_ECC_H_UNCORR else Sn.SYS_ECC_H_CORR
    | .f => if uncorrectable then Sn.SYS_ECC_F_UNCORR else Sn.SYS_ECC_F_CORR
  (d.at t).detect x i true true

/-! ## The commands' meanings -/

/-- The meaning of the command: `doSnSourceActive` on the device. -/
def execSnSourceActive (x : Die) (src : Nat) (scA scB : Bool) (t : Nat) (s : State) : Out :=
  s.onDev (doSnSourceActive x src scA scB t)

/-- The meaning of the command: `doSnQuietExpire` on the device. -/
def execSnQuietExpire (x : Die) (src : Nat) (t : Nat) (s : State) : Out :=
  s.onDev (doSnQuietExpire x src t)

/-- The meaning of the command: `doSnSevWrite` on the device. -/
def execSnSevWrite (fn : Func) (i : Nat) (data : Word) (t : Nat) (s : State) : Out :=
  s.onDev (doSnSevWrite fn i data t)

/-- The meaning of the command: `doSnQuietWrite` on the device. -/
def execSnQuietWrite (fn : Func) (i : Nat) (data : Word) (t : Nat) (s : State) : Out :=
  s.onDev (doSnQuietWrite fn i data t)

/-- The meaning of the command: `doSnRecClr` on the device. -/
def execSnRecClr (fn : Func) (data : Word) (t : Nat) (s : State) : Out :=
  s.onDev (doSnRecClr fn data t)

/-- The meaning of the command: `doSnAckWrite` on the device. -/
def execSnAckWrite (fn : Func) (data : Word) (t : Nat) (s : State) : Out :=
  s.onDev (doSnAckWrite fn data t)

/-- The meaning of the command: `doShadowCompare` on the device. -/
def execShadowCompare (t : Nat) (s : State) : Out :=
  s.onDev (doShadowCompare t)

/-- The meaning of the command: `doFaultPulseEnd` on the device. -/
def execFaultPulseEnd (x : Die) (t : Nat) (s : State) : Out :=
  s.onDev (doFaultPulseEnd x t)

/-- The meaning of the command: `doFaultPinMismatch` on the device. -/
def execFaultPinMismatch (x : Die) (bad : Bool) (t : Nat) (s : State) : Out :=
  s.onDev (doFaultPinMismatch x bad t)

/-- The meaning of the command: `doSupplyOutOfRange` on the device. -/
def execSupplyOutOfRange (src : Nat) (t : Nat) (s : State) : Out :=
  s.onDev (doSupplyOutOfRange src t)

/-- The meaning of the command: `doSupplyReturnInRange` on the device. -/
def execSupplyReturnInRange (src : Nat) (t : Nat) (s : State) : Out :=
  s.onDev (doSupplyReturnInRange src t)

/-- The meaning of the command: `doTemperatureThreshold` on the device. -/
def execTemperatureThreshold (x : Die) (crit above : Bool) (t : Nat) (s : State) : Out :=
  s.onDev (doTemperatureThreshold x crit above t)

/-- The meaning of the command: `doClockLoss` on the device. -/
def execClockLoss (src : Nat) (t : Nat) (s : State) : Out :=
  s.onDev (doClockLoss src t)

/-- The meaning of the command: `doClockReturn` on the device. -/
def execClockReturn (src : Nat) (t : Nat) (s : State) : Out :=
  s.onDev (doClockReturn src t)

/-- The meaning of the command: `doLfOscillatorFault` on the device. -/
def execLfOscillatorFault (bad : Bool) (t : Nat) (s : State) : Out :=
  s.onDev (doLfOscillatorFault bad t)

/-- The meaning of the command: `doSequencerTrap` on the device. -/
def execSequencerTrap (x : Die) (t : Nat) (s : State) : Out :=
  s.onDev (doSequencerTrap x t)

/-- The meaning of the command: `doEccError` on the device. -/
def execEccError (x : Die) (uncorrectable : Bool) (t : Nat) (s : State) : Out :=
  s.onDev (doEccError x uncorrectable t)

end Sys2Proof.Machine
end

