-- ==== Sys2Proof/Machine/Flash.lean ====
section
/-!
DEFINITION. Records in flash (R295 to R301, R307 to R309): which record is current, where a new one goes, the flash operations of a
record write and what each does, the storage queue, and the commands SETTINGS_COMMIT and CAL_WRITE (R302 to R306).
-/

namespace Sys2Proof.Machine

/-- The block after a change of its device. -/
def State.mapDev (s : State) (g : Dev → Dev) : State := { s with dev := g s.dev }

/-- A host's write to an H-side register whose effect may reach the nonvolatile contents. -/
def State.hostDo (s : State) (fn : Func) (off : Nat) (g : State → State) : State :=
  let s1 := s.mapDev (·.hostAccess)
  if s1.dev.barOpen fn && s1.dev.bootAllows off then g s1 else s1

/-- A profile that the device supports (R387): profile 1 always. -/
def profileOk (p : Nat) : Bool := p == 1 || (decide (2 ≤ p) && decide (p < 16) && Config.profilesAbove1.getLsbD p)

/-- SYS_PROFILE.ACTIVE. -/
def Dev.profile (d : Dev) : Nat := d.fld Fld.SYS_PROFILE_ACTIVE

/-! ## Words of the die (R295, R296) -/

/-- A word programmed and verified at PV: programming only changes bits from 1 to 0. -/
def programWord (w : FlashWord) (v : Word) : FlashWord := ⟨w.normal &&& v, w.pv &&& v, w.ev &&& v⟩

/-- A word whose programming was cut short: the bits to be programmed have come as far as `c` says, where one that reads 0 at a level
reads 0 at every stricter one too. -/
def cutWord (w : FlashWord) (v : Word) (c : FlashWord) : FlashWord :=
  let n := v ||| c.normal
  ⟨w.normal &&& n, w.pv &&& (n ||| c.pv), w.ev &&& n &&& (v ||| c.ev)⟩

/-- COMMIT reads its value at NORMAL, and RETIRE does not read erased at EV (R299). -/
def Rec.committed (r : Rec) : Bool := r.commit.normal == commitWord
def Rec.retired (r : Rec) : Bool := r.retire.ev != 0xFFFFFFFF

/-! ## Which records exist (R299) -/

/-- The record's CMAC verifies under the keys in secure RAM (R299, R328, R341): KEY_INDEX under the Index Key, every other
record under the Record Key, or in TRANSITION the previous one. -/
def Sec.verifies (c : Sec) (r : Rec) : Bool :=
  r.area == .keyIndex || (c.keyed && match c.index with
    | some k => r.gen == k.recGen || (k.trans && r.gen + 1 == k.recGen)
    | none => false)

/-- A record exists (R299). -/
def Rec.is (r : Rec) (c : Sec) : Bool := r.committed && !r.retired && !r.bad && profileOk r.profile && c.verifies r

/-- A header as the boot logic of an unkeyed device takes it: without its CMAC (R313). -/
def Rec.isUnkeyed (r : Rec) : Bool := r.committed && !r.retired && !r.bad && profileOk r.profile

/-- The record with the highest SEQ. -/
def highest : List Rec → Option Rec
  | [] => none
  | r :: t => match highest t with
    | some b => if b.seq < r.seq then some r else some b
    | none => some r

/-- The current record of an area. -/
def NonVol.current (v : NonVol) (c : Sec) (a : Area) : Option Rec :=
  highest (v.recs.filter (fun r => r.area == a && (r.is c || (!c.keyed && (a == .slotA || a == .slotB) && r.isUnkeyed))))

/-- The current record of an area of the block. -/
def State.current (s : State) (a : Area) : Option Rec := s.nv.current s.dev.h.sec a

/-! ## Sectors -/

/-- A sector's key. -/
def sectorKey (a : Area) (k : Nat) : Nat := a.code * 1024 + k

/-- A record lies in a sector of its area. -/
def Rec.covers (r : Rec) (a : Area) (k : Nat) : Bool := r.area == a && r.sector ≤ k && decide (k < r.sector + r.len)

/-- The sectors that LEN bytes of body need (R297): LEN + 52 bytes in sectors of 4 KiB. -/
def sectorsFor (len : Nat) : Nat := (len + 52 + 4095) / 4096

/-- The first sector for a record of `n` sectors (R300): in ring order after the current record's last sector, none of them
holding the current record or crossing the end of the area. -/
def NonVol.place (v : NonVol) (c : Sec) (a : Area) (n : Nat) : Nat :=
  let cur := v.current c a
  let total := a.sectors
  let from_ := match cur with | some r => r.sector + r.len | none => 0
  let free := fun k => decide (k + n ≤ total) &&
    (List.range n).all (fun j => match cur with | some r => !r.covers a (k + j) | none => true)
  (((List.range total).map (fun j => (from_ + j) % total)).find? free).getD 0

/-- A sorted set of keys with one put in or taken out. -/
def keyIn : List Nat → Nat → List Nat
  | [], k => [k]
  | j :: t, k => if k = j then j :: t else if k < j then k :: j :: t else j :: keyIn t k

/-- An erase cycle of a sector, whether it verifies or not; the count saturates at 131 071 (Table NVS-7). -/
def NonVol.wears (v : NonVol) (k : Nat) : NonVol := { v with wear := v.wear.upd (fun _ => 0) k (fun n => min (n + 1) 131071) }

/-- A sector is fully erased at EV. -/
def NonVol.worn (v : NonVol) (k : Nat) : NonVol := { v.wears k with dirty := v.dirty.filter (fun j => j != k) }

/-- The key of a sector of an image region. -/
def imageKey (slot : Bool) (sector : Nat) : Nat := (if slot then 7 else 6) * 1024 + sector

/-- The pages of a record: LEN + 52 bytes (R297). -/
def Rec.pages (r : Rec) : Nat := (8 * r.body.length + 52 + 255) / 256

/-- A page of words programmed over what a sector holds: only 1 to 0 (R295). -/
def programPage (sector : List Word) (page : Nat) (data : List Word) : List Word :=
  let k := 64 * (page % 16)
  sector.take k ++ List.zipWith (· &&& ·) ((sector.drop k).take 64) data ++ sector.drop (k + 64)

/-- The COMMIT or the RETIRE word of a record, changed. -/
def NonVol.onRec (v : NonVol) (a : Area) (q : Nat) (g : Rec → Rec) : NonVol :=
  { v with recs := v.recs.map (fun r => if r.area == a && r.seq == q then g r else r) }

/-- What a flash operation that verifies does (R295, R298, R300). -/
def NonVol.apply (v : NonVol) : FlashStep → NonVol
  | .retire a q => v.onRec a q (fun r => { r with retire := programWord r.retire 0 })
  | .erase a k => ({ v with recs := v.recs.filter (fun r => !r.covers a k) }).worn (sectorKey a k)
  | .page r k => { v with
      recs := if k = 0 then v.recs ++ [r] else v.recs
      dirty := keyIn v.dirty (sectorKey r.area (r.sector + k / 16)) }
  | .commit a q => v.onRec a q (fun r => if r.retired then r else { r with commit := programWord r.commit commitWord })
  | .eraseImage slot k => { v.worn (imageKey slot k) with
      img := v.img.set (fun _ => []) (imageKey slot k) (List.replicate 1024 0xFFFFFFFF) }
  | .pageImage slot p data => { v with
      img := v.img.upd (fun _ => []) (imageKey slot (p / 16)) (fun l => programPage l p data) }

/-- A flash operation whose verify fails: an erase has worn its sector, which stays not fully erased. -/
def NonVol.fails (v : NonVol) : FlashStep → NonVol
  | .erase a k => v.wears (sectorKey a k)
  | .eraseImage slot k => v.wears (imageKey slot k)
  | _ => v

/-- A flash operation that a reset of the H-side has cut short, as the next boot finds it: a word has come as far as `w` says, a
sector is not fully erased at EV and its records are damaged, a page leaves its sector not erased, an image sector holds no known
words. -/
def NonVol.cutShort (v : NonVol) (w : FlashWord) : FlashStep → NonVol
  | .retire a q => v.onRec a q (fun r => { r with retire := cutWord r.retire 0 w })
  | .commit a q => v.onRec a q (fun r => { r with commit := cutWord r.commit commitWord w })
  | .erase a k => { v with
      recs := v.recs.map (fun r => if r.covers a k then { r with bad := true } else r)
      dirty := keyIn v.dirty (sectorKey a k) }
  | .page r k => v.apply (.page r k)
  | .eraseImage slot k => { v with img := v.img.del (imageKey slot k) }
  | .pageImage slot p _ => { v with img := v.img.del (imageKey slot (p / 16)) }

/-- The operations that put a record with the next SEQ in its place (R298, R300): every destination sector that does not read fully
erased at EV has its records retired and is erased; then the record's pages, and COMMIT. -/
def NonVol.plan (v : NonVol) (c : Sec) (r : Rec) : Rec × List FlashStep :=
  let a := r.area
  let k := v.place c a r.len
  let q := match v.current c a with | some x => x.seq + 1 | none => 1
  let secs := ((List.range r.len).map (k + ·)).filter (fun j => v.dirty.contains (sectorKey a j))
  let old := v.recs.filter (fun x => !x.retired && secs.any (fun j => x.covers a j))
  let r1 := { r with sector := k, seq := q, commit := erasedWord, retire := erasedWord, bad := false }
  (r1, old.map (fun x => FlashStep.retire a x.seq) ++ secs.map (FlashStep.erase a)
    ++ (List.range r1.pages).map (FlashStep.page r1) ++ [.commit a q])

/-- The operations that put an image chunk in its place (R318): its four sectors are erased, and its 64 pages programmed. -/
def chunkPlan (slot : Bool) (k : Nat) (w : List Word) : List FlashStep :=
  (List.range 4).map (fun q => FlashStep.eraseImage slot (4 * (k - 1) + q))
    ++ (List.range 64).map (fun p => FlashStep.pageImage slot (64 * (k - 1) + p) ((w.drop (64 * p)).take 64))

/-- After a CAL_WRITE's commit: every older CALIBRATION record is retired and erased (R307). -/
def NonVol.dropOldCal (v : NonVol) (q : Nat) : List FlashStep :=
  let old := v.recs.filter (fun r => r.area == .calibration && r.seq != q)
  (old.filter (fun r => !r.retired)).map (fun r => FlashStep.retire .calibration r.seq)
    ++ old.flatMap (fun r => (List.range r.len).map (fun j => FlashStep.erase .calibration (r.sector + j)))

/-- What a Record Key rekey still has to do (R341): copy the current records made under the old key, retire the snapshots,
write KEY_INDEX STABLE. -/
def NonVol.rekeyNext (v : NonVol) (c : Sec) (profile : Nat) : List FlashStep :=
  match c.index with
  | none => []
  | some k =>
    if !k.trans then []
    else
      let old := [Area.settings, .calibration, .slotA, .slotB].filterMap (fun a => match v.current c a with
        | some r => if r.gen = k.recGen then none else some r
        | none => none)
      match old with
      | r :: _ =>
        let fails := (r.tally.reverse.takeWhile (fun b => !b)).length
        (v.plan c { r with gen := k.recGen, tally := List.replicate fails false }).2 ++ [.retire r.area r.seq]
      | [] =>
        let snaps := v.recs.filter (fun r => r.area == .snapshot && !r.retired)
        if !snaps.isEmpty then snaps.map (fun r => FlashStep.retire .snapshot r.seq)
        else (v.plan c ⟨.keyIndex, 0, 1, 0, profile, 0, 0, [], some { k with trans := false }, 0, erasedWord, erasedWord, false, []⟩).2

/-- The contents of the KEY_INDEX record that a committed write makes current. -/
def NonVol.indexOf (v : NonVol) (q : Nat) : Option KeyIndex :=
  (v.recs.find? (fun r => r.area == .keyIndex && r.seq == q)).bind (·.index)

/-! ## The storage queue (R308) -/

/-- A flash program or erase is refused (Table NVS-5, cause 8). -/
def Dev.flashBad (d : Dev) : Bool := decide (1 ≤ d.inForce Sn.SYS_VFLASH) || decide (1 ≤ d.inForce Sn.NVS_PROG_FAIL)

/-- A record write joins the queue. -/
def Dev.queueJob (d : Dev) (j : Job) : Dev := { d with h.jobs := d.h.jobs ++ [j] }

/-- NVS_LAST takes a write's type and cause. -/
def Dev.nvsLast (d : Dev) (typ cause : Nat) : Dev := (d.setFld Fld.NVS_LAST_TYPE typ).setFld Fld.NVS_LAST_CAUSE cause

/-- A command ends REFUSED with a cause in RESULT[39:32]. -/
def Dev.refuseCmd (d : Dev) (tag cause : Nat) : Dev := d.finish tag stREFUSED (BitVec.ofNat 64 (cause * 2 ^ 32))

/-- A record write's command, if it has one, ends with a status. -/
def Dev.jobEnds (d : Dev) (j : Job) (status : Nat) (result : Quad) : Dev :=
  match j.tag with
  | some g => d.finish g status result
  | none => d

/-- The causes by which a write of each kind is refused: flash failure, and no key. -/
def JobKind.flashCause : JobKind → Nat
  | .settings | .calibration | .snapshot => 8
  | .install _ _ | .fallback | .romInstall _ | .chunk _ _ => 12
  | .enrol _ | .rekey _ => 13
def JobKind.keyCause : JobKind → Nat
  | .settings | .calibration | .snapshot => 5
  | _ => 9

/-- The record type of a write. -/
def JobKind.typ : JobKind → Nat
  | .settings => 1 | .calibration => 2 | .install _ _ => 3 | .fallback => 3 | .romInstall _ => 3 | .chunk _ _ => 0
  | .snapshot => 4 | .enrol _ => 5 | .rekey _ => 5

/-- A firmware, storage, security or Mirror event reaches both functions on V3 (Table PCI-6, R326). Beside the events that R326 names
they are the end of a record write, a tamper event, a failed authentication, an ERASE or LOCK, the end of a fuse programming, and
the Mirror port's sessions, snapshots, roles and sources (DESIGN CHOICE: the spec lists none, log entry 91). -/
def Dev.v3 (d : Dev) : Dev := d.irqBoth 3

/-- A write that could not be made ends (R298): its command completes REFUSED, a chunk shows CHUNK_ERR. -/
def Dev.jobFails (d : Dev) (j : Job) (cause : Nat) : Dev :=
  let d1 := { d with h.job := none }
  let res := BitVec.ofNat 64 (cause * 2 ^ 32)
  let d2 := if j.kind.typ = 0 then d1
    else (d1.jobEnds j stREFUSED res).nvsLast j.kind.typ (if cause = j.kind.keyCause then 5 else 8)
  (match j.kind with
  | .chunk _ _ => ((d2.setFld Fld.FW_STATUS_BUSY 0).setFld Fld.FW_STATUS_CHUNK_ERR 1).setFld Fld.FW_STATUS_CAUSE cause
  | .romInstall _ => (d2.setFld Fld.FW_STATUS_CAUSE cause).setFld Fld.FW_STATUS_STAGE_OPEN 0
  | .install _ _ => d2.setFld Fld.FW_STATUS_STAGE_OPEN 0
  | .enrol _ | .rekey _ => d2.setFld Fld.SEC_STATUS_CAUSE cause
  | .fallback | .settings | .calibration | .snapshot => d2).v3

/-- A flash write has failed twice (R298): NVS_PROG_FAIL. -/
def Dev.progFail (d : Dev) : Dev := (d.setFld Fld.NVS_STATUS_PROG_FAIL 1).raiseBoth .h Sn.NVS_PROG_FAIL

/-- A sector has reached 80 000 erase cycles (R309). -/
def State.wearCheck (s : State) : State :=
  if s.nv.wear.any (fun p => decide (80000 ≤ p.2)) && !(s.dev.src .h Sn.NVS_WEAR).active
  then s.mapDev (·.raiseBoth .h Sn.NVS_WEAR) else s

/-- A record to be written as of now: an owner command's KEY_INDEX changes the contents that are current, and any other record is
authenticated under the current Record Key. -/
def Dev.asOfNow (d : Dev) (kind : JobKind) (r : Rec) : Rec :=
  match d.h.sec.index, r.index with
  | some k, some x => match kind with
    | .enrol _ => { r with index := some { k with owner := x.owner } }
    | .rekey _ => { r with index := some (if x.trans then { k with trans := true, recGen := k.recGen + 1 }
        else { k with mirGen := x.mirGen, kcv := x.kcv }) }
    | _ => r
  | some k, none => { r with gen := k.recGen }
  | none, _ => r

/-- RECORD_WRITE_START (R298, R300, R308): the next write in the queue starts once the previous one has ended; its SEQ, its
sectors and its flash operations are fixed. -/
def startJob (t : Nat) (s : State) : State :=
  let d := s.dev.at t
  match d.h.job, d.h.jobs with
  | none, j :: rest =>
    let d1 := { d with h.jobs := rest }
    if d.flashBad then { s with dev := d1.jobFails j j.kind.flashCause }
    else
      let j1 := match j.record with
        | some r =>
          let p := s.nv.plan d.h.sec (d.asOfNow j.kind r)
          let extra := if j.kind = .calibration then s.nv.dropOldCal p.1.seq else []
          { j with record := some p.1, steps := p.2 ++ extra }
        | none => j
      { s with dev := { d1 with h.job := some j1 } }
  | _, _ => { s with dev := d }

/-- The meaning of RECORD_WRITE_START. -/
def execRecordWriteStart (t : Nat) (s : State) : Out := .next (startJob t s)

/-! ## Command bodies -/

/-- The bytes of a body in quadwords, byte 0 in bits [7:0]. -/
def bytesOfQuads (l : List Quad) : List Nat := l.flatMap (fun q => (List.range 8).map (fun i => bitsOf q.toNat (8 * i) 8))

/-- The body fetched for an operation. -/
def Dev.body (d : Dev) (tag : Nat) : Option (List Quad) := Tab.get (fun _ => none) d.h.bodies tag

/-- The body of an operation is no longer held. -/
def Dev.dropBody (d : Dev) (tag : Nat) : Dev := { d with h.bodies := d.h.bodies.del tag }

/-- The manifest of the running slot, and its schema range (Table FW-1). -/
def slotOf (n : Nat) : Bool := n == 1
def State.running (s : State) : Option Rec := s.current (slotArea (slotOf (s.dev.fld Fld.FW_STATUS_RUN_SLOT)))
def wordAt (l : List Quad) (off : Nat) : Nat := bitsOf (l.getD (off / 8) 0).toNat (8 * (off % 8)) 32
def halfAt (l : List Quad) (off : Nat) : Nat := bitsOf (l.getD (off / 8) 0).toNat (8 * (off % 8)) 16

/-- A settings schema that a manifest reads (R323). -/
def schemaReadable (m : List Quad) (schema : Nat) : Bool := halfAt m 0x0C ≤ schema && schema ≤ halfAt m 0x0E

/-- The causes of Table NVS-5, in table order; 0 for none. -/
def State.bodyCause (s : State) (cal : Bool) (e : Desc) (body : List Quad) : Nat :=
  let d := s.dev
  let bytes := (bytesOfQuads body).take e.bodyLen
  if !profileOk e.bodyProfile then 1
  else if !cal && !(match s.running with | some r => schemaReadable r.body e.bodySchema | none => false) then 2
  else if e.bodyLen % 8 != 0 || (if cal then e.bodyLen != 304 else decide (16328 < e.bodyLen)) then 3
  else if (crc32c bytes).toNat != e.bodyCrc then 4
  else if !d.h.sec.keyed then 5
  else if cal && !d.flag Fld.CAL_CTRL_OVERWRITE_EN then 6
  else if cal && body.getD 36 0 != s.nv.serial then 7
  else if d.flashBad then 8
  else 0

/-- The generation under which a new record is authenticated. -/
def Dev.recGen (d : Dev) : Nat := match d.h.sec.index with | some k => k.recGen | none => 0

/-- SETTINGS_COMMIT or CAL_WRITE with its body at hand (R302, R303, R306). -/
def State.bodyCommand (s : State) (cal : Bool) (tag : Nat) (o : Op) (body : List Quad) : State :=
  let c := s.bodyCause cal o.desc body
  let d := s.dev.dropBody tag
  let d1 := if cal then d.setFld Fld.CAL_CTRL_OVERWRITE_EN 0 else d
  if c != 0 then { s with dev := (d1.refuseCmd tag c).nvsLast (if cal then 2 else 1) c }
  else
    let l := body.take (o.desc.bodyLen / 8)
    let r : Rec := ⟨if cal then .calibration else .settings, 0, sectorsFor o.desc.bodyLen, 0, o.desc.bodyProfile,
      if cal then 0 else o.desc.bodySchema, b2n cal, l, none, d.recGen, erasedWord, erasedWord, false, []⟩
    { s with dev := d1.queueJob ⟨if cal then .calibration else .settings, some tag, some r, [], [], 0, false⟩ }

/-- SETTINGS_COMMIT (R302, R303): checked, then queued as the new SETTINGS record. -/
def execSettingsCommit (tag : Nat) (t : Nat) (s : State) : Out :=
  let s := s.mapDev (·.at t)
  match s.dev.mgmtOp tag cmdSETTINGS_COMMIT, s.dev.body tag with
  | some o, some b => .next ((s.mapDev (·.taken tag)).bodyCommand false tag o b)
  | _, _ => .next s

/-- CAL_WRITE (R303, R306): permitted once by OVERWRITE_EN, then queued as the new CALIBRATION record of ORIGIN USER. -/
def execCalWrite (tag : Nat) (t : Nat) (s : State) : Out :=
  let s := s.mapDev (·.at t)
  match s.dev.mgmtOp tag cmdCAL_WRITE, s.dev.body tag with
  | some o, some b => .next ((s.mapDev (·.taken tag)).bodyCommand true tag o b)
  | _, _ => .next s

/-! ## Register writes (R310) -/

/-- The block ignores a write. -/
def Dev.nvsRej (d : Dev) : Dev := d.setFld Fld.NVS_STATUS_CFG_REJ 1

/-- A write to a storage or calibration register. -/
def Dev.nvsWrite (d : Dev) (fn : Func) (off : Nat) (data : Word) : Dev :=
  if fn then d.nvsRej
  else if off = Reg.NVS_STATUS ∨ off = Reg.CAL_CTRL then d.wrAccess off data
  else if off = Reg.NVS_CNT_SAT then
    let d1 := if bitOf data.toNat 2 then d.clearCnt Fld.NVS_ECC_CNT_COUNT ⟨Reg.NVS_CNT_SAT, 0, 1⟩ else d
    if bitOf data.toNat 3 then d1.clearCnt Fld.NVS_BAD_CNT_COUNT ⟨Reg.NVS_CNT_SAT, 1, 1⟩ else d1
  else d.nvsRej

/-- The highest erase count of the settings and calibration areas (Table NVS-9). -/
def NonVol.maxErase (v : NonVol) : Nat :=
  (v.wear.filter (fun p => decide (2 * 1024 ≤ p.1) && decide (p.1 < 4 * 1024))).foldl (fun m p => max m p.2) 0

end Sys2Proof.Machine
end

