-- ==== Sys2Proof/Machine/Firmware.lean ====
section
/-!
DEFINITION. Firmware slots (R311 to R327): the manifest and the causes of Table FW-2, staging, FW_INSTALL, FW_FALLBACK and ROM_INSTALL;
and how a write in the storage queue goes on as its flash operations complete (R298, R307, R341).
-/

namespace Sys2Proof.Machine

/-! ## The manifest (Table FW-1) -/

def mfVersion (m : List Quad) : Nat := wordAt m 0x04
def mfSvn (m : List Quad) : Nat := wordAt m 0x08
def mfProfiles (m : List Quad) : Nat := wordAt m 0x10
def mfHLen (m : List Quad) : Nat := wordAt m 0x14
def mfFLen (m : List Quad) : Nat := wordAt m 0x18
def mfFlags (m : List Quad) : Nat := wordAt m 0x1C
def mfActGen (m : List Quad) : Nat := (m.getD 66 0).toNat

/-- F_HASH: bytes 0x050 to 0x07F. -/
def mfFHash (m : List Quad) : List Quad := (m.drop 10).take 6

/-- Words in pairs as quadwords, and a quadword's words. -/
def quadsOfWords : List Word → List Quad
  | a :: b :: t => (b ++ a) :: quadsOfWords t
  | [a] => [(0 : Word) ++ a]
  | [] => []
def wordsOfQuads (l : List Quad) : List Word := l.flatMap (fun q => [q.extractLsb' 0 32, q.extractLsb' 32 32])

/-- The manifest that chunk 0 holds. -/
def manifestOf (chunk0 : List Word) : List Quad := quadsOfWords (chunk0.take 134)

/-- A manifest as staged is well formed, and its image lengths agree with the number of chunks (R312, Table FW-2, cause 4). -/
def manifestOk (m : List Quad) (n : Nat) : Bool :=
  let sum := mfHLen m + mfFLen m
  wordAt m 0 == 1 && bitOf (mfProfiles m) 1 && decide (mfFlags m < 2) && mfHLen m % 4096 == 0 && mfFLen m % 4096 == 0
    && decide (sum ≤ 1472 * 1024) && (sum + 16383) / 16384 == n && decide (1 ≤ n)
    && mfActGen m == 0
    && (mfFlags m == 1 || ((m.drop 41).take 25).all (· == 0))

/-- An owner key is enrolled (R313). -/
def Dev.owned (d : Dev) : Bool := match d.h.sec.index with | some k => k.owner != 0 | none => false

/-- Why a slot does not verify (R313; Table FW-2, causes 5 to 8); 0 if it does. -/
def State.slotCause (s : State) (m : List Quad) (c : SlotCheck) : Nat :=
  if !c.vendor then 5
  else if s.dev.owned && !(bitOf (mfFlags m) 0 && c.owner) then 6
  else if mfSvn m < s.nv.svnMin then 7
  else if !c.image || !bitOf (mfProfiles m) s.dev.profile then 8
  else 0

/-- A slot's header, and its ACT_GEN. -/
def State.header (s : State) (slot : Bool) : Option Rec := s.current (slotArea slot)
def State.actGen (s : State) (slot : Bool) : Nat := match s.header slot with | some r => mfActGen r.body | none => 0

/-- The running slot. -/
def Dev.runSlot (d : Dev) : Bool := slotOf (d.fld Fld.FW_STATUS_RUN_SLOT)

/-- A manifest with its ACT_GEN filled in (R312), as a slot's new header record. -/
def State.headerRec (s : State) (slot : Bool) (m : List Quad) (gen : Nat) : Rec :=
  ⟨slotArea slot, 0, 1, 0, s.dev.profile, 0, 0, m.take 66 ++ [BitVec.ofNat 64 gen], none, s.dev.recGen, erasedWord, erasedWord, false, []⟩

/-! ## Staging (R317, R318, R325, R327) -/

/-- A staging register may be written in the device state (R325), and the write of a function that may not, or comes in
another state, is ignored with CFG_REJ (R327); in BOOT it is only ignored (R372). -/
def Dev.stagingOpen (d : Dev) : Bool :=
  match d.h.dev with
  | .run | .safe | .settingsHold | .standby => true
  | .boot => d.flag Fld.FW_STATUS_RECOVERY
  | _ => false
def Dev.fwRej (d : Dev) : Dev := if d.h.dev = .boot && !d.stagingOpen then d else d.setFld Fld.FW_STATUS_CFG_REJ 1

/-- A chunk or an OPEN is refused (R317, R318). -/
def Dev.chunkErr (d : Dev) (cause : Nat) : Dev :=
  ((d.setFld Fld.FW_STATUS_CHUNK_ERR 1).setFld Fld.FW_STATUS_CAUSE cause).v3

/-- OPEN (R317): the target slot's header region is retired and erased, and the slot is empty. -/
def State.stageOpen (s : State) (data : Word) : State :=
  let d := s.dev
  let slot := bitOf data.toNat 2
  let rec_ := d.flag Fld.FW_STATUS_RECOVERY
  if d.flag Fld.FW_STATUS_STAGE_OPEN || (!rec_ && slot == d.runSlot) then { s with dev := d.chunkErr 1 }
  else if d.flashBad then { s with dev := d.chunkErr 12 }
  else
    let a := slotArea slot
    let v := { s.nv with recs := s.nv.recs.filter (fun r => r.area != a) }
    let v1 := ((List.range 16).filter (fun k => s.nv.dirty.contains (sectorKey a k))).foldl (fun v k => v.worn (sectorKey a k)) v
    let d1 := (d.setFld Fld.FW_STATUS_STAGE_OPEN 1).setFld Fld.FW_STATUS_STAGE_SLOT (b2n slot)
    ({ s with dev := { d1 with h.stg := ⟨none, []⟩ }, nv := v1 }).wearCheck

/-- CLOSE. -/
def Dev.stageClose (d : Dev) : Dev := { d.setFld Fld.FW_STATUS_STAGE_OPEN 0 with h.stg := ⟨none, []⟩ }

/-- FW_STAGE_OPEN (R317). -/
def execFwStageOpen (fn : Func) (data : Word) (t : Nat) (s : State) : Out :=
  .next ((s.mapDev (·.at t)).hostDo fn Reg.FW_STAGE_CTRL (fun s =>
    if fn || !s.dev.stagingOpen then s.mapDev (·.fwRej) else s.stageOpen data))

/-- FW_STAGE_CLOSE (R317). -/
def Dev.stageCloseCmd (d : Dev) (fn : Func) (t : Nat) : Dev :=
  (d.at t).hostDo fn Reg.FW_STAGE_CTRL (fun d => if fn || !d.stagingOpen then d.fwRej else d.stageClose)

/-- The meaning of FW_STAGE_CLOSE: a write with CLOSE 1. -/
def execFwStageClose (fn : Func) (_data : Word) (t : Nat) (s : State) : Out := s.onDev (fun d => d.stageCloseCmd fn t)

/-- A write to the staging window (R318): stored, or ignored with WIN_BUSY while BUSY is 1; Function B has no window (R74). -/
def Dev.winWrite (d : Dev) (fn : Func) (off : Nat) (data : Word) : Dev :=
  if fn || off < 0x8000 || decide (0xC000 ≤ off) || off % 4 != 0 then d
  else if !d.stagingOpen then d.fwRej
  else if d.flag Fld.FW_STATUS_BUSY then d.setFld Fld.FW_STATUS_WIN_BUSY 1
  else d.wr off data

/-- FW_STAGE_WIN_WRITE (R318). -/
def doFwStageWinWrite (fn : Func) (off : Nat) (data : Word) (d : Dev) : Dev := d.hostDo fn off (·.winWrite fn off data)

/-- The chunk in the window. -/
def Dev.window (d : Dev) : List Word := (List.range 4096).map (fun k => d.rd (Reg.FW_STAGE_WIN k))

/-- A write of FW_STAGE_CHUNK (R318): the chunk's CRC is checked; chunk 0 is kept, another chunk is programmed through the
storage queue. -/
def Dev.chunkWrite (d : Dev) (fn : Func) (data : Word) : Dev :=
  let k := bitsOf data.toNat 0 7
  if fn || !d.stagingOpen then d.fwRej
  else if d.flag Fld.FW_STATUS_BUSY then d.setFld Fld.FW_STATUS_WIN_BUSY 1
  else
    let d := d.setFld Fld.FW_STAGE_CHUNK_INDEX k
    let w := d.window
    if !d.flag Fld.FW_STATUS_STAGE_OPEN then d.chunkErr 2
    else if crc32c (bytesOfQuads (quadsOfWords w)) != d.rd Reg.FW_STAGE_CRC then d.chunkErr 3
    else if 92 < k then d.chunkErr 4
    else if k = 0 then
      (({ d with h.stg := { d.h.stg with chunk0 := some w } }).setFld Fld.FW_STATUS_CHUNK_OK 1).setFld Fld.FW_STATUS_CAUSE 0 |>.v3
    else if d.flashBad then d.chunkErr 12
    else
      let slot := d.flag Fld.FW_STATUS_STAGE_SLOT
      (d.setFld Fld.FW_STATUS_BUSY 1).queueJob
        ⟨.chunk slot k, none, none, [], chunkPlan slot k w, 0, false⟩

/-- FW_STAGE_CHUNK (R318). -/
def doFwStageChunk (fn : Func) (data : Word) (t : Nat) (d : Dev) : Dev :=
  (d.at t).hostDo fn Reg.FW_STAGE_CHUNK (·.chunkWrite fn data)

/-- CHUNK_COMPLETE (R318): the programming of a chunk has ended. -/
def doChunkComplete (t : Nat) (d : Dev) : Dev :=
  let d := d.at t
  match d.h.job with
  | some j =>
    match j.kind with
    | .chunk _ k =>
      if !j.steps.isEmpty then d
      else if j.abandoned then d.jobFails j 12
      else
        let d1 := { d with h.job := none, h.stg := { d.h.stg with staged := keyIn d.h.stg.staged k } }
        (((d1.setFld Fld.FW_STATUS_BUSY 0).setFld Fld.FW_STATUS_CHUNK_OK 1).setFld Fld.FW_STATUS_CAUSE 0).v3
    | _ => d
  | none => d

/-! ## Installation and fallback (R319, R321, R322) -/

/-- The causes of Table FW-2 for a staged image from cause 2 on, but for flash and SEC_LOCKED; 0 for none. -/
def State.stagedCause (s : State) (slot : Bool) (n : Nat) (c : SlotCheck) : Nat :=
  let d := s.dev
  match d.h.stg.chunk0 with
  | none => 2
  | some w =>
    let m := manifestOf w
    if !d.flag Fld.FW_STATUS_STAGE_OPEN || d.flag Fld.FW_STATUS_STAGE_SLOT != slot
        || !(List.range n).all (fun k => d.h.stg.staged.contains (k + 1)) then 2
    else if !manifestOk m n then 4
    else if s.slotCause m c != 0 then s.slotCause m c
    else if !d.h.sec.keyed then 9
    else 0

/-- The causes of Table FW-2 for FW_INSTALL, in table order. -/
def State.installCause (s : State) (e : Desc) (c : SlotCheck) : Nat :=
  let k := s.stagedCause e.slot e.nChunks c
  if e.slot == s.dev.runSlot then 1
  else if k != 0 then k
  else if 1 ≤ s.dev.inForce Sn.SEC_LOCKED then 10
  else if s.dev.flashBad then 12
  else 0

/-- The manifest staged. -/
def Dev.stagedManifest (d : Dev) : List Quad := match d.h.stg.chunk0 with | some w => manifestOf w | none => []

/-- FW_INSTALL (R319): checked, then the manifest is queued as the target slot's header. -/
def State.install (s : State) (tag : Nat) (e : Desc) (c : SlotCheck) : State :=
  let k := s.installCause e c
  if k != 0 then
    let d := s.dev.stageClose.refuseCmd tag k
    { s with dev := (if 4 ≤ k ∧ k ≤ 8 then d.raiseBoth .h Sn.FW_STAGE_BAD else d).v3 }
  else
    let r := s.headerRec e.slot s.dev.stagedManifest (s.actGen s.dev.runSlot + 1)
    s.mapDev (·.queueJob ⟨.install e.slot e.restart, some tag, some r, [], [], 0, false⟩)

/-- FW_INSTALL. -/
def execFwInstall (tag : Nat) (chk : SlotCheck) (t : Nat) (s : State) : Out :=
  let s := s.mapDev (·.at t)
  match s.dev.mgmtOp tag cmdFW_INSTALL with
  | some o => .next ((s.mapDev (·.taken tag)).install tag o.desc chk)
  | none => .next s

/-- The causes of Table FW-2 for FW_FALLBACK (R321). -/
def State.fallbackCause (s : State) (c : SlotCheck) : Nat :=
  let d := s.dev
  let other := !d.runSlot
  match s.header other with
  | none => if !d.h.sec.keyed then 9 else 11
  | some r =>
    let k := s.slotCause r.body c
    if k != 0 then k
    else if !d.h.sec.keyed then 9
    else if d.flag Fld.FW_STATUS_STAGE_OPEN && d.flag Fld.FW_STATUS_STAGE_SLOT == other then 11
    else if d.flashBad then 12
    else 0

/-- FW_FALLBACK (R321): the other slot is checked and its header rewritten with a higher ACT_GEN. -/
def execFwFallback (tag : Nat) (chk : SlotCheck) (t : Nat) (s : State) : Out :=
  let s := s.mapDev (·.at t)
  match s.dev.mgmtOp tag cmdFW_FALLBACK with
  | none => .next s
  | some _ =>
    let s := s.mapDev (·.taken tag)
    let k := s.fallbackCause chk
    let other := !s.dev.runSlot
    match s.header other with
    | some h =>
      if k != 0 then .next (s.mapDev (fun d => (d.refuseCmd tag k).v3))
      else
        let r := s.headerRec other h.body (s.actGen s.dev.runSlot + 1)
        .next (s.mapDev (·.queueJob ⟨.fallback, some tag, some r, [], [], 0, false⟩))
    | none => .next (s.mapDev (fun d => (d.refuseCmd tag k).v3))

/-- ROM_INSTALL (R322): in RECOVERY the staged image is checked and its header queued, with an ACT_GEN above the other
slot's. -/
def execRomInstall (fn : Func) (_data : Word) (chk : SlotCheck) (t : Nat) (s : State) : Out :=
  .next ((s.mapDev (·.at t)).hostDo fn Reg.FW_STAGE_CTRL (fun s =>
    let d := s.dev
    if fn || !d.flag Fld.FW_STATUS_RECOVERY || d.h.dev != .boot then s.mapDev (·.fwRej)
    else
      let slot := d.flag Fld.FW_STATUS_STAGE_SLOT
      let k := s.stagedCause slot (d.fld Fld.FW_STAGE_CHUNK_INDEX) chk
      let k := if k != 0 then k else if d.flashBad then 12 else 0
      if k != 0 then { s with dev := d.setFld Fld.FW_STATUS_CAUSE k }
      else
        let r := s.headerRec slot d.stagedManifest (s.actGen (!slot) + 1)
        s.mapDev (·.queueJob ⟨.romInstall slot, none, some r, [], [], 0, false⟩)))

/-! ## The end of a write (R298, R303, R307, R319, R321, R341) -/

/-- The SEQ of a write's record. -/
def Job.seq (j : Job) : Nat := match j.record with | some r => r.seq | none => 0

/-- A firmware restart is due (R320). -/
def Dev.restartDue (d : Dev) : Dev := { d with h.boot.restart := true }

/-- A write that has succeeded ends, and its command completes. -/
def Dev.jobDone (d : Dev) (j : Job) : Dev :=
  let d1 := { d with h.job := none }
  let d2 := if j.kind.typ = 0 then d1 else d1.nvsLast j.kind.typ 0
  match j.kind with
  | .settings | .calibration => (d2.jobEnds j stOK (BitVec.ofNat 64 j.seq)).v3
  | .install _ restart =>
    let v := match j.record with | some r => mfVersion r.body | none => 0
    let d3 := (d2.stageClose.jobEnds j stOK (BitVec.ofNat 64 v)).v3
    if restart then d3.restartDue else d3
  | .fallback => ((d2.jobEnds j stOK 0).v3).restartDue
  | .romInstall _ => (d2.stageClose.setFld Fld.FW_STATUS_CAUSE 0).v3.restartDue
  | .enrol other => (d2.jobEnds j stOK (BitVec.ofNat 64 (b2n other))).v3
  | .rekey sel =>
    let kcv := match d2.h.sec.index with | some k => k.kcv | none => 0
    (d2.jobEnds j stOK (BitVec.ofNat 64 (if bitOf sel 1 then kcv else 0))).v3
  | .snapshot | .chunk _ _ => d2.v3

/-- What a commit makes current at once: KEY_INDEX contents, and a calibration set that waits for the next boot (R306). -/
def State.committed (s : State) (j : Job) (a : Area) (q : Nat) : State :=
  if a = .keyIndex then { s with dev.h.sec.index := s.nv.indexOf q }
  else if j.kind = .calibration then s.mapDev (·.setFld Fld.CAL_ORIGIN_PENDING 1)
  else s

/-- A write has no operation left: it goes on (a rekey), fails, waits for CHUNK_COMPLETE, or is done. -/
def State.jobRunsOut (s : State) (j : Job) : State :=
  match j.kind with
  | .chunk _ _ => { s with dev.h.job := some j }
  | .rekey _ =>
    if j.abandoned then { s with dev := s.dev.jobFails j j.kind.flashCause }
    else match j.data, s.dev.h.sec.index with
      | [], _ => match s.nv.rekeyNext s.dev.h.sec s.dev.profile with
        | [] => { s with dev := s.dev.jobDone j }
        | l => { s with dev.h.job := some { j with steps := l } }
      | _ :: _, some k =>
        let r : Rec := ⟨.keyIndex, 0, 1, 0, s.dev.profile, 0, 0, [], some { k with trans := true, recGen := k.recGen + 1 }, 0,
          erasedWord, erasedWord, false, []⟩
        let p := s.nv.plan s.dev.h.sec r
        { s with dev.h.job := some { j with steps := p.2, data := [] } }
      | _ :: _, none => { s with dev := s.dev.jobFails j 9 }
  | _ => { s with dev := if j.abandoned then s.dev.jobFails j j.kind.flashCause else s.dev.jobDone j }

/-- One flash operation of the write in progress has completed (R298). -/
def State.flashDone (s : State) (ok : Bool) : State :=
  match s.dev.h.job with
  | none => s
  | some j =>
    match j.steps with
    | [] => s
    | st :: rest =>
      if ok then
        let s1 := ({ s with nv := s.nv.apply st }).wearCheck
        let s2 := match st with
          | .commit a q => if j.abandoned then s1 else s1.committed j a q
          | _ => s1
        let j1 := { j with steps := rest, tries := 0 }
        if rest.isEmpty then s2.jobRunsOut j1 else { s2 with dev.h.job := some j1 }
      else if j.tries = 0 then ({ s with nv := s.nv.fails st, dev.h.job := some { j with tries := 1 } }).wearCheck
      else
        let s1 := (({ s with nv := s.nv.fails st }).wearCheck).mapDev (·.progFail)
        match st, j.kind with
        | .commit a q, _ => { s1 with dev.h.job := some { j with steps := [.retire a q], tries := 0, abandoned := true } }
        | _, .chunk _ _ => { s1 with dev.h.job := some { j with steps := [], abandoned := true } }
        | _, _ => { s1 with dev := s1.dev.jobFails j j.kind.flashCause }

/-! ## Register writes (R327) -/

/-- A write to a firmware register. The ROM_INSTALL bit acts in its own step, which brings the result of the check. -/
def State.fwWrite (s : State) (fn : Func) (off : Nat) (data : Word) : State :=
  let d := s.dev
  if fn || !d.stagingOpen then s.mapDev (·.fwRej)
  else if off = Reg.FW_STATUS ∨ off = Reg.FW_STAGE_CRC then s.mapDev (·.wrAccess off data)
  else if off = Reg.FW_STAGE_CTRL then
    let s1 := if bitOf data.toNat 0 then s.stageOpen data else s
    if bitOf data.toNat 1 then s1.mapDev (·.stageClose) else s1
  else if off = Reg.FW_STAGE_CHUNK then s.mapDev (·.chunkWrite fn data)
  else s.mapDev (·.fwRej)

/-! ## The commands' meanings -/

/-- The meaning of the command: `doFwStageWinWrite` on the device. -/
def execFwStageWinWrite (fn : Func) (off : Nat) (data : Word) (s : State) : Out :=
  s.onDev (doFwStageWinWrite fn off data)

/-- The meaning of the command: `doFwStageChunk` on the device. -/
def execFwStageChunk (fn : Func) (data : Word) (t : Nat) (s : State) : Out :=
  s.onDev (doFwStageChunk fn data t)

/-- The meaning of the command: `doChunkComplete` on the device. -/
def execChunkComplete (t : Nat) (s : State) : Out :=
  s.onDev (doChunkComplete t)

end Sys2Proof.Machine
end

