-- ==== Sys2Proof/Machine/Mirror.lean ====
section
/-!
DEFINITION. The Mirror port (R347 to R366): sessions and frames, the snapshot stream and its commit, the standby's latch, and
takeover. Encryption and signatures are outside the model: whether a frame verifies is an operand, and a frame that is sent
shows its payload.
-/

namespace Sys2Proof.Machine

/-! ## Roles, registers and events -/

/-- Roles (Table MIR-1). -/
def roleACTIVE : Nat := 0
def roleSTANDBY : Nat := 1
def roleRELINQUISHED : Nat := 2

/-- This device's role and the partner's as last reported. -/
def Dev.role (d : Dev) : Nat := d.fld Fld.MIR_STATUS_ROLE_NOW
def Dev.partner (d : Dev) : Nat := d.fld Fld.MIR_STATUS_PARTNER_ROLE

/-- The last epoch committed or sent. -/
def Dev.epoch (d : Dev) : Nat := d.fld Fld.MIR_EPOCH_LO_EPOCH + 2 ^ 32 * d.fld Fld.MIR_EPOCH_HI_EPOCH
def Dev.setEpoch (d : Dev) (n : Nat) : Dev :=
  (d.wr Reg.MIR_EPOCH_LO (loWord n)).wr Reg.MIR_EPOCH_HI (hiWord n)

/-- The Mirror Key generation and check value in secure RAM; 0 for none (R328). -/
def Dev.mirGen (d : Dev) : Nat := match d.h.sec.index with | some k => k.mirGen | none => 0
def Dev.mirKcv (d : Dev) : Nat := match d.h.sec.index with | some k => k.kcv | none => 0

/-- The port forms sessions (R328, R350): enabled, keyed, a Mirror Key delivered, and past the settings step of the boot. -/
def Dev.mirOn (d : Dev) : Bool :=
  d.flag Fld.MIR_CFG_EN && d.h.sec.keyed && d.mirGen != 0 && d.h.dev != .off && d.h.dev != .boot

/-- A frame with the session's next counter (R349). -/
def Dev.mirSend (d : Dev) (kind seg : Nat) (body : List Quad) : Dev :=
  match d.h.mir.session with
  | some s => ({ d with h.mir.session := some { s with tx := s.tx + 1 } }).emit
      (.mirror kind d.role d.h.dev.code seg s.tx body)
  | none => d

/-- An authentication failure (R348, R349): MIR_AUTH_FAIL, counted. -/
def Dev.mirAuthFail (d : Dev) : Dev :=
  ((d.bump Fld.MIR_AUTH_CNT_COUNT ⟨Reg.MIR_CNT_SAT, 1, 1⟩).raiseBoth .h Sn.MIR_AUTH_FAIL).v3

/-- A snapshot is discarded (R353): MIR_SNAP_ABORT, counted. -/
def Dev.mirAbort (d : Dev) : Dev :=
  if d.h.mir.rx.isNone then d
  else
    ((({ d with h.mir.rx := none }).bump Fld.MIR_ABORT_CNT_COUNT ⟨Reg.MIR_CNT_SAT, 0, 1⟩).raiseBoth .h Sn.MIR_SNAP_ABORT).v3

/-- Dual activity begins or ends (R363, R364); a RELINQUISHED device keeps it until its next boot. -/
def Dev.dual (d : Dev) (on : Bool) : Dev :=
  if d.role = roleRELINQUISHED then d
  else if on then (if (d.src .h Sn.MIR_DUAL_ACTIVE).active then d else (d.raiseBoth .h Sn.MIR_DUAL_ACTIVE).v3)
  else d.condEnd .h Sn.MIR_DUAL_ACTIVE

/-- The device gives way (R363): RELINQUISHED, with MIR_DUAL_ACTIVE active. -/
def Dev.relinquish (d : Dev) : Dev :=
  if d.role = roleRELINQUISHED then d
  else
    let d1 := if (d.src .h Sn.MIR_DUAL_ACTIVE).active then d else d.raiseBoth .h Sn.MIR_DUAL_ACTIVE
    (d1.setFld Fld.MIR_STATUS_ROLE_NOW roleRELINQUISHED).v3

/-- The session ends. -/
def Dev.mirEnd (d : Dev) : Dev :=
  let d1 := ({ d with h.mir := { d.h.mir with session := none, hello := none } }).setFld Fld.MIR_STATUS_LINK_UP 0
  let d2 := (d1.mirAbort).dual false
  if d.h.mir.session.isSome then d2.v3 else d2

/-- The port is disabled, or its keys are gone (R335, R350): no session, and no link that could be down. -/
def Dev.mirOff (d : Dev) : Dev := (d.mirEnd).condEnd .h Sn.MIR_LINK_DOWN

/-! ## Sessions (R348 to R350, R364) -/

/-- MIR_SESSION_START (R348): both receivers have aligned; the device sends its HELLO. -/
def mirSessionStart (t : Nat) (s : State) : State :=
  let d := s.dev.at t
  if !d.mirOn || d.h.mir.session.isSome then { s with dev := d }
  else
    let (r0, d1) := d.draw
    let (r1, d2) := d1.draw
    { s with dev := ({ d2 with h.mir.hello := some r0 }).emit (.mirror 1 d.role d.h.dev.code 0 0
        [s.nv.serial, r0, r1, BitVec.ofNat 64 d.profile, BitVec.ofNat 64 d.mirKcv, BitVec.ofNat 64 d.epoch]) }

/-- The meaning of MIR_SESSION_START. -/
def execMirSessionStart (t : Nat) (s : State) : Out := .next (mirSessionStart t s)

/-- Two ACTIVE devices meet (R364): the lower epoch gives way, equal epochs halt both. -/
def Dev.mirMeet (d : Dev) (epoch : Nat) : Dev :=
  if d.role != roleACTIVE || d.partner != roleACTIVE then d
  else if d.epoch < epoch then d.relinquish
  else if d.epoch = epoch then d.dual true
  else d

/-- A HELLO is taken, or raises MIR_AUTH_FAIL (R348). -/
def Dev.helloIn (d : Dev) (serial : BitVec 64) (x : HelloFrame) : Dev :=
  if !d.mirOn || d.h.mir.hello.isNone || d.h.mir.session.isSome then d
  else if !x.auth || x.kcv != d.mirKcv || !profileOk x.profile then d.mirAuthFail
  else
    let d1 := { d with h.mir := { d.h.mir with
      session := some ⟨decide (serial.toNat < x.serial.toNat), 0, 0, x.epoch⟩, lastRx := d.now } }
    let d2 := ((d1.setFld Fld.MIR_STATUS_LINK_UP 1).setFld Fld.MIR_STATUS_PARTNER_ROLE x.role).setFld
      Fld.MIR_STATUS_PARTNER_STATE x.state
    let d3 := (d2.wr Reg.MIR_PARTNER_SN_LO (loWord x.serial.toNat)).wr Reg.MIR_PARTNER_SN_HI (hiWord x.serial.toNat)
    ((d3.condEnd .h Sn.MIR_LINK_DOWN).mirMeet x.epoch).v3

/-- HELLO (R348, R364). -/
def execHello (frame : HelloFrame) (t : Nat) (s : State) : Out := s.onDev (fun d => (d.at t).helloIn s.nv.serial frame)

/-- A frame of the session is accepted, or discarded with MIR_AUTH_FAIL (R349); the flag says which. Its header reports the
partner's role and state. -/
def Dev.mirAccept (d : Dev) (hd : FrameHead) : Bool × Dev :=
  match d.h.mir.session with
  | none => (false, d)
  | some s =>
    if !hd.auth || decide (hd.counter < s.rx) then
      (false, ({ d with h.mir.rx := d.h.mir.rx.map (fun r : MirRx => { r with spoilt := true }) }).mirAuthFail)
    else
      let d1 := { d with h.mir := { d.h.mir with session := some { s with rx := hd.counter + 1 }, lastRx := d.now } }
      (true, (d1.setFld Fld.MIR_STATUS_PARTNER_ROLE hd.role).setFld Fld.MIR_STATUS_PARTNER_STATE hd.state)

/-- MIR_STATUS_SEND (R350). -/
def doMirStatusSend (t : Nat) (d : Dev) : Dev :=
  let d := d.at t
  if d.h.mir.session.isNone then d
  else
    ({ d with h.mir.statusAt := d.now }).mirSend 2 0
      [BitVec.ofNat 64 (d.role + d.h.dev.code * 2 ^ 8 + b2n (d.safeAct false) * 2 ^ 16 + b2n (d.safeAct true) * 2 ^ 17
        + b2n d.haltAct * 2 ^ 18), BitVec.ofNat 64 d.epoch]

/-- STATUS (R350, R363, R364): the partner's report counts for dual activity outside the TAKE window, which the first report of
another role closes. -/
def doMirStatus (hd : FrameHead) (_epoch : Nat) (t : Nat) (d : Dev) : Dev :=
  let a := (d.at t).mirAccept hd
  let d := a.2
  if !a.1 || d.role != roleACTIVE then d
  else if hd.role != roleACTIVE then ({ d with h.mir.take := none }).dual false
  else if d.h.mir.take.isSome then d
  else d.dual true

/-- MIR_LINK_TIMEOUT (R350): no frame accepted for 1 ms, or alignment lost. A port that may form a session and has none reports
its link down once. -/
def doMirLinkTimeout (aligned : Bool) (t : Nat) (d : Dev) : Dev :=
  let d := d.at t
  if aligned && decide (d.now < d.h.mir.lastRx + msCycles) then d
  else if d.h.mir.session.isSome then (d.mirEnd).raiseBoth .h Sn.MIR_LINK_DOWN
  else if d.mirOn && !(d.src .h Sn.MIR_LINK_DOWN).active then d.raiseBoth .h Sn.MIR_LINK_DOWN
  else d

/-- TAKE (R363). -/
def doMirTake (hd : FrameHead) (t : Nat) (d : Dev) : Dev :=
  let a := (d.at t).mirAccept hd
  if a.1 then a.2.relinquish else a.2

/-- MIR_TAKE_WINDOW_END (R364): 1 ms after TAKE, a partner that still reports ACTIVE counts. -/
def doMirTakeWindowEnd (t : Nat) (d : Dev) : Dev :=
  let d := d.at t
  match d.h.mir.take with
  | some s =>
    if d.now < s + msCycles then d
    else
      let d1 := { d with h.mir.take := none }
      if d1.role = roleACTIVE ∧ d1.partner = roleACTIVE ∧ d1.h.mir.session.isSome then d1.dual true else d1
  | none => d

/-! ## The snapshot (R351, R352; Tables MIR-2 and MIR-3) -/

/-- A 48- or 64-bit value as two words, low word first. -/
def twoWords (n : Nat) : List Word := [loWord n, hiWord n]

/-- A slot entry: eight words. -/
def Dev.slotEntry (d : Dev) (n : Nat) : List Word :=
  let x := d.slot n
  let seed := if x.st = .free then 0 else (seedOf x.fn x.ring n).toNat
  let flags := x.st.code + x.qual * 4 + b2n x.repeats * 16 + b2n x.drop * 32 + b2n x.notify * 64
  twoWords (x.target + x.frac * 2 ^ 48 + flags * 2 ^ 56)
    ++ twoWords (x.lead + x.action * 2 ^ 24 + x.last * 2 ^ 28 + x.fired.headD 0 * 2 ^ 32)
    ++ twoWords x.value.bits.toNat ++ twoWords (x.operand.toNat + seed * 2 ^ 48)

/-- A timer entry: eight words. -/
def Dev.timerEntry (d : Dev) (k : Nat) : List Word :=
  let x := d.tm k
  let lf := if 4 ≤ k then b2n (bitOf (d.fld Fld.FT_FLAGS_LF_UNIT) (k - 4)) else 0
  let flags := b2n x.run + b2n (bitOf (d.fld Fld.FT_STATUS_WRAP) k) * 2 ^ 8 + lf * 2 ^ 16
    + b2n (bitOf (d.fld Fld.FT_LOCK_LOCK) k) * 2 ^ 24
  [d.rd (Reg.FT_CFG k)] ++ twoWords (d.tmCount k) ++ twoWords x.mark ++ [BitVec.ofNat 32 flags, 0, 0]

/-- The words of consecutive registers. -/
def Dev.regWords (d : Dev) (off n : Nat) : List Word := (List.range n).map (fun k => d.rd (off + 4 * k))

/-- The body of a snapshot (Table MIR-2). The prediction state, which a takeover discards, is three free values; the NCO's rate and
phase are given in 2^-31 counts (DESIGN CHOICE, log entry 73). -/
def Dev.snapBody (d : Dev) (serial epoch : Nat) (pred : List Quad) : List Word :=
  let c := d.f.car
  twoWords epoch ++ twoWords serial
    ++ d.regWords (Reg.PCI_OWN_CH 0) 3 ++ [d.rd Reg.PCI_OWN_PORT, d.rd Reg.PCI_OWN_FT, 0]
    ++ twoWords c.pos ++ [d.carRead false Reg.CAR_TURN, loWord c.index, loWord d.ncoRun, loWord d.ncoPhase]
    ++ (List.range 22).map (fun k => d.carRead false (Reg.CAR_CTRL + 4 * k)) ++ wordsOfQuads pred
    ++ d.regWords (Reg.CH_CFG 0) 48 ++ [d.rd Reg.CH_LOCK, d.rd Reg.CH_CHK_CFG] ++ d.regWords (Reg.CH_CHK_SETTLE 0) 2
    ++ wordsOfQuads [(Container.make d.f.ch.wordA false 0 routeRefresh).bits, (Container.make d.f.ch.wordB true 0 routeRefresh).bits]
    ++ [d.rd Reg.FSP_CTRL] ++ d.regWords (Reg.FSP_SEL_CFG 0) 16 ++ d.regWords (Reg.FSP_TGT_CFG 0) 16 ++ [0, 0, 0]
    ++ [d.rd Reg.TWP_CTRL, d.rd Reg.TWP_SCL_TIM, d.rd Reg.TWP_TGT_CFG, 0]
    ++ (List.range 8).flatMap d.timerEntry ++ List.replicate 52 0 ++ (List.range 256).flatMap d.slotEntry

/-- The CRC-32C of a body (R351). -/
def bodyCrc (w : List Word) : Word := crc32c (bytesOfQuads (quadsOfWords w))

/-- The words of segment `k`. -/
def segWords (w : List Word) (k : Nat) : List Word := (w.drop (256 * k)).take 256

/-- The epoch of the next snapshot (R352). -/
def Dev.nextEpoch (d : Dev) : Nat :=
  max d.epoch (match d.h.mir.session with | some s => s.floor | none => 0) + 1

/-- A capture: HEAD, nine SEG frames and COMMIT, 77.0 µs on the link. -/
def Dev.capture (d : Dev) (serial : Nat) : Dev :=
  let (p0, d1) := d.draw
  let (p1, d2) := d1.draw
  let (p2, d3) := d2.draw
  let e := d3.nextEpoch
  let w := d3.snapBody serial e [p0, p1, p2]
  let d4 := ({ d3 with h.mir := { d3.h.mir with capAt := d3.now, sendEnd := d3.now + 61600 } }).mirSend 3 0
    [BitVec.ofNat 64 e, BitVec.ofNat 64 (9 + 9216 * 2 ^ 16 + d3.profile * 2 ^ 32)]
  let d5 := (List.range 9).foldl (fun d k => d.mirSend 4 k (quadsOfWords (segWords w k))) d4
  (d5.mirSend 5 0 [BitVec.ofNat 64 e, BitVec.ofNat 64 ((bodyCrc w).toNat + 0xC3A55A3C * 2 ^ 32)]).setEpoch e

/-- A capture is due and may be taken (R351, Table MIR-6): a running ACTIVE device, the link up and not recovering, the partner
STANDBY, PERIOD since the last capture, and that one sent. -/
def Dev.captureDue (d : Dev) : Bool :=
  let running := match d.h.dev with | .run => true | .safe => true | .halt => true | _ => false
  running && d.h.mir.session.isSome && d.role == roleACTIVE && d.partner == roleSTANDBY
    && d.inForce Sn.MIR_LINK_DOWN == 0 && d.h.link.up
    && decide (d.h.mir.capAt + d.fld Fld.MIR_CFG_PERIOD * msCycles ≤ d.now) && decide (d.h.mir.sendEnd ≤ d.now)

/-- MIR_SNAPSHOT_CAPTURE (R351, R352). -/
def execMirSnapshotCapture (t : Nat) (s : State) : Out :=
  s.onDev (fun d =>
    let d := d.at t
    if d.captureDue then d.capture s.nv.serial.toNat else d)

/-! ## The standby (R353 to R356) -/

/-- A word of a snapshot body by its byte offset, and two as one number. -/
def snapAt (w : List Word) (off : Nat) : Word := w.getD (off / 4) 0
def snapNum (w : List Word) (off : Nat) : Nat := (snapAt w off).toNat + 2 ^ 32 * (snapAt w (off + 4)).toNat

/-- A CAR_ register as a snapshot holds it. -/
def snapCar (w : List Word) (reg : Nat) : Word := snapAt w (0x40 + (reg - Reg.CAR_CTRL))

/-- The standby's Carousel counts the source, modulus and loss policy of the committed snapshot (R354). -/
def Dev.standbyCar (d : Dev) (w : List Word) : Dev :=
  let put := fun (d : Dev) (r : Nat) => d.wrAccess r (snapCar w r)
  let d1 := put (put (put d Reg.CAR_MOD_LO) Reg.CAR_MOD_HI) Reg.CAR_LOSS
  let m := d1.fld Fld.CAR_MOD_LO_MODM1_LO + 2 ^ 32 * d1.fld Fld.CAR_MOD_HI_MODM1_HI + 1
  let d2 := if d1.carEn && d1.f.car.modulus != m
    then ({ d1 with f.car := { d1.f.car with modulus := m, pos := d1.f.car.pos % m } }).carNote false else d1
  let src := snapCar w Reg.CAR_SRC
  if src = d2.rd Reg.CAR_SRC then d2 else d2.carSelect src

/-- HEAD (R353, R355): a receive buffer begins; one of another epoch is discarded. -/
def doMirHead (hd : FrameHead) (epoch segs len profile : Nat) (t : Nat) (d : Dev) : Dev :=
  let a := (d.at t).mirAccept hd
  let d := a.2
  if !a.1 || d.role != roleSTANDBY then d
  else
    let other := match d.h.mir.rx with | some r => r.epoch != epoch | none => false
    let d1 := if other then d.mirAbort else d
    { d1 with h.mir.rx := some ⟨epoch, segs, len, profile, [], d1.now, d1.now, false, false⟩ }

/-- MIR_HEAD_LATCH (R355): the F-side latches its count, turn index and CORE timers at the forwarded HEAD. -/
def doMirHeadLatch (t : Nat) (d : Dev) : Dev :=
  let d := d.at t
  match d.h.mir.rx with
  | some r =>
    if r.latched || !d.h.link.up || d.role != roleSTANDBY then d
    else { d with
      f.headLatch := some ⟨d.f.car.moved, d.f.car.wraps, (List.range 8).map d.tmCount, d.f.car.lost⟩
      h.mir.rx := some { r with latched := true } }
  | none => d

/-- SEG (R353): a segment goes into the receive buffer. -/
def doMirSeg (hd : FrameHead) (idx : Nat) (body : List Word) (t : Nat) (d : Dev) : Dev :=
  let a := (d.at t).mirAccept hd
  let d := a.2
  match d.h.mir.rx with
  | some r =>
    if !a.1 || r.segs ≤ idx || body.length != 256 then d
    else { d with h.mir.rx := some { r with got := r.got.set (fun _ => []) idx body, lastAt := d.now } }
  | none => d

/-- The body that the segments make. -/
def MirRx.body (r : MirRx) : List Word :=
  ((List.range r.segs).flatMap (fun k => Tab.get (fun _ => []) r.got k)).take (r.len / 4)

/-- The conditions of R353 but for the epoch's order. -/
def MirRx.complete (r : MirRx) (epoch : Nat) (crc word : Word) : Bool :=
  !r.spoilt && word == 0xC3A55A3C && (List.range r.segs).all (fun k => (Tab.get (fun _ => []) r.got k).length == 256)
    && r.epoch == epoch && snapNum r.body 0 == epoch && bodyCrc r.body == crc

/-- A snapshot is committed (R353, R355): it replaces the last one in one cycle. -/
def Dev.snapCommit (d : Dev) (r : MirRx) : Dev :=
  let snap : Snap := ⟨r.body, r.profile, if r.latched then d.f.headLatch else none, r.heard, 0⟩
  let d1 := { d with h.mir := { d.h.mir with rx := none, snap := some snap, commitAt := d.now } }
  let d2 := ((d1.setFld Fld.MIR_STATUS_SNAP_VALID 1).setFld Fld.MIR_STATUS_STORED 0).setEpoch r.epoch
  ((d2.standbyCar r.body).condEnd .h Sn.MIR_SNAP_MISS).v3

/-- COMMIT (R353). -/
def doMirCommit (hd : FrameHead) (epoch : Nat) (crc word : Word) (t : Nat) (d : Dev) : Dev :=
  let a := (d.at t).mirAccept hd
  let d := a.2
  if d.role != roleSTANDBY then d
  else match d.h.mir.rx with
    | none => d
    | some r =>
      if !a.1 || !r.complete epoch crc word then d.mirAbort
      else if epoch ≤ d.epoch then (({ d with h.mir.rx := none }).raiseBoth .h Sn.MIR_EPOCH).v3
      else d.snapCommit r

/-- MIR_SNAP_TIMEOUT (R353): no SEG or COMMIT for 1 ms. -/
def doMirSnapTimeout (t : Nat) (d : Dev) : Dev :=
  let d := d.at t
  match d.h.mir.rx with
  | some r => if d.now < r.lastAt + msCycles then d else d.mirAbort
  | none => d

/-- MIR_SNAP_MISS (R355): nothing committed for 3 × PERIOD. -/
def doMirSnapMiss (t : Nat) (d : Dev) : Dev :=
  let d := d.at t
  if d.h.dev = .standby ∧ d.h.mir.commitAt + 3 * d.fld Fld.MIR_CFG_PERIOD * msCycles ≤ d.now
      ∧ !(d.src .h Sn.MIR_SNAP_MISS).active
  then (d.raiseBoth .h Sn.MIR_SNAP_MISS).v3 else d

/-- SNAPSHOT_STORE_TIMER (R356): the committed snapshot is queued as a SNAPSHOT record. -/
def doSnapshotStoreTimer (t : Nat) (d : Dev) : Dev :=
  let d := d.at t
  let n := d.fld Fld.MIR_CFG_STORE
  match d.h.mir.snap with
  | some s =>
    if d.h.dev != .standby || n = 0 || d.now < d.h.mir.storeAt + n * 60000 * msCycles then d
    else
      let r : Rec := ⟨.snapshot, 0, sectorsFor 9216, 0, s.profile, 0, 0, quadsOfWords s.words, none, d.recGen, erasedWord, erasedWord, false, []⟩
      ({ d with h.mir.storeAt := d.now }).queueJob ⟨.snapshot, none, some r, [], [], 0, false⟩
  | none => d

/-! ## Takeover (R357 to R362) -/

/-- The causes of Table MIR-4, in table order; 0 for none. -/
def Dev.takeoverCause (d : Dev) (e : Desc) : Nat :=
  if !d.h.sec.keyed then 1
  else match d.h.mir.snap with
    | none => 2
    | some s =>
      if d.flag Fld.MIR_STATUS_STORED && !e.forceStored then 3
      else if s.profile != d.profile then 4
      else if (s.words.drop 4).take 5 != d.regWords (Reg.PCI_OWN_CH 0) 3 ++ [d.rd Reg.PCI_OWN_PORT, d.rd Reg.PCI_OWN_FT] then 5
      else if d.h.mir.session.isSome && d.partner == roleACTIVE
          && (d.fld Fld.MIR_STATUS_PARTNER_STATE == 3 || d.fld Fld.MIR_STATUS_PARTNER_STATE == 4) && !e.force then 6
      else 0

/-- The channels in an output mode under a snapshot's CH_CFG. -/
def snapOutputs (w : List Word) : W48 :=
  (List.range 48).foldl (fun m n => if 2 ≤ cfgMode (snapAt w (0xB0 + 4 * n)) then m ||| chBit n else m) 0

/-- The sampled levels become the functions' output images (R358, step 1). -/
def Dev.takeoverSample (d : Dev) (w : List Word) : Dev :=
  let lv := d.levels &&& snapOutputs w
  let one := fun (d : Dev) (fn : Func) =>
    d.setImg fn { d.img fn with cur := Container.make (lv &&& d.mapMask fn) fn 0 routeRefresh }
  one (one d false) true

/-- MIR_TAKEOVER (R16, R357, R358). -/
def doMirTakeover (tag : Nat) (sda : SdaCheck) (t : Nat) (d : Dev) : Dev :=
  let d := d.at t
  match d.mgmtOp tag cmdMIR_TAKEOVER with
  | none => d
  | some o =>
    let d := d.taken tag
    if d.h.dev != .standby || d.haltAct || d.safeAct false || d.safeAct true || d.h.mir.takeover.isSome then
      d.finish tag stWRONG_STATE 0
    else
      let c := d.takeoverCause o.desc
      if c != 0 then (d.setFld Fld.MIR_STATUS_CAUSE c).refuseCmd tag c
      else match d.h.mir.snap with
        | some s => { d.takeoverSample s.words with h.mir.takeover := some ⟨tag, false, sda⟩ }
        | none => d

/-- The snapshot's channel configuration takes effect (R358). -/
def Dev.takeChannels (d : Dev) (w : List Word) : Dev :=
  let d1 := (List.range 48).foldl (fun d n =>
    let d1 := d.wrAccess (Reg.CH_CFG n) (snapAt w (0xB0 + 4 * n))
    { d1 with f.ch.cfg := d1.f.ch.cfg.set (fun _ => 0) n (d1.rd (Reg.CH_CFG n)) }) d
  let d2 := d1.wr Reg.CH_LOCK (d1.rd Reg.CH_LOCK ||| (snapAt w 0x170 &&& 0x3F))
  let d3 := ((d2.wrAccess Reg.CH_CHK_CFG (snapAt w 0x174)).wrAccess (Reg.CH_CHK_SETTLE 0) (snapAt w 0x178)).wrAccess
    (Reg.CH_CHK_SETTLE 1) (snapAt w 0x17C)
  ({ d3 with f.ch := { d3.f.ch with standby := false, waitA := false, waitB := false, wait87 := 0, held := 0 } }).pins

/-- The snapshot's Carousel configuration, position, turn counter and turn index (R359), and its NCO's rate and phase, which Table
MIR-2 names and R358 does not discard (DEDUCED, log entry 73). -/
def Dev.takeCarousel (d : Dev) (w : List Word) (latch : Option HeadLatch) : Dev :=
  let d := d.ncoSettle
  let c := d.f.car
  let cfg := [Reg.CAR_ACC_MAX, Reg.CAR_INT_RATE, Reg.CAR_LATE_WIN_LO, Reg.CAR_LATE_WIN_HI, Reg.CAR_LOAD_LO, Reg.CAR_LOAD_HI,
    Reg.CAR_ABS_CFG, Reg.CAR_SYNC_CFG, Reg.CAR_SLOT_SPLIT]
  let d1 := cfg.foldl (fun d r => d.wrAccess r (snapCar w r)) (d.standbyCar w)
  let ctrl := (snapCar w Reg.CAR_CTRL).toNat
  let d2 := (d1.setFld Fld.CAR_CTRL_EN (bitsOf ctrl 0 1)).setFld Fld.CAR_CTRL_LOCK (max (bitsOf ctrl 2 1) (d1.fld Fld.CAR_CTRL_LOCK))
  let m := d2.fld Fld.CAR_MOD_LO_MODM1_LO + 2 ^ 32 * d2.fld Fld.CAR_MOD_HI_MODM1_HI + 1
  let (moved, wraps) : Int × Int := match latch with
    | some l => if l.lost || c.lost then (0, 0) else (c.moved - l.moved, c.wraps - l.wraps)
    | none => (0, 0)
  let turnWord := (snapAt w 0x30).toNat
  let pos := ((snapNum w 0x28 : Int) + moved) % (m : Int)
  let idx := (((snapAt w 0x34).toNat : Int) + wraps) % (2 ^ 32 : Int)
  let d3 := { d2 with f.car := { d2.f.car with
    modulus := m, pos := pos.toNat, index := idx.toNat, turn := turnWord % 2 ^ 16, edges := [], slots := []
    rate := if isNco c.src && c.src != 0 then (snapAt w 0x38).toNat else c.rate
    acc := (snapAt w 0x3C).toNat % 2 ^ 31 } }
  let d4 := d3.wr Reg.CAR_TURN (BitVec.ofNat 32 turnWord &&& 0xFFFF0000)
  ((List.range (min wraps.natAbs 65536)).foldl (fun d _ => d.turnCount (decide (0 < wraps))) d4).carNote false

/-- The snapshot's FSP and two-wire configuration, as the settings record is applied at boot. Its lock bits are set besides those
that are set already: a LOCK clears only at an F-side reset (R204, R225). -/
def Dev.takePorts (d : Dev) (w : List Word) (sda : SdaCheck) : Dev :=
  let d1 := (List.range 16).foldl (fun d k =>
    (d.wrAccess (Reg.FSP_SEL_CFG 0 + 4 * k) (snapAt w (0x194 + 4 * k))).wrAccess (Reg.FSP_TGT_CFG 0 + 4 * k)
      (snapAt w (0x1D4 + 4 * k))) d
  let d2 := d1.wr Reg.FSP_CTRL ((snapAt w 0x190 &&& 0xF) ||| (d1.rd Reg.FSP_CTRL &&& 0x8))
  let d3 := ((d2.wr Reg.TWP_CTRL ((snapAt w 0x220 &&& 0x5F) ||| (d2.rd Reg.TWP_CTRL &&& 0x40))).wrAccess Reg.TWP_SCL_TIM (snapAt w 0x224)).wrAccess
    Reg.TWP_TGT_CFG (snapAt w 0x228)
  if d3.flag Fld.TWP_CTRL_EN then
    ({ d3 with f.twp := { d3.f.twp with busy := true, quietFrom := some d.now }, f.ch.standby := false }).sdaCheck sda false
  else d3

/-- The snapshot's timers (R360): a running CORE timer takes the units counted since the latch and 960, the midpoint of the
latch delay. -/
def Dev.takeTimers (d : Dev) (w : List Word) (latch : Option HeadLatch) : Dev :=
  (List.range 8).foldl (fun d k =>
    let o := 0x230 + 32 * k
    let cfg := snapAt w o
    let flags := (snapAt w (o + 20)).toNat
    let run := bitOf flags 0
    let since := match latch with
      | some l => if run && !bitOf cfg.toNat 0 then (d.tmCount k + 2 ^ 48 - l.cores.getD k 0) % 2 ^ 48 + 960 else 0
      | none => 0
    let bit := fun (d : Dev) (F : Fld) (b : Bool) => d.setFld F (b2n b)
    let d1 := d.wrAccess (Reg.FT_CFG k) cfg
    let d2 := bit (bit (bit d1 ⟨Reg.FT_STATUS, Fld.FT_STATUS_WRAP.lo + k, 1⟩ (bitOf flags 8))
      ⟨Reg.FT_STATUS, Fld.FT_STATUS_VALID.lo + k, 1⟩ false) ⟨Reg.FT_STATUS, Fld.FT_STATUS_OVERRUN.lo + k, 1⟩ false
    let d3 := if 4 ≤ k then bit d2 ⟨Reg.FT_FLAGS, Fld.FT_FLAGS_LF_UNIT.lo + (k - 4), 1⟩ (bitOf flags 16) else d2
    let d4 := d3.wr Reg.FT_LOCK (d3.rd Reg.FT_LOCK ||| BitVec.ofNat 32 (b2n (bitOf flags 24) * 2 ^ k))
    (d4.setTm k { Timer.reset with
      base := (snapNum w (o + 4) + since) % 2 ^ 48, since := d.now, run := run, mark := snapNum w (o + 12) }).tmNote k) d

/-- A slot of a snapshot (Table MIR-3) at a turn index (R361): PENDING returns to ARMED, and a REPEAT slot in SPENT whose
recorded turn index differs is ARMED. It holds no tag. -/
def snapSlot (w : List Word) (n idx : Nat) : Slot :=
  let o := 0x400 + 32 * n
  let q0 := snapNum w o
  let q1 := snapNum w (o + 8)
  let q3 := snapNum w (o + 24)
  let st := bitsOf q0 56 2
  let repeats := bitOf q0 60
  let rec_ := bitsOf q1 32 32
  { st := if st = 0 then .free else if st = 3 ∧ rec_ = idx then .spent else if st = 3 ∧ !repeats then .spent else .armed
    last := bitsOf q1 28 3, fn := bitOf q3 63, ring := bitsOf q3 57 6, tag := none
    target := bitsOf q0 0 48, frac := bitsOf q0 48 8, qual := bitsOf q0 58 2, repeats := repeats, drop := bitOf q0 61
    notify := bitOf q0 62, lead := bitsOf q1 0 24, action := bitsOf q1 24 4
    value := Container.ofBits (BitVec.ofNat 64 (snapNum w (o + 16))), operand := BitVec.ofNat 48 q3
    fired := if st = 3 ∨ rec_ != 0 then [rec_] else [], placed := 0, abandoned := false }

/-- The slots of the snapshot (R361): each takes its state, and every ARMED one is evaluated as if armed now. -/
def Dev.takeSlots (d : Dev) (w : List Word) : Dev :=
  let idx := d.f.car.index
  let d1 := (List.range 256).foldl (fun d n =>
    let x := snapSlot w n idx
    d.setSlot n (if x.st = .free then { Slot.free with last := x.last } else x)) d
  d1.slotKeys.foldl (fun d n =>
    let x := d.slot n
    if x.st = .armed ∧ d.targetLate x.qual x.target then d.slotFire n 4 else d) d1

/-- The takeover commit (R358): configuration, position, timers and slots in one cycle; RUN with role ACTIVE; TAKE with the
new epoch base; the command completes OK. R16 and R357 test for a SAFE or HALT reaction when the command is opened; for one that
begins between its acceptance and this commit the spec says nothing: the takeover is committed all the same, and the device goes to
SAFE or HALT in this cycle, which holds its channels (DESIGN CHOICE, log entry 90). -/
def Dev.takeoverCommit (d : Dev) (k : Takeover) : Dev :=
  match d.h.mir.snap with
  | none => d
  | some s =>
    let w := s.words
    let last := d.epoch
    let d1 := (((d.takeTimers w s.latch).takeCarousel w s.latch).takePorts w k.sda).takeChannels w
    let d2 := (d1.takeSlots w).lockCopy fLockBits
    let d3 := ({ d2 with h.dev := .run, h.mir := { d2.h.mir with takeover := none, rx := none } }).setFld
      Fld.MIR_STATUS_ROLE_NOW roleACTIVE
    let base := last + 2 ^ 32
    let d4 := if d3.h.mir.session.isSome
      then ({ d3 with h.mir.take := some d3.now }).mirSend 6 0 [BitVec.ofNat 64 base] else d3
    let d5 := (((d4.setEpoch base).idleReset).condEnd .h Sn.MIR_SNAP_MISS).raiseBoth .h Sn.MIR_TAKEOVER
    (d5.v3.finish k.tag stOK (BitVec.ofNat 64 (last % 2 ^ 32))).followReactions

/-! ## Registers (R366, Table MIR-7) -/

/-- The block ignores a write. -/
def Dev.mirRej (d : Dev) : Dev := d.setFld Fld.MIR_STATUS_CFG_REJ 1

/-- A write to a Mirror register. -/
def Dev.mirWrite (d : Dev) (fn : Func) (off : Nat) (data : Word) : Dev :=
  if fn then d.mirRej
  else if off = Reg.MIR_STATUS then d.wrAccess off data
  else if off = Reg.MIR_CNT_SAT then
    let d1 := if bitOf data.toNat 2 then d.clearCnt Fld.MIR_ABORT_CNT_COUNT ⟨Reg.MIR_CNT_SAT, 0, 1⟩ else d
    if bitOf data.toNat 3 then d1.clearCnt Fld.MIR_AUTH_CNT_COUNT ⟨Reg.MIR_CNT_SAT, 1, 1⟩ else d1
  else if off = Reg.MIR_CFG then
    let p := bitsOf data.toNat 2 7
    if d.flag Fld.MIR_CFG_LOCK || p = 0 || 100 < p || bitsOf data.toNat 9 8 = 1 then d.mirRej
    else
      let d1 := d.wrAccess off data
      if !d1.flag Fld.MIR_CFG_EN then d1.mirOff
      else if d.flag Fld.MIR_CFG_EN then d1
      else { d1 with h.mir.lastRx := d1.now }
  else d.mirRej

/-- A Mirror register as read (Table MIR-7). -/
def Dev.mirRead (d : Dev) (off : Nat) : Word :=
  match d.h.mir.snap with
  | some s =>
    if off = Reg.MIR_SNAP_AGE then BitVec.ofNat 32 (min (s.age + (d.now - s.heard) / usCycles) (2 ^ 32 - 1))
    else if off = Reg.MIR_SNAP_POS_LO then snapAt s.words 0x28
    else if off = Reg.MIR_SNAP_POS_HI then snapAt s.words 0x2C &&& 0xFFFF
    else if 0x1A40 ≤ off ∧ off < 0x1A50 then
      let q := snapNum s.words (if off < 0x1A48 then 0x180 else 0x188) / 2 ^ 16
      if off % 8 = 0 then loWord q else hiWord q
    else d.rd off
  | none => d.rd off

/-! ## The commands' meanings -/

/-- The meaning of the command: `doMirStatusSend` on the device. -/
def execMirStatusSend (t : Nat) (s : State) : Out :=
  s.onDev (doMirStatusSend t)

/-- The meaning of the command: `doMirStatus` on the device. -/
def execMirStatus (hd : FrameHead) (_epoch : Nat) (t : Nat) (s : State) : Out :=
  s.onDev (doMirStatus hd _epoch t)

/-- The meaning of the command: `doMirLinkTimeout` on the device. -/
def execMirLinkTimeout (aligned : Bool) (t : Nat) (s : State) : Out :=
  s.onDev (doMirLinkTimeout aligned t)

/-- The meaning of the command: `doMirTake` on the device. -/
def execMirTake (hd : FrameHead) (t : Nat) (s : State) : Out :=
  s.onDev (doMirTake hd t)

/-- The meaning of the command: `doMirTakeWindowEnd` on the device. -/
def execMirTakeWindowEnd (t : Nat) (s : State) : Out :=
  s.onDev (doMirTakeWindowEnd t)

/-- The meaning of the command: `doMirHead` on the device. -/
def execMirHead (hd : FrameHead) (epoch segs len profile : Nat) (t : Nat) (s : State) : Out :=
  s.onDev (doMirHead hd epoch segs len profile t)

/-- The meaning of the command: `doMirHeadLatch` on the device. -/
def execMirHeadLatch (t : Nat) (s : State) : Out :=
  s.onDev (doMirHeadLatch t)

/-- The meaning of the command: `doMirSeg` on the device. -/
def execMirSeg (hd : FrameHead) (idx : Nat) (body : List Word) (t : Nat) (s : State) : Out :=
  s.onDev (doMirSeg hd idx body t)

/-- The meaning of the command: `doMirCommit` on the device. -/
def execMirCommit (hd : FrameHead) (epoch : Nat) (crc word : Word) (t : Nat) (s : State) : Out :=
  s.onDev (doMirCommit hd epoch crc word t)

/-- The meaning of the command: `doMirSnapTimeout` on the device. -/
def execMirSnapTimeout (t : Nat) (s : State) : Out :=
  s.onDev (doMirSnapTimeout t)

/-- The meaning of the command: `doMirSnapMiss` on the device. -/
def execMirSnapMiss (t : Nat) (s : State) : Out :=
  s.onDev (doMirSnapMiss t)

/-- The meaning of the command: `doSnapshotStoreTimer` on the device. -/
def execSnapshotStoreTimer (t : Nat) (s : State) : Out :=
  s.onDev (doSnapshotStoreTimer t)

/-- The meaning of the command: `doMirTakeover` on the device. -/
def execMirTakeover (tag : Nat) (sda : SdaCheck) (t : Nat) (s : State) : Out :=
  s.onDev (doMirTakeover tag sda t)

end Sys2Proof.Machine
end

