-- ==== Sys2Proof/Machine/Keys.lean ====
section
/-!
DEFINITION. Keys, lifecycle and tamper (R328 to R346): tamper policies and ERASE, lifecycle and security-version fuses, OWNER_ENROL
and REKEY. The keys themselves are not held: no one can read them (R329), and whether a signature or an unwrap verifies is an
operand.
-/

namespace Sys2Proof.Machine

/-! ## Tamper (R333 to R337) -/

/-- The Safety Net index of a tamper source (Table SEC-4). -/
def tamperSn (k : Nat) : Nat := if k < 5 then Sn.SEC_TAMPER_MESH + k else Sn.PRZ_INTRUSION

/-- The default policies (Table SEC-4): 0 LOG, 1 LOCK, 2 ERASE. -/
def defaultPol (k : Nat) : Nat := [2, 0, 1, 0, 2, 0].getD k 0

/-- The policy of a source as set up. -/
def Dev.pol (d : Dev) (k : Nat) : Nat := d.fld (Fld.SEC_TAMPER_POL_POL k)

/-- LOCK (Table SEC-5): SEC_LOCKED is active until power-on reset, and both debug ports close. -/
def Dev.secLock (d : Dev) : Dev :=
  let d1 := { d with h.sec := { d.h.sec with locked := true } }
  (if (d1.src .h Sn.SEC_LOCKED).active then d1 else d1.raiseBoth .h Sn.SEC_LOCKED).debugFree

/-- A record write that has not committed: its commit is still to come, or it is a rekey under way. -/
def Job.open (j : Job) : Bool :=
  match j.kind with
  | .chunk _ _ => false
  | .rekey _ => true
  | _ => j.steps.any (fun st => match st with | .commit _ _ => true | _ => false)

/-- The record writes that have not committed are abandoned (R336): their commands complete REFUSED, no key. -/
def Dev.dropWrites (d : Dev) : Dev :=
  let d1 := match d.h.job with
    | some j => if j.open then d.jobFails j j.kind.keyCause else d
    | none => d
  let cur := d1.h.job
  let isChunk := fun j : Job => match j.kind with | .chunk _ _ => true | _ => false
  let d2 := (d1.h.jobs.filter (fun j => !isChunk j)).foldl (fun d j => d.jobFails j j.kind.keyCause) d1
  { d2 with h.job := cur, h.jobs := d1.h.jobs.filter isChunk }

/-- ERASE (R335): no keys in secure RAM and the secure fuses blocked until power-on reset, SEC_ERASED, no Mirror session, and a
firmware restart. -/
def Dev.erase (d : Dev) : Dev :=
  let d1 := { d with h.sec := { d.h.sec with keyed := false, index := none, blocked := true } }
  let d2 := if (d1.src .h Sn.SEC_ERASED).active then d1 else d1.raiseBoth .h Sn.SEC_ERASED
  ((d2.dropWrites).mirOff).restartDue

/-- Tamper sources fire on the dies (masks `h`, `f`), under policies: each is logged and raised, and the strongest policy governs
(R334, R336). -/
def Dev.tamperUnder (d : Dev) (pol : Nat → Nat) (h f : Nat) : Dev :=
  let on := fun k => bitOf h k || bitOf f k
  let codes := (List.range 6).filter on
  let seen := d.fld Fld.SEC_TAMPER_STATUS_SEEN
  let mask := codes.foldl (fun m k => m + 2 ^ k) 0
  match codes with
  | [] => d
  | first :: _ =>
    let d1 := (if seen = 0 then d.setFld Fld.SEC_TAMPER_STATUS_FIRST first else d).setFld Fld.SEC_TAMPER_STATUS_SEEN (seen ||| mask)
    let d2 := d1.bumpBy Fld.SEC_TAMPER_CNT_COUNT Fld.SEC_CNT_SAT_SAT codes.length
    let d3 := codes.foldl (fun d k =>
      let d1 := if bitOf h k then d.raiseBoth .h (tamperSn k) else d
      if bitOf f k then d1.raiseBoth .f (tamperSn k) else d1) d2
    let worst := codes.foldl (fun m k => max m (pol k)) 0
    let d4 := if 1 ≤ worst then d3.secLock else d3
    (if 2 ≤ worst then d4.erase else d4).v3

/-- Tamper sources fire under SEC_TAMPER_POL. -/
def Dev.tamper (d : Dev) (h f : Nat) : Dev := d.tamperUnder d.pol h f

/-- An unexpected cell at a die is also the tamper source INTRUSION (R44, Table SEC-4). -/
def Dev.intrusion (d : Dev) (x : Die) : Dev :=
  match x with
  | .h => d.tamper 0x20 0
  | .f => d.tamper 0 0x20

/-- TAMPER_FIRE (R333): the masks of sources that fire on each die (Table SEC-4; the mesh is the H-side's), and the detectors that fire
now. -/
def doTamperFire (h f now : Nat) (t : Nat) (d : Dev) : Dev :=
  let d := d.at t
  if d.h.dev = .off then d
  else (d.setFld Fld.SEC_TAMPER_STATUS_ACTIVE now).tamper h (if d.f.powered then f / 2 * 2 else 0)

/-! ## Fuses (R332, R344) -/

/-- The block ignores a write. -/
def Dev.secRej (d : Dev) : Dev := d.setFld Fld.SEC_STATUS_CFG_REJ 1

/-- The lifecycle that a first word of an advance names (R332). -/
def lcTarget (w : Word) : Option Lifecycle :=
  if w = 0x4C430002 then some .production else if w = 0x4C430003 then some .retired else none

/-- A write of SEC_LC_ADV: the first word is kept, and its complement starts the programming. -/
def State.lcAdv (s : State) (fn : Func) (data : Word) : State :=
  let d := s.dev
  let stateOk := match d.h.dev with | .run => true | .safe => true | .settingsHold => true | _ => false
  let first := fun o : Option Word => { d with h.sec := { d.h.sec with lcFirst := o } }
  if fn || !stateOk || 1 ≤ d.inForce Sn.SEC_LOCKED || s.nv.lifecycle = .manufacture || d.h.sec.lcProg.isSome then
    { s with dev := (first none).secRej }
  else match d.h.sec.lcFirst with
    | some w =>
      if data = ~~~w then { s with dev := { d with h.sec := { d.h.sec with lcFirst := none, lcProg := lcTarget w } } }
      else { s with dev := (first none).secRej }
    | none => match lcTarget data with
      | some l =>
        if s.nv.lifecycle.code < l.code && (d.h.sec.keyed || l == .retired) then { s with dev := first (some data) }
        else { s with dev := d.secRej }
      | none => { s with dev := d.secRej }

/-- SEC_LC_ADV (R332). -/
def execSecLcAdv (fn : Func) (data : Word) (t : Nat) (s : State) : Out := 
  .next ((s.mapDev (·.at t)).hostDo fn Reg.SEC_LC_ADV (·.lcAdv fn data))

/-- A write of SEC_SVN_ADV (R344). -/
def State.svnAdv (s : State) (fn : Func) (data : Word) : State :=
  let d := s.dev
  let n := bitsOf data.toNat 0 7
  let top := match s.running with | some r => mfSvn r.body | none => 0
  if fn || d.h.dev != .run || 1 ≤ d.inForce Sn.SEC_LOCKED || n ≤ s.nv.svnMin || 64 < n || top < n || d.h.sec.svnProg.isSome then
    { s with dev := d.secRej }
  else { s with dev := { d with h.sec := { d.h.sec with svnProg := some n } } }

/-- SEC_SVN_ADV (R344). -/
def execSecSvnAdv (fn : Func) (data : Word) (t : Nat) (s : State) : Out := 
  .next ((s.mapDev (·.at t)).hostDo fn Reg.SEC_SVN_ADV (·.svnAdv fn data))

/-- The device in a new lifecycle state (R332): PRODUCTION closes the debug ports and clears DBG_FREEZE; RETIRED acts as ERASE. -/
def Dev.lifecycleIs (d : Dev) (l : Lifecycle) : Dev :=
  match l with
  | .production => ((d.debugFree).wdSync 2).setFld (Fld.WD_CTRL_DBG_FREEZE 2) 0
  | .retired => (((d.debugFree).wdSync 2).setFld (Fld.WD_CTRL_DBG_FREEZE 2) 0).erase
  | _ => d

/-- FUSE_PROGRAM_COMPLETE (R332, R344): the rows of an advance, or the thermometer, have been programmed; `ok` says that they
verify. -/
def execFuseProgramComplete (lifecycle ok : Bool) (t : Nat) (s : State) : Out :=
  let d := s.dev.at t
  if lifecycle then
    match d.h.sec.lcProg with
    | some l =>
      let d1 := { d with h.sec := { d.h.sec with lcProg := none } }
      if ok ∧ s.nv.lifecycle.code < l.code
      then .next { s with dev := (d1.lifecycleIs l).v3, nv := { s.nv with lifecycle := l } }
      else .next { s with dev := d1.v3 }
    | none => .next { s with dev := d }
  else
    match d.h.sec.svnProg with
    | some n =>
      let d1 := { d with h.sec := { d.h.sec with svnProg := none } }
      .next { s with dev := d1.v3, nv := { s.nv with svnMin := if ok then max s.nv.svnMin n else s.nv.svnMin } }
    | none => .next { s with dev := d }

/-! ## Owner commands (R338 to R343) -/

/-- Quadwords of a body are zero. -/
def zeros (l : List Quad) (k n : Nat) : Bool := ((l.drop k).take n).all (· == 0)

/-- The nonce is replaced (R338). -/
def Dev.newNonce (d : Dev) : Dev :=
  let (q, d1) := d.draw
  (d1.wr Reg.SEC_NONCE_LO (q.extractLsb' 0 32)).wr Reg.SEC_NONCE_HI (q.extractLsb' 32 32)
def Dev.nonce (d : Dev) : Quad := d.rd Reg.SEC_NONCE_HI ++ d.rd Reg.SEC_NONCE_LO

/-- A slot verifies under a new owner (R313, R339); no owner drops the owner's check. -/
def State.verifiesUnder (s : State) (slot removed : Bool) (c : SlotCheck) : Bool :=
  match s.header slot with
  | some r => c.vendor && (removed || (bitOf (mfFlags r.body) 0 && c.owner)) && decide (s.nv.svnMin ≤ mfSvn r.body)
      && c.image && bitOf (mfProfiles r.body) s.dev.profile
  | none => false

/-- The device's state and lifecycle as the causes of Table SEC-9 use them: the first of a list that applies. -/
def firstCause (l : List (Nat × Bool)) : Nat := match l.find? (·.2) with | some p => p.1 | none => 0

/-- Whether an owner is enrolled for the checks of an owner command: a device without its KEY_INDEX knows none. -/
def State.causeTail (s : State) : List (Nat × Bool) :=
  [(9, !s.dev.h.sec.keyed), (10, decide (1 ≤ s.dev.inForce Sn.SEC_LOCKED))]

/-- The causes of Table SEC-9 for OWNER_ENROL, in table order; 0 for none (R339, R342). -/
def State.enrolCause (s : State) (e : Desc) (b : List Quad) (c : OwnerCheck) : Nat :=
  let d := s.dev
  let keyed := d.h.sec.keyed
  let removed := zeros b 3 13
  firstCause ([
    (1, e.ownerLen != 320 || b.getD 0 0 != 0x0000003000000001),
    (2, b.getD 1 0 != s.nv.serial),
    (3, b.getD 2 0 != d.nonce),
    (4, if removed then !zeros b 16 12 else !c.pop),
    (5, keyed && (if d.owned then !c.auth else !zeros b 28 12)),
    (7, d.flag Fld.SEC_CTRL_ENROL_LOCK),
    (8, keyed && !removed && !s.verifiesUnder d.runSlot false c.running)] ++ s.causeTail ++ [(13, d.flashBad)])

/-- The causes of Table SEC-9 for REKEY, in table order; 0 for none (R340, R342). -/
def State.rekeyCause (s : State) (e : Desc) (b : List Quad) (c : OwnerCheck) : Nat :=
  let d := s.dev
  let keyed := d.h.sec.keyed
  let sel := wordAt b 0x18
  let mir := bitOf sel 1
  firstCause ([
    (1, e.ownerLen != 272 || b.getD 0 0 != 0x0000003100000001 || decide (3 < sel) || (!mir && !zeros b 4 18)),
    (2, b.getD 1 0 != s.nv.serial),
    (3, b.getD 2 0 != d.nonce),
    (5, keyed && d.owned && !c.auth),
    (6, keyed && !d.owned && s.nv.lifecycle == .production)] ++ s.causeTail ++ [
    (11, mir && decide (wordAt b 0x1C ≤ d.mirGen)),
    (12, mir && !c.unwrap),
    (13, d.flashBad)])

/-- An owner command is refused (R342). -/
def Dev.ownerRefused (d : Dev) (tag k : Nat) : Dev :=
  let d1 := (d.setFld Fld.SEC_STATUS_CAUSE k).refuseCmd tag k
  if (2 ≤ k ∧ k ≤ 5) ∨ k = 12 then (d1.raiseBoth .h Sn.SEC_AUTH_FAIL).v3 else d1

/-- A KEY_INDEX record with new contents. -/
def Dev.indexRec (d : Dev) (k : KeyIndex) : Rec := ⟨.keyIndex, 0, 1, 0, d.profile, 0, 0, [], some k, 0, erasedWord, erasedWord, false, []⟩

/-- The states in which owner commands execute (R343). -/
def Dev.ownerState (d : Dev) : Bool :=
  match d.h.dev with
  | .run | .safe | .settingsHold | .standby => true
  | _ => false

/-- OWNER_ENROL with its body at hand (R338, R339, R342, R343). -/
def State.enrol (s : State) (tag : Nat) (o : Op) (b : List Quad) (c : OwnerCheck) : State :=
  let k := s.enrolCause o.desc b c
  let removed := zeros b 3 13
  let other := s.verifiesUnder (!s.dev.runSlot) removed c.other
  let d := (s.dev.dropBody tag).newNonce
  if !d.ownerState then { s with dev := d.finish tag stWRONG_STATE 0 }
  else if k != 0 then { s with dev := d.ownerRefused tag k }
  else match d.h.sec.index with
    | some x => { s with dev := d.queueJob ⟨.enrol other, some tag,
        some (d.indexRec { x with owner := if removed then 0 else c.hash }), [], [], 0, false⟩ }
    | none => { s with dev := d }

/-- OWNER_ENROL. -/
def execOwnerEnrol (tag : Nat) (chk : OwnerCheck) (t : Nat) (s : State) : Out :=
  let s := s.mapDev (·.at t)
  match s.dev.mgmtOp tag cmdOWNER_ENROL, s.dev.body tag with
  | some o, some b => .next ((s.mapDev (·.taken tag)).enrol tag o b chk)
  | _, _ => .next s

/-- REKEY with its body at hand (R338, R340 to R343): the Mirror Key first, then the Record Key. -/
def State.rekeyCmd (s : State) (tag : Nat) (o : Op) (b : List Quad) (c : OwnerCheck) : State :=
  let k := s.rekeyCause o.desc b c
  let sel := wordAt b 0x18
  let d := (s.dev.dropBody tag).newNonce
  if !d.ownerState || (d.h.dev = .standby && bitOf sel 0) then { s with dev := d.finish tag stWRONG_STATE 0 }
  else if k != 0 then { s with dev := d.ownerRefused tag k }
  else match d.h.sec.index with
    | some x =>
      if sel = 0 then { s with dev := d.finish tag stOK 0 }
      else
        let first := if bitOf sel 1 then { x with mirGen := wordAt b 0x1C, kcv := c.kcv % 2 ^ 24 }
          else { x with trans := true, recGen := x.recGen + 1 }
        { s with dev := d.queueJob ⟨.rekey sel, some tag, some (d.indexRec first),
          if sel = 3 then [1] else [], [], 0, false⟩ }
    | none => { s with dev := d }

/-- REKEY. -/
def execRekey (tag : Nat) (chk : OwnerCheck) (t : Nat) (s : State) : Out :=
  let s := s.mapDev (·.at t)
  match s.dev.mgmtOp tag cmdREKEY, s.dev.body tag with
  | some o, some b => .next ((s.mapDev (·.taken tag)).rekeyCmd tag o b chk)
  | _, _ => .next s

/-! ## Registers (R346, Table SEC-11) -/

/-- A write to a security register. -/
def State.secWrite (s : State) (fn : Func) (off : Nat) (data : Word) : State :=
  let d := s.dev
  let out := fun d : Dev => { s with dev := d }
  if off = Reg.SEC_LC_ADV then s.lcAdv fn data
  else if off = Reg.SEC_SVN_ADV then s.svnAdv fn data
  else if fn then out d.secRej
  else if off = Reg.SEC_STATUS ∨ off = Reg.SEC_TAMPER_STATUS then out (d.wrAccess off data)
  else if off = Reg.SEC_CTRL then out (d.wr off (d.rd off ||| (data &&& 3)))
  else if off = Reg.SEC_TAMPER_POL then
    if (List.range 6).any (fun k => bitsOf data.toNat (2 * k) 2 == 3) || (d.flag Fld.SEC_CTRL_POL_LOCK && changes (d.rd off) data 0xFFF)
    then out d.secRej else out (d.wrAccess off data)
  else if off = Reg.SEC_CNT_SAT then
    out (if bitOf data.toNat 1 then d.clearCnt Fld.SEC_TAMPER_CNT_COUNT Fld.SEC_CNT_SAT_SAT else d)
  else out d.secRej

/-- A security register as read (Table SEC-11). -/
def State.secRead (s : State) (off : Nat) : Word :=
  let d := s.dev
  let k := d.h.sec.index
  if off = Reg.SEC_STATUS then
    (d.rd off &&& 0xF10) ||| BitVec.ofNat 32 (b2n d.h.sec.keyed + b2n d.owned * 2 + b2n (decide (1 ≤ d.inForce Sn.SEC_LOCKED)) * 4
      + b2n (match k with | some x => x.trans | none => false) * 8)
  else if off = Reg.SEC_SVN then BitVec.ofNat 32 s.nv.svnMin
  else if off = Reg.SEC_MIR_GEN then BitVec.ofNat 32 d.mirGen
  else if off = Reg.SEC_MIR_KCV then BitVec.ofNat 32 d.mirKcv
  else if off = Reg.SEC_REC_GEN then BitVec.ofNat 32 d.recGen
  else if 0x1940 ≤ off ∧ off < 0x19A0 then s.nv.dikPub.getD ((off - 0x1940) / 4) 0
  else if 0x19A0 ≤ off ∧ off < 0x19D0 then
    match k with
    | some x => x.owner.extractLsb' (384 - 32 * ((off - 0x19A0) / 4 + 1)) 32
    | none => 0
  else d.rd off

/-! ## The commands' meanings -/

/-- The meaning of the command: `doTamperFire` on the device. -/
def execTamperFire (h f now : Nat) (t : Nat) (s : State) : Out :=
  s.onDev (doTamperFire h f now t)

end Sys2Proof.Machine
end

