-- ==== Sys2Proof/Machine/Ringmaster.lean ====
section
/-!
DEFINITION. The Ringmaster (R91 to R134), the output image stage (R138, R139) and the inbound check (R146): rings, sweeps, fetch
arbitration, admission, opening and closing operations, buffer reads, and the RM_ registers.
-/

namespace Sys2Proof.Machine

/-- A write that the Ringmaster ignores (R119). -/
def Dev.rmRej (d : Dev) : Dev := d.setFld Fld.RM_STATUS_CFG_REJ 1

/-! ## Gauge and watermark (R126, R127) -/

/-- The backlog gauge: (PI - CI) modulo 2^16. -/
def Dev.backlog (d : Dev) (n : Nat) : Nat := ((d.ring n).pi + 2 ^ 16 - (d.ring n).ci) % 2 ^ 16

/-- A gauge of `b` reaches a ring's watermark while it is armed (R127). -/
def Dev.wmReached (d : Dev) (n b : Nat) : Bool :=
  let wm := d.fld (Fld.RM_BACKLOG_WM n)
  (d.ring n).armed && wm != 0 && decide (wm ≤ b)

/-- What a gauge update does to the watermark (R127): when it is reached while armed, WM_HIT is set and it is disarmed; below half of
WM it is armed again. -/
def Dev.gaugeNote (d : Dev) (n : Nat) : Dev :=
  let r := d.ring n
  let wm := d.fld (Fld.RM_BACKLOG_WM n)
  if d.wmReached n (d.backlog n) then (d.setRing n { r with armed := false }).setFld (Fld.RM_BACKLOG_WM_HIT n) 1
  else if !r.armed && decide (d.backlog n < wm / 2) then d.setRing n { r with armed := true }
  else d

/-- The V0 message of a watermark that was reached goes to the ring's owner where the ring's IRQ_EN is 1 (R127). -/
def Dev.wmMessage (d : Dev) (n : Nat) (hit : Bool) : Dev :=
  if hit && d.flag (Fld.RM_RING_CFG_IRQ_EN n) then d.irq (d.ringOwner n) 0 else d

/-- A gauge update with its message (R127). -/
def Dev.gauge (d : Dev) (n : Nat) : Dev := (d.gaugeNote n).wmMessage n (d.wmReached n (d.backlog n))

/-! ## Enable, disable, stop (R92, R93, R115, R116) -/

/-- Stop causes (Table RM-13). -/
def stopHOST : Nat := 1
def stopFETCH_ERR : Nat := 2
def stopPI_INVALID : Nat := 3
def stopCPL_TIMEOUT : Nat := 4

/-- A ring stops (R115, R116): it fetches nothing further, what has not been opened completes ABORTED, and its ONCE arms complete
DISARMED. -/
def Dev.ringStop (d : Dev) (n cause : Nat) : Dev :=
  let d1 := d.setRing n { d.ring n with running := false, stop := cause, fetching := [] }
  (d1.opsList.foldl (fun d p =>
    if p.2.ring == n && p.2.stage == .admitted then d.complete p.1 p.2 stABORTED 0 else d) d1).slotsDisarm n

/-- The doorbell page of a function (R94). -/
def Dev.dbBase (d : Dev) (fn : Func) : Nat := d.addr (Reg.RM_DB_BASE_LO fn.idx) (Reg.RM_DB_BASE_HI fn.idx)

/-- An enable that R92 refuses. The RSV bits of a base read 0, so no base is misaligned. -/
def Dev.enableBad (d : Dev) (fn : Func) (n depth : Nat) : Bool :=
  decide (depth < 4) || decide (12 < depth) || d.dbBase fn == 0 || ((d.h.dev == .settingsHold || d.h.dev == .standby) && n != 0)

/-- An accepted enable (R93, R126, R131). -/
def Dev.ringStart (d : Dev) (n : Nat) : Dev :=
  let r := d.ring n
  (d.setRing n { Ring.idle with running := true, armed := r.armed, irqDue := r.irqDue }).gauge n

/-- A write of RM_RING_CFG[n] (R92, R93, R115, R119). -/
def Dev.ringCfgWrite (d : Dev) (fn : Func) (n : Nat) (data : Word) : Dev :=
  let en := bitOf data.toNat 0
  if d.ringOwner n != fn then d.rmRej
  else if d.ringEn n then
    let d1 := if changes (d.rd (Reg.RM_RING_CFG n)) data 0xFFFF001E then d.rmRej else d
    let d2 := d1.setFld (Fld.RM_RING_CFG_IRQ_EN n) (b2n (bitOf data.toNat 5))
    if en then d2 else (d2.setFld (Fld.RM_RING_CFG_EN n) 0).ringStop n stopHOST
  else if !en then d.wrAccess (Reg.RM_RING_CFG n) data
  else if d.enableBad fn n (bitsOf data.toNat 1 4) then d.rmRej
  else (d.wrAccess (Reg.RM_RING_CFG n) data).ringStart n

/-- RING_ENABLE (R92, R93): RM_RING_CFG[n] written with EN 1. -/
def doRingEnable (fn : Func) (n : Nat) (data : Word) (d : Dev) : Dev :=
  if n < 64 then d.hostDo fn (Reg.RM_RING_CFG n) (·.ringCfgWrite fn n (data ||| 1)) else d

/-- RING_DISABLE (R115): RM_RING_CFG[n] written with EN 0. -/
def doRingDisable (fn : Func) (n : Nat) (data : Word) (t : Nat) (d : Dev) : Dev :=
  if n < 64 then (d.at t).hostDo fn (Reg.RM_RING_CFG n) (·.ringCfgWrite fn n (data &&& ~~~1)) else d.at t

/-! ## Sweeps (R94 to R99) -/

/-- A function's enabled rings. -/
def Dev.enabledRings (d : Dev) (fn : Func) : List Nat :=
  (List.range 64).filter (fun n => d.ringOwner n == fn && d.ringEn n)

/-- Sweeps and fetches may be made for a function (R99, R277). -/
def Dev.fetchMay (d : Dev) (fn : Func) : Bool :=
  let p := d.pci fn
  p.bme && !p.d3 && d.h.restEntry.isNone
    && (match d.h.dev with | .run | .safe | .settingsHold | .standby => true | _ => false)

/-- A sweep is issued (R98): the span from the lowest to the highest enabled local ring, each end rounded outward to 32 bytes, in one
request up to 256 bytes, else in two split at page offset 0x100. -/
def Dev.sweepIssue (d : Dev) (fn : Func) : Dev :=
  let ls := (d.enabledRings fn).map d.ringLocal
  match ls.head?, ls.getLast? with
  | some a, some b =>
    let lo := a / 4 * 4
    let hi := b / 4 * 4 + 4
    let base := d.dbBase fn
    let s := d.sweep fn
    let d1 := d.setSweep fn { s with
      outstanding := true
      deferred := false
      base := lo
      last := if d.fld (Fld.RM_SWEEP_CFG_MODE fn.idx) = 1 then d.now else s.last }
    if hi - lo ≤ 32 then d1.hostRead fn (base + 8 * lo) (8 * (hi - lo))
    else (d1.hostRead fn (base + 8 * lo) (8 * (32 - lo))).hostRead fn (base + 0x100) (8 * (hi - 32))
  | _, _ => d

/-- A sweep trigger (R97): while a sweep of the function is outstanding it is deferred, and merges with a deferred one. -/
def Dev.sweepTrigger (d : Dev) (fn : Func) : Dev :=
  if !d.fetchMay fn || (d.enabledRings fn).isEmpty then d
  else
    let s := d.sweep fn
    if s.outstanding then d.setSweep fn { s with deferred := true } else d.sweepIssue fn

/-- SWEEP_TIMER (R97): the fixed period, or the backstop of phase mode, has passed. -/
def doSweepTimer (fn : Func) (t : Nat) (d : Dev) : Dev :=
  let d := d.at t
  let s := d.sweep fn
  if (d.enabledRings fn).isEmpty || decide (d.now < s.last + d.fld (Fld.RM_SWEEP_CFG_PERIOD fn.idx) * 400) then d
  else (d.setSweep fn { s with last := d.now }).sweepTrigger fn

/-- Phase points are suspended while the DEGRADE reaction of CAR_FWD_CHK is active (R97, R262). -/
def Dev.phaseFallback (d : Dev) : Bool := d.inForce Sn.CAR_FWD_CHK != 0

/-- A travel of `delta` counts from `old` reaches or passes a phase point of the function, coming from before it. -/
def Dev.phaseCrossed (d : Dev) (fn : Func) (old : Nat) (delta : Int) : Bool :=
  let m := d.f.car.modulus
  (List.range (d.fld (Fld.RM_SWEEP_CFG_NPOINTS fn.idx))).any (fun k =>
    let i := 16 * fn.idx + k
    let p := d.fld (Fld.RM_PHASE_LO_POS_LO i) + 2 ^ 32 * d.fld (Fld.RM_PHASE_HI_POS_HI i)
    decide (p < m) &&
      (if 0 < delta then decide (((p + m - old - 1) % m + 1 : Nat) ≤ delta)
       else decide (delta < 0) && decide (((old + m - p - 1) % m + 1 : Nat) ≤ -delta)))

/-- PHASE_POINT_TRIGGER (R97): an update has moved the position copy by `delta` counts. -/
def Dev.phaseUpdate (d : Dev) (old : Nat) (delta : Int) : Dev :=
  let one := fun (d : Dev) (fn : Func) =>
    if d.fld (Fld.RM_SWEEP_CFG_MODE fn.idx) = 1 && !d.phaseFallback && d.phaseCrossed fn old delta
    then d.sweepTrigger fn else d
  one (one d false) true

/-- A doorbell word of an enabled ring (R95, Table RM-1). A ring that the Ringmaster has stopped is enabled (R116): a stale or a bad
word of it is noted, but it takes no producer index, since it fetches nothing and its gauge stays (R116, R126), and it is not stopped
again (DEDUCED, log entry 87). -/
def Dev.doorbell (d : Dev) (n : Nat) (w : Quad) : Dev :=
  let r := d.ring n
  let fn := d.ringOwner n
  let pi := bitsOf w.toNat 0 16
  if bitsOf w.toNat 16 16 ≠ d.fld (Fld.RM_RING_CFG_GEN n) then
    let d1 := d.setFld (Fld.RM_RING_STATUS_DB_STALE n) 1
    if r.staleSeen then d1 else (d1.setRing n { r with staleSeen := true }).raiseFn .h Sn.RM_DB_STALE fn
  else if bitsOf w.toNat 32 32 ≠ 0 then d.setFld (Fld.RM_RING_STATUS_DB_BAD n) 1
  else if !r.running then d
  else if d.ringDepth n < (pi + 2 ^ 16 - r.ci) % 2 ^ 16 then (d.ringStop n stopPI_INVALID).raiseFn .h Sn.RM_PI_INVALID fn
  else (d.setRing n { r with pi := pi }).gauge n

/-- A bit of a function's AER Uncorrectable Error Status is set (R70; log entry 9). -/
def Dev.aer (d : Dev) (fn : Func) (bit : Nat) : Dev := d.wr (cfgKey fn 0x104) (d.rd (cfgKey fn 0x104) ||| BitVec.ofNat 32 (2 ^ bit))

/-- The endpoint discards a received packet whose ECRC does not hold: with ECRC checking enabled (R71). -/
def Dev.ecrcDrops (d : Dev) (fn : Func) (ecrc : Bool) : Bool := !ecrc && (d.pci fn).ecrcChk

/-- A packet is discarded for its ECRC, and the error reported in AER and to the Safety Net (R71, R90). -/
def Dev.ecrcError (d : Dev) (fn : Func) : Dev := (d.aer fn 19).raiseFn .h Sn.PCI_UNCORR_ERR fn

/-- A read request of the endpoint has timed out (R90, R102). -/
def Dev.cplTimeout (d : Dev) (fn : Func) : Dev := (d.aer fn 14).raiseFn .h Sn.PCI_CPL_TIMEOUT fn

/-- A read that a ring issued has timed out (R90, R102): the DEGRADE reaction of PCI_CPL_TIMEOUT, once it is in force, stops the
ring. The entries of a stop precede the messages (R125). -/
def Dev.timeoutStop (d : Dev) (fn : Func) (n : Nat) : Dev :=
  let e := d.cplTimeout fn
  if e.inForce Sn.PCI_CPL_TIMEOUT != 0 && (d.ring n).running then (d.ringStop n stopCPL_TIMEOUT).cplTimeout fn else e

/-- A sweep read has ended (R95, R98, R102): its words are taken by the enabled rings in the span, or READ_ERR is set; a deferred
trigger then sweeps again. A completion that the ECRC check discards leaves the read outstanding (R71). -/
def Dev.sweepEnd (d : Dev) (fn : Func) (r : ReadEnd) (words : List Quad) : Dev :=
  let s := d.sweep fn
  if !s.outstanding then d
  else if d.ecrcDrops fn (r != .ecrc) then d.ecrcError fn
  else
    let d1 := d.setSweep fn { s with outstanding := false, deferred := false }
    let d2 := match r with
      | .ok | .ecrc => (d.enabledRings fn).foldl (fun d n =>
          if s.base ≤ d.ringLocal n then
            match words[d.ringLocal n - s.base]? with
            | some w => d.doorbell n w
            | none => d
          else d) d1
      | .error => d1.setFld (Fld.RM_SWEEP_STATUS_READ_ERR fn.idx) 1
      | .timeout => (d1.setFld (Fld.RM_SWEEP_STATUS_READ_ERR fn.idx) 1).cplTimeout fn
    if s.deferred then d2.sweepTrigger fn else d2

/-- SWEEP_READ_COMPLETE. -/
def doSweepReadComplete (fn : Func) (r : ReadEnd) (words : List Quad) (t : Nat) (d : Dev) : Dev := (d.at t).sweepEnd fn r words

/-! ## Fetch arbitration (R102, R103, R120 to R124) -/

/-- The descriptors that a ring's outstanding reads will bring. -/
def Ring.asked (r : Ring) : Nat := (r.fetching.map (fun x => x.1)).foldl (· + ·) 0

/-- The ring's descriptors that are eligible and not asked for yet (R95, R102). -/
def Dev.eligible (d : Dev) (n : Nat) : Nat := d.backlog n - (d.ring n).asked

/-- The descriptors that outstanding reads will bring: of the rings with a property, under general tags or under tag 511. -/
def Dev.coming (d : Dev) (p : Nat → Bool) (reserve : Bool) : Nat :=
  (d.h.rings.flatMap (fun e => if p e.1 then (e.2.fetching.filter (fun x => x.2 == reserve)).map (fun x => x.1) else [])).foldl
    (· + ·) 0

/-- General tags under which the F-side still runs an operation of before an H-side reset (R376); they are not given out. -/
def Dev.orphans (d : Dev) : List Nat := (d.f.ops.map (·.1)).filter (fun k => k != 511 && (d.op k).isNone)

/-- General tags free, and a function's headroom below its ceiling (R103, R123). -/
def Dev.freeTags (d : Dev) : Nat :=
  511 - (d.opsList.filter (fun p => p.1 != 511)).length - d.orphans.length - d.coming (fun _ => true) false
def Dev.headroom (d : Dev) (fn : Func) : Nat :=
  let mine := fun n => d.ringOwner n == fn
  d.fld (Fld.RM_CEIL_CEIL fn.idx) - d.heldBy fn - d.coming mine false - d.coming mine true

/-- A function's rings that may be granted a fetch, in the order of R121: from the ring after the last grant. -/
def Dev.fetchRings (d : Dev) (fn : Func) : List Nat :=
  let l := (d.enabledRings fn).filter (fun n =>
    (d.ring n).running && decide (0 < d.eligible n))
  l.filter (fun n => decide ((d.sweep fn).lastRing < n)) ++ l.filter (fun n => decide (n ≤ (d.sweep fn).lastRing))

/-- A general tag is available to a function that has eligible work (R120, R123). -/
def Dev.tagMay (d : Dev) (fn : Func) : Bool :=
  !(d.fetchRings fn).isEmpty && decide (0 < d.headroom fn) && decide (0 < d.freeTags)

/-- Ring 0 of Function A has an eligible descriptor and no other tag is available to it, and tag 511 is free (R124). -/
def Dev.reserveMay (d : Dev) : Bool :=
  (d.fetchRings false).contains 0 && (d.op 511).isNone && (d.fop 511).isNone && d.coming (fun _ => true) true == 0
    && (d.freeTags == 0 || d.headroom false == 0)

/-- A read of the operation's buffer is outstanding: a command body, or transmit or reply containers. -/
def Dev.bufferDue (d : Dev) (tag : Nat) (o : Op) : Bool :=
  if o.desc.opcode = opMGMT then o.stage == .opened && o.desc.bodyBytes.isSome && (d.body tag).isNone
  else d.f.fsp.runs.any (fun r => r.tag == some tag && r.asked && r.staged.isNone)
    || d.f.fsp.tgts.any (fun x => x.tag == tag && x.staged.isNone)

/-- A function's reads outstanding: of descriptors, of its doorbell page and of buffers (R71; log entry 85). -/
def Dev.readsOut (d : Dev) (fn : Func) : Nat :=
  (d.h.rings.flatMap (fun e => if d.ringOwner e.1 == fn then e.2.fetching else [])).length + b2n (d.sweep fn).outstanding
    + (d.opsList.filter (fun p => p.2.fn == fn && d.bufferDue p.1 p.2)).length

/-- A further request fits beside those outstanding: 256 with 8-bit tags, 512 with 10-Bit Tag Requester Enable (R71). -/
def Dev.requestMay (d : Dev) (fn : Func) : Bool := decide (d.readsOut fn < if (d.pci fn).tag10 then 512 else 256)

/-- A function would be granted a fetch if it had a credit (R120, R124). -/
def Dev.fetchWants (d : Dev) (fn : Func) : Bool :=
  d.fetchMay fn && d.requestMay fn && (d.tagMay fn || (!fn && d.reserveMay))

/-- A new round (R120). -/
def Dev.newRound (d : Dev) : Dev :=
  let d1 := d.setSweep false { d.sweep false with credits := d.fld Fld.RM_FETCH_WEIGHT_W_A }
  let d2 := d1.setSweep true { d1.sweep true with credits := d.fld Fld.RM_FETCH_WEIGHT_W_B }
  { d2 with h.turn := false }

/-- A read of `c` descriptors of a ring, from the first that has not been asked for, upward from CI (R93, R102). -/
def Dev.fetchRead (d : Dev) (n c : Nat) (reserve : Bool) : Dev :=
  let r := d.ring n
  let base := d.addr (Reg.RM_RING_BASE_LO n) (Reg.RM_RING_BASE_HI n)
  (d.setRing n { r with fetching := r.fetching ++ [(c, reserve)] }).hostRead (d.ringOwner n)
    (base + 64 * ((r.ci + r.asked) % d.ringDepth n)) (64 * c)

/-- The number of descriptors that one grant to a ring covers (R121). -/
def Dev.grantSize (d : Dev) (fn : Func) (n : Nat) : Nat :=
  let depth := d.ringDepth n
  min 8 (min (min (d.eligible n) (depth - ((d.ring n).ci + (d.ring n).asked) % depth))
    (min (d.sweep fn).credits (min (d.headroom fn) d.freeTags)))

/-- One grant to a function (R121): one descriptor read of a ring, its credits, and the other function's turn. -/
def Dev.grantRead (d : Dev) (fn : Func) (n c : Nat) (reserve : Bool) : Dev :=
  let s := d.sweep fn
  let d1 := (d.fetchRead n c reserve).setSweep fn { s with credits := s.credits - c, lastRing := n }
  { d1 with h.turn := !fn }

/-- The grant that a function's turn brings: for the next ring in the order of R121, or, with no other tag, one descriptor of ring 0
with tag 511 (R124). -/
def Dev.grant (d : Dev) (fn : Func) : Dev :=
  if d.tagMay fn then
    match d.fetchRings fn with
    | [] => d
    | n :: _ => d.grantRead fn n (d.grantSize fn n) false
  else d.grantRead fn 0 1 true

/-- A V0 message is due (R114): it goes before descriptor reads (R125). -/
def Dev.v0Due (d : Dev) : Bool :=
  d.h.rings.any (fun p => match p.2.irqDue with | some e => decide (e + 160 ≤ d.now) | none => false)

/-- FETCH_GRANT (R120 to R125): the next grant of the round or of a new round. -/
def doFetchGrant (d : Dev) : Dev :=
  let can := fun (d : Dev) (fn : Func) => d.fetchWants fn && decide (0 < (d.sweep fn).credits)
  if d.v0Due then d
  else
    let d1 := if !can d false && !can d true && (d.fetchWants false || d.fetchWants true) then d.newRound else d
    let first := d1.h.turn
    if can d1 first then d1.grant first
    else if can d1 (!first) then d1.grant (!first)
    else d1

/-! ## Admission (R104 to R109, R131, R132) -/

/-- A resource of the descriptor is not owned by the function (R1, R30, R107, R108, R162, R163, R172, R229). The owner of an FSP
entry is known where the entry is held: the FSP and the Carousel find it (R176). -/
def Dev.notOwned (d : Dev) (fn : Func) (n : Nat) (e : Desc) : Bool :=
  let out := fun m : W48 => (m &&& ~~~d.mapMask fn) != 0
  let op := e.opcode
  if op = opMGMT then fn || n != 0
  else if op = opOUT_WRITE then out e.outMask
  else if op = opCH_SAMPLE ∨ op = opCH_CAPTURE then out e.chMask
  else if op = opSLOT_ARM then
    d.slotCode e.dest != codeOf fn || ((e.action == 1 || e.action == 3) && out e.operand1)
      || (e.action == 4 && (List.range 8).any (fun k => bitOf e.operand1.toNat k && d.tmCode k != codeOf fn))
  else if op = opSLOT_DISARM then d.slotCode e.dest != codeOf fn
  else if op = opTOD_LOAD then d.carCode != codeOf fn
  else if op = opFSP_ENTRY_LOAD then d.selCode (ecSel e.ectrl) != codeOf fn
  else if op = opFSP_TARGET then d.selCode (e.dest - 0x110) != codeOf fn
  else if op = opTWP_XFER then d.twpCtl != codeOf fn
  else if op = opTWP_TARGET then d.twpTgt != codeOf fn
  else if op = opFT_CAPTURE then d.tmCode (e.dest - 0x128) != codeOf fn
  else false

/-- A descriptor that the device state does not permit (R109, R117, R277). -/
def Dev.wrongState (d : Dev) (e : Desc) : Bool :=
  d.h.restEntry.isSome
    || (match d.h.dev with
      | .run | .safe | .settingsHold => false
      | .standby => e.opcode != opMGMT
      | _ => true)

/-- A resource that the Ringmaster knows to be occupied: an open CH_CAPTURE of the function (R163). -/
def Dev.occupied (d : Dev) (fn : Func) (e : Desc) : Bool :=
  e.opcode == opCH_CAPTURE
    && d.opsList.any (fun p => p.2.fn == fn && p.2.desc.opcode == opCH_CAPTURE && p.2.stage != .admitted)

/-- The status with which admission completes a descriptor; none admits it (R109). -/
def Dev.admission (d : Dev) (fn : Func) (n : Nat) (e : Desc) : Option Nat :=
  if (d.ring n).hist.contains e.seq then some stDUPLICATE
  else if e.bad then some stBAD_DESC
  else if d.notOwned fn n e then some stNOT_OWNER
  else if d.wrongState e then some stWRONG_STATE
  else if d.occupied fn e then some stBUSY
  else none

/-- The general tag that a fetched descriptor takes: the lowest free one. -/
def Dev.pickTag (d : Dev) : Nat :=
  let held := d.opsList.map (·.1) ++ d.orphans
  match (List.range 511).find? (fun k => !held.contains k) with
  | some k => k
  | none => 511

/-- The counter of a function's duplicates and its SAT. -/
def dupSat (fn : Func) : Fld := if fn then Fld.RM_PRESS_SAT_SAT_B else Fld.RM_PRESS_SAT_SAT_A

/-- A descriptor is received intact: it takes a tag, CI passes it, and it is admitted or completed (R102, R103, R109, R131,
R132). The message of a watermark follows the entries of the read (R125). -/
def Dev.takeDesc (d : Dev) (n : Nat) (reserve : Bool) (e : Desc) : Dev :=
  let fn := d.ringOwner n
  let tag := if reserve then 511 else d.pickTag
  let r := d.ring n
  let d1 := (d.setRing n { r with ci := (r.ci + 1) % 2 ^ 16 }).gaugeNote n
  let o : Op := ⟨fn, n, e.made fn n, .admitted, d.h.ord, false, false, false⟩
  let d2 := { d1.setOp tag (some o) with h.ord := d1.h.ord + 1 }
  match d.admission fn n e with
  | some st =>
    let d3 := if st = stDUPLICATE then d2.bump (Fld.RM_DUP_CNT_COUNT fn.idx) (dupSat fn) else d2
    d3.complete tag o st 0
  | none => d2.setRing n { d2.ring n with hist := (e.seq :: r.hist).take 512 }

/-- A descriptor read has ended, the oldest one of the ring (R102, R116, R118). Where a time-out stops no ring, its descriptors are
asked for again. -/
def Dev.fetchEnd (d : Dev) (n : Nat) (r : ReadEnd) (descs : List Desc) : Dev :=
  match (d.ring n).fetching with
  | [] => d
  | (c, reserve) :: more =>
    let fn := d.ringOwner n
    if d.ecrcDrops fn (r != .ecrc) then d.ecrcError fn
    else match r with
    | .ok | .ecrc =>
      let l := descs.take c
      let d1 := d.setRing n { d.ring n with fetching := more }
      if l.isEmpty then d1
      else (l.foldl (fun d e => d.takeDesc n reserve e) d1.idleReset).wmMessage n (d.wmReached n (d.backlog n - 1))
    | .error => (d.ringStop n stopFETCH_ERR).raiseFn .h Sn.RM_FETCH_ERR fn
    | .timeout => (d.setRing n { d.ring n with fetching := [] }).timeoutStop fn n

/-- DESCRIPTOR_READ_COMPLETE. -/
def doDescriptorReadComplete (n : Nat) (r : ReadEnd) (descs : List Desc) (t : Nat) (d : Dev) : Dev := (d.at t).fetchEnd n r descs

/-! ## Opening (R103, R113, R154) -/

/-- The order of R113 lets an admitted operation be opened: no earlier operation of its DEST waits to be opened, a FENCE waits for
every earlier operation of its ring, and nothing of the ring passes a FENCE that waits. -/
def Dev.openTurn (d : Dev) (o : Op) : Bool :=
  d.opsList.all (fun p =>
    let q := p.2
    !(decide (q.ord < o.ord)
      && ((q.stage == .admitted && q.desc.dest == o.desc.dest)
        || (q.ring == o.ring && (o.desc.fence || (q.stage == .admitted && q.desc.fence))))))

/-- The cells of an opened operation are queued; those of an IMMEDIATE OUT_WRITE follow its merge (R154). -/
def Dev.openCells (d : Dev) (fn : Func) (ring tag : Nat) (e : Desc) : Dev :=
  if e.opcode = opMGMT then
    match e.bodyBytes with
    | none => d
    | some 0 => { d with h.bodies := d.h.bodies.set (fun _ => none) tag (some []) }
    | some len => d.hostRead fn e.buf len
  else if !e.crosses || (e.opcode == opOUT_WRITE && e.update == 1) then d
  else d.sendBulk .h (.opOpen e.unit fn ring tag e.dest)

/-- OPERATION_OPEN (R103, R113, R117): an admitted operation is opened in its turn, on a link that carries operations. -/
def doOperationOpen (tag : Nat) (t : Nat) (d : Dev) : Dev :=
  let d := d.at t
  match d.op tag with
  | none => d
  | some o =>
    let link := !o.desc.crosses || (d.h.link.up && !d.haltAct && d.h.bulk.waitOp.isEmpty && decide (d.h.bulk.replay.length < 16))
    if o.stage != .admitted || !d.openTurn o || !link || d.h.dev == .rest || (d.pci o.fn).d3 then d
    else (d.setOp tag (some { o with stage := .opened })).openCells o.fn o.ring tag o.desc

/-- OP_OPEN (Tables PRZ-4, PRZ-5): the F-side receives the operation's context. -/
def doOpOpen (tag : Nat) (t : Nat) (d : Dev) : Dev :=
  let d := d.at t
  match d.op tag, d.fop tag with
  | some o, none =>
    if o.stage == .admitted || !o.desc.crosses || !d.h.link.up || d.h.bulk.waitOp.any (Cell.opens tag)
        || (o.desc.opcode == opOUT_WRITE && o.desc.update == 1 && o.stage != .closing) then d
    else d.setFop tag (some ⟨o.fn, o.ring, o.desc, [], false, none⟩)
  | _, _ => d

/-- NOP (R107): completes when opened. In REST the H-side sequencer is halted (R279). -/
def doNop (tag : Nat) (t : Nat) (d : Dev) : Dev :=
  let d := d.at t
  match (if d.h.dev = .rest then none else d.openedOp tag opNOP) with
  | some _ => d.finish tag stOK 0
  | none => d

/-! ## The output image stage (R139) -/

/-- A failure at the output image stage or of an inbound container is counted, with its ring (R139, R146). -/
def Dev.chkFail (d : Dev) (F : Fld) (ring : Nat) : Dev :=
  ((d.setFld F 1).setFld Fld.RM_CHK_STATUS_RING ring).bump Fld.RM_CHK_CNT_COUNT Fld.RM_CHK_STATUS_SAT

/-- The image with VALUE merged under MASK, and its new check (R139 step 3). -/
def Image.merge (i : Image) (fn : Func) (value mask : W48) (tag : Nat) : Image :=
  { i with
    cur := Container.make ((i.cur.word &&& ~~~mask) ||| (value &&& mask)) fn 0 routeRefresh
    merged := i.merged ++ [tag] }

/-- No earlier OUT_WRITE waits for its merge (R113). -/
def Dev.mergeTurn (d : Dev) (o : Op) : Bool :=
  d.opsList.all (fun p => !(p.2.desc.opcode == opOUT_WRITE && p.2.stage != .closing && decide (p.2.ord < o.ord)))

/-- OUT_WRITE (R138, R139, R154): VALUE is verified and merged into the function's image, or refused; `agree` says that the two
merges agree. An IMMEDIATE write is then carried to the F-side. In REST the H-side sequencer is halted (R279). -/
def doOutWrite (tag : Nat) (agree : Bool) (t : Nat) (d : Dev) : Dev :=
  let d := d.at t
  match (if d.h.dev = .rest then none else d.openedOp tag opOUT_WRITE) with
  | none => d
  | some o =>
    if !d.mergeTurn o then d
    else if o.desc.value.good o.fn o.ring 0x100 && agree then
      let d1 := (d.setImg o.fn ((d.img o.fn).merge o.fn o.desc.value.word o.desc.outMask tag)).setOp tag
        (some { o with stage := .closing })
      if o.desc.update = 1 then
        (d1.sendBulk .h (.opOpen o.desc.unit o.fn o.ring tag o.desc.dest)).sendBulk .h (.data o.desc.unit tag o.desc.value)
      else d1
    else
      let d1 := (d.setFop tag none).finish tag stCHK_PATH 0
      (d1.chkFail Fld.RM_CHK_STATUS_MERGE_FAIL o.ring).raiseFn .h Sn.CHK_PATH o.fn

/-! ## Buffers (R102, R116, R182) -/

/-- A run or a target operation of a tag is taken from the FSP. -/
def Dev.fspDrop (d : Dev) (tag : Nat) : Dev :=
  let keep := fun r : FspRun => r.tag != some tag
  ({ d with f.fsp := { d.f.fsp with
    queue := d.f.fsp.queue.filter (fun i => match i with | .run r => keep r | .load _ => true | .behind g => g != tag)
    waiting := d.f.fsp.waiting.filter keep
    fired := d.f.fsp.fired.filter keep
    tgts := d.f.fsp.tgts.filter (fun x => x.tag != tag) } }).fspNext

/-- A command that ends before its body is at hand: a CAL_WRITE has spent OVERWRITE_EN all the same (R306), and an owner command
its nonce (R338). -/
def Dev.bodyLost (d : Dev) (o : Op) : Dev :=
  if o.desc.opcode != opMGMT then d
  else if o.desc.cmd = cmdCAL_WRITE then d.setFld Fld.CAL_CTRL_OVERWRITE_EN 0
  else if o.desc.cmd = cmdOWNER_ENROL ∨ o.desc.cmd = cmdREKEY then d.newNonce
  else d

/-- A buffer read or write has failed (R116): it is counted and reported. -/
def Dev.dmaErr (d : Dev) (fn : Func) : Dev :=
  (d.bump Fld.RM_DMA_ERR_CNT_COUNT Fld.RM_CNT_SAT_SAT).raiseFn .h Sn.RM_DMA_ERR fn

/-- A buffer read of an operation has failed (R116). The entry precedes the messages (R125). -/
def Dev.bufferFails (d : Dev) (tag : Nat) (o : Op) (timeout : Bool) : Dev :=
  let d1 := ((((d.bodyLost o).fspDrop tag).setFop tag none).finish tag stDMA_ERR 0).dmaErr o.fn
  if timeout then d1.timeoutStop o.fn o.ring else d1

/-- The containers that a buffer brings (R105, R138): carried unchanged, or with their checks made. -/
def Op.containers (o : Op) (data : List Quad) : List Container :=
  data.map (fun q =>
    let c := Container.ofBits q
    if o.desc.makeChk then Container.make c.word o.fn o.ring o.desc.dest else c)

/-- A buffer read has ended. What a function reset has discarded gets nothing and ends. -/
def Dev.bufferEnd (d : Dev) (tag : Nat) (r : ReadEnd) (data : List Quad) : Dev :=
  match d.op tag with
  | none => d
  | some o =>
    if !d.bufferDue tag o then d
    else if d.ecrcDrops o.fn (r != .ecrc) then d.ecrcError o.fn
    else if o.drop then (((d.bodyLost o).fspDrop tag).setFop tag none).setOp tag none
    else match r with
      | .error => d.bufferFails tag o false
      | .timeout => d.bufferFails tag o true
      | .ok | .ecrc =>
        if o.desc.opcode = opMGMT then { d with h.bodies := d.h.bodies.set (fun _ => none) tag (some data) }
        else
          let cs := o.containers data
          (cs.foldl (fun d c => d.sendBulk .h (.data o.desc.unit tag c)) d).fspStage tag cs

/-- BUFFER_READ_COMPLETE. -/
def doBufferReadComplete (tag : Nat) (r : ReadEnd) (data : List Quad) (t : Nat) (d : Dev) : Dev := (d.at t).bufferEnd tag r data

/-- Completion Timeout Disable of a function (R70): its reads wait for their completion without limit. -/
def Dev.cplTimeoutOff (d : Dev) (fn : Func) : Bool := bitOf (d.rd (cfgKey fn 0x088)).toNat 4

/-- READ_COMPLETION_TIMEOUT (R90, R102, R116): a read of the endpoint times out. -/
def doReadCompletionTimeout (r : ReadOf) (t : Nat) (d : Dev) : Dev :=
  let d := d.at t
  match r with
  | .descriptors n => if d.cplTimeoutOff (d.ringOwner n) then d else d.fetchEnd n .timeout []
  | .sweep fn => if d.cplTimeoutOff fn then d else d.sweepEnd fn .timeout []
  | .buffer tag =>
    match d.op tag with
    | some o => if d.cplTimeoutOff o.fn then d else d.bufferEnd tag .timeout []
    | none => d

/-! ## OP_CLOSE (R110, R112, R117, R146) -/

/-- OP_CLOSE: each inbound container, `data` in place of those sent as they have arrived and `res` in place of RESULT, is verified
and written as received; `wr` says that the write of the operation's data succeeds, and with a failed one the operation completes
DMA_ERR (R116). The completion entry follows the data, and the messages follow the entry (R125). -/
def doOpClose (tag : Nat) (data : List Container) (res : Option Quad) (wr : Bool) (t : Nat) (d : Dev) : Dev :=
  let d := d.at t
  match d.op tag, d.fop tag with
  | some o, some x =>
    match x.ended with
    | none => d
    | some (st, result) =>
      if !d.h.link.up || d.f.bulk.waitOp.any (Cell.closes tag) then d
      else
        let d1 := d.setFop tag none
        if o.drop || o.halted then d1.finish tag st 0
        else
          let good := fun c : Container => c.good o.fn o.ring o.desc.dest
          let got := x.got.zipIdx.map (fun p => data.getD p.2 p.1)
          let box := o.desc.boxed && result != 0
          let out := if box then res.getD result else result
          let bad := (got.filter (fun c => !good c)).length + b2n (box && !good (Container.ofBits out))
          let lost := !wr && !got.isEmpty && (d.pci o.fn).bme
          let d2 := if lost then d1 else d1.dma o.fn o.desc.writeAt (got.map Container.bits)
          let st1 := if lost then stDMA_ERR else if 0 < bad ∧ st ≠ stDMA_ERR then stCHK_PATH else st
          let d3 := d2.finish tag st1 out
          let d4 := (List.range bad).foldl (fun d _ =>
            (d.chkFail Fld.RM_CHK_STATUS_IN_FAIL o.ring).raiseFn .h Sn.CHK_INBOUND o.fn) d3
          if lost then d4.dmaErr o.fn else d4
  | _, _ => d

/-- V0_COALESCE_TIMER (R114): 200 ns after the last entry of a burst, one V0 message. -/
def doV0CoalesceTimer (n : Nat) (t : Nat) (d : Dev) : Dev :=
  let d := d.at t
  let r := d.ring n
  match r.irqDue with
  | some e => if e + 160 ≤ d.now then (d.setRing n { r with irqDue := none }).irq (d.ringOwner n) 0 else d
  | none => d

/-! ## Registers (R91, R119, R134, R149; Tables RM-12, RM-13, RM-18, RM-19) -/

/-- A write of a ring's registers other than RM_RING_CFG. -/
def Dev.ringRegWrite (d : Dev) (fn : Func) (n off : Nat) (data : Word) : Dev :=
  let k := off % 32
  if d.ringOwner n != fn || (k < 0x10 && d.ringEn n) then d.rmRej
  else d.wrAccess off data

/-- A write of a function's sweep, doorbell-page and phase registers. -/
def Dev.sweepRegWrite (d : Dev) (fn : Func) (who : Nat) (off : Nat) (data : Word) : Dev :=
  let n := data.toNat
  if fn.idx ≠ who then d.rmRej
  else if (off = Reg.RM_DB_BASE_LO who ∨ off = Reg.RM_DB_BASE_HI who) ∧ !(d.enabledRings fn).isEmpty then d.rmRej
  else if off = Reg.RM_SWEEP_CFG who ∧ (bitsOf n 0 8 = 0 ∨ 16 < bitsOf n 9 5) then d.rmRej
  else d.wrAccess off data

/-- A write of RM_PRESS_SAT: each function its own CLR bit (R134). -/
def Dev.pressSatWrite (d : Dev) (fn : Func) (data : Word) : Dev :=
  let mine := bitOf data.toNat (2 + fn.idx)
  let other := bitOf data.toNat (2 + (1 - fn.idx))
  let d1 := if mine then d.clearCnt (Fld.RM_DUP_CNT_COUNT fn.idx) (dupSat fn) else d
  if other then d1.rmRej else d1

/-- A write to an RM_ register by a function. -/
def Dev.rmWrite (d : Dev) (fn : Func) (off : Nat) (data : Word) : Dev :=
  let n := data.toNat
  if 0x0800 ≤ off ∧ off < 0x1000 then
    let r := (off - 0x0800) / 32
    if off = Reg.RM_RING_CFG r then d.ringCfgWrite fn r data else d.ringRegWrite fn r off data
  else if 0x0700 ≤ off ∧ off < 0x0800 then
    let r := (off - 0x0700) / 4
    if d.ringOwner r != fn then d.rmRej
    else (d.wrAccess off data).setRing r { d.ring r with armed := true }
  else if 0x0500 ≤ off ∧ off < 0x0600 then d.sweepRegWrite fn ((off - 0x0500) / 128) off data
  else if 0x0410 ≤ off ∧ off < 0x0430 then d.sweepRegWrite fn ((off - 0x0410) / 16) off data
  else if off = Reg.RM_CTRL then
    if fn || decide (64 < bitsOf n 0 7) || (List.range 64).any d.ringEn || d.inflight != 0 then d.rmRej
    else d.wrAccess off data
  else if off = Reg.RM_FETCH_WEIGHT then
    if fn || bitsOf n 0 4 == 0 || bitsOf n 4 4 == 0 then d.rmRej else d.wrAccess off data
  else if off = Reg.RM_CEIL 0 ∨ off = Reg.RM_CEIL 1 then
    if fn || bitsOf n 0 10 == 0 || decide (512 < bitsOf n 0 10) then d.rmRej else d.wrAccess off data
  else if off = Reg.RM_PRESS_SAT then d.pressSatWrite fn data
  else if off = Reg.RM_CNT_SAT then
    if bitOf n 1 then d.clearCnt Fld.RM_DMA_ERR_CNT_COUNT Fld.RM_CNT_SAT_SAT else d
  else if off = Reg.RM_CHK_STATUS then
    let d1 := d.wrAccess off data
    if bitOf n 9 then d1.clearCnt Fld.RM_CHK_CNT_COUNT Fld.RM_CHK_STATUS_SAT else d1
  else d.wrAccess off data

/-- An RM_ register as read. -/
def Dev.rmRead (d : Dev) (off : Nat) : Word :=
  let add := fun n : Nat => d.rd off ||| BitVec.ofNat 32 n
  if off = Reg.RM_STATUS then add d.inflight
  else if off = Reg.RM_SWEEP_STATUS 0 ∨ off = Reg.RM_SWEEP_STATUS 1 then
    let fn : Func := off == Reg.RM_SWEEP_STATUS 1
    add (b2n (!(d.enabledRings fn).isEmpty) + 2 * b2n (d.fld (Fld.RM_SWEEP_CFG_MODE fn.idx) == 1 && d.phaseFallback))
  else if off = Reg.RM_CEIL 0 ∨ off = Reg.RM_CEIL 1 then
    let fn : Func := off == Reg.RM_CEIL 1
    add (d.heldBy fn * 2 ^ 16 + b2n (d.fld (Fld.RM_CEIL_CEIL fn.idx) ≤ d.heldBy fn) * 2 ^ 26)
  else if off = Reg.RM_WM_SUM_LO ∨ off = Reg.RM_WM_SUM_HI then
    let b := if off = Reg.RM_WM_SUM_HI then 32 else 0
    BitVec.ofNat 32 ((List.range 32).foldl (fun a k => a + b2n (d.flag (Fld.RM_BACKLOG_WM_HIT (b + k))) * 2 ^ k) 0)
  else if 0x0700 ≤ off ∧ off < 0x0800 then add (d.backlog ((off - 0x0700) / 4) % 2 ^ 13)
  else if 0x0800 ≤ off ∧ off < 0x1000 then
    let n := (off - 0x0800) / 32
    let r := d.ring n
    if off = Reg.RM_RING_STATUS n then
      (d.rd off &&& 0x60) ||| BitVec.ofNat 32 (b2n r.running + b2n (d.ringTags n == 0) * 2 + r.stop * 4 + d.ringTags n * 2 ^ 16)
    else if off = Reg.RM_RING_CI n then BitVec.ofNat 32 (r.ci + r.cplPi * 2 ^ 16)
    else d.rd off
  else d.rd off

/-! ## The commands' meanings -/

/-- The meaning of the command: `doRingEnable` on the device. -/
def execRingEnable (fn : Func) (n : Nat) (data : Word) (s : State) : Out :=
  s.onDev (doRingEnable fn n data)

/-- The meaning of the command: `doRingDisable` on the device. -/
def execRingDisable (fn : Func) (n : Nat) (data : Word) (t : Nat) (s : State) : Out :=
  s.onDev (doRingDisable fn n data t)

/-- The meaning of the command: `doSweepTimer` on the device. -/
def execSweepTimer (fn : Func) (t : Nat) (s : State) : Out :=
  s.onDev (doSweepTimer fn t)

/-- The meaning of the command: `doSweepReadComplete` on the device. -/
def execSweepReadComplete (fn : Func) (r : ReadEnd) (words : List Quad) (t : Nat) (s : State) : Out :=
  s.onDev (doSweepReadComplete fn r words t)

/-- The meaning of the command: `doFetchGrant` on the device. -/
def execFetchGrant (s : State) : Out :=
  s.onDev (doFetchGrant)

/-- The meaning of the command: `doDescriptorReadComplete` on the device. -/
def execDescriptorReadComplete (n : Nat) (r : ReadEnd) (descs : List Desc) (t : Nat) (s : State) : Out :=
  s.onDev (doDescriptorReadComplete n r descs t)

/-- The meaning of the command: `doOperationOpen` on the device. -/
def execOperationOpen (tag : Nat) (t : Nat) (s : State) : Out :=
  s.onDev (doOperationOpen tag t)

/-- The meaning of the command: `doOpOpen` on the device. -/
def execOpOpen (tag : Nat) (t : Nat) (s : State) : Out :=
  s.onDev (doOpOpen tag t)

/-- The meaning of the command: `doNop` on the device. -/
def execNop (tag : Nat) (t : Nat) (s : State) : Out :=
  s.onDev (doNop tag t)

/-- The meaning of the command: `doOutWrite` on the device. -/
def execOutWrite (tag : Nat) (agree : Bool) (t : Nat) (s : State) : Out :=
  s.onDev (doOutWrite tag agree t)

/-- The meaning of the command: `doBufferReadComplete` on the device. -/
def execBufferReadComplete (tag : Nat) (r : ReadEnd) (data : List Quad) (t : Nat) (s : State) : Out :=
  s.onDev (doBufferReadComplete tag r data t)

/-- The meaning of the command: `doReadCompletionTimeout` on the device. -/
def execReadCompletionTimeout (r : ReadOf) (t : Nat) (s : State) : Out :=
  s.onDev (doReadCompletionTimeout r t)

/-- The meaning of the command: `doOpClose` on the device. -/
def execOpClose (tag : Nat) (data : List Container) (res : Option Quad) (wr : Bool) (t : Nat) (s : State) : Out :=
  s.onDev (doOpClose tag data res wr t)

/-- The meaning of the command: `doV0CoalesceTimer` on the device. -/
def execV0CoalesceTimer (n : Nat) (t : Nat) (s : State) : Out :=
  s.onDev (doV0CoalesceTimer n t)

end Sys2Proof.Machine
end

