-- ==== Sys2Proof/Machine/FieldWindow.lean ====
section
/-!
DEFINITION. The field window (R64 to R66, R415): the write queue, the application of a write at the F-side with its refusals, reads
with their side effects, and the copy of the F-side locks (R389).
-/

namespace Sys2Proof.Machine

/-! ## Applying a write at the F-side (R64, R415) -/

/-- The CFG_REJ bit of the block in whose range an offset lies; the channel block has none. An offset that holds no register belongs to
the block of its range too (DESIGN CHOICE, log entry 35: R415 speaks of the register's block). -/
def blockRej (off : Nat) : Option Fld :=
  if off < 0x2400 then some Fld.CAR_STATUS_CFG_REJ
  else if off < 0x2800 then none
  else if off < 0x2C00 then some Fld.FSP_STATUS_CFG_REJ
  else if off < 0x3000 then some Fld.TWP_STATUS_CFG_REJ
  else if off < 0x3400 then some Fld.FT_FLAGS_CFG_REJ
  else if off < 0x3800 then some Fld.BRK_STATUS_CFG_REJ
  else none

/-- A write to the field window by its block's rules. `sda` is what the stuck-SDA check would meet. -/
def Dev.windowWrite (d : Dev) (fn : Func) (off : Nat) (data : Word) (sda : SdaCheck) : FwOut :=
  match specOf off with
  | none => badValue
  | some _ =>
    if off < 0x2400 then d.carWrite fn off data
    else if off < 0x2800 then d.chWrite fn off data
    else if off < 0x2C00 then d.fspWrite fn off data
    else if off < 0x3000 then d.twpWrite fn off data sda
    else if off < 0x3400 then d.ftWrite fn off data
    else d.brkWrite fn off data

/-- An internal write to the Safety Net shadow (R264, R417). -/
def Dev.shadowWrite (d : Dev) (fn : Func) (off : Nat) (data : Word) : Dev :=
  let sev := Reg.SN_SEV 0 ≤ off && off < Reg.SN_SEV 6
  let quiet := Reg.SN_QUIET 0 ≤ off && off < Reg.SN_QUIET 12
  let d0 := if sev || quiet then d.snNote .f off else d
  let d1 := d0.setShadow (if off = Reg.SN_ACK then keyOf fn off else off) data
  if sev then d1.sevRaised .f ((off - Reg.SN_SEV 0) / 4) else d1

/-- Whether an offset is one that the shadow copies. -/
def shadowOff (off : Nat) : Bool := shadowRegs.contains off || off == Reg.SN_ACK

/-- A write cell at the F-side: its check, then the shadow, WDF (which follows R253 and R257) or the block; the device after it and
the cause of a refusal, 0 for none. `dev` says that the lifecycle is DEVELOPMENT. -/
def Dev.windowApply (d : Dev) (dev : Bool) (c : Container) (sda : SdaCheck) : Dev × Nat :=
  let w := c.word.toNat
  let fn : Func := bitOf w 47
  let off := 4 * bitsOf w 32 14
  let data : Word := BitVec.ofNat 32 w
  let rej := fun (d : Dev) (k : Nat) => ((match blockRej off with | some F => if onFSide off then d.setFld F 1 else d | none => d), k)
  if !c.good fn 0 routeFieldWindow then
    if 0x1440 ≤ off ∧ off < 0x1460 then (d.wdRej 2, 4) else rej d 4
  else if shadowOff off then (d.shadowWrite fn off data, 0)
  else if 0x1440 ≤ off ∧ off < 0x1460 then (d.wdWrite dev fn 2 (off - 0x1440) data, 0)
  else match d.windowWrite fn off data sda with
    | .ok d1 => (d1, 0)
    | .error k => rej d k

/-- A cell of the bulk stream that its receiver has accepted is one of a type, unit code and opcode (R41 to R44, Tables PRZ-3 to PRZ-5):
BULK_CELL_RECEIVE has checked and counted it. -/
def isBulkCell (c : Cell80) (typ unit : Nat) : Bool := c.hchkGood && c.typ == typ && c.route == unit
def isCtrlCell (c : Cell80) (unit op : Nat) : Bool := isBulkCell c 4 unit && c.cchkGood && c.opcode == op

/-- FIELD_WINDOW_APPLY (R64): the F-side applies or refuses the write that the cell carries and answers with FW_ACK. -/
def execFieldWindowApply (cell : Cell80) (sda : SdaCheck) (t : Nat) (s : State) : Out :=
  s.onDev (fun d =>
    let d := d.at t
    if !d.h.link.up || !isBulkCell cell 3 0 then d
    else
      let c := cell.container
      let r := d.windowApply (s.nv.lifecycle == .development) c sda
      r.1.sendBulk .f (.fwAck (bitOf c.word.toNat 47) (4 * bitsOf c.word.toNat 32 14) r.2))

/-! ## The H-side queue -/

/-- The writes of the queue's 16 entries have been sent; those behind them wait for room. -/
def Dev.sendWrite (d : Dev) (w : FwWrite) : Dev := d.sendBulk .h (.fwWrite (fwContainer w.fn w.off w.data))

/-- A write joins the queue (R64). Beyond 16 entries it waits unsent, and the PCIe write with it. -/
def Dev.queueWrite (d : Dev) (w : FwWrite) : Dev :=
  let d1 := { d with h.fwQ := d.h.fwQ ++ [w] }
  if d.h.fwQ.length < 16 then d1.sendWrite w else d1

/-- The link is down (R60), and not merely training or stopped for Rest. -/
def Dev.linkIsDown (d : Dev) : Bool := !d.h.link.up && !d.h.link.training && !d.h.link.stopped

/-- A field-window write from a function (R64, R65): dropped while the link is down. The answer says whether it was queued. -/
def Dev.windowPost (d : Dev) (fn : Func) (off : Nat) (data : Word) (lock : Bool) : Bool × Dev :=
  if d.linkIsDown then (false, d.setFld Fld.PRZ_FWIN_STATUS_DROPPED 1) else (true, d.queueWrite ⟨fn, off, data, lock⟩)

/-- FIELD_WINDOW_WRITE (R10, R64, R65, R88, R89, R372): a write that the endpoint does not take, and a host's write in BOOT, is
ignored. -/
def doFieldWindowWrite (fn : Func) (off : Nat) (data : Word) (t : Nat) (d : Dev) : Dev :=
  let d := (d.at t).hostAccess
  if !onFSide off || off % 4 != 0 || !d.barOpen fn || d.h.dev == .boot then d else (d.windowPost fn off data false).2

/-- Field-window reads that have no earlier write to wait for join the bulk stream, on a link that is up; the 100 µs of R65 count from
the sending of the cell. -/
def Dev.sendReads (d : Dev) : Dev :=
  if !d.h.link.up then d
  else
    let due := d.h.fwReads.filter (fun r => r.after == 0 && !r.queued)
    let d1 := { d with h.fwReads := d.h.fwReads.map (fun r : FwRead =>
      if r.after == 0 then { r with queued := true } else r) }
    due.foldl (fun d r => d.sendBulk .h (.fwRead r.fn r.off)) d1

/-- A list without its first element that has a property. -/
def dropFirst {α : Type} (p : α → Bool) : List α → List α
  | [] => []
  | a :: t => if p a then t else a :: dropFirst p t

/-- The entry of the write queue that an FW_ACK releases: the one that it names. The F-side applies the writes in their order, so one
that names none answers the oldest, whose cell was damaged where it names function and offset (R64; DEDUCED, log entry 35). -/
def ackedWrite (fn : Func) (off : Nat) (q : List FwWrite) : Option FwWrite :=
  match q.find? (fun w => w.fn == fn && w.off == off) with
  | some w => some w
  | none => q.head?

/-- A write leaves the queue (R64, R65, R389): the next waiting write is sent, a refusal is recorded with the write's own offset and
function, the lock copy is brought up to date, and reads that waited for the write may go. -/
def Dev.writeDone (d : Dev) (w : FwWrite) (cause : Nat) : Dev :=
  let d1 := { d with
    h.fwQ := dropFirst (fun x => x.fn == w.fn && x.off == w.off) d.h.fwQ
    h.fwReads := d.h.fwReads.map (fun r : FwRead => if r.fn == w.fn then { r with after := r.after - 1 } else r) }
  let d2 := match d1.h.fwQ[15]? with | some w => d1.sendWrite w | none => d1
  let d3 := if cause = 0 then d2.lockCopy (fLockAt w.off)
    else (((d2.setFld Fld.PRZ_FWIN_STATUS_REJ 1).setFld Fld.PRZ_FWIN_LAST_OFFSET w.off).setFld Fld.PRZ_FWIN_LAST_FUNC w.fn.idx).setFld
      Fld.PRZ_FWIN_LAST_CAUSE cause
  let refused := decide (cause ≠ 0) || (w.off == Reg.WD_CTRL 2 && !d3.flag (Fld.WD_CTRL_LOCK 2))
  (if w.lock && refused then d3.setFld Fld.SYS_LOCK_STATUS_REJ 1 else d3).sendReads

/-- What an FW_ACK does (R64, R264): an internal write to the shadow, or a host's write, is done. -/
def Dev.fwAcked (d : Dev) (fn : Func) (off cause : Nat) : Dev :=
  let is := fun w : FwWrite => w.fn == fn && w.off == off
  if d.h.shadowQ.any is && shadowOff off then
    let q := dropFirst is d.h.shadowQ
    { d with h.shadowQ := q, h.syncPend := d.h.syncPend && !q.isEmpty }
  else match ackedWrite fn off d.h.fwQ with
    | some w => d.writeDone w cause
    | none => d

/-- FW_ACK (R64, R65, R264, R389): the cell's function, offset and cause (Table PRZ-4). -/
def doFwAck (cell : Cell80) (t : Nat) (d : Dev) : Dev :=
  let d := d.at t
  if d.h.link.up && isCtrlCell cell 0 0x11
  then d.fwAcked (cell.bits 55 1 == 1) (4 * cell.bits 41 14) (cell.bits 37 4) else d

/-! ## Reads (R65, R384) -/

/-- A field-window read from a function (R65, R372): complete at once with all ones while the link is down and until step B3 of a boot
has ended, else behind the function's earlier writes. -/
def Dev.windowRead (d : Dev) (fn : Func) (off : Nat) : Dev :=
  if d.linkIsDown || (d.h.dev == .boot && !d.h.link.up) then d.tlp fn (.cpl 0xFFFFFFFF)
  else
    let r : FwRead := ⟨fn, off, (d.h.fwQ.filter (fun w => w.fn == fn)).length, none, false⟩
    ({ d with h.fwReads := d.h.fwReads ++ [r] }).sendReads

/-- A register of the F-side as a function reads it (R383 to R385). -/
def Dev.fieldValue (d : Dev) (fn : Func) (off : Nat) : Word :=
  match specOf off with
  | none => 0
  | some _ =>
    if off < 0x2000 then d.wdRead 2 (off - 0x1440)
    else if off < 0x2400 then d.carRead fn off
    else if off < 0x2800 then d.chRead off
    else if off < 0x2C00 then d.fspRead off
    else if off < 0x3000 then d.twpRead off
    else if off < 0x3400 then d.ftRead fn off
    else d.rd off

/-- What a read of an F-side register changes before its value is taken (R38, R384): the latches of CAR_POS_HI and FT_MARK_HI. -/
def Dev.beforeRead (d : Dev) (fn : Func) (off : Nat) : Dev :=
  if off = Reg.CAR_POS_LO then d.carPosLatch fn
  else match (List.range 8).find? (fun k => off == Reg.FT_MARK_LO k) with
    | some k => doFtMarkLoRead fn k d.now d
    | none => d

/-- What a read of an F-side register changes after its value is taken (R233, R384): FT_CAP_LO latches FT_CAP_HI, and FT_CAP_HI can
clear VALID. -/
def Dev.afterRead (d : Dev) (fn : Func) (off : Nat) : Dev :=
  match (List.range 8).find? (fun k => off == Reg.FT_CAP_LO k), (List.range 8).find? (fun k => off == Reg.FT_CAP_HI k) with
  | some k, _ => doFtCapLoRead fn k d.now d
  | _, some k => doFtCapHiRead fn k d.now d
  | _, _ => d

/-- FW_READ (R65, R384): the F-side returns the value of the register that the cell names. -/
def doFwRead (cell : Cell80) (t : Nat) (d : Dev) : Dev :=
  let d := d.at t
  if !d.h.link.up || !isCtrlCell cell 0 0x10 then d
  else
    let fn : Func := cell.bits 55 1 == 1
    let off := 4 * cell.bits 41 14
    let d1 := d.beforeRead fn off
    (d1.afterRead fn off).sendBulk .f (.fwReply fn off (d1.fieldValue fn off))

/-- A read that has been sent, by function and offset. -/
def FwRead.is (r : FwRead) (fn : Func) (off : Nat) : Bool := r.fn == fn && r.off == off && r.sent.isSome

/-- FW_READ_REPLY (R65). -/
def doFwReadReply (fn : Func) (off : Nat) (data : Word) (d : Dev) : Dev :=
  if d.h.fwReads.any (·.is fn off) then
    ({ d with h.fwReads := dropFirst (·.is fn off) d.h.fwReads }).tlp fn (.cpl (data.setWidth 64))
  else d

/-- FW_READ_TIMEOUT (R65): 100 µs have passed since FW_READ was sent. -/
def doFwReadTimeout (fn : Func) (t : Nat) (d : Dev) : Dev :=
  let d := d.at t
  let late := fun r : FwRead => r.fn == fn && (match r.sent with | some s => decide (s + 100 * usCycles ≤ d.now) | none => false)
  if d.h.fwReads.any late then
    ((({ d with h.fwReads := dropFirst late d.h.fwReads }).tlp fn (.cpl 0xFFFFFFFF)).setFld
      Fld.PRZ_FWIN_STATUS_TIMEOUT 1).raiseBoth .h Sn.PRZ_FWIN_TIMEOUT
  else d

/-! ## The commands' meanings -/

/-- The meaning of the command: `doFieldWindowWrite` on the device. -/
def execFieldWindowWrite (fn : Func) (off : Nat) (data : Word) (t : Nat) (s : State) : Out :=
  s.onDev (doFieldWindowWrite fn off data t)

/-- The meaning of the command: `doFwAck` on the device. -/
def execFwAck (cell : Cell80) (t : Nat) (s : State) : Out :=
  s.onDev (doFwAck cell t)

/-- The meaning of the command: `doFwRead` on the device. -/
def execFwRead (cell : Cell80) (t : Nat) (s : State) : Out :=
  s.onDev (doFwRead cell t)

/-- The meaning of the command: `doFwReadReply` on the device. -/
def execFwReadReply (fn : Func) (off : Nat) (data : Word) (s : State) : Out :=
  s.onDev (doFwReadReply fn off data)

/-- The meaning of the command: `doFwReadTimeout` on the device. -/
def execFwReadTimeout (fn : Func) (t : Nat) (s : State) : Out :=
  s.onDev (doFwReadTimeout fn t)

end Sys2Proof.Machine
end

