-- ==== Sys2Proof/Machine/Prism.lean ====
section
/-!
DEFINITION. The Prism link (R37, R40 to R63, R67, R68): cells and their checks, position forwarding, refresh ticks and commits
(R84, R87, R140 to R142, R154, R156), the refresh watch, the bulk stream, training, and the PRZ_ registers.
-/

namespace Sys2Proof.Machine

/-! ## Counters, training and cell checks (R42 to R44, R58) -/

/-- The sticky SAT bits of PRZ_CNT_SAT, in the order of the counters' offsets. -/
def przSat (k : Nat) : Fld := ⟨Reg.PRZ_CNT_SAT, k, 1⟩

/-- The link enters training (R58): a retrain is counted and reported. A link that trains already goes on. -/
def Dev.enterTraining (d : Dev) : Dev :=
  if !d.h.link.up then d
  else ({ d with h.link := { d.h.link with up := false, training := true }, f.watch.refA := none }).retrainNoted

/-- A die has received one more cell (R58). -/
def Dev.cellSeen (d : Dev) (x : Die) : Dev := d.setBulk x { d.bulk x with seen := (d.bulk x).seen + 1 }

/-- A header or control check fails at a die (R42, R43, R58): counted and reported; 8 within 1024 consecutive cells retrain the link. -/
def Dev.cellErr (d : Dev) (x : Die) : Dev :=
  let d1 := (d.bump Fld.PRZ_CELL_ERR_CNT_COUNT (przSat 0)).raiseBoth x Sn.PRZ_CELL_ERR
  let b := d1.bulk x
  let fails := b.seen :: b.fails.filter (fun k => decide (b.seen < k + 1024))
  if 8 ≤ fails.length then (d1.setBulk x { b with fails := [] }).enterTraining
  else d1.setBulk x { b with fails := fails }

/-- A cell that carries a control container. -/
def isControl (typ : Nat) : Bool := typ == 4 || typ == 5 || typ == 6

/-- A valid cell that Tables PRZ-3 and PRZ-4 do not define for its direction (R44). -/
def unexpected (c : Cell80) (forward : Bool) : Bool :=
  let op := c.opcode
  match c.typ with
  | 0 => c.route != 0
  | 1 => !forward || c.route % 16 != 0
  | 2 => forward || c.route / 8 == 3
  | 3 => decide (7 < c.route)
  | 4 => decide (7 < c.route) || !(op == 0x20 || op == 0x21 || op == (if forward then 0x10 else 0x11))
  | 5 => c.route != 0 || op != 0x30
  | 6 => c.route != 0 || !(op == 1 || op == 2 || op == 3 || op == 6 || (if forward then op == 4 else op == 5 || op == 7))
  | _ => true

/-- A die receives a cell: whether it is taken, and the device after the checks (R42 to R44). On a link that is not up nothing is
received. -/
def Dev.receiveCell (d : Dev) (x : Die) (c : Cell80) : Bool × Dev :=
  if !d.h.link.up then (false, d)
  else
    let d1 := d.cellSeen x
    if !c.hchkGood || (isControl c.typ && !c.cchkGood) then (false, d1.cellErr x)
    else if unexpected c (x == .f) then (false, d1.intrusion x)
    else (true, d1)

/-- A die receives a LINK cell with an opcode (Table PRZ-4). -/
def Dev.linkCell (d : Dev) (x : Die) (op : Nat) (c : Cell80) : Bool × Dev :=
  let r := d.receiveCell x c
  (r.1 && c.typ == 6 && c.opcode == op, r.2)

/-! ## Position forwarding (R37, R54) -/

/-- POSITION_FORWARD (R54): position, direction and turn index go out with a check under the position route. -/
def doPositionForward (t : Nat) (d : Dev) : Dev :=
  let d := d.at t
  if !d.h.link.up then d
  else
    ({ d with f.posNum := (d.f.posNum + 1) % 32 }).emitCell .f (.position d.carDir (d.f.car.index % 8) d.f.posNum
      (Container.make (BitVec.ofNat 48 d.f.car.pos) false 0 routePosition))

/-- The full turn index from the copy's and the three bits forwarded: the nearest one with those bits (R44, Table PRZ-3). -/
def extendTurn (old bits : Nat) : Int :=
  let k := (bits + 8 - old % 8) % 8
  if 4 ≤ k then (old : Int) + k - 8 else (old : Int) + k

/-- POSITION_CELL_RECEIVE (R37, R97): a position whose check passes is taken, and may cross phase points in the direction of travel;
one whose check fails raises CAR_FWD_CHK. -/
def doPositionCellReceive (cell : Cell80) (t : Nat) (d : Dev) : Dev :=
  let r := (d.at t).receiveCell .h cell
  let d1 := r.2
  if !r.1 || cell.typ != 2 then d1
  else
    let p := d1.h.copy
    if !cell.container.good false 0 routePosition then
      ({ d1 with h.copy.good := 0 }).raiseBoth .h Sn.CAR_FWD_CHK
    else
      let dir := cell.route / 8
      let new := cell.container.word.toNat
      let turn := extendTurn p.turn (cell.route % 8)
      let d2 := { d1 with h.copy := ⟨new, dir, (turn % 2 ^ 32).toNat, true, min 16 (p.good + 1)⟩ }
      let delta : Int := (turn - p.turn) * d1.f.car.modulus + new - p.pos
      let agrees := (dir == 0) || (dir == 1 && decide (0 < delta)) || (dir == 2 && decide (delta < 0))
      if p.valid && agrees then d2.phaseUpdate p.pos delta else d2

/-! ## Refresh ticks (R47 to R49, R154) -/

/-- Lanes in a mask of four. -/
def lanesIn (m : Nat) : Nat := m % 2 + m / 2 % 2 + m / 4 % 2 + m / 8 % 2

/-- The effective refresh period in units of 25 ns (R48). -/
def effPeriod (period fwd ret : Nat) : Nat :=
  let f := match lanesIn fwd with | 4 => 10 | 3 => 11 | _ => 16
  let r := if lanesIn ret = 2 then 10 else 16
  max period (max f r)

/-- The effective period from PRZ_REFRESH and the lanes in use. -/
def Dev.effNow (d : Dev) : Nat := effPeriod (d.fld Fld.PRZ_REFRESH_PERIOD) d.h.link.fwd d.h.link.ret

/-- An image at a refresh tick (R154): the word in force is latched, and the writes merged since the last latch are carried for the
first time. -/
def Image.latch (i : Image) : Image :=
  { i with latched := i.cur, older := i.older ++ i.carried, carried := i.merged, merged := [] }

/-- REF_A and REF_B of both images as of now (R47). With the first ones sent after a wake, WDA and WDB go on (R254). -/
def Dev.sendRefresh (d : Dev) : Dev :=
  let n := d.h.refNum
  let d1 := { d with
    h.imgA := d.h.imgA.latch
    h.imgB := d.h.imgB.latch
    h.refNum := (n + 1) % 32
    h.mir.takeover := d.h.mir.takeover.map (fun k : Takeover => { k with latched := true }) }
  let d2 := (d1.emitCell .h (.refresh false n d1.h.imgA.latched)).emitCell .h (.refresh true n d1.h.imgB.latched)
  if d.h.dev = .rest then (d2.wdResume 0).wdResume 1 else d2

/-- A PARAM that has not been answered goes out (again): the H-side sends it until PARAM_ACK comes (R49), here with every refresh
(DESIGN CHOICE of the interval, log entry 33). -/
def Dev.sendParam (d : Dev) : Dev :=
  match d.h.param with
  | some (p, n, e) => d.emitCell .h (.param p n e)
  | none => d

/-- REFRESH_TICK (R47, R49, R154): one effective period after the last tick, on a link that is up. -/
def doRefreshTick (t : Nat) (d : Dev) : Dev :=
  let d := d.at t
  if !d.h.link.up || decide (d.now < d.h.lastTick + d.fld Fld.PRZ_REF_EFF_EFF * 20) then d
  else ({ d.sendRefresh with h.lastTick := d.now }).sendParam

/-! ## Refresh commits (R47, R84, R87, R139 to R142, R145, R156) -/

/-- The refused-word count and hold of a function, and the channels with them replaced. -/
def Chans.ref (c : Chans) (fn : Func) : Nat × Bool := if fn then (c.refCntB, c.refHoldB) else (c.refCntA, c.refHoldA)
def Chans.setRef (c : Chans) (fn : Func) (k : Nat) (hold : Bool) : Chans :=
  if fn then { c with refCntB := k, refHoldB := hold } else { c with refCntA := k, refHoldA := hold }

/-- CHK_PATH has been quiet at the F-side for its quiet period (R142). -/
def Dev.chkPathQuiet (d : Dev) : Bool :=
  let s := d.src .f Sn.CHK_PATH
  !s.active && decide (s.last + d.quietOf .f Sn.CHK_PATH ≤ d.now)

/-- The channels on which a function's first OUT_WRITE since they gained an owner is among the tags committed (R84, R87). -/
def Dev.released (d : Dev) (fn : Func) (tags : List Nat) : W48 :=
  let ord := ((tags.filterMap d.op).map (·.ord)).foldl max 0
  let own := d.f.ch.ownMask fn &&& d.f.ch.wait87
  if tags.isEmpty then 0
  else (List.range 48).foldl (fun m n =>
    if own &&& chBit n != 0 && decide (Tab.get (fun _ => 0) d.f.ch.ownOrd n ≤ ord) then m ||| chBit n else m) 0

/-- The tags of a function's pair whose OUT_WRITE may release channels (R81, Table CH-3): none while the function is in D3hot, and none
that was merged before it went there. -/
def Dev.releasing (d : Dev) (fn : Func) (tags : List Nat) : List Nat :=
  if (d.pci fn).d3 then []
  else tags.filter (fun g => match d.op g with | some o => !d.f.ch.noRelease.contains o.ord | none => false)

/-- One word of a pair at the pin driver stage (R140 to R142, R155): taken if its check holds under the refresh route, but for the
channels that an IMMEDIATE write or a slot sets in this cycle, with the releases of R87; else refused, and at MISS_N refusals in a row
the function's channels are held. -/
def Dev.commitWord (d : Dev) (fn : Func) (c : Container) : Dev :=
  let i := d.img fn
  let tags := d.releasing fn (i.older ++ i.carried)
  let r := d.f.ch.ref fn
  if c.good fn 0 routeRefresh then
    let keep := d.f.ch.immNow d.now ||| d.f.ch.slotNow d.now 0
    let word := (c.word &&& ~~~keep) ||| (d.f.ch.word fn &&& keep)
    let ch := (d.f.ch.setWord fn word).setRef fn 0 (r.2 && !d.chkPathQuiet)
    let ch1 := { ch with wait87 := ch.wait87 &&& ~~~(d.released fn tags) }
    { d with f.ch := if tags.isEmpty then ch1 else if fn then { ch1 with waitB := false } else { ch1 with waitA := false } }
  else
    let d1 := d.refuse (if fn then pathREF_B else pathREF_A) fn 0
    { d1 with f.ch := d1.f.ch.setRef fn (r.1 + 1) (r.2 || decide (d.f.watch.missN ≤ r.1 + 1)) }

/-- An operation's F-side context, made now if its OP_OPEN is still on the way. -/
def Dev.needFop (d : Dev) (tag : Nat) : Dev :=
  match d.op tag, d.fop tag with
  | some o, none => d.setFop tag (some ⟨o.fn, o.ring, o.desc, [], false, none⟩)
  | _, _ => d

/-- The OUT_WRITEs of a pair are judged after its commit (R141, R145): those of an accepted word, or CHK_PATH for those that a refused
word carried for the first time. An IMMEDIATE write is judged by its own apply. One whose OP_OPEN has not come waits for the next
commit. -/
def Dev.judgePair (d : Dev) (fn : Func) (accepted : Bool) : Dev :=
  let i := d.img fn
  let refreshed := fun tag : Nat => match d.op tag with | some o => o.desc.update == 0 | none => false
  if accepted then
    let tags := (i.older ++ i.carried).filter refreshed
    let late := tags.filter (fun g => (d.fop g).isNone)
    (tags.filter (fun g => (d.fop g).isSome)).foldl (fun d g =>
      match d.fop g with
      | some o => (d.setFop g (some { o with begun := true })).judge g fn o.desc.outMask
      | none => d) (d.setImg fn { i with carried := [], older := late })
  else
    (i.carried.filter refreshed).foldl (fun d g => (d.needFop g).endF g stCHK_PATH 0) (d.setImg fn { i with carried := [] })

/-- The longest spacing of commits that is no missed period, beyond P, in cycles (R51, Table PRZ-1). -/
def Dev.slotGap (d : Dev) : Nat := match lanesIn d.h.link.fwd with | 4 => 80 | 3 => 106 | _ => 160

/-- A REF_B in this cycle came in the reserved slot after that of a REF_A (R47, Table PRZ-1): with three lanes the spacing is 106.67
cycles. -/
def Dev.nextSlot (d : Dev) (refAt : Nat) : Bool :=
  decide (d.now ≤ refAt + (if lanesIn d.h.link.fwd = 3 then 107 else d.slotGap))

/-- The refresh watch at a commit (R49 to R51): it is armed, the values of a PARAM apply, and an expiry ends once commits have
continued for the quiet period. -/
def Dev.watchCommit (d : Dev) : Dev :=
  let w := d.f.watch
  let missed := match w.lastCommit with
    | some l => decide (l + w.period * 20 + d.slotGap < d.now)
    | none => false
  let over_ := match w.runFrom with
    | some r => !missed && decide (r + d.quietOf .f Sn.PRZ_REF_MISS ≤ d.now)
    | none => false
  let run := if !w.expired || over_ then none else if missed then some d.now else some (w.runFrom.getD d.now)
  let v := w.next.getD (w.period, w.missN)
  let d1 := { d with f.watch := { w with
    lastCommit := some d.now, expired := w.expired && !over_, runFrom := run, period := v.1, missN := v.2, next := none } }
  d1.condEnd .f Sn.PRZ_REF_MISS

/-- Channel ownership takes effect (R84). -/
def Dev.adoptOwners (d : Dev) : Dev :=
  { d with f.ch := { d.f.ch with
    own0 := d.rd (Reg.PCI_OWN_CH 0), own1 := d.rd (Reg.PCI_OWN_CH 1), own2 := d.rd (Reg.PCI_OWN_CH 2) } }

/-- A pair is committed (R47): the takeover commit (R358) and the wake exit (R283) come first, then ownership, both words, the holds
that end (R156), comparison samples (R144) and the judging of OUT_WRITEs. -/
def Dev.commit (d : Dev) (a b : Container) : Dev :=
  let d0 := d.watchCommit
  let d1 := match d0.h.mir.takeover with
    | some k => if k.latched then d0.takeoverCommit k else d0
    | none => d0
  let d2 := ((((d1.restExit).adoptOwners).commitWord false a).commitWord true b)
  let c := d2.f.ch
  let d3 := { d2 with f.ch.wait87 := c.wait87 ||| ~~~(c.ownMask false ||| c.ownMask true) }
  let d4 := ({ d3 with f.ch.held := d3.holdMask }).pins
  let d5 := d4.addDue d4.f.ch.compared
  (d5.judgePair false (a.good false 0 routeRefresh)).judgePair true (b.good true 0 routeRefresh)

/-- The refresh watch expires (R50): every output channel goes to its fail-safe value and PRZ_REF_MISS is raised. -/
def Dev.watchExpire (d : Dev) : Dev :=
  (({ d with f.watch := { d.f.watch with expired := true, runFrom := none, expAt := some d.now } }).pins).raiseBoth .f Sn.PRZ_REF_MISS

/-- The watch is armed and has reached N × P since the last commit, which was after its last expiry. -/
def Dev.watchDue (d : Dev) : Bool :=
  let w := d.f.watch
  (!w.expired || w.runFrom.isSome) && (match w.lastCommit with
    | some l => decide (l + w.missN * w.period * 20 ≤ d.now)
    | none => false)

/-- A refresh number that is neither the last one seen nor the next counts as a gap. -/
def Dev.refGap (d : Dev) (n : Nat) : Dev :=
  let d1 := { d with f.watch.lastNum := some n }
  match d.f.watch.lastNum with
  | some k => if n = k ∨ n = (k + 1) % 32 then d1 else d1.bump Fld.PRZ_SEQ_CNT_COUNT (przSat 1)
  | none => d1

/-- A pair whose REF_B has come (R47, R50): an expiry that is due in this cycle takes effect instead, and one that has taken effect in
it discards the commit. -/
def Dev.pairIn (d : Dev) (a b : Container) : Dev :=
  if d.watchDue then d.watchExpire
  else if d.f.watch.expAt = some d.now then d
  else d.commit a b

/-- REFRESH_CELL_RECEIVE (R47, R50): a REF_B with the number of the REF_A in the preceding reserved slot commits the pair. -/
def doRefreshCellReceive (cell : Cell80) (t : Nat) (d : Dev) : Dev :=
  let r := (d.at t).receiveCell .f cell
  if !r.1 || cell.typ != 1 then r.2
  else
    let d1 := r.2.refGap cell.seq
    if cell.route / 16 = 0 then { d1 with f.watch := { d1.f.watch with refA := some (cell.seq, cell.container), refAt := d1.now } }
    else
      let d2 := { d1 with f.watch.refA := none }
      match d1.f.watch.refA with
      | some (n, a) => if n = cell.seq && d1.nextSlot d1.f.watch.refAt then d2.pairIn a cell.container else d2
      | none => d2

/-- The value of MISS_STATUS is sent; on a link that is not up it waits (R50). -/
def Dev.sendMiss (d : Dev) : Dev :=
  if d.h.link.up then ({ d with f.watch.missDue := false }).emitCell .f (.missStatus d.f.watch.reported)
  else { d with f.watch.missDue := true }

/-- REFRESH_WATCH_PERIOD (R50): the value of MISS_STATUS changes and is sent. -/
def doRefreshWatchPeriod (t : Nat) (d : Dev) : Dev :=
  let d := d.at t
  match d.f.watch.lastCommit with
  | some l =>
    let k := min 15 ((d.now - l) / (d.f.watch.period * 20))
    if k = d.f.watch.reported then d else ({ d with f.watch.reported := k }).sendMiss
  | none => d

/-- REFRESH_WATCH_EXPIRE (R50). -/
def doRefreshWatchExpire (t : Nat) (d : Dev) : Dev :=
  let d := d.at t
  if d.watchDue then d.watchExpire else d

/-- MISS_STATUS_RECEIVE (R50). -/
def doMissStatusReceive (cell : Cell80) (d : Dev) : Dev :=
  let r := d.linkCell .h 0x07 cell
  if r.1 then r.2.setFld Fld.PRZ_STATUS_MISS_NOW (cell.bits 52 4) else r.2

/-! ## The PARAM exchange (R49, R68) -/

/-- A write that the Prism block ignores (R68). -/
def Dev.przRej (d : Dev) : Dev := d.setFld Fld.PRZ_STATUS_CFG_REJ 1

/-- A write of PRZ_REFRESH (R49, R68): accepted, it starts the PARAM exchange; on a link that is not up, training carries it. -/
def Dev.refreshWrite (d : Dev) (fn : Func) (data : Word) : Dev :=
  let p := bitsOf data.toNat 0 10
  let n := bitsOf data.toNat 10 4
  if fn || d.flag Fld.PRZ_CTRL_LOCK || decide (p < 10) || decide (640 < p) || decide (n < 2) then d.przRej
  else
    let d1 := d.wrAccess Reg.PRZ_REFRESH data
    if d.h.link.up then ({ d1 with h.param := some (p, n, d1.effNow) }).sendParam else d1

/-- PRZ_REFRESH_WRITE. -/
def doPrzRefreshWrite (fn : Func) (data : Word) (d : Dev) : Dev := d.hostDo fn Reg.PRZ_REFRESH (·.refreshWrite fn data)

/-- PARAM_RECEIVE (R49): answered by PARAM_ACK, which echoes it; the values apply from the next commit. -/
def doParamReceive (cell : Cell80) (d : Dev) : Dev :=
  let r := d.linkCell .f 0x04 cell
  let n := cell.bits 42 4
  let eff := cell.bits 32 10
  if r.1 then ({ r.2 with f.watch.next := some (eff, n) }).emitCell .f (.paramAck (cell.bits 46 10) n eff) else r.2

/-- PARAM_ACK_RECEIVE (R49): the H-side uses the values from the next tick. -/
def doParamAckReceive (cell : Cell80) (d : Dev) : Dev :=
  let r := d.linkCell .h 0x05 cell
  let eff := cell.bits 32 10
  if r.1 && d.h.param == some (cell.bits 46 10, cell.bits 42 4, eff)
  then ({ r.2 with h.param := none }).setFld Fld.PRZ_REF_EFF_EFF eff
  else r.2

/-! ## The bulk stream (R55, R130) -/

/-- The other die. -/
def Die.other : Die → Die
  | .h => .f
  | .f => .h

/-- A receiver sends ACK for the last in-order SEQ. -/
def Dev.sendAck (d : Dev) (x : Die) : Dev :=
  let b := d.bulk x
  (d.setBulk x { b with since := 0 }).emitCell x (.ack ((b.rxSeq + 31) % 32))

/-- BULK_CELL_RECEIVE (R55): the next expected SEQ is accepted, and every eighth accepted cell is acknowledged; the first
out-of-order cell after an accepted one is answered with NAK. -/
def doBulkCellReceive (x : Die) (cell : Cell80) (t : Nat) (d : Dev) : Dev :=
  let r := (d.at t).receiveCell x cell
  let d1 := r.2
  if !r.1 || !(cell.typ == 3 || cell.typ == 4) then d1
  else
    let b := d1.bulk x
    if cell.seq = b.rxSeq then
      let b1 := { b with
        rxSeq := (b.rxSeq + 1) % 32, nakSent := false, since := b.since + 1
        sinceAt := if b.since = 0 then d1.now else b.sinceAt }
      let d2 := d1.setBulk x b1
      if 8 ≤ b1.since then d2.sendAck x else d2
    else
      let d2 := d1.bump Fld.PRZ_SEQ_CNT_COUNT (przSat 1)
      if b.nakSent then d2
      else (d2.setBulk x { d2.bulk x with nakSent := true }).emitCell x (.nak b.rxSeq)

/-- ACK_SEND_TIMER (R55): 200 ns after the first accepted cell that no ACK has covered. -/
def doAckSendTimer (x : Die) (t : Nat) (d : Dev) : Dev :=
  let d := d.at t
  let b := d.bulk x
  if d.h.link.up && b.since != 0 && decide (b.sinceAt + 160 ≤ d.now) then d.sendAck x else d

/-- ACK (R55): a transmitter releases the cells up to the SEQ, and waiting items take their room. -/
def doAck (x : Die) (cell : Cell80) (t : Nat) (d : Dev) : Dev :=
  let r := (d.at t).linkCell x 0x01 cell
  let d := r.2
  let b := d.bulk x
  let k := (cell.bits 51 5 + 32 + b.replay.length - b.txSeq) % 32
  if !r.1 || decide (b.replay.length ≤ k) then d
  else ((d.setBulk x { b with replay := b.replay.drop (k + 1), replayAt := d.now, resends := 0 }).drainBulk x 16).sendReads

/-- Bulk cells go out again under their SEQs. -/
def Dev.sendAgain (x : Die) : Nat → List Cell → Dev → Dev
  | _, [], d => d
  | n, c :: t, d => Dev.sendAgain x ((n + 1) % 32) t (d.emit (.cell x (c.wire n)))

/-- A transmitter resends from the oldest unacknowledged cell (R55); the fourth resend without progress retrains the link. Cells of
operations that are in the replay buffer are resent while a HALT holds the link too: R62 says what is sent then, and R55 that what
has been sent is resent (DESIGN CHOICE, log entry 92). -/
def Dev.resend (d : Dev) (x : Die) : Dev :=
  let b := d.bulk x
  let d1 := d.setBulk x { b with replayAt := d.now, resends := b.resends + 1 }
  let d2 := Dev.sendAgain x ((b.txSeq + 32 - b.replay.length % 32) % 32) b.replay d1
  let d3 := (d2.bump Fld.PRZ_REPLAY_CNT_COUNT (przSat 2)).raiseBoth x Sn.PRZ_REPLAY
  if 4 ≤ b.resends + 1 then d3.enterTraining else d3

/-- NAK (R55). -/
def doNak (x : Die) (cell : Cell80) (t : Nat) (d : Dev) : Dev :=
  let r := (d.at t).linkCell x 0x02 cell
  let d := r.2
  if r.1 && !(d.bulk x).replay.isEmpty then d.resend x else d

/-- REPLAY_TIMEOUT (R55): no ACK for 2 µs. -/
def doReplayTimeout (x : Die) (t : Nat) (d : Dev) : Dev :=
  let d := d.at t
  let b := d.bulk x
  if d.h.link.up && !b.replay.isEmpty && decide (b.replayAt + 2 * usCycles ≤ d.now) then d.resend x else d

/-! ## Training (R57, R58, R60, R389, R417) -/

/-- LANE_FAIL (R58): a receiver declares lanes failed; its die sends RETRAIN and enters training. Forward lanes are received by the
F-side. -/
def doLaneFail (x : Die) (lanes : Nat) (t : Nat) (d : Dev) : Dev :=
  let d := d.at t
  let l := d.h.link
  let hit := lanes &&& (match x with | .f => l.fwd | .h => l.ret)
  if !(l.up || l.training) || hit == 0 then d
  else
    let l1 := match x with | .f => { l with fwdBad := l.fwdBad ||| hit } | .h => { l with retBad := l.retBad ||| hit }
    (({ d with h.link := l1 }).emitCell x (.retrain (15 ^^^ l1.fwdBad) (3 ^^^ l1.retBad))).enterTraining

/-- RETRAIN (R58): a die receives RETRAIN with the lanes usable, or detects the training pattern. A lane that a failure has excluded stays
excluded. -/
def doRetrain (x : Die) (cell : Option Cell80) (t : Nat) (d : Dev) : Dev :=
  let d := d.at t
  if !d.h.link.up then d
  else match cell with
    | none => d.enterTraining
    | some c =>
      let r := d.linkCell x 0x03 c
      let l := r.2.h.link
      if r.1 then ({ r.2 with h.link := { l with
        fwdBad := l.fwdBad ||| (15 ^^^ c.bits 52 4), retBad := l.retBad ||| (3 ^^^ c.bits 50 2) } }).enterTraining
      else r.2

/-- A retrain on all lanes is commanded (R58). -/
def Dev.retrainAll (d : Dev) : Dev :=
  if d.h.link.stopped || !(d.h.link.up || d.h.link.training) then d
  else (({ d with h.link := { d.h.link with fwdBad := 0, retBad := 0 } }).emitCell .h (.retrain 15 3)).enterTraining

/-- PRZ_RETRAIN_CMD (R58, R68). -/
def doPrzRetrainCmd (fn : Func) (t : Nat) (d : Dev) : Dev :=
  (d.at t).hostDo fn Reg.PRZ_CTRL (fun d => if fn then d.przRej else d.retrainAll)

/-- A transmitter after training (R57): it discards the cells up to the SEQ that its receiver's ACK carries, and numbers the rest from 0;
as a receiver it expects SEQ 0. -/
def renumber (tx : BulkEnd) (acked now : Nat) : BulkEnd :=
  let base := (tx.txSeq + 32 - tx.replay.length % 32) % 32
  let got := (acked + 33 - base) % 32
  let rest := if got ≤ tx.replay.length then tx.replay.drop got else tx.replay
  { tx with
    replay := rest, txSeq := rest.length % 32, replayAt := now, resends := 0
    rxSeq := 0, since := 0, nakSent := false, seen := 0, fails := [] }

/-- The exchange at the end of training (R57): RETRAIN cells with the lanes locked, an ACK of each side with the last bulk SEQ that it has
accepted, and from SEQ 0 the cells that the other side has not. Cells of operations are among them while a HALT holds the link too
(DESIGN CHOICE, log entry 92). -/
def Dev.exchange (d : Dev) (fwd ret : Nat) : Dev :=
  let last := fun b : BulkEnd => (b.rxSeq + 31) % 32
  let ah := last d.h.bulk
  let af := last d.f.bulk
  let bh := renumber d.h.bulk af d.now
  let bf := renumber d.f.bulk ah d.now
  let d1 := (d.emitCell .h (.retrain fwd ret)).emitCell .f (.retrain fwd ret)
  let d2 := (d1.emitCell .h (.ack ah)).emitCell .f (.ack af)
  let d3 := { d2 with h.bulk := bh, f.bulk := bf, h.param := none, f.watch.refA := none }
  Dev.sendAgain .f 0 bf.replay (Dev.sendAgain .h 0 bh.replay d3)

/-- The link comes up (R57, R58, R265, R389, R417): after the exchange the events that waited go out, one refresh beside the tick
schedule and a MISS_STATUS that waited; the effective period follows the lanes, the lock copy is rebuilt, and outside a boot the
shadow is written. -/
def Dev.linkUp (d : Dev) (fwd ret : Nat) : Dev :=
  let l := { d.h.link with up := true, training := false, stopped := false, fwd := fwd, ret := ret }
  let d3 := ((({ d with h.link := l }).exchange fwd ret).sendWaiting .h).sendWaiting .f
  let d4 := (d3.setFld Fld.PRZ_REF_EFF_EFF d3.effNow).sendRefresh
  let d5 := { d4 with f.watch.next := some (d4.effNow, d4.fld Fld.PRZ_REFRESH_MISS_N) }
  let d5 := if d5.f.watch.missDue then d5.sendMiss else d5
  let d6 : Dev := if fwd = 15 ∧ ret = 3 then d5.condEnd .h Sn.PRZ_LANE_DEGRADE else d5.raiseBoth .h Sn.PRZ_LANE_DEGRADE
  let d7 : Dev := ((d6.condEnd .h Sn.PRZ_LINK_DOWN).lockCopy fLockBits).setFld Fld.SYS_LOCK_STATUS_F_STALE 0
  let d8 := if d7.h.dev = .boot then d7 else d7.shadowSync
  ((d8.drainBulk .h 16).drainBulk .f 16).sendReads

/-- Training ends with the lanes that both ends have locked (R57, R60). -/
def Dev.trained (d : Dev) (fwd ret : Nat) : Dev :=
  let f := fwd % 16 &&& (15 ^^^ d.h.link.fwdBad)
  let r := ret % 4 &&& (3 ^^^ d.h.link.retBad)
  if 2 ≤ lanesIn f ∧ 1 ≤ lanesIn r then d.linkUp f r else d.linkDown

/-- TRAINING_COMPLETE. -/
def doTrainingComplete (fwd ret : Nat) (t : Nat) (d : Dev) : Dev :=
  let d := d.at t
  if d.h.link.training then d.trained fwd ret else d

/-- LINK_TRAIN_RETRY (R60): while the link is down, every 1 ms, on all lanes; the schedule does not wait for a training that fails. -/
def doLinkTrainRetry (t : Nat) (d : Dev) : Dev :=
  let d := d.at t
  let l := d.h.link
  if !d.linkIsDown || d.h.dev == .off || decide (d.now < l.retryAt) then d
  else { d with h.link := { l with
    training := true, fwdBad := 0, retBad := 0, retryAt := l.retryAt + ((d.now - l.retryAt) / msCycles + 1) * msCycles } }

/-! ## Events and REST cells (R46, R63, R265, R266) -/

/-- SN_EVENT (R46, R60, R265, R266): the receiving die acts on the first good copy of an event, on a link that is up. Beside the
source, the severity and the activity of Table PRZ-4 the payload carries the scope (R266). -/
def doSnEvent (x : Die) (cell : Cell80) (t : Nat) (d : Dev) : Dev :=
  let r := (d.at t).receiveCell x cell
  let d := r.2
  let src := cell.bits 49 7
  let key := (cell.seq, cell.bits 16 40)
  if !r.1 || cell.typ != 5 || decide (96 ≤ src) || (d.bulk x).evSeen == some key then d
  else
    let d1 := d.setBulk x { d.bulk x with evSeen := some key }
    let sev := cell.bits 47 2
    let active := cell.bits 46 1 == 1
    let b := cell.bits 45 1 == 1
    let a := cell.bits 44 1 == 1
    match x with
    | .h => d1.eventAtH src sev active a b
    | .f => d1.eventAtF src sev active a b

/-- REST_CELL_RECEIVE (R63): at a REST cell of the exchange the F-side disarms its watch and the link stops. -/
def doRestCellReceive (x : Die) (cell : Cell80) (t : Nat) (d : Dev) : Dev :=
  let r := (d.at t).linkCell x 0x06 cell
  let d := r.2
  if !r.1 || (d.h.restEntry.isNone && d.f.ch.rest.isNone) then d
  else match x, cell.bits 55 1 == 1 with
    | .f, true => d.watchDisarm.linkStop
    | .h, false => d.linkStop
    | _, _ => d

/-! ## Registers (R68, Table PRZ-8) -/

/-- The four counters, in offset order. -/
def przCounters : List Fld :=
  [Fld.PRZ_CELL_ERR_CNT_COUNT, Fld.PRZ_SEQ_CNT_COUNT, Fld.PRZ_REPLAY_CNT_COUNT, Fld.PRZ_RETRAIN_CNT_COUNT]

/-- A write to a Prism register. -/
def Dev.przWrite (d : Dev) (fn : Func) (off : Nat) (data : Word) : Dev :=
  if fn then d.przRej
  else if off = Reg.PRZ_CTRL then
    let d1 := if bitOf data.toNat 0 then d.retrainAll else d
    if bitOf data.toNat 1 then d1.setFld Fld.PRZ_CTRL_LOCK 1 else d1
  else if off = Reg.PRZ_REFRESH then d.refreshWrite fn data
  else if off = Reg.PRZ_CNT_SAT then
    (List.range 4).foldl (fun d k =>
      if bitOf data.toNat (4 + k) then d.clearCnt (przCounters.getD k Fld.PRZ_CELL_ERR_CNT_COUNT) (przSat k) else d) d
  else d.wrAccess off data

/-- A Prism register as read. -/
def Dev.przRead (d : Dev) (off : Nat) : Word :=
  let l := d.h.link
  if off = Reg.PRZ_STATUS then
    d.rd off ||| BitVec.ofNat 32 (b2n l.up + b2n l.training * 2 + b2n d.haltAct * 4 + l.fwd % 16 * 8 + l.ret % 4 * 2 ^ 7
      + b2n (l.up && !(l.fwd == 15 && l.ret == 3)) * 2 ^ 9)
  else if off = Reg.PRZ_FWIN_STATUS then d.rd off ||| BitVec.ofNat 32 (min 16 d.h.fwQ.length)
  else d.rd off

/-! ## The commands' meanings -/

/-- The meaning of the command: `doPositionForward` on the device. -/
def execPositionForward (t : Nat) (s : State) : Out :=
  s.onDev (doPositionForward t)

/-- The meaning of the command: `doPositionCellReceive` on the device. -/
def execPositionCellReceive (cell : Cell80) (t : Nat) (s : State) : Out :=
  s.onDev (doPositionCellReceive cell t)

/-- The meaning of the command: `doRefreshTick` on the device. -/
def execRefreshTick (t : Nat) (s : State) : Out :=
  s.onDev (doRefreshTick t)

/-- The meaning of the command: `doRefreshCellReceive` on the device. -/
def execRefreshCellReceive (cell : Cell80) (t : Nat) (s : State) : Out :=
  s.onDev (doRefreshCellReceive cell t)

/-- The meaning of the command: `doRefreshWatchPeriod` on the device. -/
def execRefreshWatchPeriod (t : Nat) (s : State) : Out :=
  s.onDev (doRefreshWatchPeriod t)

/-- The meaning of the command: `doRefreshWatchExpire` on the device. -/
def execRefreshWatchExpire (t : Nat) (s : State) : Out :=
  s.onDev (doRefreshWatchExpire t)

/-- The meaning of the command: `doMissStatusReceive` on the device. -/
def execMissStatusReceive (cell : Cell80) (s : State) : Out :=
  s.onDev (doMissStatusReceive cell)

/-- The meaning of the command: `doPrzRefreshWrite` on the device. -/
def execPrzRefreshWrite (fn : Func) (data : Word) (s : State) : Out :=
  s.onDev (doPrzRefreshWrite fn data)

/-- The meaning of the command: `doParamReceive` on the device. -/
def execParamReceive (cell : Cell80) (s : State) : Out :=
  s.onDev (doParamReceive cell)

/-- The meaning of the command: `doParamAckReceive` on the device. -/
def execParamAckReceive (cell : Cell80) (s : State) : Out :=
  s.onDev (doParamAckReceive cell)

/-- The meaning of the command: `doBulkCellReceive` on the device. -/
def execBulkCellReceive (x : Die) (cell : Cell80) (t : Nat) (s : State) : Out :=
  s.onDev (doBulkCellReceive x cell t)

/-- The meaning of the command: `doAckSendTimer` on the device. -/
def execAckSendTimer (x : Die) (t : Nat) (s : State) : Out :=
  s.onDev (doAckSendTimer x t)

/-- The meaning of the command: `doAck` on the device. -/
def execAck (x : Die) (cell : Cell80) (t : Nat) (s : State) : Out :=
  s.onDev (doAck x cell t)

/-- The meaning of the command: `doNak` on the device. -/
def execNak (x : Die) (cell : Cell80) (t : Nat) (s : State) : Out :=
  s.onDev (doNak x cell t)

/-- The meaning of the command: `doReplayTimeout` on the device. -/
def execReplayTimeout (x : Die) (t : Nat) (s : State) : Out :=
  s.onDev (doReplayTimeout x t)

/-- The meaning of the command: `doLaneFail` on the device. -/
def execLaneFail (x : Die) (lanes : Nat) (t : Nat) (s : State) : Out :=
  s.onDev (doLaneFail x lanes t)

/-- The meaning of the command: `doRetrain` on the device. -/
def execRetrain (x : Die) (cell : Option Cell80) (t : Nat) (s : State) : Out :=
  s.onDev (doRetrain x cell t)

/-- The meaning of the command: `doPrzRetrainCmd` on the device. -/
def execPrzRetrainCmd (fn : Func) (t : Nat) (s : State) : Out :=
  s.onDev (doPrzRetrainCmd fn t)

/-- The meaning of the command: `doSnEvent` on the device. -/
def execSnEvent (x : Die) (cell : Cell80) (t : Nat) (s : State) : Out :=
  s.onDev (doSnEvent x cell t)

/-- The meaning of the command: `doRestCellReceive` on the device. -/
def execRestCellReceive (x : Die) (cell : Cell80) (t : Nat) (s : State) : Out :=
  s.onDev (doRestCellReceive x cell t)

/-- The meaning of the command: `doLinkTrainRetry` on the device. -/
def execLinkTrainRetry (t : Nat) (s : State) : Out :=
  s.onDev (doLinkTrainRetry t)

end Sys2Proof.Machine
end

