-- ==== Sys2Proof/Machine/Host.lean ====
section
/-!
DEFINITION. The host functions (R69 to R90): configuration space, BAR0 and BAR2 accesses, MSI-X, the ownership map, function resets
and power states, the PCIe link; the SYS_ registers with the global lock (R382 to R389).
-/

namespace Sys2Proof.Machine

/-! ## MSI-X (R77, R79) -/

/-- Each unmasked vector with its pending bit set sends one message. -/
def Dev.flushVectors (d : Dev) (fn : Func) : Dev :=
  (List.range 4).foldl (fun d v =>
    let p := d.pci fn
    if p.msixEn && !p.d3 && bitOf p.pba v && !d.masked fn v then (d.setPci fn { p with pba := p.pba - 2 ^ v }).message fn v
    else d) d

/-- One word of the MSI-X table is written; the pending bits are read-only. -/
def Dev.msixWord (d : Dev) (fn : Func) (off : Nat) (data : Word) : Dev :=
  if off < 0x40 then d.wr (keyOf fn (0x20000 + off)) (if off % 16 = 12 then data &&& 1 else data) else d

/-- A BAR2 write: naturally aligned, of 32 or 64 bits. -/
def Dev.msixWrite (d : Dev) (fn : Func) (off size : Nat) (data : Quad) : Dev :=
  if size = 4 ∧ off % 4 = 0 then (d.msixWord fn off (data.extractLsb' 0 32)).flushVectors fn
  else if size = 8 ∧ off % 8 = 0 then
    ((d.msixWord fn off (data.extractLsb' 0 32)).msixWord fn (off + 4) (data.extractLsb' 32 32)).flushVectors fn
  else d

/-- A word of BAR2 as read (R77): the MSI-X table, the pending bits at 0x1000, and 0 elsewhere. -/
def Dev.msixRead (d : Dev) (fn : Func) (off : Nat) : Word :=
  if off < 0x40 then d.rd (keyOf fn (0x20000 + off))
  else if off = 0x1000 then BitVec.ofNat 32 ((d.pci fn).pba % 16) else 0

/-- MSIX_UNMASK (R77, R79): the mask bit of a vector is cleared, by a write that the endpoint takes. -/
def doMsixUnmask (fn : Func) (vec : Nat) (d : Dev) : Dev :=
  if 4 ≤ vec || !d.barOpen fn then d
  else (d.msixWord fn (16 * vec + 12) 0).flushVectors fn

/-! ## The ownership map (R83, R84) -/

/-- A map write is ignored or refused. -/
def Dev.mapRej (d : Dev) : Dev := d.setFld Fld.PCI_OWN_CTRL_CFG_REJ 1

/-- Code `k` of a map word, and the number of codes in a map register. -/
def mapCodeAt (w : Word) (k : Nat) : Nat := bitsOf w.toNat (2 * k) 2
def mapCodes (off : Nat) : Nat := if off = Reg.PCI_OWN_PORT then 12 else if off = Reg.PCI_OWN_FT then 8 else 16

/-- The FSP select that an operation uses: by its ECTRL, by its entry, or by DEST. -/
def Dev.opSelect (d : Dev) (e : Desc) : Option Nat :=
  if e.opcode = opFSP_ENTRY_LOAD then some (ecSel e.ectrl)
  else if e.opcode = opFSP_RUN then some (ecSel (d.fspEntry e.entry).ectrl)
  else if e.opcode = opFSP_TARGET then some (e.dest - 0x110)
  else none

/-- An operation in flight uses the resource of a map code, or for the Carousel CAR_CTRL.EN is 1 (R84). Channels never refuse. -/
def Dev.mapBusy (d : Dev) (off k : Nat) : Bool :=
  let fl := fun p : Op → Bool => d.opsList.any (fun x => p x.2)
  if off = Reg.PCI_OWN_FT then fl (fun o => o.desc.opcode == opFT_CAPTURE && o.desc.dest == 0x128 + k)
  else if off != Reg.PCI_OWN_PORT then false
  else if k = 0 then d.carEn
  else if k = 1 then fl (fun o => o.desc.opcode == opTWP_XFER)
  else if k = 2 then fl (fun o => o.desc.opcode == opTWP_TARGET)
  else if k = 3 then fl (fun o => (d.opSelect o.desc).isSome)
  else fl (fun o => d.opSelect o.desc == some (k - 4))

/-- A write of the ownership map (R83, R84, R264). A channel that goes from no one to a function waits for that function's first OUT_WRITE
accepted after the change; the owners of ports and timers go to the shadow too. -/
def Dev.mapWrite (d : Dev) (fn : Func) (off : Nat) (data : Word) : Dev :=
  let ks := List.range (mapCodes off)
  let old := d.rd off
  if fn || d.flag Fld.PCI_OWN_CTRL_LOCK || ks.any (fun k => mapCodeAt data k == 3)
      || ks.any (fun k => mapCodeAt old k != mapCodeAt data k && d.mapBusy off k) then d.mapRej
  else
    let i := (off - Reg.PCI_OWN_CH 0) / 4
    let fresh := if off < Reg.PCI_OWN_PORT then ks.filter (fun k => mapCodeAt old k == 0 && mapCodeAt data k != 0) else []
    let ord := fresh.foldl (fun t k => t.set (fun _ => 0) (16 * i + k) d.h.ord) d.f.ch.ownOrd
    let d1 := ({ d with f.ch.ownOrd := ord }).wrAccess off data
    if off < Reg.PCI_OWN_PORT then d1 else d1.shadowSend false off (d1.rd off)

/-- PCI_INT_CAUSE is written (R80). -/
def Dev.causeClear (d : Dev) (fn : Func) (data : Word) : Dev := (d.wrAccess (keyOf fn Reg.PCI_INT_CAUSE) data).intx fn

/-- A write to a PCI_ register. -/
def Dev.pciWrite (d : Dev) (fn : Func) (off : Nat) (data : Word) : Dev :=
  if (Reg.PCI_OWN_CH 0 ≤ off ∧ off < Reg.PCI_OWN_CH 3) ∨ off = Reg.PCI_OWN_PORT ∨ off = Reg.PCI_OWN_FT then d.mapWrite fn off data
  else if off = Reg.PCI_OWN_CTRL then
    if fn then d.mapRej
    else
      let d1 := if bitOf data.toNat 1 then d.setFld Fld.PCI_OWN_CTRL_CFG_REJ 0 else d
      if bitOf data.toNat 0 then d1.setFld Fld.PCI_OWN_CTRL_LOCK 1 else d1
  else if off = Reg.PCI_INT_CAUSE then d.causeClear fn data
  else if off = Reg.PCI_CNT_SAT then
    if bitOf data.toNat 1 then d.clearCnt (Fld.PCI_DROP_CNT_COUNT.of fn) (Fld.PCI_CNT_SAT_SAT.of fn) else d
  else d

/-! ## H-side register writes (R8, R383) -/

/-- A write to an H-side register of 0x0100 to 0x1FFF by its block's rules. Its caller has found the offset listed. -/
def State.blockWrite (s : State) (fn : Func) (off : Nat) (data : Word) : State :=
  let dev := s.nv.lifecycle == .development
  if off < 0x0200 then s.mapDev (·.pciWrite fn off data)
  else if off < 0x0400 then s.mapDev (·.przWrite fn off data)
  else if off < 0x1000 then s.mapDev (·.rmWrite fn off data)
  else if off < 0x1400 then s.mapDev (·.snWrite fn off data)
  else if off < 0x1440 then s.mapDev (·.wdWrite dev fn ((off - 0x1400) / 32) ((off - 0x1400) % 32) data)
  else if off < 0x1460 then s.mapDev (fun d => (d.windowPost fn off data false).2)
  else if off < 0x1800 then s.mapDev (·.nvsWrite fn off data)
  else if off < 0x1900 then s.fwWrite fn off data
  else if off < 0x1A00 then s.secWrite fn off data
  else s.mapDev (·.mirWrite fn off data)

/-! ## The global lock (R388, R389) -/

/-- The lock fields of the H-side bits, with the register and the word written (Table IDX-8). -/
def lockOfH (d : Dev) (b : Nat) : Option (Fld × Word) :=
  match b with
  | 1 => some (Fld.PRZ_CTRL_LOCK, 2)
  | 2 => some (Fld.PCI_OWN_CTRL_LOCK, 1)
  | 7 => some (Fld.WD_CTRL_LOCK 0, 2)
  | 8 => some (Fld.WD_CTRL_LOCK 1, 2)
  | 10 => some (Fld.SN_CTRL_LOCK, 1)
  | 12 => some (Fld.SEC_CTRL_POL_LOCK, 1)
  | 13 => some (Fld.SEC_CTRL_ENROL_LOCK, 2)
  | 14 => some (Fld.MIR_CFG_LOCK, setBits (d.rd Reg.MIR_CFG) 17 1 1)
  | _ => none

/-- The lock field and the bits to set of an F-side bit; for FT_LOCK the timers that the function may lock (R241). -/
def lockOfF (d : Dev) (fn : Func) (b : Nat) : Option (Fld × Nat) :=
  match b with
  | 0 => some (Fld.CAR_CTRL_LOCK, 1)
  | 3 => some (Fld.CH_LOCK_LOCK, 63)
  | 4 => some (Fld.FSP_CTRL_LOCK, 1)
  | 5 => some (Fld.TWP_CTRL_LOCK, 1)
  | 6 => some (Fld.FT_LOCK_LOCK, (List.range 8).foldl (fun a k => a + b2n (d.tmMay fn k) * 2 ^ k) 0)
  | 9 => some (Fld.WD_CTRL_LOCK 2, 1)
  | 11 => some (Fld.BRK_CTRL_LOCK, 1)
  | _ => none

/-- The word of a register as the writes that wait in the queue will leave it, without the bits that act when written. -/
def Dev.wordToBe (d : Dev) (off : Nat) : Word :=
  match specOf off with
  | some r => (d.h.fwQ.filter (fun w => w.off == off)).foldl (fun v w => writeBits r v w.data) (d.rd off) &&& r.rw
  | none => 0

/-- SYS_LOCK_STATUS.REJ. -/
def Dev.lockRej (d : Dev) : Dev := d.setFld Fld.SYS_LOCK_STATUS_REJ 1

/-- One bit of SYS_LOCK_SET (R388): a lock that is set already stays without effect; an H-side lock that its block refuses, and an
F-side lock that is dropped, set REJ. -/
def State.lockBit (s : State) (fn : Func) (b : Nat) : State :=
  let d := s.dev
  match lockOfH d b with
  | some (F, w) =>
    if d.flag F then s
    else
      let s1 := s.blockWrite fn F.off w
      if s1.dev.flag F then s1 else s1.mapDev (·.lockRej)
  | none => match lockOfF d fn b with
    | some (F, v) =>
      if bitOf (d.rd Reg.SYS_LOCK_STATUS).toNat b then s
      else if v = 0 then { s with dev := (d.setFld Fld.FT_FLAGS_CFG_REJ 1).lockRej }
      else
        let r := d.windowPost fn F.off (setBits (d.wordToBe F.off) F.lo F.w v) true
        { s with dev := if r.1 then r.2 else r.2.lockRej }
    | none => s

/-- A write to SYS_LOCK_SET: its bits in ascending order. -/
def State.lockSet (s : State) (fn : Func) (data : Word) : State :=
  (List.range 15).foldl (fun s b => if bitOf data.toNat b then s.lockBit fn b else s) s

/-- SYS_LOCK_STATUS as read (R389). -/
def Dev.lockStatus (d : Dev) : Word :=
  (d.rd Reg.SYS_LOCK_STATUS &&& (fLockBits ||| 0x18000)) |||
    BitVec.ofNat 32 ((List.range 15).foldl (fun a b => a + (match lockOfH d b with | some (F, _) => d.fld F * 2 ^ b | none => 0)) 0)

/-! ## BAR0 (R10, R74, R372, R382, R383) -/

/-- A write to a register by a function, under its block's rules: from the host, or from a settings entry at boot (R302). -/
def State.regWrite (s : State) (fn : Func) (off : Nat) (data : Word) : State :=
  if off < 0x2000 then
    match specOf off with
    | none => s
    | some _ =>
      if off = Reg.SYS_LOCK_SET then s.lockSet fn data
      else if off < 0x0100 then s.mapDev (·.wrAccess off data)
      else s.blockWrite fn off data
  else if off < 0x8000 then s.mapDev (fun d => (d.windowPost fn off data false).2)
  else if off < 0xC000 then s.mapDev (·.winWrite fn off data)
  else if off = Reg.WD_SERVICE then s.mapDev (·.wdServe fn.idx data)
  else if off = Reg.SN_ACK then s.mapDev (·.ackWrite fn data)
  else s

/-- REGISTER_WRITE (R8, R10, R71, R77, R384): a memory write of the host, `ecrc` false where its ECRC does not hold. Any access ends
L1.2, which in REST is a wake event. -/
def execRegisterWrite (fn : Func) (bar : Bar) (off size : Nat) (data : Quad) (ecrc : Bool) (t : Nat) (s : State) : Out :=
  let s := s.mapDev (·.at t)
  if s.dev.h.dev = .off ∨ s.dev.h.boot.perst then .next s
  else
    let s1 := s.mapDev (·.wake .h 1)
    if s1.dev.ecrcDrops fn ecrc then .next (s1.mapDev (·.ecrcError fn))
    else if !s1.dev.barOpen fn then .next s1
    else match bar with
      | .bar2 => .next (s1.mapDev (·.msixWrite fn off size data))
      | .bar0 =>
        if size ≠ 4 ∨ off % 4 ≠ 0 ∨ !s1.dev.bootAllows off then .next s1
        else .next (s1.regWrite fn off (data.extractLsb' 0 32))

/-- OWNERSHIP_MAP_WRITE (R83, R84). -/
def doOwnershipMapWrite (fn : Func) (off : Nat) (data : Word) (d : Dev) : Dev :=
  if off < 0x0110 || 0x0124 ≤ off then d else d.hostDo fn off (·.pciWrite fn off data)

/-- PCI_INT_CAUSE_CLEAR (R80). -/
def doPciIntCauseClear (fn : Func) (data : Word) (d : Dev) : Dev :=
  d.hostDo fn Reg.PCI_INT_CAUSE (·.causeClear fn data)

/-- SYS_LOCK_SET_WRITE (R388). -/
def execSysLockSetWrite (fn : Func) (data : Word) (t : Nat) (s : State) : Out :=
  .next ((s.mapDev (·.at t)).hostDo fn Reg.SYS_LOCK_SET (·.lockSet fn data))

/-! ## Counter clears (R13) -/

/-- The counters with a CLR bit in a register: the bit, the counter and its SAT. -/
def clrBits (fn : Func) (off : Nat) : List (Nat × Fld × Fld) :=
  if off = Reg.PCI_CNT_SAT then [(1, Fld.PCI_DROP_CNT_COUNT.of fn, Fld.PCI_CNT_SAT_SAT.of fn)]
  else if off = Reg.PRZ_CNT_SAT then
    (List.range 4).map (fun k => (4 + k, przCounters.getD k Fld.PRZ_CELL_ERR_CNT_COUNT, przSat k))
  else if off = Reg.RM_CNT_SAT then [(1, Fld.RM_DMA_ERR_CNT_COUNT, Fld.RM_CNT_SAT_SAT)]
  else if off = Reg.RM_CHK_STATUS then [(9, Fld.RM_CHK_CNT_COUNT, Fld.RM_CHK_STATUS_SAT)]
  else if off = Reg.RM_PRESS_SAT then [(2, Fld.RM_DUP_CNT_COUNT 0, dupSat false), (3, Fld.RM_DUP_CNT_COUNT 1, dupSat true)]
  else if off = Reg.NVS_CNT_SAT then
    [(2, Fld.NVS_ECC_CNT_COUNT, ⟨Reg.NVS_CNT_SAT, 0, 1⟩), (3, Fld.NVS_BAD_CNT_COUNT, ⟨Reg.NVS_CNT_SAT, 1, 1⟩)]
  else if off = Reg.SEC_CNT_SAT then [(1, Fld.SEC_TAMPER_CNT_COUNT, Fld.SEC_CNT_SAT_SAT)]
  else if off = Reg.MIR_CNT_SAT then
    [(2, Fld.MIR_ABORT_CNT_COUNT, ⟨Reg.MIR_CNT_SAT, 0, 1⟩), (3, Fld.MIR_AUTH_CNT_COUNT, ⟨Reg.MIR_CNT_SAT, 1, 1⟩)]
  else if off = Reg.CAR_CNT_SAT then
    [(3, Fld.CAR_LATE_CNT_COUNT, Fld.CAR_CNT_SAT_SAT_LATE), (4, Fld.CAR_ABANDON_CNT_COUNT, Fld.CAR_CNT_SAT_SAT_ABANDON),
      (5, Fld.CAR_QERR_CNT_COUNT, Fld.CAR_CNT_SAT_SAT_QERR)]
  else if off = Reg.CH_CNT_SAT then [(1, Fld.CH_CAP_LOST_CNT_COUNT, Fld.CH_CNT_SAT_SAT)]
  else if off = Reg.CH_CHK_SAT then
    [(2, Fld.CH_CHK_PATH_CNT_COUNT, Fld.CH_CHK_SAT_SAT_PATH), (3, Fld.CH_CHK_PIN_CNT_COUNT, Fld.CH_CHK_SAT_SAT_PIN)]
  else if off = Reg.FSP_CNT_SAT then
    (List.range 5).map (fun k => (8 + k, fspCounters.getD k Fld.FSP_CRC_CNT_COUNT, ⟨Reg.FSP_CNT_SAT, k, 1⟩))
  else if off = Reg.TWP_CNT_SAT then
    [(8, Fld.TWP_ARB_CNT_COUNT, ⟨Reg.TWP_CNT_SAT, 0, 1⟩), (9, Fld.TWP_LTO_CNT_COUNT, ⟨Reg.TWP_CNT_SAT, 1, 1⟩),
      (10, Fld.TWP_TGT_NR_CNT_COUNT, ⟨Reg.TWP_CNT_SAT, 2, 1⟩)]
  else []

/-- A register write reaches its block: an H-side register through BAR0, a field-window register at the F-side. -/
def State.reach (s : State) (fn : Func) (off : Nat) (data : Word) : State :=
  if onFSide off then s.mapDev (fun d => (d.windowWrite fn off data ⟨0, false, false⟩).orSame d)
  else s.hostDo fn off (·.regWrite fn off data)

/-- The recovery counters that a word of SN_REC_CLR names (R268). -/
def recNamed (data : Word) : List Nat :=
  let i := bitsOf data.toNat 0 7
  if bitOf data.toNat 7 then List.range 96 else if i < 96 then [i] else []

/-- COUNTER_CLEAR (R13): CLR bits reach their counters in a cycle in which `hits` increments reach each of those; the clear takes
effect first. -/
def execCounterClear (fn : Func) (off : Nat) (data : Word) (hits : Nat) (s : State) : Out :=
  if off = Reg.SN_REC_CLR then
    .next ((s.reach fn off data).mapDev (fun d =>
      (recNamed data).foldl (fun d i => (List.range hits).foldl (fun d _ => d.recover i) d) d))
  else match clrBits fn off with
  | [] => .next s
  | l => .next ((s.reach fn off data).mapDev (fun d =>
      (l.filter (fun x => bitOf data.toNat x.1)).foldl (fun d x => d.bumpBy x.2.1 x.2.2 hits) d))

/-! ## Configuration space (R69 to R73, R371) -/

/-- The device serial number in the halves of its capability. -/
def serialWord (n : BitVec 64) (k : Nat) : Word := n.extractLsb' (32 * k) 32

/-- An extended capability's header: its identity, version 1, the next offset. -/
def extCap (id next : Nat) : Word := BitVec.ofNat 32 (id + 2 ^ 16 + next * 2 ^ 20)

/-- The code of a payload or read limit in Device Control: 128 bytes is 0, and each step doubles. -/
def sizeCode (bytes : Nat) : Nat := Nat.log2 (bytes / 128)

/-- The highest rate that the host's Target Link Speed allows (R69): Link Control 2 of Function A, where a field of 0, its content after
reset, stands for 16 GT/s (log entry 9). -/
def Dev.targetSpeed (d : Dev) : Nat :=
  let v := bitsOf (d.rd (cfgKey false 0x090)).toNat 0 4
  if v = 0 then 4 else v

/-- A dword of a function's configuration space as read (Tables PCI-1 to PCI-3; log entry 9). Dwords that no rule names read as they
were last written. -/
def State.cfgRead (s : State) (fn : Func) (off : Nat) : Word :=
  let d := s.dev
  let p := d.pci fn
  let n := fun k : Nat => BitVec.ofNat 32 k
  match off with
  | 0x000 => 0x48641F4C
  | 0x004 => n (b2n p.mse * 2 + b2n p.bme * 4 + b2n p.intDis * 2 ^ 10 + b2n p.intx * 2 ^ 19 + 2 ^ 20)
  | 0x008 => 0x11800000 ||| n s.nv.stepping.toNat
  | 0x00C => 0x00800000
  | 0x010 => n (p.bar0 / 2 ^ 16 * 2 ^ 16 + 4)
  | 0x014 => n (p.bar0 / 2 ^ 32)
  | 0x018 => n (p.bar2 / 2 ^ 13 * 2 ^ 13 + 4)
  | 0x01C => n (p.bar2 / 2 ^ 32)
  | 0x020 => 0
  | 0x024 => 0
  | 0x030 => 0
  | 0x034 => 0x40
  | 0x03C => n (256 * (1 + fn.idx))
  | 0x040 => 0x00034801
  | 0x044 => n (b2n p.d3 * 3 + 8)
  | 0x048 => n (b2n p.msixEn * 2 ^ 31 + b2n p.msixMask * 2 ^ 30 + 3 * 2 ^ 16 + 0x6011)
  | 0x04C => 2
  | 0x050 => 0x1002
  | 0x060 => 0x00020010
  | 0x064 => 0x10008022
  | 0x068 => n (b2n p.relaxed * 2 ^ 4 + sizeCode p.maxPayload * 2 ^ 5 + 2 ^ 8 + sizeCode p.maxRead * 2 ^ 12)
  | 0x06C => 0x00400824
  | 0x070 => (d.rd (cfgKey fn off) &&& 0xFFFC) ||| n (b2n p.l1 * 2 + d.fld (Fld.PCI_LINK_STATUS_SPEED.of fn) * 2 ^ 16 + d.fld (Fld.PCI_LINK_STATUS_WIDTH.of fn) * 2 ^ 20)
  | 0x084 => 0x00030813
  | 0x088 => (d.rd (cfgKey fn off) &&& (if fn then 0x1F else 0x41F)) ||| n (b2n p.tag10 * 2 ^ 12)
  | 0x08C => 0x0000001E
  | 0x090 => (d.rd (cfgKey fn off) &&& 0xFFFFFFF0) ||| n (if fn then 0 else d.targetSpeed)
  | 0x118 => n (2 ^ 5 + b2n p.ecrcGen * 2 ^ 6 + 2 ^ 7 + b2n p.ecrcChk * 2 ^ 8)
  | 0x100 => extCap 0x01 0x148
  | 0x148 => extCap 0x03 (if fn then 0 else 0x158)
  | 0x14C => serialWord s.nv.serial 0
  | 0x150 => serialWord s.nv.serial 1
  | _ =>
    if fn then d.rd (cfgKey fn off)
    else match off with
      | 0x158 => extCap 0x19 0x178
      | 0x178 => extCap 0x26 0x1A8
      | 0x1A8 => extCap 0x27 0x1C8
      | 0x1C8 => extCap 0x1E 0x1D8
      | 0x1CC => 0x0000001F
      | 0x1D0 => (d.rd (cfgKey fn off) &&& 0xFFFFFFF3) ||| n (b2n p.l12 * 4 + b2n p.l11 * 8)
      | 0x1D8 => extCap 0x18 0
      | _ => d.rd (cfgKey fn off)

/-- A dword of the configuration space is read, or a field written; the error status dwords of AER clear where a 1 is written. -/
def State.cfgAccess (s : State) (fn : Func) (a : CfgAccess) : State :=
  let d := s.dev
  let p := d.pci fn
  let put := fun q : PciFn => { s with dev := d.setPci fn q }
  match a with
  | .read off => { s with dev := d.tlp fn (.cpl ((s.cfgRead fn off).setWidth 64)) }
  | .memSpace en => put { p with mse := en }
  | .intDisable dis => (put { p with intDis := dis }).mapDev (·.intx fn)
  | .msixControl en mask => (put { p with msixEn := en, msixMask := mask }).mapDev (fun d => (d.intx fn).flushVectors fn)
  | .aspmL1 en => put { p with l1 := en }
  | .aspmSub l11 l12 => if fn then s else put { p with l11 := l11, l12 := l12 }
  | .tag10 en => put { p with tag10 := en }
  | .relaxed en => put { p with relaxed := en }
  | .ecrc g c => put { p with ecrcGen := g, ecrcChk := c }
  | .bars b0 b2 => put { p with bar0 := b0 / 2 ^ 16 * 2 ^ 16, bar2 := b2 / 2 ^ 13 * 2 ^ 13 }
  | .limits mp mr => put { p with maxPayload := min mp 512, maxRead := mr }
  | .other off data =>
    let k := cfgKey fn off
    if off = 0x2C then s
    else if off = 0x104 ∨ off = 0x110 then { s with dev := d.wr k (d.rd k &&& ~~~data) }
    else { s with dev := d.wr k data }

/-- Step P2 of the boot has ended, so configuration requests complete normally (R371). -/
def Dev.cfgReady (d : Dev) : Bool := d.h.dev != .boot || decide (3 ≤ d.fld Fld.SYS_BOOT_STEP)

/-- CONFIG_REQUEST (R71, R371), `ecrc` false where its ECRC does not hold. Without power or with PERST_N asserted there is no answer; in
REST the request ends L1.2. -/
def execConfigRequest (fn : Func) (a : CfgAccess) (ecrc : Bool) (s : State) : Out :=
  if s.dev.h.dev = .off ∨ s.dev.h.boot.perst then .next s
  else if s.dev.ecrcDrops fn ecrc then .next (s.mapDev (fun d => (d.wake .h 1).ecrcError fn))
  else if !s.dev.cfgReady then .next (s.mapDev (·.tlp fn .cplRetry))
  else .next ((s.mapDev (·.wake .h 1)).cfgAccess fn a)

/-- The endpoint takes configuration writes. -/
def Dev.cfgOpen (d : Dev) : Bool := d.h.dev != .off && !d.h.boot.perst && d.cfgReady

/-- BUS_MASTER_ENABLE_WRITE (R89, R374): setting it is the start point of a watchdog held from the boot. -/
def doBusMasterEnableWrite (fn : Func) (en : Bool) (t : Nat) (d : Dev) : Dev :=
  let d := d.at t
  if !d.cfgOpen then d
  else
    let p := (d.wake .h 1).pci fn
    let d1 := (d.wake .h 1).setPci fn { p with bme := en }
    if en && d1.h.dev != .boot && p.resetAt.isNone then d1.wdStart fn.idx else d1

/-- FLR (R86): in REST the configuration write is a wake event. -/
def doFlr (fn : Func) (t : Nat) (d : Dev) : Dev :=
  let d := d.at t
  if !d.cfgOpen then d else (d.wake .h 1).functionReset fn true

/-- FUNCTION_RESET_COMPLETE (R88). -/
def doFunctionResetComplete (fn : Func) (t : Nat) (d : Dev) : Dev := (d.at t).functionResetEnd fn

/-! ## Power states (R81) -/

/-- The OUT_WRITEs of a function whose values its image holds, merged and not yet judged, by their order of admission. -/
def Dev.mergedOrds (d : Dev) (fn : Func) : List Nat :=
  let i := d.img fn
  ((i.older ++ i.carried ++ i.merged).filterMap d.op).map (·.ord)

/-- D3HOT_ENTRY (R81): the function's rings stop, its INTx is deasserted, and its channels go to their fail-safe values,
from which no OUT_WRITE merged before releases them (Table CH-3). -/
def doD3hotEntry (fn : Func) (t : Nat) (d : Dev) : Dev :=
  let d := d.at t
  if !d.cfgOpen || (d.pci fn).d3 then d
  else
    let d1 := d.wake .h 1
    let d2 := (d1.setPci fn { d1.pci fn with d3 := true }).intx fn
    let d3 := (List.range 64).foldl (fun d n =>
      if d.ringOwner n == fn && (d.ring n).running then d.setRing n { d.ring n with running := false, fetching := [] } else d) d2
    ({ d3 with f.ch.noRelease := d3.mergedOrds fn ++ d3.f.ch.noRelease }).holdFn fn

/-- D0_RETURN (R81, R87): registers unchanged, rings stopped until their owner enables them again, channels held. -/
def doD0Return (fn : Func) (t : Nat) (d : Dev) : Dev :=
  let d := d.at t
  if !d.cfgOpen || !(d.pci fn).d3 then d
  else
    let d1 := d.wake .h 1
    (((d1.setPci fn { d1.pci fn with d3 := false }).intx fn).flushVectors fn).holdFn fn

/-! ## The PCIe link (R82, R90) -/

/-- PCI_LINK_STATUS of both functions. -/
def Dev.linkStatus (d : Dev) (speed width : Nat) : Dev :=
  let v : Word := BitVec.ofNat 32 (speed % 16 + width % 4 * 16)
  (d.wr Reg.PCI_LINK_STATUS v).wr (keyOf true Reg.PCI_LINK_STATUS) v

/-- PCIE_LINK_DOWN (R90): other than by PERST_N or entry to L1. -/
def doPcieLinkDown (t : Nat) (d : Dev) : Dev :=
  let d := d.at t
  if d.h.dev == .off || d.h.boot.perst then d else (d.linkStatus 0 0).raiseBoth .h Sn.PCI_LINK_DOWN

/-- PCIE_LINK_UP (R69, R90): speed 1 to 4 for 2.5 to 16 GT/s, no higher than the Target Link Speed; width 1 or 2. -/
def doPcieLinkUp (speed width : Nat) (t : Nat) (d : Dev) : Dev :=
  let d := d.at t
  if d.h.dev == .off || d.h.boot.perst || speed == 0 || decide (min 4 d.targetSpeed < speed) || !(width == 1 || width == 2) then d
  else
    let d1 := (d.linkStatus speed width).condEnd .h Sn.PCI_LINK_DOWN
    if speed < 4 ∨ width = 1 then d1.raiseBoth .h Sn.PCI_SPEED_DEGRADE else d1.condEnd .h Sn.PCI_SPEED_DEGRADE

/-- PCIE_L1_EXIT (R82): a wake event in REST. -/
def doPcieL1Exit (t : Nat) (d : Dev) : Dev := ({ d.at t with h.pm := .l0 }).wake .h 1

/-! ## Register reads (R384 to R387) -/

/-- SYS_STATE as read (Table SYS-7, R17). -/
def State.sysState (s : State) : Word :=
  let d := s.dev
  BitVec.ofNat 32 (d.h.dev.code + s.nv.lifecycle.code * 16 + b2n (d.safeAct false) * 2 ^ 8 + b2n (d.safeAct true) * 2 ^ 9
    + b2n d.haltAct * 2 ^ 10 + b2n (!d.h.sec.keyed) * 2 ^ 11 + b2n d.runSlot * 2 ^ 12 + d.fld Fld.SYS_STATE_FALLBACK * 2 ^ 13)

/-- A slot's failure count (R315). -/
def Rec.fails (r : Rec) : Nat := (r.tally.reverse.takeWhile (fun b => !b)).length

/-- The preferred slot (R314). -/
def State.preferred (s : State) : Option Bool :=
  match s.header false, s.header true with
  | some a, some b => some (decide (mfActGen a.body < mfActGen b.body))
  | some _, none => some false
  | none, some _ => some true
  | none, none => none

/-- A storage or calibration register as read (Table NVS-9). -/
def State.nvsRead (s : State) (off : Nat) : Word :=
  let d := s.dev
  let n := fun k : Nat => BitVec.ofNat 32 k
  let set := s.current .settings
  let cal := s.current .calibration
  let body := match cal with | some r => wordsOfQuads r.body | none => []
  if off = Reg.NVS_STATUS then d.rd off ||| n (b2n d.h.job.isSome + min 15 d.h.jobs.length * 2)
  else if off = Reg.NVS_SET_SEQ then n (match set with | some r => r.seq | none => 0)
  else if off = Reg.NVS_SET_INFO then n (match set with | some r => r.schema + r.profile * 2 ^ 16 | none => 0)
  else if off = Reg.NVS_WEAR then n s.nv.maxErase
  else if off = Reg.CAL_ORIGIN then d.rd off ||| n (match cal with | some r => r.origin % 2 + 2 | none => 0)
  else if off = Reg.CAL_SEQ then n (match cal with | some r => r.seq | none => 0)
  else if off = Reg.CAL_IMAGE_CRC then (match cal with | some r => crc32c (bytesOfQuads r.body) | none => 0)
  else if 0x1700 ≤ off then body.getD ((off - 0x1700) / 4) 0
  else d.rd off

/-- A firmware register as read (Table FW-4). -/
def State.fwRead (s : State) (off : Nat) : Word :=
  let d := s.dev
  let n := fun k : Nat => BitVec.ofNat 32 k
  let of := fun g : Rec → Nat => n (match s.header (bitOf off 2) with | some r => g r | none => 0)
  let fails := fun x : Bool => match s.header x with | some r => min 15 r.fails | none => 0
  if off = Reg.FW_STATUS then
    d.rd off ||| n ((match s.preferred with | some x => b2n x * 2 | none => 0) + b2n (s.header false).isSome * 4
      + b2n (s.header true).isSome * 8 + fails false * 2 ^ 16 + fails true * 2 ^ 20)
  else if off = Reg.FW_VER 0 ∨ off = Reg.FW_VER 1 then of (fun r => mfVersion r.body)
  else if off = Reg.FW_SCHEMA 0 ∨ off = Reg.FW_SCHEMA 1 then of (fun r => wordAt r.body 0x0C)
  else if off = Reg.FW_ACTGEN 0 ∨ off = Reg.FW_ACTGEN 1 then of (fun r => mfActGen r.body)
  else d.rd off

/-- A register of the H-side as a function reads it (R74, R75, R383). -/
def State.regRead (s : State) (fn : Func) (off : Nat) : Word :=
  let d := s.dev
  if 0x8000 ≤ off then
    if off < 0xC000 then (if fn then 0 else d.rd off)
    else if off = Reg.SN_ACK then d.rd (keyOf fn off) else 0
  else match specOf off with
    | none => 0
    | some _ =>
      if off = Reg.SYS_ID 0 then BitVec.ofNat 32 (s.nv.stepping.toNat + 2 ^ 8 + 0x4864 * 2 ^ 16)
      else if off = Reg.SYS_STATE then s.sysState
      else if off = Reg.SYS_LOCK_STATUS then d.lockStatus
      else if off < 0x0100 then d.rd off
      else if off < 0x0110 ∨ off = Reg.PCI_DROP_CNT ∨ off = Reg.PCI_CNT_SAT then d.rd (keyOf fn off)
      else if off < 0x0200 then d.rd off
      else if off < 0x0400 then d.przRead off
      else if off < 0x1000 then d.rmRead off
      else if off < 0x1400 then d.snRead off
      else if off < 0x1440 then d.wdRead ((off - 0x1400) / 32) ((off - 0x1400) % 32)
      else if off < 0x1800 then s.nvsRead off
      else if off < 0x1900 then s.fwRead off
      else if off < 0x1A00 then s.secRead off
      else d.mirRead off

/-- FIELD_WINDOW_READ (R10, R65, R71, R74, R77, R88, R89): a memory read of the host, of `size` bytes at `off` of a BAR; `ecrc` false
where its ECRC does not hold. A register of the F-side is read over the link, and what the endpoint does not accept completes with
Unsupported Request. -/
def execFieldWindowRead (fn : Func) (bar : Bar) (off size : Nat) (ecrc : Bool) (t : Nat) (s : State) : Out :=
  let s := s.mapDev (·.at t)
  if s.dev.h.dev = .off ∨ s.dev.h.boot.perst then .next s
  else
    let s1 := s.mapDev (·.wake .h 1)
    let d := s1.dev
    if d.ecrcDrops fn ecrc then .next (s1.mapDev (·.ecrcError fn))
    else if !d.barOpen fn then .next (s1.mapDev (·.tlp fn .cplUnsupported))
    else match bar with
      | .bar0 =>
        if size ≠ 4 ∨ off % 4 ≠ 0 then .next (s1.mapDev (·.tlp fn .cplUnsupported))
        else if onFSide off then .next (s1.mapDev (·.windowRead fn off))
        else .next (s1.mapDev (·.tlp fn (.cpl ((s1.regRead fn off).setWidth 64))))
      | .bar2 =>
        let lo := d.msixRead fn off
        if size = 4 ∧ off % 4 = 0 then .next (s1.mapDev (·.tlp fn (.cpl (lo.setWidth 64))))
        else if size = 8 ∧ off % 8 = 0 then .next (s1.mapDev (·.tlp fn (.cpl (d.msixRead fn (off + 4) ++ lo))))
        else .next (s1.mapDev (·.tlp fn .cplUnsupported))

/-! ## The commands' meanings -/

/-- The meaning of the command: `doMsixUnmask` on the device. -/
def execMsixUnmask (fn : Func) (vec : Nat) (s : State) : Out :=
  s.onDev (doMsixUnmask fn vec)

/-- The meaning of the command: `doOwnershipMapWrite` on the device. -/
def execOwnershipMapWrite (fn : Func) (off : Nat) (data : Word) (s : State) : Out :=
  s.onDev (doOwnershipMapWrite fn off data)

/-- The meaning of the command: `doPciIntCauseClear` on the device. -/
def execPciIntCauseClear (fn : Func) (data : Word) (s : State) : Out :=
  s.onDev (doPciIntCauseClear fn data)

/-- The meaning of the command: `doBusMasterEnableWrite` on the device. -/
def execBusMasterEnableWrite (fn : Func) (en : Bool) (t : Nat) (s : State) : Out :=
  s.onDev (doBusMasterEnableWrite fn en t)

/-- The meaning of the command: `doFlr` on the device. -/
def execFlr (fn : Func) (t : Nat) (s : State) : Out :=
  s.onDev (doFlr fn t)

/-- The meaning of the command: `doFunctionResetComplete` on the device. -/
def execFunctionResetComplete (fn : Func) (t : Nat) (s : State) : Out :=
  s.onDev (doFunctionResetComplete fn t)

/-- The meaning of the command: `doD3hotEntry` on the device. -/
def execD3hotEntry (fn : Func) (t : Nat) (s : State) : Out :=
  s.onDev (doD3hotEntry fn t)

/-- The meaning of the command: `doD0Return` on the device. -/
def execD0Return (fn : Func) (t : Nat) (s : State) : Out :=
  s.onDev (doD0Return fn t)

/-- The meaning of the command: `doPcieLinkDown` on the device. -/
def execPcieLinkDown (t : Nat) (s : State) : Out :=
  s.onDev (doPcieLinkDown t)

/-- The meaning of the command: `doPcieLinkUp` on the device. -/
def execPcieLinkUp (speed width : Nat) (t : Nat) (s : State) : Out :=
  s.onDev (doPcieLinkUp speed width t)

/-- The meaning of the command: `doPcieL1Exit` on the device. -/
def execPcieL1Exit (t : Nat) (s : State) : Out :=
  s.onDev (doPcieL1Exit t)

end Sys2Proof.Machine
end

