-- ==== Sys2Proof/Machine/Boot.lean ====
section
/-!
DEFINITION. Power-up, boot and reset (R301, R302, R304, R305, R313 to R316, R320, R323, R330, R337, R367 to R381): power-on resets,
PERST_N, the boot order, firmware restarts, and the reapplication after an F-side reset.
-/

namespace Sys2Proof.Machine

/-! ## H-side resets (Table RST-3) -/

/-- Registers that the power-on-only locks hold (Table IDX-8): the lock and the fields it locks. -/
def Dev.lockedReg (d : Dev) (k : Nat) : Bool :=
  (d.flag Fld.PRZ_CTRL_LOCK && (k == Reg.PRZ_CTRL || k == Reg.PRZ_REFRESH))
    || (d.flag Fld.PCI_OWN_CTRL_LOCK && decide (Reg.PCI_OWN_CH 0 ≤ k) && decide (k ≤ Reg.PCI_OWN_CTRL))
    || (d.flag (Fld.WD_CTRL_LOCK 0) && decide (0x1400 ≤ k) && decide (k < 0x1414))
    || (d.flag (Fld.WD_CTRL_LOCK 1) && decide (0x1420 ≤ k) && decide (k < 0x1434))
    || (d.flag Fld.SN_CTRL_LOCK && (k == Reg.SN_CTRL || (decide (0x1010 ≤ k) && decide (k < 0x1070))))
    || (d.flag Fld.SEC_CTRL_POL_LOCK && (k == Reg.SEC_TAMPER_POL || k == Reg.SEC_CTRL))
    || (d.flag Fld.SEC_CTRL_ENROL_LOCK && k == Reg.SEC_CTRL)
    || (d.flag Fld.MIR_CFG_LOCK && k == Reg.MIR_CFG)

/-- Registers that a firmware restart keeps besides: watchdog set-up, Safety Net status, latches and recovery counters, the link
status, MSI-X and configuration space (R320, Table RST-3). -/
def restartKeeps (k : Nat) : Bool :=
  let o := baseOff k
  (0x1400 ≤ o && o < 0x1440) || o == Reg.SN_STATUS || (0x10A0 ≤ o && o < 0x1200) || o == Reg.PCI_LINK_STATUS || 0x20000 ≤ o

/-- A watchdog across a reset of the H-side (R251, R256): with its settings kept it stays enabled and is held; else it is off. -/
def Wd.across (w : Wd) (kept : Bool) : Wd := if kept then { w.inReset with paused := false } else Wd.power

/-- The flash operation that a reset of the H-side cuts short (R300): the one that executes, or one that no boot has met yet. -/
def Dev.cutOf (d : Dev) : Option FlashStep :=
  match d.h.job with
  | some j => if j.steps.isEmpty then d.h.boot.cut else j.steps.head?
  | none => d.h.boot.cut

/-- The H-side is reset by PERST_N, or by a firmware restart. Keys stay in secure RAM. An F-side whose own reset has not ended has no
image to report (R376, R377, R380). -/
def Dev.hReset (d : Dev) (perst : Bool) : Dev :=
  let h := d.h
  let kept := fun p : PciFn => if perst then PciFn.reset else { p with pba := 0, resetAt := none, intx := false }
  let d1 := if perst then d else
    [false, true].foldl (fun d fn => if (d.pci fn).intx then d.tlp fn (.intx false) else d) d
  { d1 with
    f.image := if h.fReset then none else d1.f.image
    h := { HDie.reset with
      regs := h.regs.filter (fun e => d.lockedReg e.1 || (!perst && restartKeeps e.1))
      sn := if perst then [] else h.sn
      snF := if perst then [] else h.snF
      pulse := if perst then none else h.pulse
      pciA := kept h.pciA
      pciB := kept h.pciB
      bulk := { BulkEnd.idle with evNum := h.bulk.evNum }
      syncPend := true
      wdA := h.wdA.across (!perst || d.flag (Fld.WD_CTRL_LOCK 0))
      wdB := h.wdB.across (!perst || d.flag (Fld.WD_CTRL_LOCK 1))
      sec := { h.sec with lcFirst := none }
      boot := { h.boot with began := none, restart := false, env := none, cut := d.cutOf } } }

/-- The F-side loses the H-side: its items in flight are lost, operations that have ended leave nothing, slots go to FREE without
completion, and the holds of H-side sources are released (R376, R417). -/
def Dev.fLosesH (d : Dev) : Dev :=
  let d1 := (d.slotsReset false).slotsReset true
  { d1 with f := { d1.f with
      bulk := { BulkEnd.idle with evNum := d1.f.bulk.evNum }
      ops := d1.f.ops.filter (fun p => match p.2 with | some o => o.ended.isNone | none => false)
      snH := [] } }

/-- PERST_N_ASSERT (R376). -/
def doPerstAssert (t : Nat) (d : Dev) : Dev :=
  let d := d.at t
  if d.h.dev = .off ∨ d.h.boot.perst then d
  else
    let d1 := (d.fLosesH).hReset true
    { d1 with h.boot.perst := true }

/-- POWER_ON_RESET_H_RELEASE (R368): the H-side waits for PERST_N; the first boot applies an F-side reset (R379). The device leaves OFF
once both dies are released (Table SYS-2), or with the boot that PERST_N starts. -/
def doPowerOnResetHRelease (t : Nat) (d : Dev) : Dev :=
  let d := d.at t
  if d.h.boot.released then d
  else { d with h := { HDie.reset with
    dev := if d.f.released then .boot else .off, boot := { Boot.reset with cut := d.h.boot.cut } } }

/-- VDD_CORE_H_LOSS (R368, R378, R379): the H-side goes to its power-on reset, and the device is OFF. -/
def doVddCoreHLoss (t : Nat) (d : Dev) : Dev :=
  let d := d.at t
  { d.fLosesH with h := { HDie.reset with
    dev := .off, powered := false, boot := { Boot.reset with released := false, cut := d.cutOf } } }

/-- POWER_ON_RESET_F_RELEASE (R368): the F-side waits for the link, with no image loaded; with the H-side released too the device
leaves OFF (Table SYS-2). -/
def doPowerOnResetFRelease (t : Nat) (d : Dev) : Dev :=
  let d := d.at t
  if d.f.released then d
  else
    let d1 := { d with f := { FDie.power with brk := { Brk.reset with idleFrom := d.now } } }
    if d.h.dev = .off && d.h.boot.released then { d1 with h.dev := .boot } else d1

/-- SETTINGS_HOLD or STANDBY is left for HALT when the F-side's supply is lost (Table SYS-2, R378). -/
def Dev.vddFHalt (d : Dev) : Dev :=
  if d.h.dev = .settingsHold ∨ d.h.dev = .standby then
    (({ d with h.dev := .halt, h.boot := { d.h.boot with began := none, env := none } }).condEnd .h Sn.FW_SETTINGS_HOLD).haltBegin
  else d

/-- VDD_F_LOSS (R2, R378, Table SYS-2): the F-side goes to its power-on reset; an H-side that runs sees the link go down, and the device
is in HALT. In REST the H-side sees nothing until the F-side returns. In BOOT the device stays in BOOT, where the boot waits at B3 for
the link (R60), although Table SYS-2 names every state but OFF (DESIGN CHOICE, log entry 94). -/
def doVddFLoss (t : Nat) (d : Dev) : Dev :=
  let d := d.at t
  let d1 := { d with f := { FDie.power with powered := false, released := false } }
  if !d.f.powered && !d.f.porHeld then d
  else if d.h.dev = .off || d.h.dev = .rest then d1
  else if d.h.link.up || d.h.link.training then d1.linkDown.vddFHalt
  else d1.vddFHalt

/-! ## Boot steps: common parts -/

/-- SYS_BOOT.STEP: the last step begun (Table RST-4). -/
def Dev.bootStep (d : Dev) (n : Nat) : Dev := d.setFld Fld.SYS_BOOT_STEP n

/-- A condition that holds from here on. -/
def Dev.hold (d : Dev) (i : Nat) : Dev := if (d.src .h i).active then d else d.raiseBoth .h i

/-- What the check of a slot finds in a boot. -/
def slotChk (e : BootEnv) (b : Bool) : SlotCheck := if b then e.slotB else e.slotA

/-- Flash operations of the boot's own writes, carried out in their order. -/
def State.write (s : State) (l : List FlashStep) : State := ({ s with nv := l.foldl NonVol.apply s.nv }).wearCheck

/-- The tally of a slot's current header receives a word (R315); an unkeyed device writes none (R313). -/
def State.tally (s : State) (slot done : Bool) : State :=
  match s.header slot with
  | some h =>
    if !s.dev.h.sec.keyed || 32 ≤ h.tally.length then s
    else { s with nv := { s.nv with recs := s.nv.recs.map (fun r =>
      if r.area == slotArea slot && r.seq == h.seq then { r with tally := r.tally ++ [done] } else r) } }
  | none => s

/-! ## Steps P1 to P3 -/

/-- The keys load (R330), unless the device is RETIRED or a source under ERASE fired; without them it runs unkeyed. -/
def State.keyLoad (s : State) : State :=
  let d := s.dev
  let c := d.h.sec
  let idx := if c.blocked || s.nv.lifecycle == .retired then none else (s.nv.current c .keyIndex).bind (·.index)
  let d1 := { d with h.sec := { c with keyed := idx.isSome, index := idx } }
  { s with dev := if idx.isNone && !c.blocked && s.nv.lifecycle != .retired then d1.raiseBoth .h Sn.SEC_AUTH_FAIL else d1 }

/-- P1 (R330, R337): after a power-on reset the detectors are evaluated under the default policies and the keys load. SEC_ERASED and
SEC_LOCKED last until power-on reset. -/
def State.bootP1 (s : State) (env : BootEnv) : State :=
  let s0 := s.mapDev (·.bootStep 1)
  let s1 := if s0.dev.h.boot.p1 then s0 else (s0.mapDev (fun d => d.tamperUnder defaultPol (env.tamper % 16) 0)).keyLoad
  s1.mapDev (fun d =>
    let d1 := if d.h.sec.keyed then d else d.hold Sn.SEC_ERASED
    let d2 := if d.h.sec.locked then d1.hold Sn.SEC_LOCKED else d1
    { d2 with h.boot.p1 := true, h.boot.restart := false })

/-- A settings body's entries (R302): offset, function, value. -/
def settingsEntries (body : List Quad) : List (Nat × Func × Word) :=
  body.map (fun q => (bitsOf q.toNat 0 16, bitOf q.toNat 16, q.extractLsb' 32 32))

/-- The entries of the current SETTINGS record. -/
def State.entries (s : State) : List (Nat × Func × Word) :=
  match s.current .settings with
  | some r => settingsEntries r.body
  | none => []

/-- The default Subsystem Vendor ID and Subsystem ID (Table PCI-2). -/
def subsysDefault (fn : Func) : Word := if fn then 0x00B01F4C else 0x00A01F4C

/-- P2 (R371, R387): subsystem IDs, SYS_PROFILE. -/
def State.bootP2 (s : State) : State :=
  let cur := s.current .settings
  let es := s.entries
  let given := fun fn : Func => (es.find? (fun e => e.1 == 0xC000 && e.2.1 == fn)).map (fun e => e.2.2)
  let refused := s.nv.recs.any (fun r => r.area == .settings && r.committed && !r.retired && !r.bad && !profileOk r.profile)
  let sup : BitVec 16 := (Config.profilesAbove1 &&& 0xFFFC) ||| 2
  s.mapDev (fun d =>
    let d1 := [false, true].foldl (fun d fn => d.wr (cfgKey fn 0x2C) ((given fn).getD (subsysDefault fn))) (d.bootStep 2)
    (((d1.setFld Fld.SYS_BOOT_SUBSYS_DEF (b2n ((given false).isNone || (given true).isNone))).setFld Fld.SYS_PROFILE_ACTIVE
      (match cur with | some r => r.profile | none => 1)).setFld Fld.SYS_PROFILE_REF_SEEN (b2n refused)).setFld
      Fld.SYS_PROFILE_SUPPORTED sup.toNat)

/-- A Record Key rekey left in TRANSITION is completed (R341). -/
def State.rekeyFinish : Nat → State → State
  | 0, s => s
  | n + 1, s =>
    match s.nv.rekeyNext s.dev.h.sec s.dev.profile with
    | [] => s
    | l =>
      let s1 := s.write l
      State.rekeyFinish n { s1 with dev.h.sec.index := (s1.nv.current s1.dev.h.sec .keyIndex).bind (·.index) }

/-- A current record with a bit that fails PV, its COMMIT among them, is copied, and the old one retired (R301). -/
def State.copyWeak (s : State) (weak : List (Nat × Nat)) (a : Area) : State :=
  match s.current a with
  | some r =>
    if !s.dev.h.sec.keyed || !(weak.contains (a.code, r.seq) || r.commit.pv != commitWord) then s
    else
      let fresh := { r with tally := List.replicate r.fails false }
      s.write ((s.nv.plan s.dev.h.sec fresh).2 ++ [.retire a r.seq])
  | none => s

/-- P3 (R299, R301, R307): what the boot finds in flash is reported, weak records are copied, and a rekey or a calibration overwrite
left unfinished is completed. -/
def State.bootP3 (s : State) (env : BootEnv) : State :=
  let s0 := s.mapDev (·.bootStep 3)
  let live := s0.nv.recs.filter (fun r => r.committed && !r.retired)
  let wrong := (live.filter (fun r => r.bad || (s0.dev.h.sec.keyed && !s0.dev.h.sec.verifies r))).length
  let alien := live.any (fun r => !r.bad && !profileOk r.profile)
  let s1 := s0.mapDev (fun d =>
    let d1 := if wrong = 0 then d else
      (d.bumpBy Fld.NVS_BAD_CNT_COUNT ⟨Reg.NVS_CNT_SAT, 1, 1⟩ wrong).raiseBoth .h Sn.NVS_RECORD_BAD
    let d2 := if alien then d1.raiseBoth .h Sn.SYS_PROFILE_REF else d1
    if env.ecc = 0 then d2 else
      (d2.bumpBy Fld.NVS_ECC_CNT_COUNT ⟨Reg.NVS_CNT_SAT, 0, 1⟩ env.ecc).raiseBoth .h Sn.NVS_ECC)
  let s2 := State.rekeyFinish 8 s1
  let s3 := [Area.slotA, .slotB, .settings, .calibration, .keyIndex, .snapshot].foldl (fun s a => s.copyWeak env.weak a) s2
  match s3.current .calibration with
  | some r => s3.write (s3.nv.dropOldCal r.seq)
  | none => s3

/-! ## Step B1: slot choice (R314 to R316) -/

/-- The slot does not verify (R313). -/
def State.slotBad (s : State) (slot : Bool) (env : BootEnv) : Bool :=
  match s.header slot with
  | some h => s.slotCause h.body (slotChk env slot) != 0
  | none => true

/-- The boot switches slots by itself (R316): the other slot's header is written again with a higher ACT_GEN. -/
def State.autoFallback (s : State) (other : Bool) : State :=
  let s1 := match s.header other with
    | some h =>
      if !s.dev.h.sec.keyed then s
      else s.write (s.nv.plan s.dev.h.sec (s.headerRec other h.body (s.actGen (!other) + 1))).2
    | none => s
  s1.mapDev (fun d => (d.setFld Fld.SYS_STATE_FALLBACK 1).raiseBoth .h Sn.FW_FALLBACK)

/-- The slot from which to boot; none leads to RECOVERY. -/
def State.chooseSlot (s : State) (env : BootEnv) : Option (Bool × State) :=
  match s.preferred with
  | none => none
  | some p =>
    let fails := fun x : Bool => match s.header x with | some h => h.fails | none => 0
    if fails p < 3 then some (p, s)
    else if (s.header (!p)).isNone || 3 ≤ fails (!p) || s.slotBad (!p) env then none
    else some (!p, s.autoFallback (!p))

/-- RECOVERY (R316): the device stays in BOOT. -/
def State.recovery (s : State) : State :=
  s.mapDev (fun d => ({ d.setFld Fld.FW_STATUS_RECOVERY 1 with h.boot := { d.h.boot with began := none, env := none } }).v3)

/-! ## Step B3: the boot link and the F-side image (R57, R376, R379) -/

/-- The F-side holds the image of a hash. -/
def Dev.hasImage (d : Dev) (hash : List Quad) : Bool := d.f.image == some hash

/-- Every output channel waits for its owner's first OUT_WRITE (R87). -/
def Dev.holdAll (d : Dev) : Dev := (d.holdFn false).holdFn true

/-- Before the link trains: after PERST_N with the chosen slot's image in place the F-side is warm; else it is reset. -/
def Dev.bootLink (d : Dev) (hash : List Quad) (first : Bool) : Dev :=
  let warm := first && d.fld Fld.SYS_BOOT_CAUSE == 1 && !d.h.boot.fDue && d.f.released && d.hasImage hash
  let d0 := d.setFld Fld.SYS_BOOT_F_WARM (b2n warm)
  let d1 := if warm then d0 else { d0.fSideClear with f.image := none, h.boot.fDue := false }
  { d1.holdAll with h.link := Link.down }

/-- The shadow reports each F-side source whose reaction is in force to an H-side whose Safety Net was reset (R417); the H-side takes the
reports within the step, so a reaction stands when the boot ends (R273). -/
def Dev.reportForce (d : Dev) : Dev :=
  if d.fld Fld.SYS_BOOT_CAUSE = 2 then d
  else d.f.sn.foldl (fun d p =>
    if p.2.force = 0 then d
    else (d.sendEvent .f p.1 p.2.force true p.2.scA p.2.scB).eventAtH p.1 p.2.force true p.2.scA p.2.scB) d

/-- The image loads across the barrier and is checked; the F-side sequencer starts (R370, B3). -/
def Dev.loadImage (d : Dev) (hash : List Quad) (load : Bool) : Bool × Dev :=
  if d.fld Fld.SYS_BOOT_F_WARM = 1 ∧ d.hasImage hash then (true, d.reportForce)
  else if load then (true, ({ d.setFld Fld.SYS_BOOT_F_WARM 0 with f.image := some hash, h.fReset := false }).reportForce)
  else (false, d.raiseBoth .h Sn.FW_F_LOAD)

/-! ## Steps B4 to B8 -/

/-- The running slot's manifest. -/
def State.manifest (s : State) : List Quad := match s.running with | some r => r.body | none => []

/-- The settings that a boot applies: the current record's, when the firmware can read its schema and keys are there. -/
def State.readable (s : State) : Bool :=
  match s.current .settings with
  | some r => schemaReadable s.manifest r.schema
  | none => true

/-- The watchdogs reach their start points (R374): WDF here, WDA and WDB where their function's Bus Master Enable is 1. -/
def Dev.wdStarts (d : Dev) : Dev :=
  let d1 := d.wdStart 2
  let d2 := if d1.h.pciA.bme then d1.wdStart 0 else d1
  if d2.h.pciB.bme then d2.wdStart 1 else d2

/-- A watchdog that a settings entry has enabled waits in its first window (R374). -/
def Dev.wdHeld (d : Dev) : Dev :=
  (List.range 3).foldl (fun d k => let w := d.wd k; if w.held then d.setWd k { w with first := w.en } else d) d

/-- Disabled watchdogs are held again for the entries of a boot that resumes. -/
def Dev.wdHoldIdle (d : Dev) : Dev :=
  (List.range 3).foldl (fun d k => let w := d.wd k; if w.en then d else d.setWd k { w with held := true }) d

/-- The boot has completed (R315): the completion word, and a fresh header when the tally is nearly full. -/
def State.completeBoot (s : State) : State :=
  let slot := s.dev.runSlot
  let s1 := s.tally slot true
  match s1.header slot with
  | some h =>
    if s1.dev.h.sec.keyed && decide (31 ≤ h.tally.length)
    then s1.write (s1.nv.plan s1.dev.h.sec { h with tally := [] }).2 else s1
  | none => s1

/-- SYS_BOOT_TIME at the end of a boot. -/
def Dev.bootTime (d : Dev) : Dev :=
  match d.h.boot.began with
  | some b => { d.setFld Fld.SYS_BOOT_TIME_US ((d.now - b) / usCycles) with h.boot.began := none }
  | none => d

/-- SETTINGS_HOLD (R323, R324): the link stays up, nothing is applied, and the boot waits for readable settings. -/
def State.holdSettings (s : State) (env : BootEnv) : State :=
  (s.completeBoot).mapDev (fun d =>
    let d1 := { d.at env.stop with h.dev := .settingsHold, h.boot.env := some env }
    ((d1.bootTime.hold Sn.FW_SETTINGS_HOLD).shadowSync).wdStarts)

/-- B5 (R304, R305): calibration, or nominal values and CAL_INVALID. -/
def State.bootB5 (s : State) : State :=
  let ok := (s.current .calibration).isSome && s.dev.h.sec.keyed
  s.mapDev (fun d =>
    let d1 := ((d.bootStep 8).setFld Fld.CAL_ORIGIN_PENDING 0).setFld Fld.CAL_ORIGIN_NOMINAL (b2n (!ok))
    if ok then d1.condEnd .h Sn.CAL_INVALID else d1.hold Sn.CAL_INVALID)

/-- One settings entry is applied (R302): a field-window entry reaches the F-side at once, and its refusal is recorded as any other.
Until the end of B8 ownership tests use the map as it stands (R84). -/
def State.applyEntry (s : State) (fOnly warm : Bool) (sda : SdaCheck) (e : Nat × Func × Word) : State :=
  let off := e.1
  let s1 :=
    if onFSide off then
      if warm then s
      else
        let r := s.dev.windowApply (s.nv.lifecycle == .development) (fwContainer e.2.1 off e.2.2) sda
        let d1 := r.1.lockCopy (fLockAt off)
        { s with dev := if r.2 = 0 then d1 else
          (((d1.setFld Fld.PRZ_FWIN_STATUS_REJ 1).setFld Fld.PRZ_FWIN_LAST_OFFSET off).setFld Fld.PRZ_FWIN_LAST_FUNC
            (Func.idx e.2.1)).setFld Fld.PRZ_FWIN_LAST_CAUSE r.2 }
    else if fOnly || off % 4 != 0 || (0xC000 ≤ off && off < 0xF000) then s
    else s.regWrite e.2.1 off e.2.2
  s1.mapDev (·.adoptOwners)

/-- At the start of B7 the CH_ registers take their reset values, and what they reported ends (R161); the banks' supply monitors hold
VIO_LOW (R150), and the pins keep their configuration until B8. -/
def Dev.chDefaults (d : Dev) : Dev :=
  let d1 := { d with
    f.regs := vioKept d.f.regs (d.f.regs.filter (fun e => !(0x2400 ≤ e.1 && e.1 < 0x2800)))
    f.ch.mismCnt := [] }
  ((d1.condEnd .f Sn.CHK_PIN).condEnd .f Sn.CH_OVERLOAD).lockCopy (fLockAt Reg.CH_LOCK)

/-- B7: the entries in list order; an unkeyed boot applies none (Table SEC-6). -/
def State.bootB7 (s : State) (fOnly : Bool) (env : BootEnv) : State :=
  let warm := s.dev.fld Fld.SYS_BOOT_F_WARM == 1 && !fOnly
  let s0 := if fOnly then s else s.mapDev (·.bootStep 10)
  let s1 := if warm then s0 else s0.mapDev (·.chDefaults)
  if !s.dev.h.sec.keyed || !s.readable then s1
  else s1.entries.foldl (fun s e => s.applyEntry fOnly warm env.sda e) s1

/-- B8: the channels take their configuration and are enabled, held until their owners' first OUT_WRITE (R87, R161, R369). The filtered
levels of comparators that start take their outputs, without an edge (R152). -/
def Dev.enableChannels (d : Dev) (standby : Bool) (comp : W48) : Dev :=
  let c := d.f.ch
  let cfg := (List.range 48).foldl (fun c n => c.set (fun _ => 0) n (d.rd (Reg.CH_CFG n))) c.cfg
  ({ d with f.ch := { c with
    cfg := cfg, enabled := true, standby := standby, level := if c.enabled then c.level else comp } }).adoptOwners.pins

/-- The stored snapshot of a device that boots into STANDBY (R356): committed without a latch. Its age is not known. -/
def State.loadSnapshot (s : State) : State :=
  match s.current .snapshot with
  | some r => s.mapDev (fun d =>
      let w := wordsOfQuads r.body
      let (a, d1) := d.draw
      let d2 := { d1 with h.mir := { d1.h.mir with snap := some ⟨w, r.profile, none, d1.now, a.toNat⟩, commitAt := d1.now } }
      (((d2.setFld Fld.MIR_STATUS_SNAP_VALID 1).setFld Fld.MIR_STATUS_STORED 1).setEpoch (snapNum w 0)).standbyCar w)
  | none => s

/-- The state in which a boot ends (Table SYS-2, R6, R273): STANDBY by MIR_CFG.ROLE, else as the reactions in force say; an unkeyed
boot has SEC_ERASED in force. The FAULT pins are released but for an unkeyed boot (R271). -/
def Dev.bootEnd (d : Dev) (standby : Bool) : Dev :=
  let ran := d.h.sec.keyed
  { d with
    h.dev := if standby then .standby else d.reactState
    h.ranOnce := d.h.ranOnce || ran
    f.ranOnce := d.f.ranOnce || ran }

/-- B8 and the end of the boot. A boot that resumes has programmed its completion word at SETTINGS_HOLD. -/
def State.bootB8 (s : State) (resumed : Bool) (env : BootEnv) : State :=
  let standby := s.dev.flag Fld.MIR_CFG_ROLE && s.dev.h.sec.keyed
  let s1 := s.mapDev (fun d => ((d.at env.stop).bootStep 11).enableChannels standby env.comp)
  let s2 := s1.mapDev (fun d => d.setFld Fld.MIR_STATUS_ROLE_NOW (if standby then roleSTANDBY else roleACTIVE))
  let s3 := if standby then s2.loadSnapshot else s2
  let s4 := if resumed then s3 else s3.completeBoot
  s4.mapDev (fun d => ({ ((((d.bootTime.bootStep 12).wdStarts).bootEnd standby).idleReset) with h.boot.env := none }))

/-- B5 to B8 (R370): false when the retraining of B6 fails. -/
def State.bootRest (s : State) (resumed : Bool) (env : BootEnv) : Bool × State :=
  let s5 := s.bootB5
  let s6 := s5.mapDev (fun d => (d.bootStep 9).trained env.fwd env.ret)
  if !s6.dev.h.link.up then (false, s6)
  else
    let s7 := s6.bootB7 false env
    let s8 := s7.mapDev (fun d => ((List.range 6).foldl (fun d i => d.sevRaised .h i) d.wdHeld).shadowSync)
    (true, s8.bootB8 resumed env)

/-- B4 to B8, after the F-side sequencer has started. -/
def State.bootTail (s : State) (env : BootEnv) : Bool × State :=
  if s.dev.h.sec.keyed then
    let s4 := s.mapDev (·.bootStep 7)
    if s4.readable then s4.bootRest false env else (true, s4.holdSettings env)
  else s.bootRest false env

/-- B3 from the trained link on. -/
def State.bootLoad (s : State) (env : BootEnv) : Bool × State :=
  let r := s.dev.loadImage (mfFHash s.manifest) env.load
  if r.1 then ({ s with dev := r.2 }).bootTail env else (false, { s with dev := r.2 })

/-- B3: the link trains; while it cannot, the boot waits (R60). -/
def State.bootB3 (s : State) (first : Bool) (env : BootEnv) : Bool × State :=
  let s1 := s.mapDev (fun d => (d.bootStep 6).bootLink (mfFHash s.manifest) first)
  let s2 := s1.mapDev (fun d => if d.f.released then d.trained env.fwd env.ret else d.linkDown)
  if s2.dev.h.link.up then s2.bootLoad env else (true, { s2 with dev.h.boot.env := some env })

/-! ## The boot order (R370) -/

/-- B1 onward. A boot that fails restarts both dies and is made again (R315); at most `n` boots are made. SYS_ID[1] reads 0 until B2 has
ended (R386). -/
def State.bootFrom (env : BootEnv) : Nat → Bool → State → State
  | 0, _, s => s
  | n + 1, first, s =>
    let s0 := s.mapDev (fun d => (d.bootStep 4).setFld (Fld.SYS_ID_WORD 1) 0)
    match s0.chooseSlot env with
    | none => s0.recovery
    | some (slot, s1) =>
      let s2 := (s1.tally slot false).mapDev (·.bootStep 5)
      if s2.slotBad slot env then State.bootFrom env n false s2
      else
        let s3 := s2.mapDev (·.setFld Fld.FW_STATUS_RUN_SLOT (b2n slot))
        let s4 := s3.mapDev (·.setFld (Fld.SYS_ID_WORD 1) (mfVersion s3.manifest))
        let r := s4.bootB3 first env
        if r.1 then r.2 else State.bootFrom env n false r.2

/-- The records that fail CRC or CMAC at this boot. -/
def NonVol.spoil (v : NonVol) (bad : List (Nat × Nat)) : NonVol :=
  { v with recs := v.recs.map (fun r => if bad.contains (r.area.code, r.seq) then { r with bad := true } else r) }

/-- A boot begins: P1 to P3, then B1 at the boot start. It meets the flash operation that a reset cut short as that left it (R300);
SETTINGS_HOLD is over (R259), and an enabled WDF is held until its start point (R256). -/
def State.boot (s : State) (cause : Nat) (env : BootEnv) : State :=
  let nv := match s.dev.h.boot.cut with | some x => s.nv.cutShort env.cut x | none => s.nv
  let s0 := { s with nv := nv.spoil env.bad }
  let s1 := s0.mapDev (fun d =>
    let d0 := { d with
      h.dev := .boot, h.boot := { d.h.boot with began := some (max d.now env.start), env := none, cut := none }
      f.wdF := if d.f.wdF.en then { d.f.wdF.inReset with paused := false } else d.f.wdF }
    let d1 := d0.condEnd .h Sn.FW_SETTINGS_HOLD
    ((d1.setFld Fld.SYS_BOOT_CAUSE cause).setFld Fld.SYS_LOCK_STATUS_F_STALE 1).newNonce)
  let s2 := ((s1.bootP1 env).bootP2).bootP3 env
  State.bootFrom env 8 true (s2.mapDev (·.at env.start))

/-- PERST_N_DEASSERT (R370): the boot order starts, from the power-on reset or from PERST_N. -/
def execPerstDeassert (env : BootEnv) (t : Nat) (s : State) : Out :=
  let s := s.mapDev (·.at t)
  let b := s.dev.h.boot
  if !b.released ∨ !b.perst then .next s
  else .next (({ s with dev.h.boot.perst := false }).boot (b2n b.p1) env)

/-- BOOT_TIMEOUT (R315): 3 s after its start a boot that has not completed fails, and the boot logic boots again. -/
def execBootTimeout (env : BootEnv) (t : Nat) (s : State) : Out :=
  let s := s.mapDev (·.at t)
  match s.dev.h.dev, s.dev.h.boot.began with
  | .boot, some b =>
    if s.dev.now < b + 3000 * msCycles then .next s
    else .next (State.bootFrom env 8 false
      ({ s with dev.h.boot := { s.dev.h.boot with began := some (max s.dev.now env.start), env := none } }))
  | _, _ => .next s

/-- The H-side and the F-side are reset, and the device boots from the first step. -/
def State.restartBoth (s : State) (cause : Nat) (env : BootEnv) : State :=
  ((s.mapDev (fun d =>
    let d1 := ((d.fLosesH).hReset false).fSideClear
    { d1 with f.image := none })).boot cause env)

/-- A firmware restart (R320). -/
def State.restart (s : State) (env : BootEnv) : State := s.restartBoth 2 env

/-- FIRMWARE_RESTART (R320): once the record write in progress has ended. -/
def execFirmwareRestart (env : BootEnv) (t : Nat) (s : State) : Out :=
  let s := s.mapDev (·.at t)
  if s.dev.h.boot.restart && s.dev.h.job.isNone && s.dev.h.dev != .off && !s.dev.h.boot.perst then .next (s.restart env)
  else .next s

/-- A boot that waits at B3 goes on when the link is up, and is made again if it fails. -/
def State.bootGoOn (s : State) : State :=
  match s.dev.h.dev, s.dev.h.boot.env with
  | .boot, some env =>
    if s.dev.h.link.up then
      let r := ({ s with dev.h.boot.env := none }).bootLoad { env with stop := s.dev.now }
      if r.1 then r.2 else State.bootFrom env 8 false r.2
    else s
  | _, _ => s

/-- TRAINING_COMPLETE (R57, R60): a boot that waits for the link goes on. After an F-side reset or with no
image loaded the training is part of the reapplication or of the cold return (R377, R378). -/
def execTrainingComplete (fwd ret : Nat) (t : Nat) (s : State) : Out :=
  let d := s.dev.at t
  if !d.f.released || ((d.h.fReset || d.f.image.isNone) && d.h.dev != .boot) then .next { s with dev := d }
  else .next ({ s with dev := doTrainingComplete fwd ret t d }).bootGoOn

/-- F_SIDE_COLD_RETURN (R378): the F-side trains with no image loaded; the H-side makes a firmware restart, at the end of a record
write in progress. -/
def execFSideColdReturn (env : BootEnv) (t : Nat) (s : State) : Out :=
  let s := s.mapDev (·.at t)
  let d := s.dev
  if !d.f.released || d.f.image.isSome || d.h.link.up || d.h.dev == .off || d.h.boot.perst then .next s
  else if d.h.dev = .boot then
    if d.h.boot.env.isSome then .next (s.mapDev (fun d => d.trained env.fwd env.ret)).bootGoOn else .next s
  else if d.h.job.isSome then .next { s with dev := d.restartDue }
  else .next (s.restart env)

/-- F_SIDE_RESET_REAPPLY (R377): B3, B5 to B8 on the F-side alone. The F-side's reset has ended for its watchdog when that has its
settings again (R251), and its FAULT pin is released in STANDBY (R271). -/
def execFSideResetReapply (env : BootEnv) (t : Nat) (s : State) : Out :=
  let s := s.mapDev (·.at t)
  let d := s.dev
  if !d.h.fReset || !d.f.released || d.h.dev == .off || d.h.dev == .boot then .next s
  else
    let d1 := d.trained env.fwd env.ret
    if !d1.h.link.up then .next { s with dev := d1 }
    else if !env.load then .next { s with dev := (d1.raiseBoth .h Sn.FW_F_LOAD).linkDown }
    else
      let d2 := { d1 with f.image := some (mfFHash s.manifest) }
      let s3 := ({ s with dev := d2.adoptOwners }).bootB7 true env
      .next (s3.mapDev (fun d =>
        let d3 := ((d.holdAll.enableChannels d.f.ch.standby env.comp).wdHeld).wdStart 2
        { d3 with h.fReset := false, f.ranOnce := d3.f.ranOnce || d3.h.dev == DevState.standby }.idleReset))

/-- FLASH_OP_COMPLETE (R298, R303): the write in progress goes on. In SETTINGS_HOLD the commit of readable settings resumes the boot
at B5 (Table SYS-2). -/
def execFlashOpComplete (ok : Bool) (t : Nat) (s : State) : Out :=
  let s0 := s.mapDev (·.at t)
  let s1 := s0.flashDone ok
  let wrote := match s0.dev.h.job with | some j => decide (j.kind = .settings) && s1.dev.h.job.isNone | none => false
  match s1.dev.h.dev, s1.dev.h.boot.env with
  | .settingsHold, some env =>
    if wrote && (s1.current .settings).isSome && s1.readable then
      let s2 := s1.mapDev (fun d => ({ d.wdHoldIdle with h.dev := .boot }).condEnd .h Sn.FW_SETTINGS_HOLD)
      let r := s2.bootRest true { env with stop := s1.dev.now }
      .next (if r.1 then r.2
        else r.2.restartBoth (r.2.dev.fld Fld.SYS_BOOT_CAUSE) { env with start := s1.dev.now, stop := s1.dev.now })
    else .next s1
  | _, _ => .next s1

/-! ## The commands' meanings -/

/-- The meaning of the command: `doPerstAssert` on the device. -/
def execPerstAssert (t : Nat) (s : State) : Out :=
  s.onDev (doPerstAssert t)

/-- The meaning of the command: `doPowerOnResetHRelease` on the device. -/
def execPowerOnResetHRelease (t : Nat) (s : State) : Out :=
  s.onDev (doPowerOnResetHRelease t)

/-- The meaning of the command: `doVddCoreHLoss` on the device. -/
def execVddCoreHLoss (t : Nat) (s : State) : Out :=
  s.onDev (doVddCoreHLoss t)

/-- The meaning of the command: `doPowerOnResetFRelease` on the device. -/
def execPowerOnResetFRelease (t : Nat) (s : State) : Out :=
  s.onDev (doPowerOnResetFRelease t)

/-- The meaning of the command: `doVddFLoss` on the device. -/
def execVddFLoss (t : Nat) (s : State) : Out :=
  s.onDev (doVddFLoss t)

end Sys2Proof.Machine
end

