-- ==== Sys2Proof/Machine/Dispatch.lean ====
section
/-!
DEFINITION. Every command with its meaning: one arm per constructor.
-/

namespace Sys2Proof.Machine

/-- The effect of a command on everything but the queue. -/
def exec (i : Instr) (s : State) : Host.Outcome State Fault Refusal :=
  match i with
  | .carEnWrite f data t => Sys2Proof.Machine.execCarEnWrite f data t s
  | .carPosLoad f data t => Sys2Proof.Machine.execCarPosLoad f data t s
  | .turnClr f data count t => Sys2Proof.Machine.execTurnClr f data count t s
  | .carLock f data t => Sys2Proof.Machine.execCarLock f data t s
  | .carSrcWrite f data t => Sys2Proof.Machine.execCarSrcWrite f data t s
  | .carPosLoRead f t => Sys2Proof.Machine.execCarPosLoRead f t s
  | .quadCount forward z t => Sys2Proof.Machine.execQuadCount forward z t s
  | .quadIllegalTransition t => Sys2Proof.Machine.execQuadIllegalTransition t s
  | .ncoCount t => Sys2Proof.Machine.execNcoCount t s
  | .ppsEdge rising phaseErr rate raw t => Sys2Proof.Machine.execPpsEdge rising phaseErr rate raw t s
  | .mainsZeroCross rising phaseErr rate raw inBand t => Sys2Proof.Machine.execMainsZeroCross rising phaseErr rate raw inBand t s
  | .syncReferenceLoss t => Sys2Proof.Machine.execSyncReferenceLoss t s
  | .holdoverExpire t => Sys2Proof.Machine.execHoldoverExpire t s
  | .encBiasOpen t => Sys2Proof.Machine.execEncBiasOpen t s
  | .absSampleTimeout t => Sys2Proof.Machine.execAbsSampleTimeout t s
  | .predictionTimeout t => Sys2Proof.Machine.execPredictionTimeout t s
  | .slotPlacedFire slot t => Sys2Proof.Machine.execSlotPlacedFire slot t s
  | .absSampleRun t => Sys2Proof.Machine.execAbsSampleRun t s
  | .absSampleCommit rx t => Sys2Proof.Machine.execAbsSampleCommit rx t s
  | .slotArm tag t => Sys2Proof.Machine.execSlotArm tag t s
  | .slotDisarm tag t => Sys2Proof.Machine.execSlotDisarm tag t s
  | .todLoad tag t => Sys2Proof.Machine.execTodLoad tag t s
  | .positionForward t => Sys2Proof.Machine.execPositionForward t s
  | .positionCellReceive cell t => Sys2Proof.Machine.execPositionCellReceive cell t s
  | .refreshTick t => Sys2Proof.Machine.execRefreshTick t s
  | .refreshCellReceive cell t => Sys2Proof.Machine.execRefreshCellReceive cell t s
  | .refreshWatchPeriod t => Sys2Proof.Machine.execRefreshWatchPeriod t s
  | .refreshWatchExpire t => Sys2Proof.Machine.execRefreshWatchExpire t s
  | .missStatusReceive cell => Sys2Proof.Machine.execMissStatusReceive cell s
  | .przRefreshWrite f data => Sys2Proof.Machine.execPrzRefreshWrite f data s
  | .paramReceive cell => Sys2Proof.Machine.execParamReceive cell s
  | .paramAckReceive cell => Sys2Proof.Machine.execParamAckReceive cell s
  | .bulkCellReceive die cell t => Sys2Proof.Machine.execBulkCellReceive die cell t s
  | .ackSendTimer die t => Sys2Proof.Machine.execAckSendTimer die t s
  | .ack die cell t => Sys2Proof.Machine.execAck die cell t s
  | .nak die cell t => Sys2Proof.Machine.execNak die cell t s
  | .replayTimeout die t => Sys2Proof.Machine.execReplayTimeout die t s
  | .laneFail die lanes t => Sys2Proof.Machine.execLaneFail die lanes t s
  | .retrain die cell t => Sys2Proof.Machine.execRetrain die cell t s
  | .przRetrainCmd f t => Sys2Proof.Machine.execPrzRetrainCmd f t s
  | .trainingComplete fwd ret t => Sys2Proof.Machine.execTrainingComplete fwd ret t s
  | .linkTrainRetry t => Sys2Proof.Machine.execLinkTrainRetry t s
  | .restCellReceive die cell t => Sys2Proof.Machine.execRestCellReceive die cell t s
  | .fieldWindowWrite f off data t => Sys2Proof.Machine.execFieldWindowWrite f off data t s
  | .fieldWindowApply cell sda t => Sys2Proof.Machine.execFieldWindowApply cell sda t s
  | .fwAck cell t => Sys2Proof.Machine.execFwAck cell t s
  | .fieldWindowRead f bar off size ecrc t => Sys2Proof.Machine.execFieldWindowRead f bar off size ecrc t s
  | .fwRead cell t => Sys2Proof.Machine.execFwRead cell t s
  | .fwReadReply f off data => Sys2Proof.Machine.execFwReadReply f off data s
  | .fwReadTimeout f t => Sys2Proof.Machine.execFwReadTimeout f t s
  | .configRequest f a ecrc => Sys2Proof.Machine.execConfigRequest f a ecrc s
  | .busMasterEnableWrite f en t => Sys2Proof.Machine.execBusMasterEnableWrite f en t s
  | .flr f t => Sys2Proof.Machine.execFlr f t s
  | .functionResetComplete f t => Sys2Proof.Machine.execFunctionResetComplete f t s
  | .d3hotEntry f t => Sys2Proof.Machine.execD3hotEntry f t s
  | .d0Return f t => Sys2Proof.Machine.execD0Return f t s
  | .msixUnmask f vec => Sys2Proof.Machine.execMsixUnmask f vec s
  | .pciIntCauseClear f data => Sys2Proof.Machine.execPciIntCauseClear f data s
  | .pcieLinkDown t => Sys2Proof.Machine.execPcieLinkDown t s
  | .pcieLinkUp speed width t => Sys2Proof.Machine.execPcieLinkUp speed width t s
  | .pcieL1Exit t => Sys2Proof.Machine.execPcieL1Exit t s
  | .readCompletionTimeout r t => Sys2Proof.Machine.execReadCompletionTimeout r t s
  | .ownershipMapWrite f off data => Sys2Proof.Machine.execOwnershipMapWrite f off data s
  | .registerWrite f bar off size data ecrc t => Sys2Proof.Machine.execRegisterWrite f bar off size data ecrc t s
  | .counterClear f off data hits => Sys2Proof.Machine.execCounterClear f off data hits s
  | .sysLockSetWrite f data t => Sys2Proof.Machine.execSysLockSetWrite f data t s
  | .ringEnable f n data => Sys2Proof.Machine.execRingEnable f n data s
  | .ringDisable f n data t => Sys2Proof.Machine.execRingDisable f n data t s
  | .sweepTimer f t => Sys2Proof.Machine.execSweepTimer f t s
  | .sweepReadComplete f r words t => Sys2Proof.Machine.execSweepReadComplete f r words t s
  | .fetchGrant => Sys2Proof.Machine.execFetchGrant s
  | .descriptorReadComplete n r descs t => Sys2Proof.Machine.execDescriptorReadComplete n r descs t s
  | .operationOpen tag t => Sys2Proof.Machine.execOperationOpen tag t s
  | .opOpen tag t => Sys2Proof.Machine.execOpOpen tag t s
  | .opClose tag data res wr t => Sys2Proof.Machine.execOpClose tag data res wr t s
  | .v0CoalesceTimer n t => Sys2Proof.Machine.execV0CoalesceTimer n t s
  | .nop tag t => Sys2Proof.Machine.execNop tag t s
  | .outWrite tag agree t => Sys2Proof.Machine.execOutWrite tag agree t s
  | .bufferReadComplete tag r data t => Sys2Proof.Machine.execBufferReadComplete tag r data t s
  | .immediateWriteApply tag value t => Sys2Proof.Machine.execImmediateWriteApply tag value t s
  | .chSample tag t => Sys2Proof.Machine.execChSample tag t s
  | .chCapture tag t => Sys2Proof.Machine.execChCapture tag t s
  | .readbackSample bank rb pull t => Sys2Proof.Machine.execReadbackSample bank rb pull t s
  | .vioLowDetect bank t => Sys2Proof.Machine.execVioLowDetect bank t s
  | .vioLowClear bank t => Sys2Proof.Machine.execVioLowClear bank t s
  | .filterAccept ch level raw t => Sys2Proof.Machine.execFilterAccept ch level raw t s
  | .captureRecordSend f t => Sys2Proof.Machine.execCaptureRecordSend f t s
  | .captureTimeout f t => Sys2Proof.Machine.execCaptureTimeout f t s
  | .overloadTrip ch t => Sys2Proof.Machine.execOverloadTrip ch t s
  | .chOvlClear f off data t => Sys2Proof.Machine.execChOvlClear f off data t s
  | .chCfgWrite f ch data t => Sys2Proof.Machine.execChCfgWrite f ch data t s
  | .fspEntryLoad tag t => Sys2Proof.Machine.execFspEntryLoad tag t s
  | .fspRun tag t => Sys2Proof.Machine.execFspRun tag t s
  | .fspTarget tag t => Sys2Proof.Machine.execFspTarget tag t s
  | .fspDisable f data t => Sys2Proof.Machine.execFspDisable f data t s
  | .fspRunStart t => Sys2Proof.Machine.execFspRunStart t s
  | .fspWordStart t => Sys2Proof.Machine.execFspWordStart t s
  | .fspWordEnd rx t => Sys2Proof.Machine.execFspWordEnd rx t s
  | .fspTargetWordBegin sel asserted t => Sys2Proof.Machine.execFspTargetWordBegin sel asserted t s
  | .fspTargetWordEnd sel request t => Sys2Proof.Machine.execFspTargetWordEnd sel request t s
  | .fspSelAbort sel t => Sys2Proof.Machine.execFspSelAbort sel t s
  | .fspTgtCfgWrite f off data t => Sys2Proof.Machine.execFspTgtCfgWrite f off data t s
  | .twpXfer tag t => Sys2Proof.Machine.execTwpXfer tag t s
  | .twpTarget tag t => Sys2Proof.Machine.execTwpTarget tag t s
  | .twpEnable f data sda t => Sys2Proof.Machine.execTwpEnable f data sda t s
  | .twpCtlEnWrite f tgt data t => Sys2Proof.Machine.execTwpCtlEnWrite f tgt data t s
  | .twpCtlRst f data sda t => Sys2Proof.Machine.execTwpCtlRst f data sda t s
  | .twpBusIdleTimeout t => Sys2Proof.Machine.execTwpBusIdleTimeout t s
  | .twpStartDetect t => Sys2Proof.Machine.execTwpStartDetect t s
  | .twpStopDetect rx clocked t => Sys2Proof.Machine.execTwpStopDetect rx clocked t s
  | .twpXferStart t => Sys2Proof.Machine.execTwpXferStart t s
  | .twpXferEnd nackAt rx t => Sys2Proof.Machine.execTwpXferEnd nackAt rx t s
  | .twpArbLoss byte bit lossAt rx t => Sys2Proof.Machine.execTwpArbLoss byte bit lossAt rx t s
  | .twpSclLowTimeout sda t => Sys2Proof.Machine.execTwpSclLowTimeout sda t s
  | .twpSdaLowTimeout sda t => Sys2Proof.Machine.execTwpSdaLowTimeout sda t s
  | .twpTargetAddressMatch t => Sys2Proof.Machine.execTwpTargetAddressMatch t s
  | .twpTargetEnd rx clocked t => Sys2Proof.Machine.execTwpTargetEnd rx clocked t s
  | .twpWakeMatch t => Sys2Proof.Machine.execTwpWakeMatch t s
  | .ftStart f mask t => Sys2Proof.Machine.execFtStart f mask t s
  | .ftStop f mask t => Sys2Proof.Machine.execFtStop f mask t s
  | .ftWrap k t => Sys2Proof.Machine.execFtWrap k t s
  | .ftCapLoRead f k t => Sys2Proof.Machine.execFtCapLoRead f k t s
  | .ftCapHiRead f k t => Sys2Proof.Machine.execFtCapHiRead f k t s
  | .ftMarkLoRead f k t => Sys2Proof.Machine.execFtMarkLoRead f k t s
  | .ftCapture tag t => Sys2Proof.Machine.execFtCapture tag t s
  | .fSeqDebugHalt t => Sys2Proof.Machine.execFSeqDebugHalt t s
  | .fSeqDebugRelease t => Sys2Proof.Machine.execFSeqDebugRelease t s
  | .lowFrequencyPathSwitch toLf t => Sys2Proof.Machine.execLowFrequencyPathSwitch toLf t s
  | .encZEdge rising raw t => Sys2Proof.Machine.execEncZEdge rising raw t s
  | .wdService k data t => Sys2Proof.Machine.execWdService k data t s
  | .wdExpire k t => Sys2Proof.Machine.execWdExpire k t s
  | .wdEnable f k data t => Sys2Proof.Machine.execWdEnable f k data t s
  | .wdKey f k data t => Sys2Proof.Machine.execWdKey f k data t s
  | .snSourceActive die src scA scB t => Sys2Proof.Machine.execSnSourceActive die src scA scB t s
  | .snQuietExpire die src t => Sys2Proof.Machine.execSnQuietExpire die src t s
  | .snEvent die cell t => Sys2Proof.Machine.execSnEvent die cell t s
  | .snSevWrite f ix data t => Sys2Proof.Machine.execSnSevWrite f ix data t s
  | .snQuietWrite f ix data t => Sys2Proof.Machine.execSnQuietWrite f ix data t s
  | .snRecClr f data t => Sys2Proof.Machine.execSnRecClr f data t s
  | .snAckWrite f data t => Sys2Proof.Machine.execSnAckWrite f data t s
  | .shadowCompare t => Sys2Proof.Machine.execShadowCompare t s
  | .faultPulseEnd die t => Sys2Proof.Machine.execFaultPulseEnd die t s
  | .faultPinMismatch die bad t => Sys2Proof.Machine.execFaultPinMismatch die bad t s
  | .supplyOutOfRange src t => Sys2Proof.Machine.execSupplyOutOfRange src t s
  | .supplyReturnInRange src t => Sys2Proof.Machine.execSupplyReturnInRange src t s
  | .temperatureThreshold die crit above t => Sys2Proof.Machine.execTemperatureThreshold die crit above t s
  | .clockLoss src t => Sys2Proof.Machine.execClockLoss src t s
  | .clockReturn src t => Sys2Proof.Machine.execClockReturn src t s
  | .lfOscillatorFault bad t => Sys2Proof.Machine.execLfOscillatorFault bad t s
  | .sequencerTrap die t => Sys2Proof.Machine.execSequencerTrap die t s
  | .eccError die uncorrectable t => Sys2Proof.Machine.execEccError die uncorrectable t s
  | .restEnter tag t => Sys2Proof.Machine.execRestEnter tag t s
  | .restExchange t => Sys2Proof.Machine.execRestExchange t s
  | .idleTimeout t => Sys2Proof.Machine.execIdleTimeout t s
  | .barkerSample lv miss t => Sys2Proof.Machine.execBarkerSample lv miss t s
  | .wakeEvent src t => Sys2Proof.Machine.execWakeEvent src t s
  | .wakeBeacon receiver t => Sys2Proof.Machine.execWakeBeacon receiver t s
  | .wakeLate t => Sys2Proof.Machine.execWakeLate t s
  | .recordWriteStart t => Sys2Proof.Machine.execRecordWriteStart t s
  | .flashOpComplete ok t => Sys2Proof.Machine.execFlashOpComplete ok t s
  | .settingsCommit tag t => Sys2Proof.Machine.execSettingsCommit tag t s
  | .calWrite tag t => Sys2Proof.Machine.execCalWrite tag t s
  | .fwStageOpen f data t => Sys2Proof.Machine.execFwStageOpen f data t s
  | .fwStageClose f data t => Sys2Proof.Machine.execFwStageClose f data t s
  | .fwStageWinWrite f off data => Sys2Proof.Machine.execFwStageWinWrite f off data s
  | .fwStageChunk f data t => Sys2Proof.Machine.execFwStageChunk f data t s
  | .chunkComplete t => Sys2Proof.Machine.execChunkComplete t s
  | .romInstall f data chk t => Sys2Proof.Machine.execRomInstall f data chk t s
  | .fwInstall tag chk t => Sys2Proof.Machine.execFwInstall tag chk t s
  | .fwFallback tag chk t => Sys2Proof.Machine.execFwFallback tag chk t s
  | .secLcAdv f data t => Sys2Proof.Machine.execSecLcAdv f data t s
  | .secSvnAdv f data t => Sys2Proof.Machine.execSecSvnAdv f data t s
  | .fuseProgramComplete lifecycle ok t => Sys2Proof.Machine.execFuseProgramComplete lifecycle ok t s
  | .tamperFire h f now t => Sys2Proof.Machine.execTamperFire h f now t s
  | .ownerEnrol tag chk t => Sys2Proof.Machine.execOwnerEnrol tag chk t s
  | .rekey tag chk t => Sys2Proof.Machine.execRekey tag chk t s
  | .mirTakeover tag sda t => Sys2Proof.Machine.execMirTakeover tag sda t s
  | .mirSessionStart t => Sys2Proof.Machine.execMirSessionStart t s
  | .hello frame t => Sys2Proof.Machine.execHello frame t s
  | .mirStatusSend t => Sys2Proof.Machine.execMirStatusSend t s
  | .mirStatus hd epoch t => Sys2Proof.Machine.execMirStatus hd epoch t s
  | .mirLinkTimeout aligned t => Sys2Proof.Machine.execMirLinkTimeout aligned t s
  | .mirSnapshotCapture t => Sys2Proof.Machine.execMirSnapshotCapture t s
  | .mirHead hd epoch segs len profile t => Sys2Proof.Machine.execMirHead hd epoch segs len profile t s
  | .mirHeadLatch t => Sys2Proof.Machine.execMirHeadLatch t s
  | .mirSeg hd idx body t => Sys2Proof.Machine.execMirSeg hd idx body t s
  | .mirCommit hd epoch crc word t => Sys2Proof.Machine.execMirCommit hd epoch crc word t s
  | .mirSnapTimeout t => Sys2Proof.Machine.execMirSnapTimeout t s
  | .mirSnapMiss t => Sys2Proof.Machine.execMirSnapMiss t s
  | .snapshotStoreTimer t => Sys2Proof.Machine.execSnapshotStoreTimer t s
  | .mirTake hd t => Sys2Proof.Machine.execMirTake hd t s
  | .mirTakeWindowEnd t => Sys2Proof.Machine.execMirTakeWindowEnd t s
  | .powerOnResetHRelease t => Sys2Proof.Machine.execPowerOnResetHRelease t s
  | .powerOnResetFRelease t => Sys2Proof.Machine.execPowerOnResetFRelease t s
  | .vddCoreHLoss t => Sys2Proof.Machine.execVddCoreHLoss t s
  | .vddFLoss t => Sys2Proof.Machine.execVddFLoss t s
  | .fSideColdReturn env t => Sys2Proof.Machine.execFSideColdReturn env t s
  | .perstAssert t => Sys2Proof.Machine.execPerstAssert t s
  | .perstDeassert env t => Sys2Proof.Machine.execPerstDeassert env t s
  | .bootTimeout env t => Sys2Proof.Machine.execBootTimeout env t s
  | .firmwareRestart env t => Sys2Proof.Machine.execFirmwareRestart env t s
  | .fSideResetReapply env t => Sys2Proof.Machine.execFSideResetReapply env t s

end Sys2Proof.Machine
end

