-- ==== Sys2Proof/Safety.lean ====
section
/-!
DEFINITION. What counts as a safe state and a safe step, in the terms of the claims: the canonical form of the nonvolatile tables, what
nothing but the fuse block may move, and what a reaction of the Safety Net leaves alone.
-/

namespace Sys2Proof.Machine

/-- The tables of the nonvolatile contents are in canonical form. -/
def NonVol.canonical (v : NonVol) : Bool :=
  Tab.wf (fun _ => 0) v.wear && Tab.wf (fun _ => []) v.img

/-- A function's register writes act: the endpoint takes them, and the device is neither in BOOT nor in REST (R88, R89, R281, R372). -/
def Dev.hostOpen (d : Dev) (fn : Func) : Bool := d.barOpen fn && d.h.dev != .boot && d.f.ch.rest.isNone

/-- The registers in which a reaction of the Safety Net shows (R268 to R272, R145, R89, R291): the status, latch and recovery
registers, SN_ACK, each function's interrupt causes and drop counter, the mismatch bits and the wake cause. -/
def reactReg (k : Nat) : Bool :=
  k == Reg.SN_STATUS || (0x10A0 ≤ k && k < 0x11C0) || k == Reg.SN_ACK || k == Reg.SN_ACK + copyB
    || k == Reg.PCI_INT_CAUSE || k == Reg.PCI_INT_CAUSE + copyB || k == Reg.PCI_DROP_CNT || k == Reg.PCI_DROP_CNT + copyB
    || k == Reg.PCI_CNT_SAT || k == Reg.PCI_CNT_SAT + copyB || k == Reg.CH_PIN_MISM_LO || k == Reg.CH_PIN_MISM_HI
    || k == Reg.BRK_WAKE

/-- A field-window read but for the time at which its FW_READ goes out. -/
def FwRead.asked (r : FwRead) : Func × Nat × Nat × Bool := (r.fn, r.off, r.after, r.queued)

/-- A good LINK cell with an opcode (Tables PRZ-2 to PRZ-4). -/
def goodLink (c : Cell80) (op : Nat) : Bool :=
  c.hchkGood && c.cchkGood && c.typ == 6 && c.route == 0 && c.opcode == op

/-- A good SN_EVENT cell of a source (R46, R266). -/
def goodEvent (c : Cell80) : Bool :=
  c.hchkGood && c.cchkGood && c.typ == 5 && c.route == 0 && c.opcode == 0x30 && decide (c.bits 49 7 < 96)

/-- A bulk cell that carries a field-window write, with its function, register and data (R64). -/
def writeCell (c : Cell80) (fn : Func) (off : Nat) (data : Word) : Prop :=
  isBulkCell c 3 0 = true ∧ c.container = fwContainer fn off data

/-- A FIELD_WINDOW cell with an opcode that names a function and a register (Table PRZ-4). -/
def windowCell (c : Cell80) (op : Nat) (fn : Func) (off : Nat) : Prop :=
  isCtrlCell c 0 op = true ∧ (c.bits 55 1 == 1) = fn ∧ 4 * c.bits 41 14 = off

/-- The device `e` differs from `d` only where a reaction of the Safety Net may act: sources, pins, FAULT pulses, device state, open
operations at HALT, the wake, interrupts and events sent, and what a held link carries again. What has been put out stays. -/
structure Dev.SameApart (d e : Dev) : Prop where
  now : e.now = d.now
  out : ∃ l, e.out = l ++ d.out
  freeCtr : e.freeCtr = d.freeCtr
  regs : ∀ k, reactReg k = false → e.rd k = d.rd k
  sweepA : e.h.sweepA = d.h.sweepA
  sweepB : e.h.sweepB = d.h.sweepB
  turn : e.h.turn = d.h.turn
  ord : e.h.ord = d.h.ord
  imgA : e.h.imgA = d.h.imgA
  imgB : e.h.imgB = d.h.imgB
  fwQ : e.h.fwQ = d.h.fwQ
  fwReads : e.h.fwReads.map FwRead.asked = d.h.fwReads.map FwRead.asked
  cmpAt : e.h.cmpAt = d.h.cmpAt
  hPowered : e.h.powered = d.h.powered
  porHeld : e.f.porHeld = d.f.porHeld
  param : e.h.param = d.h.param
  refNum : e.h.refNum = d.h.refNum
  lastTick : e.h.lastTick = d.h.lastTick
  copy : e.h.copy = d.h.copy
  wdA : e.h.wdA = d.h.wdA
  wdB : e.h.wdB = d.h.wdB
  fReset : e.h.fReset = d.h.fReset
  bodies : e.h.bodies = d.h.bodies
  jobs : e.h.jobs = d.h.jobs
  job : e.h.job = d.h.job
  stg : e.h.stg = d.h.stg
  sec : e.h.sec = d.h.sec
  mir : e.h.mir = d.h.mir
  boot : e.h.boot = d.h.boot
  linkUp : e.h.link.up = d.h.link.up
  powered : e.f.powered = d.f.powered
  released : e.f.released = d.f.released
  watch : e.f.watch = d.f.watch
  fops : e.f.ops = d.f.ops
  ft : e.f.ft = d.f.ft
  car : e.f.car = d.f.car
  fsp : e.f.fsp = d.f.fsp
  twp : e.f.twp = d.f.twp
  wdF : e.f.wdF = d.f.wdF
  image : e.f.image = d.f.image
  headLatch : e.f.headLatch = d.f.headLatch
  posNum : e.f.posNum = d.f.posNum

end Sys2Proof.Machine
end

