-- ==== Sys2Proof/Certificates/Slice0/Obligations.lean ====
section
/-!
DEFINITION. The statements for the provers. Each is about one command or a group of commands of one chapter, or about every step: what
the command leaves, and what it leaves alone.
-/

open Sys2Proof Sys2Proof.Machine

/-- Writes of CAR_CTRL and CAR_SRC by the Carousel's owner (chapter 01): EN from 0 to 1 takes M and reduces the position, leaving no
slot in use at M or above; EN to 0; POS_LOAD, which touches no slot; TURN_CLR, with a wrap of its cycle applied after it, made before
the command or with it; LOCK; a source selection, which ends a loss, and one that LOCK refuses.
The model's choices in it: log entries 24 and 97. -/
def Obligations.CarouselControlWrites : Prop :=
  ∀ (s : State) (fn : Func) (data : Word) (forward : Bool) (t m : Nat), s.dev.carCode = codeOf fn →
    m = s.dev.fld Fld.CAR_MOD_LO_MODM1_LO + 2 ^ 32 * s.dev.fld Fld.CAR_MOD_HI_MODM1_HI + 1 →
    ((bitOf data.toNat 0 = true → bitOf data.toNat 1 = false → bitOf data.toNat 2 = false → bitOf data.toNat 3 = false →
        s.dev.carEn = false → m ≠ 1 →
      ∃ u : State, exec (.carEnWrite fn data t) s = .next u ∧ u.dev.carEn = true ∧ u.dev.f.car.modulus = m ∧
        u.dev.f.car.pos = s.dev.f.car.pos % m ∧ u.dev.f.car.turn = s.dev.f.car.turn ∧
        (∀ n, (u.dev.slot n).st ≠ .free → (u.dev.slot n).target < m) ∧
        (∀ n, (s.dev.slot n).target < m → u.dev.slot n = s.dev.slot n) ∧ u.nv = s.nv ∧ u.pending = s.pending) ∧
    (bitOf data.toNat 0 = false → bitOf data.toNat 1 = false → bitOf data.toNat 2 = false → bitOf data.toNat 3 = false →
        s.dev.carEn = true →
      exec (.carEnWrite fn data t) s = .next { s with dev :=
        ({ (s.dev.at t).ncoSettle.setFld Fld.CAR_CTRL_EN 0 with f.car.offAt := max s.dev.now t }).unpend }) ∧
    (bitOf data.toNat 0 = s.dev.carEn → bitOf data.toNat 1 = false → bitOf data.toNat 2 = false →
        s.dev.loadValue < s.dev.f.car.modulus →
      exec (.carPosLoad fn data t) s = .next { s with dev :=
        ({ s.dev.at t with f.car.pos := s.dev.loadValue, f.car.absOff := 0, f.car.absRest := false }).carNote false }) ∧
    (bitOf data.toNat 0 = s.dev.carEn → bitOf data.toNat 2 = false → bitOf data.toNat 3 = false →
      ((∀ w, s.dev.f.car.lastWrap ≠ some (max s.dev.now t, w)) →
        (∃ u : State, exec (.turnClr fn data none t) s = .next u ∧ u.dev.f.car.turn = 0 ∧
          u.dev.fld Fld.CAR_TURN_SAT = 0 ∧ u.dev.f.car.slots = s.dev.f.car.slots ∧ u.dev.f.car.pos = s.dev.f.car.pos ∧
          u.nv = s.nv ∧ u.pending = s.pending) ∧
        (s.dev.carRuns = true → s.dev.f.car.src = 1 → s.dev.fld Fld.CAR_SRC_SEL = 1 → s.dev.f.car.pendSrc = none →
            (if forward then s.dev.f.car.pos + 1 = s.dev.f.car.modulus else s.dev.f.car.pos = 0) →
          ∃ u : State, exec (.turnClr fn data (some forward) t) s = .next u ∧
            u.dev.f.car.turn = (if forward then 1 else 0) ∧ u.dev.fld Fld.CAR_TURN_SAT = 0 ∧
            (forward = false → u.dev.fld Fld.CAR_TURN_BELOW = 1) ∧
            u.dev.f.car.pos = (if forward then 0 else s.dev.f.car.modulus - 1) ∧
            u.dev.f.car.index = (s.dev.f.car.index + (if forward then 1 else 2 ^ 32 - 1)) % 2 ^ 32 ∧
            u.nv = s.nv ∧ u.pending = s.pending)) ∧
      (s.dev.f.car.lastWrap = some (max s.dev.now t, forward) →
        ∃ u : State, exec (.turnClr fn data none t) s = .next u ∧ u.dev.f.car.turn = (if forward then 1 else 0) ∧
          u.dev.fld Fld.CAR_TURN_SAT = 0 ∧ (forward = false → u.dev.fld Fld.CAR_TURN_BELOW = 1) ∧
          u.dev.f.car.slots = s.dev.f.car.slots ∧ u.dev.f.car.pos = s.dev.f.car.pos ∧ u.nv = s.nv ∧ u.pending = s.pending)) ∧
    (bitOf data.toNat 0 = s.dev.carEn → bitOf data.toNat 1 = false → bitOf data.toNat 3 = false →
      exec (.carLock fn data t) s = .next { s with dev := (s.dev.at t).setFld Fld.CAR_CTRL_LOCK 1 }) ∧
    (bitsOf data.toNat 0 3 < 5 → bitsOf data.toNat 3 2 ≠ 3 → s.dev.flag Fld.CAR_CTRL_LOCK = false →
      ∃ u : State, exec (.carSrcWrite fn data t) s = .next u ∧
        u.dev.fld Fld.CAR_SRC_SEL = bitsOf data.toNat 0 3 ∧ u.dev.fld Fld.CAR_SRC_Z_MODE = bitsOf data.toNat 3 2 ∧
        u.dev.f.car.lost = false ∧ u.dev.f.car.pos = s.dev.f.car.pos ∧ u.dev.f.car.slots = s.dev.f.car.slots ∧
        u.dev.f.car.pendSrc =
          (if bitsOf data.toNat 0 3 = s.dev.f.car.src ∧ s.dev.f.car.held = false ∧
              (s.dev.f.car.lost = false ∨ (s.dev.f.car.onInternal = true ∧ bitsOf data.toNat 0 3 = 0))
            then none else some (bitsOf data.toNat 0 3)) ∧
        u.nv = s.nv ∧ u.pending = s.pending) ∧
    (bitsOf data.toNat 0 3 < 5 → bitsOf data.toNat 3 2 ≠ 3 → s.dev.flag Fld.CAR_CTRL_LOCK = true → s.dev.f.car.lost = false →
      exec (.carSrcWrite fn data t) s = .next { s with dev := (s.dev.at t).setFld Fld.CAR_STATUS_CFG_REJ 1 }))

/-- R31: the slot split, the writes of it that are taken, and those that are ignored and set CFG_REJ. -/
def Obligations.CarouselSlotSplit : Prop :=
  ∀ (d : Dev) (fn : Func) (n : Nat) (data : Word) (dev : Bool) (sda : SdaCheck),
    ((n < 256 → d.fld Fld.CAR_SLOT_SPLIT_A_COUNT + d.fld Fld.CAR_SLOT_SPLIT_B_COUNT ≤ 256 →
      (d.slotCode n = codeOf false ↔ n < d.fld Fld.CAR_SLOT_SPLIT_A_COUNT) ∧
      (d.slotCode n = codeOf true ↔ 256 - d.fld Fld.CAR_SLOT_SPLIT_B_COUNT ≤ n) ∧
      (d.slotCode n = 0 ↔ d.fld Fld.CAR_SLOT_SPLIT_A_COUNT ≤ n ∧ n < 256 - d.fld Fld.CAR_SLOT_SPLIT_B_COUNT)) ∧
    (d.carCode = codeOf fn → d.flag Fld.CAR_CTRL_LOCK = false →
      (256 < bitsOf data.toNat 0 9 + bitsOf data.toNat 9 9 ∨ d.carEn = true →
        d.windowApply dev (fwContainer fn Reg.CAR_SLOT_SPLIT data) sda = (d.setFld Fld.CAR_STATUS_CFG_REJ 1, 3)) ∧
      (bitsOf data.toNat 0 9 + bitsOf data.toNat 9 9 ≤ 256 → d.carEn = false →
        ∃ e : Dev, d.windowApply dev (fwContainer fn Reg.CAR_SLOT_SPLIT data) sda = (e, 0) ∧
          e.fld Fld.CAR_SLOT_SPLIT_A_COUNT = bitsOf data.toNat 0 9 ∧ e.fld Fld.CAR_SLOT_SPLIT_B_COUNT = bitsOf data.toNat 9 9 ∧
          ∀ k, k ≠ Reg.CAR_SLOT_SPLIT → e.rd k = d.rd k)))

/-- R38: a read of CAR_POS_LO latches the upper position bits and the turn counter for its function, and a read of CAR_POS_HI
returns what the last such read of that function latched. -/
def Obligations.CarouselPositionReadIsOneSample : Prop :=
  ∀ (s : State) (fn : Func) (t : Nat),
    ∃ u : State, exec (.carPosLoRead fn t) s = .next u ∧
      u.dev.carRead fn Reg.CAR_POS_HI = BitVec.ofNat 32 (s.dev.f.car.pos / 2 ^ 32 % 2 ^ 16 + s.dev.f.car.turn * 2 ^ 16) ∧
      u.dev.carRead fn Reg.CAR_POS_LO = BitVec.ofNat 32 s.dev.f.car.pos ∧
      u.dev.carRead (!fn) Reg.CAR_POS_HI = s.dev.carRead (!fn) Reg.CAR_POS_HI ∧
      u.dev.f.car = { s.dev.f.car with hiA := u.dev.f.car.hiA, hiB := u.dev.f.car.hiB } ∧
      (∀ k, u.dev.rd k = s.dev.rd k) ∧ (s.dev.at t).SameApart { u.dev with f.car := s.dev.f.car } ∧
      u.nv = s.nv ∧ u.pending = s.pending

/-- Counts (chapter 01): a legal encoder step, an NCO carry and a good absolute sample move the position modulo M, the carry leaving the
phase beyond it; a bad sample moves nothing, nor does the first one after a Rest. Slots that act on the way do not move it.
The model's choices in it: the order inside a count and what a sample after a Rest stands for are the model's reading, log
entries 23 and 24. -/
def Obligations.CarouselCounts : Prop :=
  ∀ (s : State) (forward z : Bool) (rx : List (BitVec 8)) (bits : List Bool) (t : Nat), s.dev.carRuns = true → s.dev.f.car.pendSrc = none →
    ((s.dev.fld Fld.CAR_SRC_SEL = 1 → s.dev.f.car.src = 1 → s.dev.fld Fld.CAR_SRC_Z_MODE = 0 →
      ∃ u : State, exec (.quadCount forward z t) s = .next u ∧
        u.dev.f.car.pos = (if forward then (s.dev.f.car.pos + 1) % s.dev.f.car.modulus
          else (s.dev.f.car.pos + s.dev.f.car.modulus - 1) % s.dev.f.car.modulus) ∧
        u.dev.f.car.moved = s.dev.f.car.moved + (if forward then 1 else -1) ∧
        u.dev.f.car.modulus = s.dev.f.car.modulus ∧
        u.dev.f.car.index = (if (if forward then s.dev.f.car.pos + 1 = s.dev.f.car.modulus else s.dev.f.car.pos = 0)
          then (s.dev.f.car.index + (if forward then 1 else 2 ^ 32 - 1)) % 2 ^ 32 else s.dev.f.car.index) ∧
        u.nv = s.nv ∧ u.pending = s.pending) ∧
    (isNco s.dev.f.car.src = true → s.dev.ncoRate ≠ 0 → 2 ^ 31 ≤ (s.dev.at t).ncoPhase →
      ∃ u : State, exec (.ncoCount t) s = .next u ∧
        u.dev.f.car.pos = (s.dev.f.car.pos + 1) % s.dev.f.car.modulus ∧ u.dev.f.car.ncoAt = max s.dev.now t ∧
        u.dev.f.car.acc = (s.dev.at t).ncoPhase - 2 ^ 31 ∧
        u.dev.f.car.moved = s.dev.f.car.moved + 1 ∧ u.nv = s.nv ∧ u.pending = s.pending) ∧
    (s.dev.fld Fld.CAR_SRC_SEL = 2 → s.dev.f.car.src = 2 → s.dev.fld Fld.CAR_ABS_CFG_BITS ≠ 0 → s.dev.f.car.lost = false →
        s.dev.f.car.pos < s.dev.f.car.modulus →
      ((s.dev.at t).absReceived rx = some (some bits) →
        ∃ u : State, exec (.absSampleCommit rx t) s = .next u ∧
          u.dev.f.car.pos = (if s.dev.f.car.absRest then s.dev.f.car.pos
            else (natOfBits (bits.take (s.dev.fld Fld.CAR_ABS_CFG_BITS)) + s.dev.f.car.absOff) % s.dev.f.car.modulus) ∧
          u.dev.f.car.absRest = false ∧ u.dev.f.car.absBad = 0 ∧ u.dev.f.car.absLast = max s.dev.now t ∧
          u.nv = s.nv ∧ u.pending = s.pending) ∧
      ((s.dev.at t).absReceived rx = some none → s.dev.f.car.absBad < 2 →
        exec (.absSampleCommit rx t) s =
          .next { s with dev := { s.dev.at t with f.fsp.absTaken := true, f.car.absBad := s.dev.f.car.absBad + 1 } })))

/-- Losses and references (chapter 01): the source of the position is lost by a long run of illegal transitions, an open encoder, a
missing sample or the end of holdover; reference events steer the oscillator and end holdover; a missing reference begins it.
The model's choices in it: the phase error and the steered rate are operands, log entry 20. -/
def Obligations.CarouselLossesAndReferences : Prop :=
  ∀ (s : State) (err : Int) (rate q t : Nat), s.dev.f.ch.rest = none →
    ((s.dev.carEn = true → s.dev.f.car.lost = false →
      (s.dev.fld Fld.CAR_SRC_SEL = 1 →
        (∃ u : State, exec (.encBiasOpen t) s = .next u ∧ u.dev.f.car.lost = true ∧ u.dev.fld Fld.CAR_STATUS_SRC_LOST = 1 ∧
          u.dev.f.car.onInternal = (s.dev.f.car.onInternal || s.dev.fld Fld.CAR_LOSS_POL == 1) ∧
          u.dev.f.car.pos = s.dev.f.car.pos ∧ u.nv = s.nv ∧ u.pending = s.pending) ∧
        (s.dev.f.car.illFirst = some q → q + 800000 ≤ max s.dev.now t →
          ∃ u : State, exec (.quadIllegalTransition t) s = .next u ∧ u.dev.f.car.lost = true ∧
            u.dev.fld Fld.CAR_STATUS_SRC_LOST = 1 ∧ u.nv = s.nv ∧ u.pending = s.pending)) ∧
      (s.dev.fld Fld.CAR_SRC_SEL = 2 → s.dev.f.car.absLast + 256 * s.dev.fld Fld.CAR_ABS_CFG_PERIOD ≤ max s.dev.now t →
        ∃ u : State, exec (.absSampleTimeout t) s = .next u ∧ u.dev.f.car.lost = true ∧
          u.dev.fld Fld.CAR_STATUS_SRC_LOST = 1 ∧ u.nv = s.nv ∧ u.pending = s.pending) ∧
      (s.dev.f.car.holdSince = some q → q + max 1 (s.dev.fld Fld.CAR_SYNC_CFG_HOLD) * 800000000 ≤ max s.dev.now t →
        ∃ u : State, exec (.holdoverExpire t) s = .next u ∧ u.dev.f.car.lost = true ∧
          u.dev.fld Fld.CAR_STATUS_SRC_LOST = 1 ∧ u.nv = s.nv ∧ u.pending = s.pending)) ∧
    (s.dev.fld Fld.CAR_SRC_SEL = 1 →
      ∃ u : State, exec (.quadIllegalTransition t) s = .next u ∧
        u.dev.fld Fld.CAR_QERR_CNT_COUNT = min (s.dev.fld Fld.CAR_QERR_CNT_COUNT + 1) (2 ^ 32 - 1) ∧
        (u.dev.src .f Sn.CAR_QUAD_ERR).last = max s.dev.now t ∧ u.nv = s.nv ∧ u.pending = s.pending) ∧
    ((s.dev.fld Fld.CAR_SRC_SEL = 3 →
        ∃ u : State, exec (.ppsEdge true err rate q t) s = .next u ∧ u.dev.f.car.pendRate = clampRate rate ∧
          (s.dev.f.car.pendSrc = none → u.dev.f.car.rate = clampRate rate) ∧ u.dev.f.car.holdSince = none ∧
          u.dev.f.car.lockRun = (if err.natAbs ≤ 8 then min 4 (s.dev.f.car.lockRun + 1) else 0) ∧
          u.dev.f.car.locked = decide (err.natAbs ≤ 8 ∧ 3 ≤ s.dev.f.car.lockRun) ∧ u.nv = s.nv ∧ u.pending = s.pending) ∧
      (s.dev.fld Fld.CAR_SRC_SEL = 4 →
        ∃ u : State, exec (.mainsZeroCross true err rate q false t) s = .next u ∧ u.dev.f.car.pendRate = rate ∧
          (s.dev.f.car.pendSrc = none → u.dev.f.car.rate = rate) ∧ u.dev.f.car.holdSince = none ∧ u.dev.f.car.locked = false ∧
          u.nv = s.nv ∧ u.pending = s.pending) ∧
      ((s.dev.fld Fld.CAR_SRC_SEL = 3 ∨ s.dev.fld Fld.CAR_SRC_SEL = 4) → s.dev.f.car.holdSince = none →
        ∃ u : State, exec (.syncReferenceLoss t) s = .next u ∧ u.dev.f.car.holdSince = some (max s.dev.now t) ∧
          u.dev.f.car.locked = false ∧ (u.dev.src .f Sn.CAR_SYNC_UNLOCK).last = max s.dev.now t ∧
          u.dev.f.car.pos = s.dev.f.car.pos ∧ u.nv = s.nv ∧ u.pending = s.pending)))

/-- Slots (chapter 01): a ONCE arm of its owner's slot whose target is not just passed arms it; a disarm frees it with LAST reading
DISARMED; a placed slot fires at its instant; where prediction is lost the PENDING slots are abandoned and ARMED; a time-of-day load is
held; the ABS entry's run falls due. -/
def Obligations.CarouselSlotCommands : Prop :=
  ∀ (s : State) (tag n t : Nat) (o : FOp),
    ((s.dev.freshOp tag opSLOT_ARM = some o → s.dev.slotCode o.desc.dest = codeOf o.fn →
        o.desc.target < s.dev.f.car.modulus → (s.dev.slot o.desc.dest).st = .free → (s.dev.ring o.ring).running = true →
        (s.dev.f.ch.standby = true ∨ (s.dev.at t).targetLate o.desc.qual o.desc.target = false) →
        (o.desc.action = 2 → s.dev.entryForeign o.fn (o.desc.operand1.toNat % 256) = false) →
      ∃ u : State, exec (.slotArm tag t) s = .next u ∧
        u.dev.slot o.desc.dest =
          { st := .armed, last := (s.dev.slot o.desc.dest).last, fn := o.fn, ring := o.ring,
            tag := if o.desc.repeats then none else some tag,
            target := o.desc.target, frac := o.desc.frac, qual := o.desc.qual, repeats := o.desc.repeats,
            drop := o.desc.lateDrop, notify := o.desc.notify, lead := o.desc.lead, action := o.desc.action,
            value := o.desc.slotValue, operand := o.desc.operand1, fired := [], placed := 0, abandoned := false } ∧
        (∀ k, k ≠ o.desc.dest → u.dev.slot k = s.dev.slot k) ∧ u.dev.f.car.pos = s.dev.f.car.pos ∧
        u.nv = s.nv ∧ u.pending = s.pending) ∧
    (s.dev.freshOp tag opSLOT_DISARM = some o → s.dev.slotCode o.desc.dest = codeOf o.fn →
        (s.dev.slot o.desc.dest).st ≠ .free →
      ∃ u : State, exec (.slotDisarm tag t) s = .next u ∧ u.dev.slot o.desc.dest = { Slot.free with last := 5 } ∧
        (∀ k, k ≠ o.desc.dest → u.dev.slot k = s.dev.slot k) ∧ u.nv = s.nv ∧ u.pending = s.pending) ∧
    ((s.dev.slot n).st = .pending → (s.dev.slot n).placed ≤ max s.dev.now t → (s.dev.at t).slotsAct = true →
        (s.dev.at t).predOk = true →
      exec (.slotPlacedFire n t) s =
        .next { s with dev := (s.dev.at t).slotFire n (if isNco s.dev.f.car.src then 1 else 2) }) ∧
    ((s.dev.at t).predOk = false → Tab.wf (fun _ => Slot.free) s.dev.f.car.slots = true →
      ∃ u : State, exec (.predictionTimeout t) s = .next u ∧
        (∀ k, u.dev.slot k = (if (s.dev.slot k).st = .pending then { s.dev.slot k with st := .armed, abandoned := true }
          else s.dev.slot k)) ∧
        u.dev.f.car.pos = s.dev.f.car.pos ∧ u.nv = s.nv ∧ u.pending = s.pending) ∧
    (s.dev.freshOp tag opTOD_LOAD = some o → s.dev.carCode = codeOf o.fn →
        o.desc.value.good o.fn o.ring 0x130 = true → s.dev.f.car.tod = none →
        o.desc.value.word.toNat < s.dev.f.car.modulus →
      exec (.todLoad tag t) s = .next { s with dev :=
        { (s.dev.at t).setFop tag (some { o with begun := true }) with
          f.car.tod := some (tag, o.desc.value.word.toNat) } }) ∧
    (s.dev.absEntry = some n → (s.dev.fspEntry n).loaded = true → (s.dev.fspEntry n).txWords = 0 →
        ecWords (s.dev.fspEntry n).ectrl = 1 → (∃ p ∈ (s.dev.fspEntry n).phases, phKind p = 5) →
        (∀ a, s.dev.f.fsp.absAt = some a → a + 64 * s.dev.fld Fld.CAR_ABS_CFG_PERIOD ≤ max s.dev.now t) →
      exec (.absSampleRun t) s = .next { s with dev := { s.dev.at t with
        f.fsp.absAt := some (max s.dev.now t), f.fsp.absDue := true } }))

/-- Position forwarding (chapter 02): POSITION_FORWARD puts out one position cell with the next number and moves nothing
else; a position cell whose checks hold replaces the H-side copy, its turn index extended to the nearest; one whose own check
fails raises CAR_FWD_CHK and leaves it, and one whose header check fails is discarded and counted.
The model's choices in it: the extension of the turn bits is the model's reading, log entry 25. -/
def Obligations.PositionForwarding : Prop :=
  ∀ (s : State) (c : Cell80) (t : Nat), s.dev.h.link.up = true →
    (exec (.positionForward t) s = .next { s with dev := { s.dev.at t with
      f.posNum := (s.dev.f.posNum + 1) % 32
      out := .cell .f ((Cell.position (s.dev.at t).carDir (s.dev.f.car.index % 8) s.dev.f.posNum
        (Container.make (BitVec.ofNat 48 s.dev.f.car.pos) false 0 routePosition)).wire 0) :: s.dev.out } } ∧
    (c.hchkGood = true → c.typ = 2 → c.route / 8 ≠ 3 → c.container.good false 0 routePosition = true →
      ∃ u : State, exec (.positionCellReceive c t) s = .next u ∧
        u.dev.h.copy = ⟨c.container.word.toNat, c.route / 8, (extendTurn s.dev.h.copy.turn (c.route % 8) % 2 ^ 32).toNat, true,
          min 16 (s.dev.h.copy.good + 1)⟩ ∧
        u.dev.f = s.dev.f ∧ u.dev.h.rings = s.dev.h.rings ∧ (∀ k, u.dev.rd k = s.dev.rd k) ∧
        u.nv = s.nv ∧ u.pending = s.pending) ∧
    (c.hchkGood = true → c.typ = 2 → c.route / 8 ≠ 3 → c.container.good false 0 routePosition = false →
      ∃ u : State, exec (.positionCellReceive c t) s = .next u ∧ u.dev.h.copy = { s.dev.h.copy with good := 0 } ∧
        (u.dev.src .h Sn.CAR_FWD_CHK).last = max s.dev.now t ∧ u.dev.f.car = s.dev.f.car ∧ u.nv = s.nv ∧ u.pending = s.pending) ∧
    (c.hchkGood = false →
      ∃ u : State, exec (.positionCellReceive c t) s = .next u ∧ u.dev.h.copy = s.dev.h.copy ∧
        u.dev.fld Fld.PRZ_CELL_ERR_CNT_COUNT = min (s.dev.fld Fld.PRZ_CELL_ERR_CNT_COUNT + 1) (2 ^ 32 - 1) ∧
        u.dev.f.car = s.dev.f.car ∧ u.nv = s.nv ∧ u.pending = s.pending))

/-- REFRESH_TICK and the PARAM exchange (chapter 02): at a tick both images are latched and sent as REF_A and REF_B of one
number; PRZ_REFRESH starts the exchange, which ends with the effective period in use on both sides.
The model's choices in it: PARAM goes out with every refresh until it is answered, log entry 33. -/
def Obligations.RefreshTicksAndPeriod : Prop :=
  ∀ (s : State) (data : Word) (c : Cell80) (t : Nat), s.dev.h.link.up = true →
    ((s.dev.h.dev ≠ .rest → s.dev.h.lastTick + s.dev.fld Fld.PRZ_REF_EFF_EFF * 20 ≤ max s.dev.now t →
      ∃ u : State, exec (.refreshTick t) s = .next u ∧
        u.dev.h.imgA = ⟨s.dev.h.imgA.cur, s.dev.h.imgA.cur, [], s.dev.h.imgA.merged,
          s.dev.h.imgA.older ++ s.dev.h.imgA.carried⟩ ∧
        u.dev.h.imgB = ⟨s.dev.h.imgB.cur, s.dev.h.imgB.cur, [], s.dev.h.imgB.merged,
          s.dev.h.imgB.older ++ s.dev.h.imgB.carried⟩ ∧
        u.dev.out = (match s.dev.h.param with | some (p, n, e) => [.cell .h ((Cell.param p n e).wire 0)] | none => [])
          ++ .cell .h ((Cell.refresh true s.dev.h.refNum s.dev.h.imgB.cur).wire 0)
          :: .cell .h ((Cell.refresh false s.dev.h.refNum s.dev.h.imgA.cur).wire 0) :: s.dev.out ∧
        u.dev.h.refNum = (s.dev.h.refNum + 1) % 32 ∧ u.dev.h.lastTick = max s.dev.now t ∧ u.dev.f = s.dev.f ∧
        (∀ k, u.dev.rd k = s.dev.rd k) ∧ u.nv = s.nv ∧ u.pending = s.pending) ∧
    (s.dev.hostOpen false = true → s.dev.flag Fld.PRZ_CTRL_LOCK = false → 10 ≤ bitsOf data.toNat 0 10 → bitsOf data.toNat 0 10 ≤ 640 →
        2 ≤ bitsOf data.toNat 10 4 →
      ∃ u : State, exec (.przRefreshWrite false data) s = .next u ∧
        u.dev.fld Fld.PRZ_REFRESH_PERIOD = bitsOf data.toNat 0 10 ∧ u.dev.fld Fld.PRZ_REFRESH_MISS_N = bitsOf data.toNat 10 4 ∧
        u.dev.h.param = some (bitsOf data.toNat 0 10, bitsOf data.toNat 10 4,
          effPeriod (bitsOf data.toNat 0 10) s.dev.h.link.fwd s.dev.h.link.ret) ∧
        u.dev.out = .cell .h ((Cell.param (bitsOf data.toNat 0 10) (bitsOf data.toNat 10 4)
          (effPeriod (bitsOf data.toNat 0 10) s.dev.h.link.fwd s.dev.h.link.ret)).wire 0) :: s.dev.out ∧
        (∀ k, k ≠ Reg.PRZ_REFRESH → u.dev.rd k = s.dev.rd k) ∧ u.dev.f = s.dev.f ∧ u.nv = s.nv ∧ u.pending = s.pending) ∧
    (goodLink c 0x04 = true →
      exec (.paramReceive c) s = .next { s with dev := { s.dev.cellSeen .f with
        f.watch.next := some (c.bits 32 10, c.bits 42 4)
        out := .cell .f ((Cell.paramAck (c.bits 46 10) (c.bits 42 4) (c.bits 32 10)).wire 0) :: s.dev.out } }) ∧
    (goodLink c 0x05 = true → s.dev.h.param = some (c.bits 46 10, c.bits 42 4, c.bits 32 10) →
      exec (.paramAckReceive c) s = .next { s with dev :=
        (({ s.dev.cellSeen .h with h.param := none }).setFld Fld.PRZ_REF_EFF_EFF (c.bits 32 10)) }) ∧
    (goodLink c 0x07 = true →
      exec (.missStatusReceive c) s = .next { s with dev := (s.dev.cellSeen .h).setFld Fld.PRZ_STATUS_MISS_NOW (c.bits 52 4) }))

/-- Refresh commits (chapters 02 and 06): REF_A is kept, and REF_B with its number in the next reserved slot commits the pair. At the commit
each function's word becomes the word of its container if its check holds, but for the channels that an IMMEDIATE write or a slot sets in
that cycle, and stays with a count if it does not; channel ownership takes effect and the watch is armed. The refresh watch (chapter 02):
the number of missed periods is reported when it changes, and at N × P the watch expires: every channel is held and PRZ_REF_MISS is
active.
The model's choices in it: which OUT_WRITEs a pair judges is the model's reading, log entry 46. -/
def Obligations.RefreshCommitsAndWatch : Prop :=
  (∀ (s : State) (a : Container) (c : Cell80) (keep : W48) (t : Nat), s.dev.h.link.up = true → c.hchkGood = true → c.typ = 1 → c.route % 16 = 0 →
    (c.route / 16 = 0 → s.dev.f.watch.lastNum = some c.seq →
      ∃ u : State, exec (.refreshCellReceive c t) s = .next u ∧ u.dev.f.watch.refA = some (c.seq, c.container) ∧
        u.dev.f.watch.refAt = max s.dev.now t ∧ u.dev.f.ch = s.dev.f.ch ∧ (∀ k, u.dev.rd k = s.dev.rd k) ∧ u.nv = s.nv ∧ u.pending = s.pending) ∧
    (c.route / 16 = 1 → s.dev.f.watch.refA = some (c.seq, a) → (s.dev.at t).nextSlot s.dev.f.watch.refAt = true →
        (s.dev.at t).watchDue = false → s.dev.f.watch.expAt ≠ some (max s.dev.now t) → s.dev.h.mir.takeover = none →
        s.dev.f.ch.rest = none →
        keep = s.dev.f.ch.immNow (max s.dev.now t) ||| s.dev.f.ch.slotNow (max s.dev.now t) 0 →
      (a.good false 0 routeRefresh = true → c.container.good true 0 routeRefresh = true →
        ∃ u : State, exec (.refreshCellReceive c t) s = .next u ∧
          u.dev.f.ch.wordA = ((a.word &&& ~~~keep) ||| (s.dev.f.ch.wordA &&& keep)) ∧
          u.dev.f.ch.wordB = ((c.container.word &&& ~~~keep) ||| (s.dev.f.ch.wordB &&& keep)) ∧
          u.dev.f.ch.own0 = s.dev.rd (Reg.PCI_OWN_CH 0) ∧ u.dev.f.ch.own1 = s.dev.rd (Reg.PCI_OWN_CH 1) ∧
          u.dev.f.ch.own2 = s.dev.rd (Reg.PCI_OWN_CH 2) ∧ u.dev.f.ch.refCntA = 0 ∧ u.dev.f.ch.refCntB = 0 ∧
          u.dev.h.imgA.carried = [] ∧ u.dev.h.imgB.carried = [] ∧ u.dev.f.watch.lastCommit = some (max s.dev.now t) ∧
          u.dev.f.watch.refA = none ∧ u.dev.f.car = s.dev.f.car ∧ u.nv = s.nv ∧ u.pending = s.pending) ∧
      (a.good false 0 routeRefresh = false → c.container.good true 0 routeRefresh = false →
        ∃ u : State, exec (.refreshCellReceive c t) s = .next u ∧
          u.dev.f.ch.wordA = s.dev.f.ch.wordA ∧ u.dev.f.ch.wordB = s.dev.f.ch.wordB ∧
          u.dev.f.ch.refCntA = s.dev.f.ch.refCntA + 1 ∧ u.dev.f.ch.refCntB = s.dev.f.ch.refCntB + 1 ∧
          u.dev.f.watch.lastCommit = some (max s.dev.now t) ∧ u.dev.f.car = s.dev.f.car ∧ u.nv = s.nv ∧ u.pending = s.pending))) ∧
  (∀ (s : State) (l t : Nat), s.dev.f.watch.lastCommit = some l →
    ((s.dev.f.watch.reported ≠ min 15 ((max s.dev.now t - l) / (s.dev.f.watch.period * 20)) → s.dev.h.link.up = true →
      exec (.refreshWatchPeriod t) s = .next { s with dev := { s.dev.at t with
        f.watch.reported := min 15 ((max s.dev.now t - l) / (s.dev.f.watch.period * 20))
        f.watch.missDue := false
        out := .cell .f ((Cell.missStatus (min 15 ((max s.dev.now t - l) / (s.dev.f.watch.period * 20)))).wire 0) :: s.dev.out } }) ∧
    (s.dev.f.watch.expired = false → l + s.dev.f.watch.missN * s.dev.f.watch.period * 20 ≤ max s.dev.now t →
        0 < (s.dev.at t).sevOf .f Sn.PRZ_REF_MISS →
      ∃ u : State, exec (.refreshWatchExpire t) s = .next u ∧ u.dev.f.watch.expired = true ∧
        u.dev.f.watch.expAt = some (max s.dev.now t) ∧ u.dev.f.ch.held = allCh ∧
        (u.dev.src .f Sn.PRZ_REF_MISS).active = true ∧ (u.dev.src .f Sn.PRZ_REF_MISS).scA = true ∧
        (u.dev.src .f Sn.PRZ_REF_MISS).scB = true ∧ u.dev.f.car = s.dev.f.car ∧ u.nv = s.nv ∧ u.pending = s.pending)))

/-- The bulk stream (chapter 02): the next expected cell is taken, and the eighth since the last ACK is acknowledged; the
first cell out of order is answered with NAK; an ACK releases the cells up to it; a NAK and a timeout resend every
unacknowledged cell in order.
The model's choices in it: a NAK acknowledges nothing, log entry 34. -/
def Obligations.BulkStreamAcknowledges : Prop :=
  ∀ (s : State) (x : Die) (c : Cell80) (k t : Nat), s.dev.h.link.up = true →
    ((c.hchkGood = true → (c.typ = 3 ∨ (c.typ = 4 ∧ c.cchkGood = true ∧ (c.opcode = 0x20 ∨ c.opcode = 0x21))) → c.route ≤ 7 →
      (c.seq = (s.dev.bulk x).rxSeq →
        ∃ u : State, exec (.bulkCellReceive x c t) s = .next u ∧
          (u.dev.bulk x).rxSeq = (c.seq + 1) % 32 ∧ (u.dev.bulk x).nakSent = false ∧
          ((s.dev.bulk x).since < 7 → (u.dev.bulk x).since = (s.dev.bulk x).since + 1 ∧ u.dev.out = s.dev.out) ∧
          (7 ≤ (s.dev.bulk x).since → (u.dev.bulk x).since = 0 ∧ u.dev.out = .cell x ((Cell.ack c.seq).wire 0) :: s.dev.out) ∧
          u.dev.bulk (Machine.Die.other x) = s.dev.bulk (Machine.Die.other x) ∧ (∀ k, u.dev.rd k = s.dev.rd k) ∧ u.nv = s.nv ∧ u.pending = s.pending) ∧
      (c.seq ≠ (s.dev.bulk x).rxSeq → (s.dev.bulk x).nakSent = false →
        ∃ u : State, exec (.bulkCellReceive x c t) s = .next u ∧ (u.dev.bulk x).rxSeq = (s.dev.bulk x).rxSeq ∧
          (u.dev.bulk x).nakSent = true ∧ u.dev.out = .cell x ((Cell.nak (s.dev.bulk x).rxSeq).wire 0) :: s.dev.out ∧
          u.dev.fld Fld.PRZ_SEQ_CNT_COUNT = min (s.dev.fld Fld.PRZ_SEQ_CNT_COUNT + 1) (2 ^ 32 - 1) ∧
          u.dev.bulk (Machine.Die.other x) = s.dev.bulk (Machine.Die.other x) ∧ u.nv = s.nv ∧ u.pending = s.pending)) ∧
    ((s.dev.bulk x).since ≠ 0 → (s.dev.bulk x).sinceAt + 160 ≤ max s.dev.now t →
      exec (.ackSendTimer x t) s = .next { s with dev :=
        (((s.dev.at t).setBulk x { s.dev.bulk x with since := 0 }).emit
          (.cell x ((Cell.ack (((s.dev.bulk x).rxSeq + 31) % 32)).wire 0))) }) ∧
    (goodLink c 0x01 = true → (s.dev.bulk x).waitFw = [] → (s.dev.bulk x).waitOp = [] → s.dev.h.fwReads = [] →
        k = (c.bits 51 5 + 32 + (s.dev.bulk x).replay.length - (s.dev.bulk x).txSeq) % 32 → k < (s.dev.bulk x).replay.length →
      exec (.ack x c t) s = .next { s with dev := (s.dev.at t).setBulk x { s.dev.bulk x with
        seen := (s.dev.bulk x).seen + 1, replay := (s.dev.bulk x).replay.drop (k + 1),
        replayAt := max s.dev.now t, resends := 0 } }) ∧
    ((s.dev.bulk x).replay ≠ [] → (s.dev.bulk x).resends < 3 → s.dev.h.dev ≠ .halt →
        k = ((s.dev.bulk x).txSeq + 32 - (s.dev.bulk x).replay.length % 32) % 32 →
      ∀ i : Instr, ((i = .nak x c t ∧ goodLink c 0x02 = true) ∨
          (i = .replayTimeout x t ∧ (s.dev.bulk x).replayAt + 1600 ≤ max s.dev.now t)) →
        ∃ u : State, exec i s = .next u ∧ (u.dev.bulk x).replay = (s.dev.bulk x).replay ∧
          (u.dev.bulk x).resends = (s.dev.bulk x).resends + 1 ∧ (u.dev.bulk x).replayAt = max s.dev.now t ∧
          (∃ l, u.dev.out = l ++ ((s.dev.bulk x).replay.zipIdx.map (fun p =>
            Emit.cell x (p.1.wire ((k + p.2) % 32)))).reverse ++ s.dev.out) ∧
          u.dev.fld Fld.PRZ_REPLAY_CNT_COUNT = min (s.dev.fld Fld.PRZ_REPLAY_CNT_COUNT + 1) (2 ^ 32 - 1) ∧
          u.nv = s.nv ∧ u.pending = s.pending))

/-- Training (chapter 02): a failed lane, a RETRAIN received and PRZ_CTRL.RETRAIN start training and count it; training that
locks enough usable lanes brings the link up with them, the effective period following; while the link is down it is retried
every 1 ms.
The model's choices in it: what training sends and sets is the model's reading, log entries 33 and 36. A RETRAIN names the lanes that
its sender can use; a training pattern names none. -/
def Obligations.LinkTrains : Prop :=
  ∀ (s : State) (x : Die) (c : Cell80) (lanes fwd ret t : Nat),
    ((s.dev.h.link.up = true →
      (lanes &&& (match x with | .f => s.dev.h.link.fwd | .h => s.dev.h.link.ret) ≠ 0 →
        ∃ u : State, exec (.laneFail x lanes t) s = .next u ∧ u.dev.h.link.up = false ∧ u.dev.h.link.training = true ∧
          (match x with
            | .f => u.dev.h.link.fwdBad = (s.dev.h.link.fwdBad ||| (lanes &&& s.dev.h.link.fwd)) ∧
                u.dev.h.link.retBad = s.dev.h.link.retBad
            | .h => u.dev.h.link.retBad = (s.dev.h.link.retBad ||| (lanes &&& s.dev.h.link.ret)) ∧
                u.dev.h.link.fwdBad = s.dev.h.link.fwdBad) ∧
          u.dev.fld Fld.PRZ_RETRAIN_CNT_COUNT = min (s.dev.fld Fld.PRZ_RETRAIN_CNT_COUNT + 1) (2 ^ 32 - 1) ∧
          u.dev.f.car = s.dev.f.car ∧ u.nv = s.nv ∧ u.pending = s.pending) ∧
      (goodLink c 0x03 = true →
        ∃ u : State, exec (.retrain x (some c) t) s = .next u ∧ u.dev.h.link.up = false ∧ u.dev.h.link.training = true ∧
          u.dev.h.link.fwdBad = (s.dev.h.link.fwdBad ||| (15 ^^^ c.bits 52 4)) ∧
          u.dev.h.link.retBad = (s.dev.h.link.retBad ||| (3 ^^^ c.bits 50 2)) ∧
          u.dev.fld Fld.PRZ_RETRAIN_CNT_COUNT = min (s.dev.fld Fld.PRZ_RETRAIN_CNT_COUNT + 1) (2 ^ 32 - 1) ∧
          u.dev.f.car = s.dev.f.car ∧ u.nv = s.nv ∧ u.pending = s.pending) ∧
      (∃ u : State, exec (.retrain x none t) s = .next u ∧ u.dev.h.link.up = false ∧ u.dev.h.link.training = true ∧
        u.dev.h.link.fwdBad = s.dev.h.link.fwdBad ∧ u.dev.h.link.retBad = s.dev.h.link.retBad ∧
        u.dev.fld Fld.PRZ_RETRAIN_CNT_COUNT = min (s.dev.fld Fld.PRZ_RETRAIN_CNT_COUNT + 1) (2 ^ 32 - 1) ∧
        u.dev.f.car = s.dev.f.car ∧ u.nv = s.nv ∧ u.pending = s.pending) ∧
      (s.dev.h.link.stopped = false → s.dev.hostOpen false = true →
        ∃ u : State, exec (.przRetrainCmd false t) s = .next u ∧ u.dev.h.link.up = false ∧ u.dev.h.link.training = true ∧
          u.dev.h.link.fwdBad = 0 ∧ u.dev.h.link.retBad = 0 ∧
          u.dev.fld Fld.PRZ_RETRAIN_CNT_COUNT = min (s.dev.fld Fld.PRZ_RETRAIN_CNT_COUNT + 1) (2 ^ 32 - 1) ∧
          u.dev.f.car = s.dev.f.car ∧ u.nv = s.nv ∧ u.pending = s.pending)) ∧
    (s.dev.hostOpen true = true →
      exec (.przRetrainCmd true t) s = .next { s with dev := (s.dev.at t).setFld Fld.PRZ_STATUS_CFG_REJ 1 }) ∧
    (s.dev.h.link.training = true → 2 ≤ lanesIn (fwd % 16 &&& (15 ^^^ s.dev.h.link.fwdBad)) →
        1 ≤ lanesIn (ret % 4 &&& (3 ^^^ s.dev.h.link.retBad)) →
        s.dev.f.released = true → s.dev.h.fReset = false → s.dev.f.image.isSome = true → s.dev.h.boot.env = none →
        s.dev.f.ch.rest = none →
      ∃ u : State, exec (.trainingComplete fwd ret t) s = .next u ∧
        u.dev.h.link.up = true ∧ u.dev.h.link.training = false ∧
        u.dev.h.link.fwd = (fwd % 16 &&& (15 ^^^ s.dev.h.link.fwdBad)) ∧
        u.dev.h.link.ret = (ret % 4 &&& (3 ^^^ s.dev.h.link.retBad)) ∧
        u.dev.fld Fld.PRZ_REF_EFF_EFF = effPeriod (s.dev.fld Fld.PRZ_REFRESH_PERIOD) u.dev.h.link.fwd u.dev.h.link.ret ∧
        u.dev.h.bulk.rxSeq = 0 ∧ u.dev.f.bulk.rxSeq = 0 ∧ u.dev.f.car = s.dev.f.car ∧ u.nv = s.nv ∧ u.pending = s.pending) ∧
    (s.dev.h.link.up = false → s.dev.h.link.training = false → s.dev.h.link.stopped = false → s.dev.h.dev ≠ .off →
        s.dev.h.link.retryAt ≤ max s.dev.now t →
      exec (.linkTrainRetry t) s = .next { s with dev := { s.dev.at t with h.link := { s.dev.h.link with
        training := true, fwdBad := 0, retBad := 0
        retryAt := s.dev.h.link.retryAt + ((max s.dev.now t - s.dev.h.link.retryAt) / 800000 + 1) * 800000 } } }))

/-- Field-window writes (chapter 02): a write is queued and sent; the F-side applies it and answers FW_ACK with cause 0, or
changes nothing and answers cause 4 where the check fails; FW_ACK releases the entry and records a refusal. Field-window
reads (chapters 02 and 03): a read is sent with FW_READ, the F-side answers with the register's value, the reply completes it; on a
link that is down, and 100 µs after FW_READ, it completes with all ones; a read of the H-side completes at once, and one of another
size or alignment with Unsupported Request.
The model's choices in it: log entries 35 and 86. -/
def Obligations.FieldWindowAccesses : Prop :=
  (∀ (s : State) (fn : Func) (off t k : Nat) (data : Word) (c : Cell80) (w : FwWrite) (q : List FwWrite) (sda : SdaCheck),
    ((onFSide off = true → off % 4 = 0 → s.dev.h.dev ≠ .boot → s.dev.barOpen fn = true → s.dev.f.ch.rest = none →
        s.dev.linkIsDown = false →
        s.dev.h.fwQ.length < 16 →
      exec (.fieldWindowWrite fn off data t) s = .next { s with dev :=
        (({ s.dev.at t with h.fwQ := s.dev.h.fwQ ++ [(⟨fn, off, data, false⟩ : FwWrite)] }).sendBulk .h
          (.fwWrite (fwContainer fn off data))) }) ∧
    (s.dev.h.link.up = true →
      (k < 12 → writeCell c fn (Reg.SN_QUIET k) data →
        exec (.fieldWindowApply c sda t) s = .next { s with dev :=
          ((((s.dev.at t).snNote .f (Reg.SN_QUIET k)).setShadow (Reg.SN_QUIET k) data).sendBulk .f
            (.fwAck fn (Reg.SN_QUIET k) 0)) }) ∧
      (writeCell c false Reg.CH_LOCK data →
        exec (.fieldWindowApply c sda t) s = .next { s with dev :=
          (((s.dev.at t).wr Reg.CH_LOCK (s.dev.rd Reg.CH_LOCK ||| (data &&& 0x3F))).sendBulk .f (.fwAck false Reg.CH_LOCK 0)) }) ∧
      (writeCell c true Reg.CH_LOCK data →
        exec (.fieldWindowApply c sda t) s = .next { s with dev :=
          ((s.dev.at t).sendBulk .f (.fwAck true Reg.CH_LOCK 1)) }) ∧
      (isBulkCell c 3 0 = true → c.container.good (bitOf c.container.word.toNat 47) 0 routeFieldWindow = false → k < 48 →
          4 * bitsOf c.container.word.toNat 32 14 = Reg.CH_CFG k →
        exec (.fieldWindowApply c sda t) s = .next { s with dev :=
          ((s.dev.at t).sendBulk .f (.fwAck (bitOf c.container.word.toNat 47) (Reg.CH_CFG k) 4)) })) ∧
    (s.dev.h.link.up = true → s.dev.h.fwQ = w :: q → q.length < 16 → w.fn = fn → w.off = off → w.lock = false →
        shadowOff off = false → s.dev.h.fwReads = [] → windowCell c 0x11 fn off →
      (c.bits 37 4 = 0 →
        exec (.fwAck c t) s = .next { s with dev := ({ s.dev.at t with h.fwQ := q }).lockCopy (fLockAt off) }) ∧
      (c.bits 37 4 ≠ 0 → c.bits 37 4 < 8 →
        ∃ u : State, exec (.fwAck c t) s = .next u ∧ u.dev.h.fwQ = q ∧ u.dev.fld Fld.PRZ_FWIN_STATUS_REJ = 1 ∧
          u.dev.fld Fld.PRZ_FWIN_LAST_OFFSET = off ∧ u.dev.fld Fld.PRZ_FWIN_LAST_FUNC = fn.idx ∧
          u.dev.fld Fld.PRZ_FWIN_LAST_CAUSE = c.bits 37 4 ∧
          (∀ j, j ≠ Reg.PRZ_FWIN_STATUS → j ≠ Reg.PRZ_FWIN_LAST → u.dev.rd j = s.dev.rd j) ∧ u.dev.f = s.dev.f ∧
          u.nv = s.nv ∧ u.pending = s.pending)))) ∧
  (∀ (s : State) (fn : Func) (bar : Bar) (ecrc : Bool) (off size q t k : Nat) (data : Word) (c : Cell80) (r : FwRead) (rest : List FwRead),
    ((s.dev.barOpen fn = true → s.dev.f.ch.rest = none → s.dev.ecrcDrops fn ecrc = false →
      (onFSide off = true → off % 4 = 0 → s.dev.linkIsDown = true →
        exec (.fieldWindowRead fn .bar0 off 4 ecrc t) s = .next { s with dev := (s.dev.at t).tlp fn (.cpl 0xFFFFFFFF) }) ∧
      (onFSide off = true → off % 4 = 0 → s.dev.h.link.up = true → s.dev.h.fwQ = [] → s.dev.h.fwReads = [] →
        exec (.fieldWindowRead fn .bar0 off 4 ecrc t) s = .next { s with dev :=
          (({ s.dev.at t with h.fwReads := [(⟨fn, off, 0, none, true⟩ : FwRead)] }).sendBulk .h (.fwRead fn off)) }) ∧
      (onFSide off = false → off % 4 = 0 →
        ∀ v : State, v = { s with dev := s.dev.at t } →
          exec (.fieldWindowRead fn .bar0 off 4 ecrc t) s =
            .next { s with dev := v.dev.tlp fn (.cpl ((v.regRead fn off).setWidth 64)) }) ∧
      ((bar = .bar0 ∧ (size ≠ 4 ∨ off % 4 ≠ 0)) ∨ (bar = .bar2 ∧ ¬ (size = 4 ∧ off % 4 = 0) ∧ ¬ (size = 8 ∧ off % 8 = 0)) →
        exec (.fieldWindowRead fn bar off size ecrc t) s = .next { s with dev := (s.dev.at t).tlp fn .cplUnsupported })) ∧
    (s.dev.h.link.up = true → k < 48 → windowCell c 0x10 fn (Reg.CH_CFG k) →
      exec (.fwRead c t) s = .next { s with dev :=
        ((s.dev.at t).sendBulk .f (.fwReply fn (Reg.CH_CFG k) (s.dev.rd (Reg.CH_CFG k)))) }) ∧
    (s.dev.h.fwReads = r :: rest → r.fn = fn →
      (r.off = off → r.sent.isSome = true →
        exec (.fwReadReply fn off data) s = .next { s with dev :=
          (({ s.dev with h.fwReads := rest }).tlp fn (.cpl (data.setWidth 64))) }) ∧
      (r.sent = some q → q + 80000 ≤ max s.dev.now t →
        ∃ u : State, exec (.fwReadTimeout fn t) s = .next u ∧ u.dev.h.fwReads = rest ∧
          u.dev.fld Fld.PRZ_FWIN_STATUS_TIMEOUT = 1 ∧ (∃ l, u.dev.out = l ++ .tlp fn (s.dev.pci fn).ecrcGen (.cpl 0xFFFFFFFF) :: s.dev.out) ∧
          ((({ s.dev.at t with h.fwReads := rest }).tlp fn (.cpl 0xFFFFFFFF)).setFld Fld.PRZ_FWIN_STATUS_TIMEOUT 1).SameApart
            u.dev ∧ u.nv = s.nv ∧ u.pending = s.pending))))

/-- R13: a software clear and an increment of the same cycle leave the counter at 1 and its SAT at 0, for every counter with a CLR bit
and every function that may write that bit: the counters that both functions share, those of one function, and those of a block's or
a role's owner. Counters whose CLR bit is not written, and every other register, stay. -/
def Obligations.ClearThenIncrementReadsOne : Prop :=
  ∀ (s : State) (fn : Func) (off : Nat) (data : Word), s.dev.hostOpen fn = true →
    (off ∈ [Reg.PCI_CNT_SAT, Reg.RM_CNT_SAT, Reg.RM_CHK_STATUS, Reg.CH_CHK_SAT] ∨
      (off = Reg.RM_PRESS_SAT ∧ bitOf data.toNat (3 - fn.idx) = false) ∨
      (fn = false ∧ off ∈ [Reg.PRZ_CNT_SAT, Reg.NVS_CNT_SAT, Reg.SEC_CNT_SAT, Reg.MIR_CNT_SAT, Reg.CH_CNT_SAT]) ∨
      (off = Reg.CAR_CNT_SAT ∧ s.dev.carCode = codeOf fn) ∨
      (off = Reg.FSP_CNT_SAT ∧ s.dev.owns Fld.PCI_OWN_PORT_FSP fn = true) ∨
      (off = Reg.TWP_CNT_SAT ∧ s.dev.twpCtl = codeOf fn ∧ bitOf data.toNat 10 = false) ∨
      (off = Reg.TWP_CNT_SAT ∧ s.dev.twpTgt = codeOf fn ∧ bitOf data.toNat 8 = false ∧ bitOf data.toNat 9 = false)) →
    ∃ u : State, exec (.counterClear fn off data 1) s = .next u ∧
      (∀ x ∈ clrBits fn off, bitOf data.toNat x.1 = true → u.dev.fld x.2.1 = 1 ∧ u.dev.fld x.2.2 = 0) ∧
      (∀ x ∈ clrBits fn off, bitOf data.toNat x.1 = false → u.dev.fld x.2.1 = s.dev.fld x.2.1) ∧
      (∀ k, k ≠ off → (∀ x ∈ clrBits fn off, k ≠ x.2.1.off ∧ k ≠ x.2.2.off) → u.dev.rd k = s.dev.rd k) ∧
      u.dev.now = s.dev.now ∧ u.dev.out = s.dev.out ∧ u.nv = s.nv ∧ u.pending = s.pending

/-- Configuration requests, Bus Master Enable and power states (chapter 03): reads are answered, with a retry before step P2 has
ended; D3hot stops the function's rings and holds its channels, D0 leaves them so. The other function's state stays.
The model's choices in it: the layout of the configuration space is the family's, log entry 9; D3hot, log entry 38. -/
def Obligations.ConfigurationSpaceAndPowerStates : Prop :=
  ∀ (s : State) (fn : Func) (en ecrc : Bool) (off t : Nat), s.dev.h.dev ≠ .off → s.dev.h.boot.perst = false → s.dev.f.ch.rest = none →
    ((s.dev.cfgReady = true →
      (s.dev.ecrcDrops fn ecrc = false →
        exec (.configRequest fn (.read off) ecrc) s =
          .next { s with dev := s.dev.tlp fn (.cpl ((s.cfgRead fn off).setWidth 64)) } ∧
        exec (.configRequest fn (.memSpace en) ecrc) s =
          .next { s with dev := s.dev.setPci fn { s.dev.pci fn with mse := en } }) ∧
      exec (.busMasterEnableWrite fn en t) s = .next { s with dev :=
        (let d := (s.dev.at t).setPci fn { s.dev.pci fn with bme := en }
        if en = true ∧ s.dev.h.dev ≠ .boot ∧ (s.dev.pci fn).resetAt = none ∧ (s.dev.wd fn.idx).held = true
        then d.setWd fn.idx { s.dev.wd fn.idx with
          first := (s.dev.wd fn.idx).en, armed := false, base := 0, since := max s.dev.now t, held := false }
        else d) } ∧
      ((s.dev.pci fn).d3 = false →
        ∃ u : State, exec (.d3hotEntry fn t) s = .next u ∧ (u.dev.pci fn).d3 = true ∧ (u.dev.pci fn).intx = false ∧
          (∀ n, n < 64 → s.dev.ringOwner n = fn → (u.dev.ring n).running = false) ∧
          (∀ n, n < 64 → s.dev.ringOwner n ≠ fn → u.dev.ring n = s.dev.ring n) ∧
          u.dev.f.ch.ownMask fn &&& ~~~u.dev.f.ch.held = 0 ∧
          u.dev.pci (!fn) = s.dev.pci (!fn) ∧ u.dev.h.ops = s.dev.h.ops ∧
          (∀ k, k ≠ Reg.CH_PIN_MISM_LO → k ≠ Reg.CH_PIN_MISM_HI → u.dev.rd k = s.dev.rd k) ∧
          u.nv = s.nv ∧ u.pending = s.pending) ∧
      ((s.dev.pci fn).d3 = true →
        ∃ u : State, exec (.d0Return fn t) s = .next u ∧ (u.dev.pci fn).d3 = false ∧
          (∀ n, u.dev.ring n = s.dev.ring n) ∧ u.dev.f.ch.ownMask fn &&& ~~~u.dev.f.ch.held = 0 ∧
          u.dev.pci (!fn) = s.dev.pci (!fn) ∧ u.dev.h.ops = s.dev.h.ops ∧
          (∀ k, k ≠ Reg.CH_PIN_MISM_LO → k ≠ Reg.CH_PIN_MISM_HI → u.dev.rd k = s.dev.rd k) ∧
          u.nv = s.nv ∧ u.pending = s.pending)) ∧
    (s.dev.h.dev = .boot → s.dev.fld Fld.SYS_BOOT_STEP < 3 → s.dev.ecrcDrops fn ecrc = false → ∀ a,
      exec (.configRequest fn a ecrc) s = .next { s with dev := s.dev.tlp fn .cplRetry }))

/-- Interrupt registers (chapter 03): a vector that is unmasked with its pending bit set sends its message, and with no other vector
waiting unmasked that one message alone; PCI_INT_CAUSE bits clear where a 1 is written, and INTx follows what is left.
The model's choices in it: log entries 40 and 41. -/
def Obligations.InterruptsUnmaskAndClear : Prop :=
  ∀ (s : State) (fn : Func) (vec : Nat) (data : Word),
    ((vec < 4 → s.dev.barOpen fn = true → (s.dev.pci fn).msixMask = false → (s.dev.pci fn).msixEn = true → (s.dev.pci fn).d3 = false →
        bitOf (s.dev.pci fn).pba vec = true →
      ∃ u : State, exec (.msixUnmask fn vec) s = .next u ∧ u.dev.masked fn vec = false ∧ bitOf (u.dev.pci fn).pba vec = false ∧
        (∃ l r, u.dev.out = l ++ Emit.tlp fn (s.dev.pci fn).ecrcGen (.msix vec
          ((s.dev.rd (msixKey fn vec 1)).toNat * 2 ^ 32 + (s.dev.rd (msixKey fn vec 0)).toNat) (s.dev.rd (msixKey fn vec 2)))
            :: r ++ s.dev.out ∧
          ((∀ v, v < 4 → v ≠ vec → bitOf (s.dev.pci fn).pba v = true → s.dev.masked fn v = true) → l = [] ∧ r = [])) ∧
        (∀ k, k ≠ msixKey fn vec 3 → u.dev.rd k = s.dev.rd k) ∧ u.dev.pci (!fn) = s.dev.pci (!fn) ∧ u.dev.f = s.dev.f ∧
        u.nv = s.nv ∧ u.pending = s.pending) ∧
    (s.dev.hostOpen fn = true →
      ∃ u : State, exec (.pciIntCauseClear fn data) s = .next u ∧
        (∀ v, v < 4 → bitOf (u.dev.fld (Fld.PCI_INT_CAUSE_CAUSE.of fn)) v =
          (bitOf (s.dev.fld (Fld.PCI_INT_CAUSE_CAUSE.of fn)) v && !bitOf data.toNat v)) ∧
        (u.dev.pci fn).intx = (!(s.dev.pci fn).msixEn && !(s.dev.pci fn).intDis && !(s.dev.pci fn).d3 &&
          u.dev.fld (Fld.PCI_INT_CAUSE_CAUSE.of fn) != 0) ∧
        (∀ k, k ≠ keyOf fn Reg.PCI_INT_CAUSE → u.dev.rd k = s.dev.rd k) ∧ u.dev.pci (!fn) = s.dev.pci (!fn) ∧
        u.dev.f = s.dev.f ∧ u.nv = s.nv ∧ u.pending = s.pending))

/-- A function reset (chapter 03): FLR puts the function's configuration, rings and image to their reset values, keeps none of its
operations but as discarded, and holds its channels; the other function's rings, image, operations and configuration stay. Its end
restarts the function's watchdog.
The model's choices in it: operations that a reset discards keep their tag until they end, log entry 48. -/
def Obligations.FunctionResetsAlone : Prop :=
  ∀ (s : State) (fn : Func) (t : Nat),
    ((s.dev.cfgOpen = true → s.dev.broaderReset = false → s.dev.f.ch.rest = none → Tab.wf (fun _ => none) s.dev.h.ops = true →
        Tab.wf (fun _ => Ring.idle) s.dev.h.rings = true →
      ∃ u : State, exec (.flr fn t) s = .next u ∧
        (u.dev.pci fn).resetAt = some (max s.dev.now t) ∧ (u.dev.pci fn).bme = false ∧ (u.dev.pci fn).msixEn = false ∧
        (∀ n, n < 64 → s.dev.ringOwner n = fn → u.dev.ring n = Ring.idle ∧ u.dev.rd (Reg.RM_RING_CFG n) = 0x28) ∧
        (∀ n, n < 64 → s.dev.ringOwner n ≠ fn → u.dev.ring n = s.dev.ring n ∧
          u.dev.rd (Reg.RM_RING_CFG n) = s.dev.rd (Reg.RM_RING_CFG n)) ∧
        u.dev.img fn = Image.fresh fn ∧ u.dev.img (!fn) = s.dev.img (!fn) ∧
        (∀ tag o, u.dev.op tag = some o → o.fn = fn → o.drop = true) ∧
        (∀ tag o, s.dev.op tag = some o → o.fn ≠ fn → u.dev.op tag = some o) ∧
        u.dev.wd fn.idx = (s.dev.wd fn.idx).inReset ∧ u.dev.wd (1 - fn.idx) = s.dev.wd (1 - fn.idx) ∧
        u.dev.pci (!fn) = s.dev.pci (!fn) ∧ u.dev.f.ch.ownMask fn &&& ~~~u.dev.f.ch.held = 0 ∧
        u.dev.f.ch.wordA = s.dev.f.ch.wordA ∧ u.dev.f.ch.wordB = s.dev.f.ch.wordB ∧ u.dev.f.car.pos = s.dev.f.car.pos ∧
        u.nv = s.nv ∧ u.pending = s.pending) ∧
    ((s.dev.pci fn).resetAt.isSome = true →
      exec (.functionResetComplete fn t) s = .next { s with dev :=
        (((s.dev.at t).setPci fn { s.dev.pci fn with resetAt := none }).setWd fn.idx
          { s.dev.wd fn.idx with
            first := (s.dev.wd fn.idx).en, armed := false, base := 0, since := max s.dev.now t, held := false }) }))

/-- The PCIe link (chapter 03): its loss and its return at 16 GT/s x2 or less show in PCI_LINK_STATUS and in PCI_LINK_DOWN and
PCI_SPEED_DEGRADE; the exit from L1 ends L1.2. What a reaction cannot touch is unchanged.
The model's choices in it: log entry 39. -/
def Obligations.PcieLinkEvents : Prop :=
  ∀ (s : State) (speed width t : Nat), s.dev.h.dev ≠ .off → s.dev.h.boot.perst = false →
    (∃ u : State, exec (.pcieLinkDown t) s = .next u ∧ u.dev.rd Reg.PCI_LINK_STATUS = 0 ∧
      (u.dev.src .h Sn.PCI_LINK_DOWN).last = max s.dev.now t ∧ ((s.dev.at t).linkStatus 0 0).SameApart u.dev ∧
      u.nv = s.nv ∧ u.pending = s.pending) ∧
    (4 ≤ s.dev.targetSpeed →
      ∃ u : State, exec (.pcieLinkUp 4 2 t) s = .next u ∧ u.dev.rd Reg.PCI_LINK_STATUS = 0x24 ∧
      (u.dev.src .h Sn.PCI_LINK_DOWN).active = false ∧ (u.dev.src .h Sn.PCI_SPEED_DEGRADE).active = false ∧
      ((s.dev.at t).linkStatus 4 2).SameApart u.dev ∧ u.nv = s.nv ∧ u.pending = s.pending) ∧
    (1 ≤ speed → speed ≤ 4 → speed ≤ s.dev.targetSpeed → (width = 1 ∨ (width = 2 ∧ speed < 4)) →
      ∃ u : State, exec (.pcieLinkUp speed width t) s = .next u ∧
        u.dev.rd Reg.PCI_LINK_STATUS = BitVec.ofNat 32 (speed + 16 * width) ∧
        (u.dev.src .h Sn.PCI_LINK_DOWN).active = false ∧ (u.dev.src .h Sn.PCI_SPEED_DEGRADE).last = max s.dev.now t ∧
        ((s.dev.at t).linkStatus speed width).SameApart u.dev ∧ u.nv = s.nv ∧ u.pending = s.pending) ∧
    (s.dev.f.ch.rest = none → exec (.pcieL1Exit t) s = .next { s with dev := { s.dev.at t with h.pm := .l0 } })

/-- Host writes of registers (chapters 03 and 19): the ownership map, BAR0 and BAR2 accesses, and the global lock. An access that is
not an aligned word changes no register, nor does one that the endpoint discards for its ECRC, which AER and the Safety Net report. -/
def Obligations.HostWritesRegisters : Prop :=
  ∀ (s : State) (fn : Func) (bar : Bar) (ecrc : Bool) (i n off size t : Nat) (data : Word) (q : Quad), s.dev.hostOpen fn = true →
    (i < 3 → fn = false → s.dev.flag Fld.PCI_OWN_CTRL_LOCK = false → (∀ k, k < 16 → mapCodeAt data k ≠ 3) →
      ∃ u : State, exec (.ownershipMapWrite fn (Reg.PCI_OWN_CH i) data) s = .next u ∧ u.dev.rd (Reg.PCI_OWN_CH i) = data ∧
        (∀ k, k ≠ Reg.PCI_OWN_CH i → u.dev.rd k = s.dev.rd k) ∧ u.dev.f.ch = { s.dev.f.ch with ownOrd := u.dev.f.ch.ownOrd } ∧
        u.nv = s.nv ∧ u.pending = s.pending) ∧
    (i < 3 → (fn = true ∨ s.dev.flag Fld.PCI_OWN_CTRL_LOCK = true) →
      exec (.ownershipMapWrite fn (Reg.PCI_OWN_CH i) data) s =
        .next { s with dev := s.dev.setFld Fld.PCI_OWN_CTRL_CFG_REJ 1 }) ∧
    (s.dev.ecrcDrops fn ecrc = true →
      ∃ u : State, exec (.registerWrite fn bar off size q ecrc t) s = .next u ∧
        u.dev.rd (cfgKey fn 0x104) = s.dev.rd (cfgKey fn 0x104) ||| 0x80000 ∧ (u.dev.src .h Sn.PCI_UNCORR_ERR).last = max s.dev.now t ∧
        ((s.dev.at t).wr (cfgKey fn 0x104) (s.dev.rd (cfgKey fn 0x104) ||| 0x80000)).SameApart u.dev ∧
        u.nv = s.nv ∧ u.pending = s.pending) ∧
    (n < 64 → s.dev.ringOwner n = fn → s.dev.ringEn n = false → s.dev.ecrcDrops fn ecrc = false →
      exec (.registerWrite fn .bar0 (Reg.RM_RING_BASE_LO n) 4 q ecrc t) s = .next { s with dev :=
        ((s.dev.at t).wr (Reg.RM_RING_BASE_LO n)
          ((s.dev.rd (Reg.RM_RING_BASE_LO n) &&& 0x3F) ||| (q.extractLsb' 0 32 &&& 0xFFFFFFC0))) }) ∧
    ((size ≠ 4 ∨ off % 4 ≠ 0) → s.dev.ecrcDrops fn ecrc = false →
      exec (.registerWrite fn .bar0 off size q ecrc t) s = .next { s with dev := s.dev.at t }) ∧
    (n < 4 → (s.dev.pci fn).msixEn = false → s.dev.ecrcDrops fn ecrc = false →
      exec (.registerWrite fn .bar2 (16 * n + 8) 4 q ecrc t) s = .next { s with dev :=
        ((s.dev.at t).wr (msixKey fn n 2) (q.extractLsb' 0 32)) }) ∧
    (s.dev.hostOpen false = true → ∃ u : State, exec (.sysLockSetWrite false 2 t) s = .next u ∧ u.dev.fld Fld.PRZ_CTRL_LOCK = 1 ∧
      (∀ k, k ≠ Reg.PRZ_CTRL → u.dev.rd k = s.dev.rd k) ∧ u.dev.f = s.dev.f ∧ u.nv = s.nv ∧ u.pending = s.pending)

/-- Rings (chapter 04): an accepted enable starts the ring with CI, PI and CPL_PI 0 and an empty history; a refused one only sets
CFG_REJ; a disable stops the ring with cause HOST and leaves none of its operations waiting to be opened. Other rings stay.
The model's choices in it: log entry 43. -/
def Obligations.RingsEnableAndDisable : Prop :=
  ∀ (s : State) (fn : Func) (n t : Nat) (data : Word), n < 64 → s.dev.ringOwner n = fn → s.dev.hostOpen fn = true →
    (s.dev.ringEn n = false →
      (s.dev.enableBad fn n (bitsOf data.toNat 1 4) = false →
        ∃ u : State, exec (.ringEnable fn n data) s = .next u ∧ u.dev.ringEn n = true ∧
          u.dev.fld (Fld.RM_RING_CFG_DEPTH_LOG2 n) = bitsOf data.toNat 1 4 ∧
          u.dev.fld (Fld.RM_RING_CFG_GEN n) = bitsOf data.toNat 16 16 ∧
          u.dev.ring n = { Ring.idle with
            running := true, armed := (u.dev.ring n).armed, irqDue := (s.dev.ring n).irqDue } ∧
          (∀ m, m ≠ n → u.dev.ring m = s.dev.ring m) ∧ (∀ k, k ≠ Reg.RM_RING_CFG n → u.dev.rd k = s.dev.rd k) ∧
          u.dev.h.ops = s.dev.h.ops ∧ u.dev.f = s.dev.f ∧ u.nv = s.nv ∧ u.pending = s.pending) ∧
      (s.dev.enableBad fn n (bitsOf data.toNat 1 4) = true →
        exec (.ringEnable fn n data) s = .next { s with dev := s.dev.setFld Fld.RM_STATUS_CFG_REJ 1 })) ∧
    (s.dev.ringEn n = true → changes (s.dev.rd (Reg.RM_RING_CFG n)) (data &&& ~~~1) 0xFFFF001E = false →
        Tab.wf (fun _ => none) s.dev.h.ops = true →
      ∃ u : State, exec (.ringDisable fn n data t) s = .next u ∧ u.dev.ringEn n = false ∧ (u.dev.ring n).running = false ∧
        (u.dev.ring n).stop = 1 ∧ (u.dev.ring n).fetching = [] ∧ (u.dev.ring n).ci = (s.dev.ring n).ci ∧
        (∀ tag o, u.dev.op tag = some o → o.ring = n → o.stage ≠ .admitted) ∧
        (∀ tag o, s.dev.op tag = some o → o.ring ≠ n → u.dev.op tag = some o) ∧
        (∀ m, m ≠ n → u.dev.ring m = s.dev.ring m) ∧ u.dev.f.car.pos = s.dev.f.car.pos ∧
        u.nv = s.nv ∧ u.pending = s.pending)

/-- Sweeps and fetches (chapters 04 and 05): a due sweep is issued; its end takes PI of each ring in the span, or sets READ_ERR, as a
timeout does, which AER notes and which a function with Completion Timeout Disable never has; a grant reads 1 to 8 descriptors from
the first one not asked for, as far as depth, credits, ceiling and tags go, and passes the turn, and where no general tag is left
ring 0 of Function A is read for tag 511; an intact descriptor that admission accepts takes a tag, moves CI and enters the history.
The model's choices in it: log entries 9, 43, 44 and 85. -/
def Obligations.SweepsAndFetches : Prop :=
  ∀ (s : State) (fn : Func) (n t c : Nat) (more : List (Nat × Bool)) (w : Quad) (e : Desc),
    ((s.dev.fetchMay fn = true → s.dev.enabledRings fn = [n] → (s.dev.sweep fn).outstanding = false →
        (s.dev.sweep fn).last + s.dev.fld (Fld.RM_SWEEP_CFG_PERIOD fn.idx) * 400 ≤ max s.dev.now t →
      exec (.sweepTimer fn t) s = .next { s with dev :=
        (((s.dev.at t).setSweep fn { s.dev.sweep fn with
            outstanding := true, deferred := false, base := s.dev.ringLocal n / 4 * 4, last := max s.dev.now t }).hostRead fn
          (s.dev.dbBase fn + 8 * (s.dev.ringLocal n / 4 * 4))
            (8 * (s.dev.ringLocal n / 4 * 4 + 4 - s.dev.ringLocal n / 4 * 4))) }) ∧
    ((s.dev.sweep fn).outstanding = true → (s.dev.sweep fn).deferred = false →
      (s.dev.enabledRings fn = [n] → (s.dev.sweep fn).base = s.dev.ringLocal n → (s.dev.ring n).running = true →
          bitsOf w.toNat 16 16 = s.dev.fld (Fld.RM_RING_CFG_GEN n) → bitsOf w.toNat 32 32 = 0 →
          (bitsOf w.toNat 0 16 + 2 ^ 16 - (s.dev.ring n).ci) % 2 ^ 16 ≤ s.dev.ringDepth n →
        ∃ u : State, exec (.sweepReadComplete fn .ok [w] t) s = .next u ∧ (u.dev.ring n).pi = bitsOf w.toNat 0 16 ∧
          (u.dev.ring n).ci = (s.dev.ring n).ci ∧ (u.dev.ring n).running = true ∧ (u.dev.sweep fn).outstanding = false ∧
          (∀ m, m ≠ n → u.dev.ring m = s.dev.ring m) ∧ u.dev.h.ops = s.dev.h.ops ∧ u.dev.f = s.dev.f ∧
          u.nv = s.nv ∧ u.pending = s.pending) ∧
      (exec (.sweepReadComplete fn .error [] t) s = .next { s with dev :=
        (((s.dev.at t).setSweep fn { s.dev.sweep fn with outstanding := false, deferred := false }).setFld
          (Fld.RM_SWEEP_STATUS_READ_ERR fn.idx) 1) }) ∧
      (s.dev.cplTimeoutOff fn = false →
        ∃ u : State, exec (.readCompletionTimeout (.sweep fn) t) s = .next u ∧ (u.dev.sweep fn).outstanding = false ∧
          u.dev.fld (Fld.RM_SWEEP_STATUS_READ_ERR fn.idx) = 1 ∧
          u.dev.rd (cfgKey fn 0x104) = s.dev.rd (cfgKey fn 0x104) ||| 0x4000 ∧
          (u.dev.src .h Sn.PCI_CPL_TIMEOUT).last = max s.dev.now t ∧
          ((((s.dev.at t).setSweep fn { s.dev.sweep fn with outstanding := false, deferred := false }).setFld
            (Fld.RM_SWEEP_STATUS_READ_ERR fn.idx) 1).wr (cfgKey fn 0x104) (s.dev.rd (cfgKey fn 0x104) ||| 0x4000)).SameApart
              u.dev ∧ u.nv = s.nv ∧ u.pending = s.pending) ∧
      (s.dev.cplTimeoutOff fn = true →
        exec (.readCompletionTimeout (.sweep fn) t) s = .next { s with dev := s.dev.at t })) ∧
    (s.dev.h.turn = fn → s.dev.fetchWants fn = true → 0 < (s.dev.sweep fn).credits → s.dev.v0Due = false →
      (s.dev.tagMay fn = true →
        ∃ (u : State) (m k : Nat), exec .fetchGrant s = .next u ∧ (s.dev.fetchRings fn).head? = some m ∧ 1 ≤ k ∧ k ≤ 8 ∧
          k ≤ s.dev.eligible m ∧ k ≤ (s.dev.sweep fn).credits ∧ k ≤ s.dev.headroom fn ∧ k ≤ s.dev.freeTags ∧
          k ≤ s.dev.ringDepth m - ((s.dev.ring m).ci + (s.dev.ring m).asked) % s.dev.ringDepth m ∧
          u.dev.ring m = { s.dev.ring m with fetching := (s.dev.ring m).fetching ++ [(k, false)] } ∧
          (∀ j, j ≠ m → u.dev.ring j = s.dev.ring j) ∧
          u.dev.out = (s.dev.hostRead (s.dev.ringOwner m) (s.dev.addr (Reg.RM_RING_BASE_LO m) (Reg.RM_RING_BASE_HI m)
            + 64 * (((s.dev.ring m).ci + (s.dev.ring m).asked) % s.dev.ringDepth m)) (64 * k)).out ∧
          (u.dev.sweep fn).credits = (s.dev.sweep fn).credits - k ∧ (u.dev.sweep fn).lastRing = m ∧ u.dev.h.turn = !fn ∧
          (∀ j, u.dev.rd j = s.dev.rd j) ∧ u.dev.h.ops = s.dev.h.ops ∧ u.dev.f = s.dev.f ∧
          u.nv = s.nv ∧ u.pending = s.pending) ∧
      (s.dev.tagMay fn = false →
        ∃ u : State, exec .fetchGrant s = .next u ∧ fn = false ∧
          u.dev.ring 0 = { s.dev.ring 0 with fetching := (s.dev.ring 0).fetching ++ [(1, true)] } ∧
          (∀ j, j ≠ 0 → u.dev.ring j = s.dev.ring j) ∧ (u.dev.sweep fn).credits = (s.dev.sweep fn).credits - 1 ∧
          u.dev.h.turn = true ∧ (∀ j, u.dev.rd j = s.dev.rd j) ∧ u.dev.h.ops = s.dev.h.ops ∧ u.dev.f = s.dev.f ∧
          u.nv = s.nv ∧ u.pending = s.pending)) ∧
    ((s.dev.ring n).fetching = (c + 1, false) :: more → s.dev.admission (s.dev.ringOwner n) n e = none →
      ∃ u : State, exec (.descriptorReadComplete n .ok [e] t) s = .next u ∧
        u.dev.op s.dev.pickTag =
          some ⟨s.dev.ringOwner n, n, e.made (s.dev.ringOwner n) n, .admitted, s.dev.h.ord, false, false, false⟩ ∧
        (∀ g, g ≠ s.dev.pickTag → u.dev.op g = s.dev.op g) ∧ u.dev.h.ord = s.dev.h.ord + 1 ∧
        (u.dev.ring n).ci = ((s.dev.ring n).ci + 1) % 2 ^ 16 ∧ (u.dev.ring n).fetching = more ∧
        (u.dev.ring n).hist = (e.seq :: (s.dev.ring n).hist).take 512 ∧
        (∀ m, m ≠ n → u.dev.ring m = s.dev.ring m) ∧ u.dev.f.ops = s.dev.f.ops ∧ u.dev.f.car = s.dev.f.car ∧
        u.nv = s.nv ∧ u.pending = s.pending))

/-- An operation's life (chapter 05): it is opened in its turn and its OP_OPEN sent; the F-side takes its context; a NOP completes when
opened; OP_CLOSE writes the completion entry at CPL_PI with the phase bit and releases the tag; a command body read is kept; and
V0 follows 200 ns after the last entry of a burst.
The model's choices in it: log entries 27 and 48. -/
def Obligations.OperationsOpenAndClose : Prop :=
  ∀ (s : State) (tag n at_ t st : Nat) (wr : Bool) (o : Op) (x : FOp) (result : Quad) (body : List Quad),
    ((s.dev.op tag = some o → o.stage = .admitted → s.dev.openTurn o = true → s.dev.h.dev ≠ .rest → (s.dev.pci o.fn).d3 = false →
      (o.desc.opcode = opNOP →
        exec (.operationOpen tag t) s = .next { s with dev := (s.dev.at t).setOp tag (some { o with stage := .opened }) }) ∧
      (o.desc.crosses = true → (o.desc.opcode = opOUT_WRITE → o.desc.update = 0) → s.dev.h.link.up = true →
          s.dev.haltAct = false → s.dev.h.bulk.waitOp = [] → s.dev.h.bulk.replay.length < 16 →
        exec (.operationOpen tag t) s = .next { s with dev :=
          (((s.dev.at t).setOp tag (some { o with stage := .opened })).sendBulk .h
            (.opOpen o.desc.unit o.fn o.ring tag o.desc.dest)) })) ∧
    (s.dev.op tag = some o → s.dev.fop tag = none → o.stage = .opened → o.desc.crosses = true →
        (o.desc.opcode = opOUT_WRITE → o.desc.update = 0) → s.dev.h.link.up = true →
        s.dev.h.bulk.waitOp.any (Cell.opens tag) = false →
      exec (.opOpen tag t) s = .next { s with dev :=
        ((s.dev.at t).setFop tag (some ⟨o.fn, o.ring, o.desc, [], false, none⟩)) }) ∧
    (s.dev.op tag = some o → o.drop = false → o.halted = false → (s.dev.pci o.fn).bme = true →
        at_ = s.dev.addr (Reg.RM_CPL_BASE_LO o.ring) (Reg.RM_CPL_BASE_HI o.ring)
          + 16 * ((s.dev.ring o.ring).cplPi % s.dev.ringDepth o.ring) →
      (o.stage = .opened → o.desc.opcode = opNOP → s.dev.h.dev ≠ .rest →
        ∃ u : State, exec (.nop tag t) s = .next u ∧ u.dev.op tag = none ∧
          u.dev.out = .tlp o.fn (s.dev.pci o.fn).ecrcGen (.write at_
            [entryQ0 o.desc.seq tag o.ring (s.dev.ring o.ring).phase 0 0 (s.dev.ring o.ring).ci, 0] false) :: s.dev.out ∧
          (u.dev.ring o.ring).cplPi = ((s.dev.ring o.ring).cplPi + 1) % 2 ^ 16 ∧
          (∀ g, g ≠ tag → u.dev.op g = s.dev.op g) ∧ (∀ m, m ≠ o.ring → u.dev.ring m = s.dev.ring m) ∧
          (∀ k, u.dev.rd k = s.dev.rd k) ∧ u.dev.f = s.dev.f ∧ u.nv = s.nv ∧ u.pending = s.pending) ∧
      (s.dev.fop tag = some x → x.ended = some (st, result) → x.got = [] → s.dev.h.link.up = true →
          s.dev.f.bulk.waitOp.any (Cell.closes tag) = false →
          (o.desc.boxed = true → result ≠ 0 → (Container.ofBits result).good o.fn o.ring o.desc.dest = true) →
        ∃ u : State, exec (.opClose tag [] none wr t) s = .next u ∧ u.dev.op tag = none ∧ u.dev.fop tag = none ∧
          u.dev.out = .tlp o.fn (s.dev.pci o.fn).ecrcGen (.write at_
            [entryQ0 o.desc.seq tag o.ring (s.dev.ring o.ring).phase st o.desc.opcode (s.dev.ring o.ring).ci, result] false) ::
              s.dev.out ∧
          (u.dev.ring o.ring).cplPi = ((s.dev.ring o.ring).cplPi + 1) % 2 ^ 16 ∧
          (∀ g, g ≠ tag → u.dev.op g = s.dev.op g ∧ u.dev.fop g = s.dev.fop g) ∧
          (∀ m, m ≠ o.ring → u.dev.ring m = s.dev.ring m) ∧ (∀ k, u.dev.rd k = s.dev.rd k) ∧
          u.nv = s.nv ∧ u.pending = s.pending)) ∧
    (s.dev.op tag = some o → o.stage = .opened → o.drop = false → o.desc.opcode = opMGMT → o.desc.bodyBytes.isSome = true →
        s.dev.body tag = none →
      exec (.bufferReadComplete tag .ok body t) s = .next { s with dev := { s.dev.at t with
        h.bodies := s.dev.h.bodies.set (fun _ => none) tag (some body) } }) ∧
    ((s.dev.ring n).irqDue = some at_ → at_ + 160 ≤ max s.dev.now t →
      exec (.v0CoalesceTimer n t) s = .next { s with dev :=
        (((s.dev.at t).setRing n { s.dev.ring n with irqDue := none }).irq (s.dev.ringOwner n) 0) }))

/-- OUT_WRITE at the output image stage (chapter 06, R139): a good VALUE in its turn becomes (image AND NOT MASK) OR (VALUE AND MASK)
with a new check under the refresh-word seed; a bad one, or two merges that disagree, leaves the image unchanged.
The model's choices in it: log entry 46. -/
def Obligations.OutWriteMergesIntoImage : Prop :=
  ∀ (s : State) (tag t : Nat) (agree : Bool) (o : Op), s.dev.openedOp tag opOUT_WRITE = some o → s.dev.mergeTurn o = true →
    s.dev.h.dev ≠ .rest →
    (o.desc.value.good o.fn o.ring 0x100 = true → agree = true →
      ∃ u : State, exec (.outWrite tag agree t) s = .next u ∧
        (u.dev.img o.fn).cur = Container.make
          (((s.dev.img o.fn).cur.word &&& ~~~o.desc.outMask) ||| (o.desc.value.word &&& o.desc.outMask)) o.fn 0 routeRefresh ∧
        (u.dev.img o.fn).merged = (s.dev.img o.fn).merged ++ [tag] ∧ (u.dev.img o.fn).latched = (s.dev.img o.fn).latched ∧
        u.dev.img (!o.fn) = s.dev.img (!o.fn) ∧ u.dev.op tag = some { o with stage := .closing } ∧
        (∀ g, g ≠ tag → u.dev.op g = s.dev.op g) ∧ (∀ k, u.dev.rd k = s.dev.rd k) ∧ u.dev.f = s.dev.f ∧
        (o.desc.update ≠ 1 → u.dev.out = s.dev.out) ∧ u.nv = s.nv ∧ u.pending = s.pending) ∧
    ((o.desc.value.good o.fn o.ring 0x100 && agree) = false →
      ∃ u : State, exec (.outWrite tag agree t) s = .next u ∧ u.dev.img o.fn = s.dev.img o.fn ∧
        u.dev.img (!o.fn) = s.dev.img (!o.fn) ∧ (u.dev.src .h Sn.CHK_PATH).last = max s.dev.now t ∧
        u.dev.fld Fld.RM_CHK_STATUS_MERGE_FAIL = 1 ∧ u.dev.fop tag = none ∧ u.nv = s.nv ∧ u.pending = s.pending)

/-- Samples and captures (chapter 07): CH_SAMPLE returns the filtered levels of MASK in one container; CH_CAPTURE opens the function's
capture with its end time; a record is handed over as two containers; at the end of TIMEOUT the capture completes TIMEOUT.
The model's choices in it: log entry 49. -/
def Obligations.ChannelSamplesAndCaptures : Prop :=
  ∀ (s : State) (fn : Func) (tag e t : Nat) (o : FOp) (c : Cap) (r : CapRec) (rest : List CapRec),
    ((s.dev.freshOp tag opCH_SAMPLE = some o → s.dev.f.ch.rest = none → (s.dev.op tag).isSome = true →
      ∃ u : State, exec (.chSample tag t) s = .next u ∧
        (u.dev.fop tag).bind (·.ended) = some (stOK, o.result (s.dev.levels &&& o.desc.chMask)) ∧
        (∀ g, g ≠ tag → u.dev.fop g = s.dev.fop g) ∧ u.dev.f.ch = s.dev.f.ch ∧ u.dev.f.car = s.dev.f.car ∧
        (∀ k, u.dev.rd k = s.dev.rd k) ∧ u.dev.h.ops = s.dev.h.ops ∧ u.nv = s.nv ∧ u.pending = s.pending) ∧
    (s.dev.freshOp tag opCH_CAPTURE = some o → s.dev.cap o.fn = none → s.dev.h.restEntry = none → s.dev.f.ch.rest = none →
      exec (.chCapture tag t) s = .next { s with dev :=
        (((s.dev.at t).setFop tag (some { o with begun := true })).setCap o.fn
          (some ⟨tag, o.desc.chMask, o.desc.capEdge, o.desc.opt, 0, 0, o.desc.buf,
            if o.desc.capTimeout = 0 then none else some (max s.dev.now t + o.desc.capTimeout * 800), [], 0, 0⟩)) }) ∧
    (s.dev.cap fn = some c → s.dev.fop c.tag = some o → c.lost = 0 →
      (c.unsent = r :: rest → c.sent + 1 < c.count →
        ∃ u : State, exec (.captureRecordSend fn t) s = .next u ∧
          u.dev.cap fn = some { c with unsent := rest, sent := c.sent + 1 } ∧ u.dev.cap (!fn) = s.dev.cap (!fn) ∧
          u.dev.fop c.tag = some { o with got := o.got ++
            [Container.make r.q0.word o.fn o.ring o.desc.dest, Container.make r.q1.word o.fn o.ring o.desc.dest] } ∧
          (∀ g, g ≠ c.tag → u.dev.fop g = s.dev.fop g) ∧ (∀ k, u.dev.rd k = s.dev.rd k) ∧ u.dev.h.ops = s.dev.h.ops ∧
          u.nv = s.nv ∧ u.pending = s.pending) ∧
      (c.unsent = [] → c.tEnd = some e → e ≤ max s.dev.now t → o.ended = none → (s.dev.op c.tag).isSome = true →
        ∃ u : State, exec (.captureTimeout fn t) s = .next u ∧ u.dev.cap fn = none ∧ u.dev.cap (!fn) = s.dev.cap (!fn) ∧
          (u.dev.fop c.tag).bind (·.ended) = some (stTIMEOUT, BitVec.ofNat 64 c.sent) ∧
          (∀ g, g ≠ c.tag → u.dev.fop g = s.dev.fop g) ∧ (∀ k, u.dev.rd k = s.dev.rd k) ∧ u.dev.h.ops = s.dev.h.ops ∧
          u.nv = s.nv ∧ u.pending = s.pending)))

/-- Words and levels at the channels (chapters 06 and 07): an IMMEDIATE write whose check holds enters its function's word under MASK, but for
the channels that a slot has set in the same cycle; a bank's comparison sample that agrees completes the OUT_WRITE that it judges with the
readback; a filter's new level is taken.
The model's choices in it: levels are operands, log entry 51. -/
def Obligations.ChannelWordsAndLevels : Prop :=
  ∀ (s : State) (tag bank e ch raw t : Nat) (rest : List Nat) (o : FOp) (x : Op) (v : Container) (rb pull rel m : W48) (level : Bool)
      (w : OutWait),
    ((s.dev.freshOp tag opOUT_WRITE = some o → o.desc.update = 1 → s.dev.op tag = some x → x.stage = .closing →
        v.good o.fn o.ring 0x100 = true → m = o.desc.outMask &&& ~~~s.dev.f.ch.slotNow (max s.dev.now t) 0 →
      ∃ u : State, exec (.immediateWriteApply tag v t) s = .next u ∧
        u.dev.f.ch.word o.fn = ((s.dev.f.ch.word o.fn &&& ~~~m) ||| (v.word &&& m)) ∧
        u.dev.f.ch.word (!o.fn) = s.dev.f.ch.word (!o.fn) ∧ u.dev.h.imgA = s.dev.h.imgA ∧ u.dev.h.imgB = s.dev.h.imgB ∧
        (∀ k, k ≠ Reg.CH_PIN_MISM_LO → k ≠ Reg.CH_PIN_MISM_HI → u.dev.rd k = s.dev.rd k) ∧ u.dev.f.car = s.dev.f.car ∧
        u.nv = s.nv ∧ u.pending = s.pending) ∧
    (Tab.get (fun _ => []) s.dev.f.ch.due bank = e :: rest → e ≤ max s.dev.now t → bank < 6 →
        rel = s.dev.f.ch.maskOf (fun c => cfgMode c == 3) &&& s.dev.f.ch.cmd →
        s.dev.f.ch.compared &&& bankMask bank &&& (((s.dev.f.ch.cmd ^^^ rb) &&& ~~~rel) ||| (pull &&& rel)) = 0 →
        s.dev.mask48 Reg.CH_PIN_MISM_LO Reg.CH_PIN_MISM_HI = 0 →
        s.dev.f.ch.outw = [w] → w.since + s.dev.settle bank ≤ max s.dev.now t → w.left &&& ~~~bankMask bank = 0 →
        w.bad = false → w.held = false → s.dev.fop w.tag = some o → o.ended = none → (s.dev.op w.tag).isSome = true →
      ∃ u : State, exec (.readbackSample bank rb pull t) s = .next u ∧
        (u.dev.fop w.tag).bind (·.ended) = some (stOK, o.result (rb &&& s.dev.f.ch.ownMask o.fn)) ∧
        u.dev.f.ch.outw = [] ∧ Tab.get (fun _ => []) u.dev.f.ch.due bank = rest ∧
        (∀ g, g ≠ w.tag → u.dev.fop g = s.dev.fop g) ∧ (∀ k, u.dev.rd k = s.dev.rd k) ∧ u.dev.h.ops = s.dev.h.ops ∧
        u.nv = s.nv ∧ u.pending = s.pending) ∧
    (ch < 48 → (s.dev.f.ch.level &&& chBit ch != 0) = !level → s.dev.f.ch.enabled = true → s.dev.f.ch.rest = none →
        raw + 8 * cfgFilt (s.dev.f.ch.cfgAt ch) ≤ max s.dev.now t →
      ∃ u : State, exec (.filterAccept ch level raw t) s = .next u ∧
        u.dev.f.ch.level = (if level then s.dev.f.ch.level ||| chBit ch else s.dev.f.ch.level &&& ~~~chBit ch) ∧
        u.dev.f.ch.wordA = s.dev.f.ch.wordA ∧ u.dev.f.ch.wordB = s.dev.f.ch.wordB ∧ u.dev.f.ch.cfg = s.dev.f.ch.cfg ∧
        u.dev.f.car = s.dev.f.car ∧ u.dev.f.fsp = s.dev.f.fsp ∧ u.nv = s.nv ∧ u.pending = s.pending))

/-- Supplies, overload and configuration of the channels (chapter 07): a low bank supply and an overload are recorded and raised, and
an overloaded channel drives nothing until its bit is written; an accepted CH_CFG write takes effect at the pins.
The model's choices in it: log entry 50. -/
def Obligations.ChannelSuppliesAndSetUp : Prop :=
  ∀ (s : State) (fn : Func) (bank ch t : Nat) (data : Word),
    ((bank < 6 → bitOf (s.dev.fld Fld.CH_STATUS_VIO_LOW) bank = false →
      ∃ u : State, exec (.vioLowDetect bank t) s = .next u ∧
        u.dev.fld Fld.CH_STATUS_VIO_LOW = s.dev.fld Fld.CH_STATUS_VIO_LOW + 2 ^ bank ∧
        (u.dev.src .f Sn.CH_VIO_LOW).last = max s.dev.now t ∧
        ((s.dev.at t).setFld Fld.CH_STATUS_VIO_LOW (s.dev.fld Fld.CH_STATUS_VIO_LOW + 2 ^ bank)).SameApart u.dev ∧
        u.nv = s.nv ∧ u.pending = s.pending) ∧
    (bank < 6 → s.dev.fld Fld.CH_STATUS_VIO_LOW = 2 ^ bank →
      ∃ u : State, exec (.vioLowClear bank t) s = .next u ∧ u.dev.fld Fld.CH_STATUS_VIO_LOW = 0 ∧
        (u.dev.src .f Sn.CH_VIO_LOW).active = false ∧
        ((s.dev.at t).setFld Fld.CH_STATUS_VIO_LOW 0).SameApart u.dev ∧ u.nv = s.nv ∧ u.pending = s.pending) ∧
    (ch < 48 → s.dev.f.ch.outMask &&& chBit ch ≠ 0 →
      ∃ u : State, exec (.overloadTrip ch t) s = .next u ∧
        u.dev.mask48 Reg.CH_OVL_LO Reg.CH_OVL_HI = (s.dev.mask48 Reg.CH_OVL_LO Reg.CH_OVL_HI ||| chBit ch) ∧
        u.dev.drive ch = none ∧ (u.dev.src .f Sn.CH_OVERLOAD).last = max s.dev.now t ∧
        ((s.dev.at t).setMask48 Reg.CH_OVL_LO Reg.CH_OVL_HI
          (s.dev.mask48 Reg.CH_OVL_LO Reg.CH_OVL_HI ||| chBit ch)).SameApart u.dev ∧ u.nv = s.nv ∧ u.pending = s.pending) ∧
    ((∀ k, k < 32 → bitOf data.toNat k = true → s.dev.mayConfigure fn k = true) →
      ∃ u : State, exec (.chOvlClear fn Reg.CH_OVL_LO data t) s = .next u ∧
        u.dev.rd Reg.CH_OVL_LO = s.dev.rd Reg.CH_OVL_LO &&& ~~~data ∧ (∀ k, k ≠ Reg.CH_OVL_LO → u.dev.rd k = s.dev.rd k) ∧
        u.dev.f.ch = s.dev.f.ch ∧ u.nv = s.nv ∧ u.pending = s.pending) ∧
    (ch < 48 → s.dev.mayConfigure fn ch = true → bitOf (s.dev.fld Fld.CH_LOCK_LOCK) (ch / 8) = false → s.dev.f.ch.enabled = true →
      ∃ u : State, exec (.chCfgWrite fn ch data t) s = .next u ∧
        u.dev.rd (Reg.CH_CFG ch) = (s.dev.rd (Reg.CH_CFG ch) &&& ~~~0xFFFF) ||| (data &&& 0xFFFF) ∧
        u.dev.f.ch.cfgAt ch = u.dev.rd (Reg.CH_CFG ch) ∧ (∀ k, k ≠ ch → u.dev.f.ch.cfgAt k = s.dev.f.ch.cfgAt k) ∧
        (∀ k, k ≠ Reg.CH_CFG ch → k ≠ Reg.CH_PIN_MISM_LO → k ≠ Reg.CH_PIN_MISM_HI → u.dev.rd k = s.dev.rd k) ∧
        u.dev.f.car = s.dev.f.car ∧ u.dev.h.ops = s.dev.h.ops ∧ u.nv = s.nv ∧ u.pending = s.pending))

/-- FSP operations (chapter 08): an entry load replaces the whole entry, or waits behind the run in progress; a run takes its place in
the order, or waits for its slot start, with the entry's run counter advanced and its transmit containers read; a target operation joins
its select's queue; FSP_CTRL.EN 0 stops the port at the end of its word, or at once with every open FSP operation completed; a write of
a target register clears the select's alive state.
The model's choices in it: log entry 52. -/
def Obligations.SerialPortOperations : Prop :=
  ∀ (s : State) (fn : Func) (tag sel t : Nat) (data : Word) (o : FOp) (x : FspEntry) (c r : FspRun),
    ((s.dev.freshOp tag opFSP_ENTRY_LOAD = some o → (s.dev.op tag).isSome = true → s.dev.flag Fld.FSP_CTRL_ROLE = false →
        s.dev.f.fsp.cur = none → s.dev.f.fsp.queue = [] →
        (∀ w ∈ s.dev.f.fsp.waiting ++ s.dev.f.fsp.fired, w.asked = true ∧ w.entry ≠ o.desc.entry) →
        s.dev.absEntry ≠ some o.desc.entry → s.dev.selCode (ecSel o.desc.ectrl) = codeOf o.fn →
        ((s.dev.fspEntry o.desc.entry).loaded = true →
          s.dev.selCode (ecSel (s.dev.fspEntry o.desc.entry).ectrl) = codeOf o.fn) →
        fspLoadBad o.desc = false →
      ∃ u : State, exec (.fspEntryLoad tag t) s = .next u ∧
        u.dev.fspEntry o.desc.entry = ⟨true, livePhases o.desc.phases, o.desc.ectrl, o.desc.buf, o.desc.txWords, 0⟩ ∧
        (∀ e, e ≠ o.desc.entry → u.dev.fspEntry e = s.dev.fspEntry e) ∧
        (u.dev.fop tag).bind (·.ended) = some (stOK, 0) ∧ (∀ g, g ≠ tag → u.dev.fop g = s.dev.fop g) ∧
        u.dev.f.fsp.queue = [] ∧ (∀ k, u.dev.rd k = s.dev.rd k) ∧ u.nv = s.nv ∧ u.pending = s.pending) ∧
    (s.dev.freshOp tag opFSP_ENTRY_LOAD = some o → s.dev.flag Fld.FSP_CTRL_ROLE = false →
        s.dev.f.fsp.cur = some c → s.dev.f.fsp.queue = [] →
        (∀ w ∈ s.dev.f.fsp.runs, w.asked = true ∨ w.txWords = 0) →
      exec (.fspEntryLoad tag t) s = .next { s with dev :=
        { (s.dev.at t).setFop tag (some { o with begun := true }) with f.fsp.queue := [FspItem.load tag] } }) ∧
    (s.dev.freshOp tag opFSP_RUN = some o → s.dev.flag Fld.FSP_CTRL_ROLE = false → s.dev.fspEntry o.desc.entry = x →
        x.loaded = true → s.dev.selCode (ecSel x.ectrl) = codeOf o.fn → s.dev.absEntry ≠ some o.desc.entry →
        s.dev.f.fsp.queue = [] → x.txWords ≤ 16384 →
        r = ⟨some tag, o.desc.entry, o.fn, o.ring, o.desc.buf, o.desc.rxCap,
          x.buf + (if ecTxRing x.ectrl then x.runs % 2 ^ ecRingLog2 x.ectrl * 8 * x.txWords else 0), x.txWords,
          decide (x.txWords ≠ 0), if x.txWords = 0 then some [] else none, 0, 0, false, false, false, 0, false, false⟩ →
      ((s.dev.f.fsp.cur = none → s.dev.f.fsp.waiting = [] → s.dev.f.fsp.fired = [] →
        exec (.fspRun tag t) s = .next { s with dev :=
          (let d := ((s.dev.at t).setFop tag (some { o with begun := true })).setFspEntry o.desc.entry
            { x with runs := (x.runs + 1) % 2 ^ 32 }
          if ecStartSlot x.ectrl then { d with f.fsp.waiting := [r] }
          else { d with f.fsp.queue := [FspItem.run r] }).hostRead o.fn r.txAddr (8 * x.txWords) }) ∧
      (x.txWords = 0 → (∀ w ∈ s.dev.f.fsp.runs, w.asked = true ∨ w.txWords = 0) →
          (∀ w ∈ s.dev.f.fsp.waiting, w.entry ≠ o.desc.entry) →
        exec (.fspRun tag t) s = .next { s with dev :=
          (let d := ((s.dev.at t).setFop tag (some { o with begun := true })).setFspEntry o.desc.entry
            { x with runs := (x.runs + 1) % 2 ^ 32 }
          if ecStartSlot x.ectrl then { d with f.fsp.waiting := s.dev.f.fsp.waiting ++ [r] }
          else { d with f.fsp.queue := [FspItem.run r] }) }))) ∧
    (s.dev.freshOp tag opFSP_TARGET = some o → s.dev.flag Fld.FSP_CTRL_ROLE = true → sel = o.desc.dest - 0x110 →
        bitsOf o.desc.q2.toNat 0 16 = (s.dev.fld (Fld.FSP_TGT_LEN_RPL_LENM1 sel) + 48) / 48 →
        (s.dev.fld (Fld.FSP_TGT_LEN_RQ_MAXM1 sel) + 48) / 48 ≤ bitsOf o.desc.q4.toNat 0 16 →
      exec (.fspTarget tag t) s = .next { s with dev :=
        (({ (s.dev.at t).setFop tag (some { o with begun := true }) with
            f.fsp.tgts := s.dev.f.fsp.tgts ++ [FspTgt.mk tag sel o.fn o.ring (bitsOf o.desc.q2.toNat 0 16) o.desc.q3.toNat
              (bitsOf o.desc.q4.toNat 0 16) none] }).hostRead o.fn o.desc.buf (8 * bitsOf o.desc.q2.toNat 0 16)) }) ∧
    (s.dev.owns Fld.PCI_OWN_PORT_FSP fn = true → s.dev.flag Fld.FSP_CTRL_EN = true →
        changes (s.dev.rd Reg.FSP_CTRL) (data &&& 0xFFFFFFFE) 0x6 = false →
      ((s.dev.f.fsp.inWord = true ∨ s.dev.f.fsp.serving.isSome = true →
        exec (.fspDisable fn data t) s = .next { s with dev := { (s.dev.at t).wr Reg.FSP_CTRL (((data &&& 0xFFFFFFFE) &&& 0x7)
          ||| ((s.dev.rd Reg.FSP_CTRL ||| (data &&& 0xFFFFFFFE)) &&& 0x8)) with f.fsp.stopping := true } }) ∧
      (s.dev.f.fsp.inWord = false → s.dev.f.fsp.serving = none →
        ∃ u : State, exec (.fspDisable fn data t) s = .next u ∧ u.dev.fld Fld.FSP_CTRL_EN = 0 ∧ u.dev.f.fsp.cur = none ∧
          u.dev.f.fsp.queue = [] ∧ u.dev.f.fsp.waiting = [] ∧ u.dev.f.fsp.fired = [] ∧ u.dev.f.fsp.tgts = [] ∧
          (∀ g y, s.dev.fop g = some y → isFsp y.desc.opcode = true → y.ended = none → (s.dev.op g).isSome = true →
            ∃ res, (u.dev.fop g).bind (·.ended) = some (stWRONG_STATE, res)) ∧
          (∀ g y, s.dev.fop g = some y → y.ended.isSome = true → u.dev.fop g = some y) ∧
          (∀ e, ∃ n, u.dev.fspEntry e = { s.dev.fspEntry e with runs := n }) ∧ u.dev.f.fsp.sels = s.dev.f.fsp.sels ∧
          (∀ k, k ≠ Reg.FSP_CTRL → u.dev.rd k = s.dev.rd k) ∧ u.dev.f.car = s.dev.f.car ∧ u.dev.f.ch = s.dev.f.ch ∧
          u.nv = s.nv ∧ u.pending = s.pending))) ∧
    (sel < 8 → s.dev.selCode sel = codeOf fn → (∀ y ∈ s.dev.f.fsp.tgts, y.sel ≠ sel) →
        (∀ y, s.dev.f.fsp.serving = some y → y.1 ≠ sel) →
        (s.dev.f.fsp.inWord = true → ∀ y, s.dev.f.fsp.cur = some y → ecSel (s.dev.fspEntry y.entry).ectrl ≠ sel) →
      exec (.fspTgtCfgWrite fn (Reg.FSP_TGT_LEN sel) data t) s = .next { s with dev :=
        (((s.dev.at t).wr (Reg.FSP_TGT_LEN sel)
          ((s.dev.rd (Reg.FSP_TGT_LEN sel) &&& ~~~0x1FFF1FFF) ||| (data &&& 0x1FFF1FFF))).setFspSel sel
            { s.dev.fspSel sel with txAlive := none, rxAlive := 0, prev := none }) } ∧
      (2 ≤ bitsOf data.toNat 6 8 →
        exec (.fspTgtCfgWrite fn (Reg.FSP_TGT_CFG sel) data t) s = .next { s with dev :=
          (((s.dev.at t).wr (Reg.FSP_TGT_CFG sel)
            ((s.dev.rd (Reg.FSP_TGT_CFG sel) &&& ~~~0x3FFF) ||| (data &&& 0x3FFF))).setFspSel sel
              { s.dev.fspSel sel with txAlive := none, rxAlive := 0, prev := none }) })))

/-- Words of the controller role (chapter 08): a run whose slot has fired, or the run at the head of the order, begins once its
containers are staged; a word drives what its phases name from verified containers; at the end of its last word the run completes with
what it received, plain or framed; an FSP that was to stop stops at the end of its word.
Words of the target role (chapter 08): with the select, or with HELD, the oldest ready operation of the select serves a word, which
underruns with none; at its end the reply has been sent, the alive counters advance and the operation completes; with none the previous
reply goes out again; a word released before its end is counted.
The model's choices in it: log entries 52, 53 and 54. -/
def Obligations.SerialPortWords : Prop :=
  (∀ (s : State) (t p g alive : Nat) (x : FspEntry) (k : FspSel) (r : FspRun) (rest : List FspItem) (fired : List FspRun) (o : FOp)
      (lanes : List (BitVec 8)) (cs : List Container) (fr : RxFrame), s.dev.f.fsp.inWord = false →
    x = s.dev.fspEntry r.entry → k = s.dev.fspSel (ecSel x.ectrl) →
    ((s.dev.fspOn 0 = true → s.dev.f.fsp.stopping = false → s.dev.f.fsp.cur = none → s.dev.f.fsp.absDue = false →
        (∀ w ∈ s.dev.f.fsp.runs, w.asked = true ∨ w.txWords = 0) → r.staged.isSome = true →
        ecWords x.ectrl * wordRx x.phases ≤ r.rxCap →
      (s.dev.f.fsp.fired = [] → s.dev.f.fsp.queue = .run r :: rest →
        exec (.fspRunStart t) s = .next { s with dev := { s.dev.at t with f.fsp := { s.dev.f.fsp with
          cur := some { r with started := true }, queue := rest, lastEntry := r.entry } } }) ∧
      (s.dev.f.fsp.fired = r :: fired →
        exec (.fspRunStart t) s = .next { s with dev := { s.dev.at t with f.fsp := { s.dev.f.fsp with
          cur := some { r with started := true }, fired := fired, lastEntry := r.entry } } })) ∧
    (s.dev.fspOn 0 = true → s.dev.f.fsp.cur = some r → s.dev.rxStaged + wordRx x.phases ≤ 16384 →
        cs = ((r.staged.getD []).drop (wordTx x.phases * r.word)).take (wordTx x.phases) →
        (∀ c ∈ cs, c.good r.fn r.ring 0x118 = true) → alive = (match k.txAlive with | none => 0 | some a => nextAlive a) →
      exec (.fspWordStart t) s = .next { s with dev :=
        ((let d := if ecFramed x.ectrl && x.phases.any (fun p => phKind p == 3) then
            (s.dev.at t).setFspSel (ecSel x.ectrl) { k with txAlive := some alive, pendBad := false, pendAbort := false }
          else s.dev.at t
        { d with f.fsp.inWord := true, f.fsp.absTaken := false, f.fsp.lastWord := r.word }).emit
          (.fspWord (ecSel x.ectrl) (wordOut (ecFramed x.ectrl) alive k.pendBad k.pendAbort x.phases cs))) }) ∧
    (∀ v : State, v = { s with dev := { s.dev with f.fsp.inWord := true } } →
      s.dev.f.fsp.cur = some r → x.phases.filter (fun y => phKind y == 5) = [p] → r.word + 1 = ecWords x.ectrl →
        s.dev.f.fsp.queue = [] → s.dev.f.fsp.stopping = false → r.tag = some g → s.dev.fop g = some o → o.ended = none →
        (s.dev.op g).isSome = true →
      (ecFramed x.ectrl = false →
        ∃ u : State, exec (.fspWordEnd [lanes] t) v = .next u ∧ u.dev.f.fsp.cur = none ∧ u.dev.f.fsp.inWord = false ∧
          u.dev.fop g = some { o with
            got := o.got ++ (wordsOfBits ((laneBits (phWidth p) (phD1 p) lanes).take (phLen p))).map
              (fun w => Container.make w o.fn o.ring o.desc.dest)
            ended := some (r.status, ({ r with got := r.got + phRx p }).result) } ∧
          (∀ j, j ≠ g → u.dev.fop j = s.dev.fop j) ∧ (∀ j, u.dev.rd j = s.dev.rd j) ∧ u.dev.h.ops = s.dev.h.ops ∧
          u.nv = s.nv ∧ u.pending = s.pending) ∧
      (ecFramed x.ectrl = true → fr = readFrame (laneBits (phWidth p) (phD1 p) lanes) (phLen p) → fr.bad = false →
          fr.under = false → fr.badRx = false → fr.alive = nextAlive k.rxAlive →
        ∃ u : State, exec (.fspWordEnd [lanes] t) v = .next u ∧ u.dev.f.fsp.cur = none ∧ u.dev.f.fsp.inWord = false ∧
          (u.dev.fspSel (ecSel x.ectrl)).rxAlive = fr.alive ∧
          u.dev.fop g = some { o with
            got := o.got ++ (wordsOfBits fr.payload).map (fun w => Container.make w o.fn o.ring o.desc.dest)
            ended := some (r.status, ({ r with got := r.got + (fr.payload.length + 47) / 48, alive := fr.alive }).result) } ∧
          (∀ j, j ≠ g → u.dev.fop j = s.dev.fop j) ∧ (∀ j, u.dev.rd j = s.dev.rd j) ∧ u.dev.h.ops = s.dev.h.ops ∧
          u.nv = s.nv ∧ u.pending = s.pending)))) ∧
  (∀ (s : State) (sel t : Nat) (asserted : Bool) (x : FspTgt) (k : FspSel) (o : FOp) (request : List (BitVec 8)) (fr : RxFrame)
      (drives : List Bool → Emit), sel < 8 →
    k = s.dev.fspSel sel →
    drives = (fun bits => .fspWord sel (lanesFree (s.dev.fld (Fld.FSP_TGT_CFG_TA sel))
      ++ lanesOut (s.dev.fld (Fld.FSP_TGT_CFG_RP_W sel)) (s.dev.flag (Fld.FSP_TGT_CFG_W1_D1 sel)) bits.length bits)) →
    ((s.dev.fspOn 1 = true → s.dev.f.fsp.serving = none →
        s.dev.rxStaged + (s.dev.fld (Fld.FSP_TGT_LEN_RQ_MAXM1 sel) + 48) / 48 ≤ 16384 →
      ((asserted = true ∨ s.dev.flag (Fld.FSP_TGT_CFG_HELD sel) = true) →
        (s.dev.fspReady sel = some x →
          exec (.fspTargetWordBegin sel asserted t) s = .next { s with dev := { s.dev.at t with
            f.fsp.serving := some (sel, some x.tag) } }) ∧
        (s.dev.fspReady sel = none →
          ∃ u : State, exec (.fspTargetWordBegin sel asserted t) s = .next u ∧ u.dev.f.fsp.serving = some (sel, none) ∧
            (u.dev.fspSel sel).pendUnder = true ∧
            u.dev.fld Fld.FSP_UNDERRUN_CNT_COUNT = min (s.dev.fld Fld.FSP_UNDERRUN_CNT_COUNT + 1) (2 ^ 32 - 1) ∧
            (u.dev.src .f Sn.FSP_UNDERRUN).last = max s.dev.now t ∧ u.dev.f.car = s.dev.f.car ∧
            u.nv = s.nv ∧ u.pending = s.pending)) ∧
      (asserted = false → s.dev.flag (Fld.FSP_TGT_CFG_HELD sel) = false →
        exec (.fspTargetWordBegin sel asserted t) s = .next { s with dev := s.dev.at t })) ∧
    (s.dev.f.fsp.serving = some (sel, some x.tag) → s.dev.f.fsp.tgts.find? (fun y => y.tag == x.tag) = some x →
        fr = readFrame (laneBits (s.dev.fld (Fld.FSP_TGT_CFG_RQ_W sel)) false request)
          (s.dev.fld (Fld.FSP_TGT_LEN_RQ_MAXM1 sel) + 1) → fr.bad = false → fr.under = false →
        fr.alive = nextAlive k.rxAlive → k.pendUnder = false → s.dev.f.fsp.stopping = false →
        s.dev.fop x.tag = some o → o.ended = none → (s.dev.op x.tag).isSome = true →
      ∃ u : State, exec (.fspTargetWordEnd sel request t) s = .next u ∧ u.dev.f.fsp.serving = none ∧
        (∀ y ∈ u.dev.f.fsp.tgts, y.tag ≠ x.tag) ∧ (u.dev.fspSel sel).rxAlive = fr.alive ∧
        (u.dev.fspSel sel).txAlive = some (match k.txAlive with | none => 0 | some a => nextAlive a) ∧
        (∃ l, u.dev.out = l ++ drives (frameBits (match k.txAlive with | none => 0 | some a => nextAlive a) k.pendBad false k.pendAbort
          (bitsOfContainers (x.staged.getD []) (s.dev.fld (Fld.FSP_TGT_LEN_RPL_LENM1 sel) + 1))) :: s.dev.out) ∧
        (u.dev.fop x.tag).bind (·.ended) = some (stOK, BitVec.ofNat 64
          ((fr.payload.length + 47) / 48 % 2 ^ 16 + fr.alive * 2 ^ 16 + b2n fr.badRx * 2 ^ 20)) ∧
        (∀ g, g ≠ x.tag → u.dev.fop g = s.dev.fop g) ∧ (∀ j, j ≠ sel → u.dev.fspSel j = s.dev.fspSel j) ∧
        u.dev.h.ops = s.dev.h.ops ∧ u.dev.f.car = s.dev.f.car ∧ u.nv = s.nv ∧ u.pending = s.pending) ∧
    (s.dev.f.fsp.serving = some (sel, none) → s.dev.f.fsp.stopping = false → ∀ a cs, k.prev = some (a, cs) →
      exec (.fspTargetWordEnd sel request t) s = .next { s with dev :=
        ((({ s.dev.at t with f.fsp.serving := none }).setFspSel sel { k with pendBad := false, pendAbort := false }).emit
          (drives (frameBits a k.pendBad true k.pendAbort
            (bitsOfContainers cs (s.dev.fld (Fld.FSP_TGT_LEN_RPL_LENM1 sel) + 1))))) }) ∧
    (s.dev.f.fsp.serving = some (sel, none) → s.dev.f.fsp.stopping = false →
      ∃ u : State, exec (.fspSelAbort sel t) s = .next u ∧ u.dev.f.fsp.serving = none ∧ (u.dev.fspSel sel).pendAbort = true ∧
        u.dev.fld Fld.FSP_ABORT_CNT_COUNT = min (s.dev.fld Fld.FSP_ABORT_CNT_COUNT + 1) (2 ^ 32 - 1) ∧
        (u.dev.src .f Sn.FSP_SEL_ABORT).last = max s.dev.now t ∧ u.dev.f.fsp.tgts = s.dev.f.fsp.tgts ∧
        u.dev.f.car = s.dev.f.car ∧ u.nv = s.nv ∧ u.pending = s.pending))) ∧
  (∀ (s : State) (rx : List (List (BitVec 8))) (t : Nat) (r : FspRun), s.dev.f.fsp.cur = some r → s.dev.f.fsp.inWord = true →
      s.dev.f.fsp.stopping = true →
    ∃ u : State, exec (.fspWordEnd rx t) s = .next u ∧ u.dev.f.fsp.cur = none ∧ u.dev.f.fsp.inWord = false ∧
      u.dev.f.fsp.queue = [] ∧ u.dev.f.fsp.waiting = [] ∧ u.dev.f.fsp.fired = [] ∧ u.dev.f.fsp.tgts = [] ∧
      u.dev.f.fsp.stopping = false ∧ (∀ e, ∃ n, u.dev.fspEntry e = { s.dev.fspEntry e with runs := n }) ∧
      u.dev.f.car = s.dev.f.car ∧ u.nv = s.nv ∧ u.pending = s.pending)

/-- R211: the cases in which a TWP_XFER completes BAD_DESC. -/
def Obligations.TwoWireTransferBadDescriptor : Prop :=
  ∀ (s : State) (tag t : Nat) (o : FOp), s.dev.freshOp tag opTWP_XFER = some o → (s.dev.op tag).isSome = true →
    (o.desc.twpAddr / 2 ^ 7 ≠ 0 ∧ o.desc.twpA10 = false) ∨
    (o.desc.twpA10 = false ∧ (o.desc.twpAddr ≤ 0x07 ∨ (0x78 ≤ o.desc.twpAddr ∧ o.desc.twpAddr ≤ 0x7F))) ∨
    32 < o.desc.twpWrLen ∨
    (o.desc.twpRdLen ≠ 0 ∧ o.desc.buf = 0) ∨
    (s.dev.fld Fld.TWP_TGT_CFG_TGT_EN = 1 ∧ o.desc.twpAddr = s.dev.fld Fld.TWP_TGT_CFG_ADDR ∧
      o.desc.twpA10 = s.dev.flag Fld.TWP_TGT_CFG_A10) →
    ∃ u : State, exec (.twpXfer tag t) s = .next u ∧ (u.dev.fop tag).bind (·.ended) = some (stBAD_DESC, 0) ∧
      (∀ g, g ≠ tag → u.dev.fop g = s.dev.fop g) ∧ u.dev.f.twp = s.dev.f.twp ∧ (∀ k, u.dev.rd k = s.dev.rd k) ∧
      u.dev.h.ops = s.dev.h.ops ∧ u.nv = s.nv ∧ u.pending = s.pending

/-- Controller transfers (chapter 09): a good TWP_XFER joins the queue, and a good TWP_TARGET the target's; the transfer begun, or the
first of the queue, makes a START once the bus is free and t_BUF has passed; its end takes the bytes read and completes it, NACK after a
byte that was not acknowledged; after a loss of arbitration it stays begun up to RETRIES times.
The model's choices in it: log entries 54 and 55. -/
def Obligations.TwoWireTransfers : Prop :=
  ∀ (s : State) (tag losses byte bit at_ i t : Nat) (q : List Nat) (o : FOp) (rx : List (BitVec 8)),
    ((s.dev.f.twp.stuck = false → s.dev.flag Fld.TWP_CTRL_EN = true →
      (s.dev.freshOp tag opTWP_XFER = some o → s.dev.twpXferBad o.desc = false → s.dev.flag Fld.TWP_CTRL_CTL_EN = true →
          s.dev.h.restEntry = none → s.dev.f.ch.rest = none →
        exec (.twpXfer tag t) s = .next { s with dev := { (s.dev.at t).setFop tag (some { o with begun := true }) with
          f.twp.queue := s.dev.f.twp.queue ++ [tag] } }) ∧
      (s.dev.freshOp tag opTWP_TARGET = some o → o.desc.twpWrLen ≤ 32 → (o.desc.twpRdLen = 0 ∨ o.desc.buf ≠ 0) →
          s.dev.flag Fld.TWP_TGT_CFG_TGT_EN = true →
        exec (.twpTarget tag t) s = .next { s with dev := { (s.dev.at t).setFop tag (some { o with begun := true }) with
          f.twp.tgts := s.dev.f.twp.tgts ++ [tag] } })) ∧
    (s.dev.twpCtlOn = true → s.dev.f.twp.onBus = false → s.dev.f.twp.busy = false →
        s.dev.f.twp.lastStop + tBuf (s.dev.fld Fld.TWP_CTRL_MODE) ≤ max s.dev.now t → s.dev.fop tag = some o →
      (s.dev.f.twp.cur = none → s.dev.f.twp.queue = tag :: q →
        exec (.twpXferStart t) s = .next { s with dev := (({ s.dev.at t with f.twp := { s.dev.f.twp with
          cur := some (tag, 0), queue := q, onBus := true, busy := true, quietFrom := none } }).emit (.twp (twpShape o.desc))) }) ∧
      (s.dev.f.twp.cur = some (tag, losses) →
        exec (.twpXferStart t) s = .next { s with dev := (({ s.dev.at t with f.twp := { s.dev.f.twp with
          onBus := true, busy := true, quietFrom := none } }).emit (.twp (twpShape o.desc))) })) ∧
    (s.dev.f.twp.cur = some (tag, losses) → s.dev.f.twp.onBus = true → s.dev.fop tag = some o → o.ended = none →
        (s.dev.op tag).isSome = true →
      (∃ u : State, exec (.twpXferEnd none rx t) s = .next u ∧
        u.dev.fop tag = some { o with
          got := o.got ++ (packBytes (rx.take o.desc.twpRdLen)).map (fun w => Container.make w o.fn o.ring o.desc.dest)
          ended := some (stOK, BitVec.ofNat 64 ((rx.take o.desc.twpRdLen).length % 256)) } ∧
        u.dev.f.twp = { s.dev.f.twp with cur := none, onBus := false, busy := false, lastStop := max s.dev.now t } ∧
        (∀ g, g ≠ tag → u.dev.fop g = s.dev.fop g) ∧ (∀ k, u.dev.rd k = s.dev.rd k) ∧ u.dev.h.ops = s.dev.h.ops ∧
        u.nv = s.nv ∧ u.pending = s.pending) ∧
      (∃ u : State, exec (.twpXferEnd (some i) rx t) s = .next u ∧
        u.dev.fop tag = some { o with ended := some (stNACK, BitVec.ofNat 64 (i % 256 * 2 ^ 16)) } ∧
        u.dev.f.twp = { s.dev.f.twp with cur := none, onBus := false, busy := false, lastStop := max s.dev.now t } ∧
        (∀ g, g ≠ tag → u.dev.fop g = s.dev.fop g) ∧ (∀ k, u.dev.rd k = s.dev.rd k) ∧ u.dev.h.ops = s.dev.h.ops ∧
        u.nv = s.nv ∧ u.pending = s.pending) ∧
      (∃ u : State, exec (.twpArbLoss byte bit at_ rx t) s = .next u ∧
        u.dev.fld Fld.TWP_ARB_CNT_COUNT = min (s.dev.fld Fld.TWP_ARB_CNT_COUNT + 1) (2 ^ 32 - 1) ∧
        u.dev.fld Fld.TWP_LAST_LOSS_BYTE = byte % 256 ∧
        (losses < o.desc.twpRetries → u.dev.f.twp = { s.dev.f.twp with cur := some (tag, losses + 1), onBus := false } ∧
          u.dev.fop tag = some o) ∧
        (o.desc.twpRetries ≤ losses → u.dev.f.twp = { s.dev.f.twp with cur := none, onBus := false } ∧
          (u.dev.fop tag).bind (fun x => x.ended.map (·.1)) = some stARB_LOST ∧
          (u.dev.src .f Sn.TWP_ARB_LOST).last = max s.dev.now t) ∧
        (∀ g, g ≠ tag → u.dev.fop g = s.dev.fop g) ∧ u.dev.f.car = s.dev.f.car ∧ u.nv = s.nv ∧ u.pending = s.pending)))

/-- The two-wire bus (chapter 09): START and STOP make it busy and free, 50 µs of idle lines after an enable free it; the target's
oldest operation serves its address, which is counted with none ready, and its end sends the reply bytes; SCL low for 25 ms ends the
controller's transfer; the stuck-SDA check frees SDA with at most nine pulses and a STOP, or sets STUCK.
The model's choices in it: what the stuck-SDA check meets is an operand, log entry 56. -/
def Obligations.TwoWireBusAndTarget : Prop :=
  ∀ (s : State) (tag losses n q t : Nat) (rest : List Nat) (o : FOp) (rx : List (BitVec 8)) (clocked : Nat) (sclLow held : Bool),
    ((exec (.twpStartDetect t) s = .next { s with dev := { s.dev.at t with f.twp := { s.dev.f.twp with
        busy := true, quietFrom := none } } }) ∧
    (s.dev.f.twp.serving = none →
      exec (.twpStopDetect rx clocked t) s = .next { s with dev := { s.dev.at t with f.twp := { s.dev.f.twp with
        busy := false, quietFrom := none, lastStop := max s.dev.now t } } }) ∧
    (s.dev.f.twp.quietFrom = some q → q + 40000 ≤ max s.dev.now t →
      exec (.twpBusIdleTimeout t) s = .next { s with dev := { s.dev.at t with f.twp := { s.dev.f.twp with
        busy := false, quietFrom := none } } }) ∧
    (s.dev.twpTgtOn = true → s.dev.f.twp.serving = none →
      (s.dev.f.twp.tgts = tag :: rest →
        exec (.twpTargetAddressMatch t) s = .next { s with dev := { s.dev.at t with f.twp.serving := some tag } }) ∧
      (s.dev.f.twp.tgts = [] →
        ∃ u : State, exec (.twpTargetAddressMatch t) s = .next u ∧ u.dev.f.twp = s.dev.f.twp ∧
          u.dev.fld Fld.TWP_TGT_NR_CNT_COUNT = min (s.dev.fld Fld.TWP_TGT_NR_CNT_COUNT + 1) (2 ^ 32 - 1) ∧
          u.dev.fld Fld.TWP_STATUS_TGT_NOT_READY = 1 ∧ (u.dev.src .f Sn.TWP_TGT_NR).last = max s.dev.now t ∧
          u.dev.f.car = s.dev.f.car ∧ u.nv = s.nv ∧ u.pending = s.pending)) ∧
    (s.dev.f.twp.serving = some tag → s.dev.fop tag = some o → o.ended = none → (s.dev.op tag).isSome = true →
      ∃ u : State, exec (.twpTargetEnd rx clocked t) s = .next u ∧ u.dev.f.twp.serving = none ∧
        u.dev.f.twp.tgts = s.dev.f.twp.tgts.filter (fun g => g != tag) ∧
        (u.dev.fop tag).bind (·.ended) = some (stOK, BitVec.ofNat 64
          ((rx.take o.desc.twpRdLen).length % 256 + min clocked o.desc.twpWrLen * 256)) ∧
        (clocked ≠ 0 → ∃ l, u.dev.out = l ++ Emit.twp (twpReply o.desc clocked) :: s.dev.out) ∧
        (∀ g, g ≠ tag → u.dev.fop g = s.dev.fop g) ∧ (∀ k, u.dev.rd k = s.dev.rd k) ∧ u.dev.h.ops = s.dev.h.ops ∧
        u.nv = s.nv ∧ u.pending = s.pending) ∧
    (s.dev.flag Fld.TWP_CTRL_LTO_EN = true → s.dev.f.twp.cur = some (tag, losses) → s.dev.f.twp.onBus = true →
        s.dev.fop tag = some o → o.ended = none → (s.dev.op tag).isSome = true →
      ∃ u : State, exec (.twpSclLowTimeout ⟨0, false, false⟩ t) s = .next u ∧ u.dev.f.twp.cur = none ∧
        (u.dev.fop tag).bind (·.ended) = some (stTIMEOUT, 0) ∧
        u.dev.fld Fld.TWP_LTO_CNT_COUNT = min (s.dev.fld Fld.TWP_LTO_CNT_COUNT + 1) (2 ^ 32 - 1) ∧
        u.dev.f.twp.queue = s.dev.f.twp.queue ∧ u.dev.f.car = s.dev.f.car ∧ u.nv = s.nv ∧ u.pending = s.pending) ∧
    (s.dev.flag Fld.TWP_CTRL_LTO_EN = true → s.dev.twpUp = true → s.dev.flag Fld.TWP_CTRL_CTL_EN = true →
      (1 ≤ n →
        ∃ u : State, exec (.twpSdaLowTimeout ⟨n, false, false⟩ t) s = .next u ∧ u.dev.f.twp.clocks = min n 9 ∧ u.dev.f.twp.stuck = false ∧
          u.dev.f.twp.busy = false ∧ u.dev.fld Fld.TWP_STATUS_RECOVERED = 1 ∧
          (u.dev.src .f Sn.TWP_RECOVERED).last = max s.dev.now t ∧ u.dev.f.twp.queue = s.dev.f.twp.queue ∧
          u.dev.f.car = s.dev.f.car ∧ u.nv = s.nv ∧ u.pending = s.pending) ∧
      (1 ≤ n → (sclLow || held) = true →
        ∃ u : State, exec (.twpSdaLowTimeout ⟨n, sclLow, held⟩ t) s = .next u ∧ u.dev.f.twp.clocks = min n 9 ∧
          u.dev.f.twp.stuckScl = sclLow ∧ u.dev.f.twp.stuck = true ∧
          u.dev.f.twp.queue = [] ∧ u.dev.f.twp.tgts = [] ∧ u.dev.f.twp.cur = none ∧
          (u.dev.src .f Sn.TWP_STUCK).last = max s.dev.now t ∧ u.dev.f.car = s.dev.f.car ∧
          u.nv = s.nv ∧ u.pending = s.pending)))

/-- Enabling and resetting the two-wire port (chapter 09): EN from 0 to 1 runs the stuck-SDA check, which ends STUCK when it passes;
CTL_EN 0 and TGT_EN 0 complete their role's queue WRONG_STATE; CTL_RST completes the transfer in progress WRONG_STATE and runs the
check.
The model's choices in it: what the stuck-SDA check meets is an operand, log entry 56. -/
def Obligations.TwoWireSetUp : Prop :=
  ∀ (s : State) (fn : Func) (data : Word) (tag losses t : Nat) (o : FOp),
    ((s.dev.twpTgt = codeOf fn → s.dev.twpActive = false →
        (s.dev.flag Fld.TWP_CTRL_LOCK = true → changes (s.dev.rd Reg.TWP_TGT_CFG) (data &&& 0xFFFFF7FF) 0x7FF = false) →
      ∃ u : State, exec (.twpCtlEnWrite fn true data t) s = .next u ∧ u.dev.fld Fld.TWP_TGT_CFG_TGT_EN = 0 ∧
        u.dev.f.twp.tgts = [] ∧ u.dev.f.twp.queue = s.dev.f.twp.queue ∧
        (∀ g ∈ s.dev.f.twp.tgts, s.dev.fop g = some o → o.ended = none → (s.dev.op g).isSome = true →
          (u.dev.fop g).bind (·.ended) = some (stWRONG_STATE, 0)) ∧
        (∀ k, k ≠ Reg.TWP_TGT_CFG → u.dev.rd k = s.dev.rd k) ∧ u.dev.f.car = s.dev.f.car ∧ u.nv = s.nv ∧
        u.pending = s.pending) ∧
    (s.dev.twpMay fn = true → bitsOf data.toNat 2 2 = s.dev.fld Fld.TWP_CTRL_MODE → s.dev.fld Fld.TWP_CTRL_MODE ≠ 3 →
      sclBad (s.dev.fld Fld.TWP_CTRL_MODE) (s.dev.rd Reg.TWP_SCL_TIM) = false → bitOf data.toNat 5 = false →
    ((bitOf data.toNat 1 = true → s.dev.twpActive = false → s.dev.flag Fld.TWP_CTRL_EN = false → s.dev.f.ch.standby = false →
      ∃ u : State, exec (.twpEnable fn data ⟨0, false, false⟩ t) s = .next u ∧ u.dev.fld Fld.TWP_CTRL_EN = 1 ∧
        u.dev.fld Fld.TWP_CTRL_CTL_EN = 1 ∧ u.dev.f.twp.busy = true ∧ u.dev.f.twp.quietFrom = some (max s.dev.now t) ∧
        u.dev.f.twp.stuck = false ∧ u.dev.f.twp.checked = true ∧ u.dev.f.twp.queue = s.dev.f.twp.queue ∧
        (∀ k, k ≠ Reg.TWP_CTRL → reactReg k = false → u.dev.rd k = s.dev.rd k) ∧ u.dev.f.car = s.dev.f.car ∧ u.nv = s.nv ∧ u.pending = s.pending) ∧
    (s.dev.twpActive = false →
      ∃ u : State, exec (.twpCtlEnWrite fn false data t) s = .next u ∧ u.dev.fld Fld.TWP_CTRL_CTL_EN = 0 ∧
        u.dev.f.twp.queue = [] ∧ u.dev.f.twp.tgts = s.dev.f.twp.tgts ∧ u.dev.f.twp.cur = s.dev.f.twp.cur ∧
        (∀ g ∈ s.dev.f.twp.queue, s.dev.fop g = some o → o.ended = none → (s.dev.op g).isSome = true →
          (u.dev.fop g).bind (·.ended) = some (stWRONG_STATE, 0)) ∧
        (∀ k, k ≠ Reg.TWP_CTRL → u.dev.rd k = s.dev.rd k) ∧ u.dev.f.car = s.dev.f.car ∧ u.nv = s.nv ∧ u.pending = s.pending) ∧
    (bitOf data.toNat 0 = true → bitOf data.toNat 1 = true → s.dev.f.twp.cur = some (tag, losses) → s.dev.fop tag = some o →
        o.ended = none → (s.dev.op tag).isSome = true →
      ∃ u : State, exec (.twpCtlRst fn data ⟨0, false, false⟩ t) s = .next u ∧ u.dev.f.twp.cur = none ∧ u.dev.f.twp.onBus = false ∧
        (u.dev.fop tag).bind (·.ended) = some (stWRONG_STATE, 0) ∧ (∀ g, g ≠ tag → u.dev.fop g = s.dev.fop g) ∧
        (s.dev.f.ch.standby = false → u.dev.f.twp.checked = true ∧ u.dev.f.twp.quietFrom = some (max s.dev.now t)) ∧
        u.dev.f.twp.queue = s.dev.f.twp.queue ∧ (∀ k, k ≠ Reg.TWP_CTRL → reactReg k = false → u.dev.rd k = s.dev.rd k) ∧
        u.dev.f.car = s.dev.f.car ∧ u.nv = s.nv ∧ u.pending = s.pending))))

/-- FT_START, FT_STOP and FT_WRAP of one timer (chapter 10). A start loads 0 under ZERO and keeps the count else, marks the
value, re-arms the first-edge rule and lets the timer run from now, unless a stop of the same cycle names it; a stop of FT[4..7] keeps
the count; a wrap takes the count modulo 2^48. Every other timer keeps its state. -/
def Obligations.FieldTimerStartsAndStops : Prop :=
  ∀ (s : State) (fn : Func) (k t : Nat), k < 8 →
    ((s.dev.tmMay fn k = true →
      ∃ (u : State) (w : Option (Nat × Bool)) (l : List (Nat × TmPace)) (b : Option (Nat × Bool × Nat)),
        exec (.ftStart fn (2 ^ k) t) s = .next u ∧
        u.dev.tm k = { s.dev.tm k with
          base := if s.dev.flag (Fld.FT_CFG_ZERO k) then 0 else (s.dev.at t).tmCount k
          mark := if s.dev.flag (Fld.FT_CFG_ZERO k) then 0 else (s.dev.at t).tmCount k
          since := max s.dev.now t
          armed := true
          run := (s.dev.tm k).stopAt != some (max s.dev.now t)
          wrapAt := w
          legs := l
          startAt := b } ∧
        (∀ j, j ≠ k → u.dev.tm j = s.dev.tm j) ∧ u.nv = s.nv ∧ u.pending = s.pending) ∧
    (s.dev.tmMay fn k = true → 4 ≤ k →
      ∃ (u : State) (w : Option (Nat × Bool)) (l : List (Nat × TmPace)), exec (.ftStop fn (2 ^ k) t) s = .next u ∧
        u.dev.tm k = { s.dev.tm k with
          base := (s.dev.at t).tmCount k
          since := max s.dev.now t
          run := false
          stopAt := some (max s.dev.now t)
          wrapAt := w
          legs := l } ∧
        (∀ j, j ≠ k → u.dev.tm j = s.dev.tm j) ∧ u.nv = s.nv ∧ u.pending = s.pending) ∧
    (∃ (u : State) (w : Option (Nat × Bool)), exec (.ftWrap k t) s = .next u ∧
        u.dev.tm k = { s.dev.tm k with base := (s.dev.at t).tmCount k, since := max s.dev.now t, wrapAt := w } ∧
        (2 ^ 48 ≤ (s.dev.tm k).base + (s.dev.at t).tmAdvance k (max s.dev.now t) →
          bitOf (u.dev.fld Fld.FT_STATUS_WRAP) k = true) ∧
        (∀ j, j ≠ k → u.dev.tm j = s.dev.tm j) ∧ u.nv = s.nv ∧ u.pending = s.pending))

/-- Captures (chapter 10): FT_CAPTURE takes a stored capture with its VALID and OVERRUN bits, or waits for the next one, and of a
capture of its own cycle takes the new value unless the register held one before; an encoder Z edge stores the count less the units
counted since the raw edge; the three latching reads. The low-frequency path and the debugger (chapter 10): at a switch or a halt every
timer's count is taken down and kept; FT[4..7] advance no more while a debugger holds the F-side sequencer.
The model's choices in it: one latch for each function, log entry 57. -/
def Obligations.FieldTimerCapturesAndClocks : Prop :=
  (∀ (s : State) (fn : Func) (tag k raw cap0 t : Nat) (valid0 lost0 rising : Bool) (o : FOp), k < 8 →
    ((s.dev.freshOp tag opFT_CAPTURE = some o → o.desc.dest = 0x128 + k → s.dev.fld (Fld.FT_CFG_CAP_SRC k) ≠ 0 →
        (s.dev.tm k).opened = none →
      ((∀ c, (s.dev.tm k).capAt = some c → c.1 ≠ max s.dev.now t) →
        (bitOf (s.dev.fld Fld.FT_STATUS_VALID) k = false →
          exec (.ftCapture tag t) s = .next { s with dev :=
            (((s.dev.at t).setFop tag (some { o with begun := true })).setTm k { s.dev.tm k with opened := some tag }) }) ∧
        (bitOf (s.dev.fld Fld.FT_STATUS_VALID) k = true → (s.dev.op tag).isSome = true →
          ∃ u : State, exec (.ftCapture tag t) s = .next u ∧
            (u.dev.fop tag).bind (·.ended) =
              some (if bitOf (s.dev.fld Fld.FT_STATUS_OVERRUN) k then stOVERRUN else stOK,
                o.result (BitVec.ofNat 48 (s.dev.tm k).cap)) ∧
            u.dev.fld Fld.FT_STATUS_VALID = s.dev.fld Fld.FT_STATUS_VALID - 2 ^ k ∧
            bitOf (u.dev.fld Fld.FT_STATUS_OVERRUN) k = false ∧ u.dev.tm k = { s.dev.tm k with capAt := none } ∧
            (∀ j, j ≠ k → u.dev.tm j = s.dev.tm j) ∧ u.nv = s.nv ∧ u.pending = s.pending)) ∧
      ((s.dev.tm k).capAt = some (max s.dev.now t, cap0, valid0, lost0) → (s.dev.op tag).isSome = true →
        ∃ u : State, exec (.ftCapture tag t) s = .next u ∧
          (u.dev.fop tag).bind (·.ended) =
            some (if valid0 && lost0 then stOVERRUN else stOK,
              o.result (BitVec.ofNat 48 (if valid0 then cap0 else (s.dev.tm k).cap))) ∧
          (u.dev.tm k).cap = (if valid0 then (s.dev.tm k).cap else cap0) ∧
          bitOf (u.dev.fld Fld.FT_STATUS_VALID) k = valid0 ∧
          (∀ j, j ≠ k → u.dev.tm j = s.dev.tm j) ∧ u.nv = s.nv ∧ u.pending = s.pending)) ∧
    (s.dev.f.ch.rest = none → (∀ j, j < 8 → (s.dev.fld (Fld.FT_CFG_CAP_SRC j) = 4 ↔ j = k)) →
        edgeTaken (s.dev.fld (Fld.FT_CFG_CAP_EDGE k)) rising = true →
        (s.dev.flag (Fld.FT_CFG_CAP_ARM k) = true → (s.dev.tm k).armed = true) → (s.dev.tm k).opened = none →
        bitOf (s.dev.fld Fld.FT_STATUS_VALID) k = false → (s.dev.tm k).clrAt ≠ some (max s.dev.now t) →
        (∀ e, (s.dev.tm k).startAt = some e → e.1 ≠ max s.dev.now t) →
      ∃ (u : State) (w : Option (Nat × Bool)), exec (.encZEdge rising raw t) s = .next u ∧
        u.dev.tm k = { s.dev.tm k with
          base := (s.dev.at t).tmCount k, since := max s.dev.now t, armed := false, freshA := false, freshB := false, wrapAt := w,
          cap := ((s.dev.at t).tmCount k + 2 ^ 48 - (if s.dev.flag (Fld.FT_CFG_SRC k) then 0
            else legUnits k raw (s.dev.tm k).legs (max s.dev.now t)) % 2 ^ 48) % 2 ^ 48,
          capAt := some (max s.dev.now t, (s.dev.tm k).cap, false, bitOf (s.dev.fld Fld.FT_STATUS_OVERRUN) k) } ∧
        bitOf (u.dev.fld Fld.FT_STATUS_VALID) k = true ∧ (∀ j, j ≠ k → u.dev.tm j = s.dev.tm j) ∧
        u.nv = s.nv ∧ u.pending = s.pending) ∧
    (exec (.ftCapLoRead fn k t) s = .next { s with dev := ((s.dev.at t).setTm k
      (if fn then { s.dev.tm k with capHiB := (s.dev.tm k).cap / 2 ^ 32, freshB := true }
        else { s.dev.tm k with capHiA := (s.dev.tm k).cap / 2 ^ 32, freshA := true })) }) ∧
    ((if fn then (s.dev.tm k).freshB else (s.dev.tm k).freshA) = true → bitOf (s.dev.fld Fld.FT_STATUS_VALID) k = true →
      exec (.ftCapHiRead fn k t) s = .next { s with dev :=
        (((s.dev.at t).setFld Fld.FT_STATUS_VALID (s.dev.fld Fld.FT_STATUS_VALID - 2 ^ k)).setTm k
          { s.dev.tm k with clrAt := some (max s.dev.now t) }) }) ∧
    ((if fn then (s.dev.tm k).freshB else (s.dev.tm k).freshA) = false →
      exec (.ftCapHiRead fn k t) s = .next { s with dev := s.dev.at t }) ∧
    (exec (.ftMarkLoRead fn k t) s = .next { s with dev := ((s.dev.at t).setTm k
      (if fn then { s.dev.tm k with markHiB := (s.dev.tm k).mark / 2 ^ 32 }
        else { s.dev.tm k with markHiA := (s.dev.tm k).mark / 2 ^ 32 })) }))) ∧
  (∀ (s : State) (t : Nat),
    (s.dev.f.ft.lf = none → s.dev.f.ch.rest.isSome = true → s.dev.f.brk.awakeF = false →
      ∃ u : State, exec (.lowFrequencyPathSwitch true t) s = .next u ∧ u.dev.f.ft.lf = some (max s.dev.now t) ∧
        (∀ k, k < 8 → u.dev.tmCount k = (s.dev.at t).tmCount k) ∧
        (∀ j, j < 4 → (s.dev.tm (4 + j)).run = true → bitOf (u.dev.fld Fld.FT_FLAGS_LF_UNIT) j = true) ∧
        u.nv = s.nv ∧ u.pending = s.pending) ∧
    (s.dev.f.ft.lf.isSome = true → (s.dev.f.ch.rest = none ∨ s.dev.f.brk.awakeF = true) →
      ∃ u : State, exec (.lowFrequencyPathSwitch false t) s = .next u ∧ u.dev.f.ft.lf = none ∧
        (∀ k, k < 8 → u.dev.tmCount k = (s.dev.at t).tmCount k) ∧ u.nv = s.nv ∧ u.pending = s.pending) ∧
    (debugOpen s.nv.lifecycle s.dev = true → (s.dev.at t).wdDue 2 = false →
      ∃ u : State, exec (.fSeqDebugHalt t) s = .next u ∧ u.dev.f.ft.halted = true ∧
        (∀ k, 4 ≤ k → k < 8 → ∀ t', (u.dev.at t').tmCount k = (s.dev.at t).tmCount k) ∧ u.nv = s.nv ∧ u.pending = s.pending) ∧
    (s.dev.f.ft.halted = true →
      ∃ u : State, exec (.fSeqDebugRelease t) s = .next u ∧ u.dev.f.ft.halted = false ∧
        (∀ k, k < 8 → u.dev.tmCount k = (s.dev.at t).tmCount k) ∧ u.nv = s.nv ∧ u.pending = s.pending))

/-- Watchdog service, keys and enabling (chapter 11): the first service word arms the service state; the second one, in the open
window, restarts the count at 0 in the normal window; any other word is a violation; the key pair; and EN_SET on a disabled watchdog,
which runs at once outside a boot and a reset of its domain.
The model's choices in it: log entry 58. -/
def Obligations.WatchdogServiceAndKeys : Prop :=
  ∀ (s : State) (fn : Func) (k t : Nat) (data : Word), k ≤ 2 →
    (((s.dev.wd k).en = true → (s.dev.wd k).held = false → (s.dev.at t).wdDue k = false →
        (k = 2 ∨ s.dev.hostOpen (k == 1) = true) →
      ((s.dev.wd k).armed = false →
        exec (.wdService k 0x0000C1A0 t) s =
          .next { s with dev := ((s.dev.at t).setWd k { s.dev.wd k with armed := true }) }) ∧
      ((s.dev.wd k).armed = true → s.dev.wdOpen k ≤ (s.dev.at t).wdCount k →
        exec (.wdService k 0x00003E5F t) s =
          .next { s with dev := ((s.dev.at t).setWd k
            { s.dev.wd k with first := false, armed := false, base := 0, since := max s.dev.now t }) }) ∧
      ((if (s.dev.wd k).armed then data ≠ 0x00003E5F ∨ (s.dev.at t).wdCount k < s.dev.wdOpen k else data ≠ 0x0000C1A0) →
        exec (.wdService k data t) s = .next { s with dev := (s.dev.at t).wdReact k })) ∧
    (fn = wdWriter k → (k = 2 ∨ s.dev.hostOpen fn = true) → (s.dev.at t).wdDue k = false → s.dev.flag (Fld.WD_CTRL_LOCK k) = false →
      exec (.wdKey fn k 0x00006D79 t) s =
        .next { s with dev := ((s.dev.at t).setWd k { s.dev.wd k with keyArmed := true }) } ∧
      ((s.dev.wd k).keyArmed = true →
        exec (.wdKey fn k 0x00007269 t) s =
          .next { s with dev := ((s.dev.at t).setWd k
            { s.dev.wd k with en := false, first := false, armed := false, keyArmed := false, base := 0 }) }) ∧
      ((s.dev.wd k).en = false → bitOf data.toNat 1 = false → bitOf data.toNat 2 = false →
        ∃ u : State, exec (.wdEnable fn k data t) s = .next u ∧
          u.dev.wd k = { s.dev.wd k with
            en := true, first := false, armed := false, base := 0, since := max s.dev.now t
            held := (s.dev.wd k).held && (s.dev.h.dev == .boot || s.dev.h.fReset) } ∧
          u.dev.h.wdA = (if k = 0 then u.dev.wd 0 else s.dev.h.wdA) ∧
          u.dev.h.wdB = (if k = 1 then u.dev.wd 1 else s.dev.h.wdB) ∧
          u.nv = s.nv ∧ u.pending = s.pending)))

/-- A watchdog's reaction (chapter 11): at C = T the FAULT pin of its die is pulsed and its domain is reset, its own count held at 0
and its service state idle: the function for WDA and WDB, whose reset one of the F-side absorbs, the F-side with the link for WDF. -/
def Obligations.WatchdogExpiryResetsDomain : Prop :=
  ∀ (s : State) (k t : Nat), k ≤ 2 → (s.dev.at t).wdDue k = true →
    ((k < 2 → s.dev.broaderReset = false →
      ∃ u : State, exec (.wdExpire k t) s = .next u ∧
        u.dev.h.pulse = some (max s.dev.now t) ∧ (u.dev.pci (wdWriter k)).resetAt = some (max s.dev.now t) ∧
        u.dev.wd k = (s.dev.wd k).inReset ∧ u.dev.pci (!wdWriter k) = s.dev.pci (!wdWriter k) ∧
        u.nv = s.nv ∧ u.pending = s.pending) ∧
    (k < 2 → s.dev.h.fReset = true →
      exec (.wdExpire k t) s = .next { s with dev := ((s.dev.at t).pulse .h).setWd k (s.dev.wd k).inReset }) ∧
    (k = 2 →
      ∃ u : State, exec (.wdExpire k t) s = .next u ∧
        u.dev.f.pulse = some (max s.dev.now t) ∧ u.dev.h.fReset = true ∧ u.dev.h.link.up = false ∧
        u.dev.f.wdF = { s.dev.f.wdF.inReset with paused := false } ∧ u.dev.f.ops = [] ∧ u.dev.f.ft.tm = [] ∧
        u.nv = s.nv ∧ u.pending = s.pending))

/-- A condition that begins (chapter 12): each detector's command makes its source active on its die with the severity in
force the higher of the one before and the one applied, both functions in scope, from now; a source at INFO without a reaction gets
none. What a reaction cannot touch is unchanged. -/
def Obligations.SafetyNetConditionBegins : Prop :=
  ∀ (s : State) (c : Instr) (x : Die) (i t : Nat),
    ((c = .snSourceActive x i true true t ∧ raisedOn x i = true) ∨
      (c = .faultPinMismatch x true t ∧ i = (match x with | .h => Sn.SN_FAULT_PIN_H | .f => Sn.SN_FAULT_PIN_F)) ∨
      (c = .supplyOutOfRange i t ∧ supplyDie i = some x) ∨
      (c = .temperatureThreshold x true true t ∧ i = (match x with | .h => Sn.SYS_TEMP_H_CRIT | .f => Sn.SYS_TEMP_F_CRIT)) ∨
      (c = .temperatureThreshold x false true t ∧ i = (match x with | .h => Sn.SYS_TEMP_H_HIGH | .f => Sn.SYS_TEMP_F_HIGH)) ∨
      (c = .clockLoss i t ∧ clockDie i = some x) ∨
      (c = .lfOscillatorFault true t ∧ x = .f ∧ i = Sn.SYS_LF_OSC) ∨
      (c = .sequencerTrap x t ∧ i = (match x with | .h => Sn.SYS_SEQ_H | .f => Sn.SYS_SEQ_F)) ∨
      (c = .eccError x true t ∧ i = (match x with | .h => Sn.SYS_ECC_H_UNCORR | .f => Sn.SYS_ECC_F_UNCORR)) ∨
      (c = .eccError x false t ∧ i = (match x with | .h => Sn.SYS_ECC_H_CORR | .f => Sn.SYS_ECC_F_CORR))) →
    i < 96 → s.dev.f.ch.rest = none →
    (0 < (s.dev.at t).sevOf x i →
      ∃ u : State, exec c s = .next u ∧
        (u.dev.src x i).force = max (s.dev.src x i).force ((s.dev.at t).sevOf x i) ∧
        (u.dev.src x i).scA = true ∧ (u.dev.src x i).scB = true ∧ (u.dev.src x i).last = max s.dev.now t ∧
        (i ≠ Sn.CHK_PIN → (u.dev.src x i).active = (srcRow i).lasting) ∧
        (s.dev.at t).SameApart u.dev ∧ u.nv = s.nv ∧ u.pending = s.pending) ∧
    ((s.dev.at t).sevOf x i = 0 → (s.dev.src x i).force = 0 →
      ∃ u : State, exec c s = .next u ∧ (u.dev.src x i).force = 0 ∧ (u.dev.src x i).active = (srcRow i).lasting ∧
        (u.dev.src x i).last = max s.dev.now t ∧ (s.dev.at t).SameApart u.dev ∧ u.nv = s.nv ∧ u.pending = s.pending)

/-- A condition that ends, and the recovery after the quiet period (chapter 12): the end keeps the reaction in force and
starts its quiet period, and a rail that had been lost powers its die again; after the quiet period the reaction ends, and the
source's recovery counter counts one once the other die's reaction has ended.
The model's choices in it: log entries 59 and 96. -/
def Obligations.SafetyNetConditionEnds : Prop :=
  ∀ (s : State) (x : Die) (i t : Nat), i < 96 →
    ((∀ c : Instr,
      ((c = .faultPinMismatch x false t ∧ i = (match x with | .h => Sn.SN_FAULT_PIN_H | .f => Sn.SN_FAULT_PIN_F)) ∨
        (c = .supplyReturnInRange i t ∧ supplyDie i = some x ∧ s.dev.h.powered = true ∧ s.dev.f.powered = true) ∨
        (c = .temperatureThreshold x true false t ∧
          i = (match x with | .h => Sn.SYS_TEMP_H_CRIT | .f => Sn.SYS_TEMP_F_CRIT)) ∨
        (c = .clockReturn i t ∧ clockDie i = some x) ∨
        (c = .lfOscillatorFault false t ∧ x = .f ∧ i = Sn.SYS_LF_OSC)) →
      (s.dev.src x i).active = true →
      ∃ u : State, exec c s = .next u ∧
        u.dev.src x i = { s.dev.src x i with active := false, last := max s.dev.now t } ∧
        (s.dev.at t).SameApart u.dev ∧ u.nv = s.nv ∧ u.pending = s.pending) ∧
    (supplyDie i = some x →
      ∃ u : State, exec (.supplyReturnInRange i t) s = .next u ∧
        u.dev.h.powered = (s.dev.h.powered || i == Sn.SYS_VCORE_H) ∧
        u.dev.f.porHeld = (s.dev.f.porHeld || (i == Sn.SYS_VDD_F && !s.dev.f.powered)) ∧ u.dev.f.powered = s.dev.f.powered ∧
        u.nv = s.nv ∧ u.pending = s.pending) ∧
    ((s.dev.src x i).force ≠ 0 → (s.dev.src x i).active = false → i ≠ Sn.SEC_ERASED →
        (s.dev.src x i).last + (s.dev.at t).quietOf x i < (s.dev.at t).quietNow →
      ∃ u : State, exec (.snQuietExpire x i t) s = .next u ∧
        (i ≠ Sn.SN_REC_SAT → (u.dev.src x i).force = 0) ∧
        (x = .h → (s.dev.srcFAtH i).force = 0 → s.dev.fld (Fld.SN_REC_COUNT (i / 2) (i % 2)) + 1 < 0xFFFF →
          u.dev.fld (Fld.SN_REC_COUNT (i / 2) (i % 2)) = s.dev.fld (Fld.SN_REC_COUNT (i / 2) (i % 2)) + 1) ∧
        (s.dev.at t).SameApart u.dev ∧ u.nv = s.nv ∧ u.pending = s.pending))

/-- R46: a die sends each event twice, in consecutive cells with one event number, and the receiver acts on the first good copy and
ignores the second copy of the event that it acted on. While the link is not up an event waits (R265). -/
def Obligations.SafetyNetEventsSentTwice : Prop :=
  (∀ (d : Dev) (x : Die) (i sev : Nat) (active a b : Bool) (c : Cell80), c = (Cell.snEvent (d.bulk x).evNum i sev active a b).wire 0 →
    (d.h.link.up = true → (d.sendEvent x i sev active a b).out = .cell x c :: .cell x c :: d.out ∧
      ((d.sendEvent x i sev active a b).bulk x).evNum = ((d.bulk x).evNum + 1) % 32) ∧
    (d.h.link.up = false → d.sendEvent x i sev active a b =
      d.setBulk x { d.bulk x with evWait := (d.bulk x).evWait ++ [(i, sev, active, a, b)] })) ∧
  (∀ (s : State) (x : Die) (t : Nat) (c : Cell80), s.dev.h.link.up = true →
    (goodEvent c = true →
      ((s.dev.bulk x).evSeen ≠ some (c.seq, c.bits 16 40) →
        exec (.snEvent x c t) s = .next { s with dev :=
          (let d := (s.dev.at t).setBulk x { s.dev.bulk x with
            seen := (s.dev.bulk x).seen + 1, evSeen := some (c.seq, c.bits 16 40) }
          match x with
          | .h => d.eventAtH (c.bits 49 7) (c.bits 47 2) (c.bits 46 1 == 1) (c.bits 44 1 == 1) (c.bits 45 1 == 1)
          | .f => d.eventAtF (c.bits 49 7) (c.bits 47 2) (c.bits 46 1 == 1) (c.bits 44 1 == 1) (c.bits 45 1 == 1)) }) ∧
      ((s.dev.bulk x).evSeen = some (c.seq, c.bits 16 40) →
        exec (.snEvent x c t) s = .next { s with dev :=
          ((s.dev.at t).setBulk x { s.dev.bulk x with seen := (s.dev.bulk x).seen + 1 }) })) ∧
    ((c.hchkGood && c.cchkGood) = false → c.typ = 5 →
      exec (.snEvent x c t) s = .next { s with dev :=
        ((s.dev.at t).setBulk x { s.dev.bulk x with seen := (s.dev.bulk x).seen + 1 }).cellErr x }))

/-- What a received event does (chapter 12): the receiving die holds the other die's source with the severity and scope of
the event until its end. Set-up writes of the Safety Net, whose severities and quiet codes stand from the next cycle, a clear of a
recovery counter, SN_ACK, the end of a FAULT pulse and the comparison with the shadow (chapter 12).
The model's choices in it: log entry 89. -/
def Obligations.SafetyNetEventsAndSetUp : Prop :=
  (∀ (s : State) (x : Die) (i t : Nat) (c : Cell80), s.dev.h.link.up = true → goodEvent c = true → i = c.bits 49 7 →
      (s.dev.bulk x).evSeen ≠ some (c.seq, c.bits 16 40) →
    ∃ u : State, exec (.snEvent x c t) s = .next u ∧
      (c.bits 46 1 = 1 →
        (x = .h → (u.dev.srcFAtH i).force = max (s.dev.srcFAtH i).force (c.bits 47 2) ∧
          (u.dev.srcFAtH i).scA = (c.bits 44 1 == 1) ∧ (u.dev.srcFAtH i).scB = (c.bits 45 1 == 1)) ∧
        (x = .f → (u.dev.srcHAtF i).force = max (s.dev.srcHAtF i).force (c.bits 47 2) ∧
          (u.dev.srcHAtF i).scA = (c.bits 44 1 == 1) ∧ (u.dev.srcHAtF i).scB = (c.bits 45 1 == 1))) ∧
      (c.bits 46 1 = 0 → (x = .h → (u.dev.srcFAtH i).force = 0) ∧ (x = .f → (u.dev.srcHAtF i).force = 0)) ∧
      (s.dev.at t).SameApart u.dev ∧ u.nv = s.nv ∧ u.pending = s.pending) ∧
  (∀ (s : State) (fn : Func) (x : Die) (i t p : Nat) (data : Word),
    ((s.dev.flag Fld.SN_CTRL_LOCK = false → s.dev.hostOpen false = true →
      (i < 6 → sevBad i data = false →
        ∃ u : State, exec (.snSevWrite false i data t) s = .next u ∧ u.dev.rd (Reg.SN_SEV i) = data ∧
          u.dev.snWord .h (Reg.SN_SEV i) = (s.dev.at t).snWord .h (Reg.SN_SEV i) ∧
          u.dev.h.syncPend = true ∧ u.nv = s.nv ∧ u.pending = s.pending) ∧
      (i < 12 → quietBad data = false →
        ∃ u : State, exec (.snQuietWrite false i data t) s = .next u ∧ u.dev.rd (Reg.SN_QUIET i) = data ∧
          u.dev.snWord .h (Reg.SN_QUIET i) = (s.dev.at t).snWord .h (Reg.SN_QUIET i) ∧
          u.dev.h.syncPend = true ∧ (∀ k, k ≠ Reg.SN_QUIET i → u.dev.rd k = s.dev.rd k) ∧ u.dev.f.sn = s.dev.f.sn ∧
          u.dev.h.sn = s.dev.h.sn ∧ u.nv = s.nv ∧ u.pending = s.pending)) ∧
    (i < 96 → bitOf data.toNat 7 = false → bitsOf data.toNat 0 7 = i → s.dev.hostOpen false = true →
      ∃ u : State, exec (.snRecClr false data t) s = .next u ∧
        u.dev.fld (Fld.SN_REC_COUNT (i / 2) (i % 2)) =
          (if Tab.get (fun _ => 0) s.dev.h.recAt i = max s.dev.now t + 1 then 1 else 0) ∧
        u.dev.fld ⟨Reg.SN_REC_SAT (i / 32), i % 32, 1⟩ = 0 ∧
        (∀ k, k ≠ Reg.SN_REC (i / 2) → k ≠ Reg.SN_REC_SAT (i / 32) → u.dev.rd k = s.dev.rd k) ∧
        u.dev.f.sn = s.dev.f.sn ∧ u.dev.h.sn = s.dev.h.sn ∧ u.nv = s.nv ∧ u.pending = s.pending) ∧
    (s.dev.hostOpen fn = true →
      ∃ u : State, exec (.snAckWrite fn data t) s = .next u ∧
        (bitsOf data.toNat 0 2 ≠ 3 → u.dev.fld (Fld.SN_ACK_H_MODE.of fn) = bitsOf data.toNat 0 2) ∧
        (bitsOf data.toNat 0 2 = 3 → u.dev.fld (Fld.SN_ACK_H_MODE.of fn) = s.dev.fld (Fld.SN_ACK_H_MODE.of fn)) ∧
        (bitsOf data.toNat 2 2 ≠ 3 → u.dev.fld (Fld.SN_ACK_F_MODE.of fn) = bitsOf data.toNat 2 2) ∧
        (∀ k, k ≠ keyOf fn Reg.SN_ACK → u.dev.rd k = s.dev.rd k) ∧ u.nv = s.nv ∧ u.pending = s.pending) ∧
    ((match x with | .h => s.dev.h.pulse | .f => s.dev.f.pulse) = some p → p + 8000 ≤ max s.dev.now t →
      exec (.faultPulseEnd x t) s = .next { s with dev := (match x with
        | .h => { s.dev.at t with h.pulse := none }
        | .f => { s.dev.at t with f.pulse := none }) }) ∧
    (s.dev.h.cmpAt < (s.dev.at t).comparePoint →
      (s.dev.h.dev ≠ .boot → s.dev.h.dev ≠ .off → s.dev.h.link.up = true → s.dev.h.syncPend = false → s.dev.h.fReset = false →
          s.dev.shadowSame = false →
        exec (.shadowCompare t) s = .next { s with dev :=
          ({ s.dev.at t with h.cmpAt := (s.dev.at t).comparePoint }).raiseBoth .h Sn.SN_SHADOW }) ∧
      (s.dev.shadowSame = true →
        exec (.shadowCompare t) s = .next { s with dev := { s.dev.at t with h.cmpAt := (s.dev.at t).comparePoint } })) ∧
    ((s.dev.at t).comparePoint ≤ s.dev.h.cmpAt → exec (.shadowCompare t) s = .next { s with dev := s.dev.at t })))

/-- Rest entry (chapter 13). REST_ENTER that no cause refuses, and the idle policy when its time has come, begin the entry: the entry
stands, the two-wire queue is emptied and the device state stays. At the exchange, once the words and transfers in progress have ended
and the operations that must end are complete, the channels take their Rest values, the watch is disarmed, the link stops, the watchdogs
pause, the PCIe link takes the deepest enabled state and the device is in REST. A REST cell disarms the watch and stops the link.
The model's choices in it: the whole exchange is one step, log entry 60. -/
def Obligations.RestEntryCompletes : Prop :=
  ∀ (s : State) (tag t : Nat) (o : Op) (e : RestEntry) (c : Cell80),
    ((s.dev.mgmtOp tag cmdREST_ENTER = some o → s.dev.restRefused = false →
      ∃ u : State, exec (.restEnter tag t) s = .next u ∧ u.dev.h.restEntry = some ⟨some tag⟩ ∧ u.dev.f.twp.queue = [] ∧
        u.dev.h.dev = s.dev.h.dev ∧ u.dev.f.ch.rest = s.dev.f.ch.rest ∧ u.nv = s.nv ∧ u.pending = s.pending) ∧
    (s.dev.brk Fld.BRK_CTRL_IDLE_EN = 1 → s.dev.restRefused = false →
        (∀ p ∈ s.dev.f.sn, p.2.force = 0) → (∀ p ∈ s.dev.f.snH, p.2.force = 0) →
        max s.dev.f.brk.idleFrom (lastMove s.dev.f.car.hist) + s.dev.brk Fld.BRK_IDLE_IDLE_S * 800000000 ≤ max s.dev.now t →
      ∃ u : State, exec (.idleTimeout t) s = .next u ∧ u.dev.h.restEntry = some ⟨none⟩ ∧ u.dev.f.twp.queue = [] ∧
        u.dev.h.dev = s.dev.h.dev ∧ u.nv = s.nv ∧ u.pending = s.pending) ∧
    (s.dev.h.restEntry = some e → s.dev.h.dev = .run → s.dev.f.fsp.inWord = false → s.dev.f.fsp.serving = none →
        s.dev.f.twp.cur = none → s.dev.restOpen = false → (s.dev.h.link.up = true ∨ s.dev.h.link.stopped = true) →
        (∀ p ∈ s.dev.f.sn, p.2.force < 2) → (∀ p ∈ s.dev.f.snH, p.2.force < 2) → (∀ k, (s.dev.at t).wdDue k = false) →
      ∃ u : State, exec (.restExchange t) s = .next u ∧ u.dev.h.dev = .rest ∧ u.dev.h.restEntry = none ∧
        u.dev.h.pm = s.dev.h.pciA.deepest ∧
        u.dev.f.ch.rest = some s.dev.f.ch.restLevels ∧ u.dev.f.watch.lastCommit = none ∧ u.dev.h.link.up = false ∧
        u.dev.h.wdA.paused = true ∧ u.dev.h.wdB.paused = true ∧ u.dev.f.wdF.paused = true ∧
        u.nv = s.nv ∧ u.pending = s.pending) ∧
    ((s.dev.h.restEntry.isSome = true ∨ s.dev.f.ch.rest.isSome = true) → s.dev.h.link.up = true → goodLink c 0x06 = true →
      (c.bits 55 1 = 1 →
        exec (.restCellReceive .f c t) s = .next { s with dev := (((s.dev.at t).cellSeen .f).watchDisarm).linkStop }) ∧
      (c.bits 55 1 = 0 → exec (.restCellReceive .h c t) s = .next { s with dev := ((s.dev.at t).cellSeen .h).linkStop })))

/-- Wake (chapter 13): in REST an event of Table BRK-2 is recorded, the first sets the instant of the wake, and the die that recognises
it begins to wake; the beacon wakes the other die; a late commit is reported; and the two-wire address recogniser is such an event.
The model's choices in it: log entry 62. -/
def Obligations.WakeEventsComplete : Prop :=
  ∀ (s : State) (x : Die) (src w t : Nat),
    ((s.dev.f.ch.rest.isSome = true → src < 4 →
      ∃ u : State, exec (.wakeEvent src t) s = .next u ∧ bitOf (u.dev.fld Fld.BRK_WAKE_SRC) src = true ∧
        u.dev.f.brk.wakeAt = some (s.dev.f.brk.wakeAt.getD (max s.dev.now t)) ∧
        (if src = 1 then u.dev.f.brk.awakeH else u.dev.f.brk.awakeF) = true ∧
        (s.dev.at t).SameApart u.dev ∧ u.nv = s.nv ∧ u.pending = s.pending) ∧
    (s.dev.f.brk.wakeAt.isSome = true →
      ∃ u : State, exec (.wakeBeacon x t) s = .next u ∧
        (match x with | .h => u.dev.f.brk.awakeH | .f => u.dev.f.brk.awakeF) = true ∧
        (s.dev.at t).SameApart u.dev ∧ u.nv = s.nv ∧ u.pending = s.pending) ∧
    (s.dev.f.brk.wakeAt = some w → s.dev.f.ch.rest.isSome = true → s.dev.f.brk.late = false → w + 144000 < max s.dev.now t →
      ∃ u : State, exec (.wakeLate t) s = .next u ∧ u.dev.f.brk.late = true ∧
        (u.dev.src .f Sn.SYS_WAKE_LATE).last = max s.dev.now t ∧
        (s.dev.at t).SameApart u.dev ∧ u.nv = s.nv ∧ u.pending = s.pending) ∧
    (s.dev.f.ch.rest.isSome = true → s.dev.flag Fld.TWP_TGT_CFG_TGT_EN = true → s.dev.flag Fld.TWP_TGT_CFG_WAKE_EN = true →
      ∃ u : State, exec (.twpWakeMatch t) s = .next u ∧ u.dev.fld Fld.TWP_STATUS_WAKE_MATCH = 1 ∧
        bitOf (u.dev.fld Fld.BRK_WAKE_SRC) 2 = true ∧ u.dev.f.brk.awakeF = true ∧ u.nv = s.nv ∧ u.pending = s.pending))

/-- A Barker sample (chapter 13): with the Barker enabled, at a sample's LF tick every input's filtered level is the outcome of its vote,
and outside REST only the Barker's own state moves; at another time nothing is sampled.
The model's choices in it: log entries 61 and 88. -/
def Obligations.BarkerSampleVotes : Prop :=
  ∀ (s : State) (lv : BitVec 19) (t : Nat), s.dev.f.powered = true → s.dev.brk Fld.BRK_CTRL_EN = 1 →
    ((s.dev.at t).sampleTick = false → exec (.barkerSample lv false t) s = .next { s with dev := s.dev.at t }) ∧
    ((s.dev.at t).sampleTick = true → ∃ u : State, exec (.barkerSample lv false t) s = .next u ∧
      (∀ k, k < 19 → bitOf (u.dev.fld Fld.BRK_STATUS_LEVEL) k =
        (s.dev.sampleInput k lv false (bitOf (s.dev.fld Fld.BRK_STATUS_LEVEL) k)).2) ∧
      (∀ k, k < 19 → Tab.get (fun _ => []) u.dev.f.brk.hist k =
        (s.dev.sampleInput k lv false (bitOf (s.dev.fld Fld.BRK_STATUS_LEVEL) k)).1) ∧
      (∀ k, k ≠ Reg.BRK_STATUS → k ≠ Reg.BRK_TRAVEL → k ≠ Reg.BRK_WAKE → u.dev.rd k = s.dev.rd k) ∧
      (s.dev.f.ch.rest = none → u.dev.h = s.dev.h ∧ u.dev.out = s.dev.out ∧ u.dev.f.ops = s.dev.f.ops ∧ u.dev.f.sn = s.dev.f.sn) ∧
      u.dev.f.ch = s.dev.f.ch ∧ u.dev.f.car = s.dev.f.car ∧ u.nv = s.nv ∧ u.pending = s.pending)

/-- Storage (chapter 14): a body command that no cause of its table refuses joins the storage queue with its record, CAL_WRITE clearing
its permission; one that a cause refuses queues nothing and leaves the cause in NVS_LAST.
The model's choices in it: SCHEMA 0 of a calibration record and the use of OVERWRITE_EN, log entry 65. -/
def Obligations.RecordWritesQueueAndStart : Prop :=
  ∀ (s : State) (tag t : Nat) (o : Op) (b : List Quad) (cal : Bool), s.dev.body tag = some b →
    s.dev.mgmtOp tag (if cal then cmdCAL_WRITE else cmdSETTINGS_COMMIT) = some o →
    ((s.bodyCause cal o.desc b = 0 →
      exec (if cal then .calWrite tag t else .settingsCommit tag t) s = .next { s with dev :=
        (((if cal then (((s.dev.at t).taken tag).dropBody tag).setFld Fld.CAL_CTRL_OVERWRITE_EN 0
          else ((s.dev.at t).taken tag).dropBody tag)).queueJob
          ⟨if cal then .calibration else .settings, some tag,
            some ⟨if cal then .calibration else .settings, 0, (o.desc.bodyLen + 52 + 4095) / 4096, 0, o.desc.bodyProfile,
              if cal then 0 else o.desc.bodySchema, if cal then 1 else 0, b.take (o.desc.bodyLen / 8), none, s.dev.recGen,
              erasedWord, erasedWord, false, []⟩, [], [], 0, false⟩) }) ∧
    (s.bodyCause cal o.desc b ≠ 0 →
      ∃ u : State, exec (if cal then .calWrite tag t else .settingsCommit tag t) s = .next u ∧
        u.dev.fld Fld.NVS_LAST_CAUSE = s.bodyCause cal o.desc b ∧ u.dev.fld Fld.NVS_LAST_TYPE = (if cal then 2 else 1) ∧
        (cal = true → u.dev.fld Fld.CAL_CTRL_OVERWRITE_EN = 0) ∧ u.dev.body tag = none ∧
        u.dev.h.jobs = s.dev.h.jobs ∧ u.dev.h.job = s.dev.h.job ∧ u.dev.f.ch = s.dev.f.ch ∧
        u.nv = s.nv ∧ u.pending = s.pending))

/-- The storage queue executes one write at a time (chapter 14): the write in front starts when none is in progress, with the next SEQ of
its area, and its operations program every page of the record and then its commit. Each operation that verifies has its effect on the
flash; the first failure of an operation repeats it; and a settings record whose commit verifies is committed, its command complete and
NVS_LAST 0. A chunk whose operations have ended counts as staged.
The model's choices in it: where a record goes and what a second failure does, log entry 63. -/
def Obligations.RecordWritesRunTheirOperations : Prop :=
  ∀ (s : State) (t : Nat) (j : Job),
    ((∀ (rest : List Job) (r : Rec), s.dev.h.job = none → s.dev.h.jobs = j :: rest → s.dev.flashBad = false →
        j.record = some r →
      ∃ (u : State) (k : Job) (x : Rec), exec (.recordWriteStart t) s = .next u ∧
        u.dev.h.jobs = rest ∧ u.dev.h.job = some k ∧ k.kind = j.kind ∧ k.tag = j.tag ∧ k.record = some x ∧
        x.area = r.area ∧ x.body = r.body ∧ x.committed = false ∧
        x.seq = (match s.nv.current s.dev.h.sec r.area with | some c => c.seq + 1 | none => 1) ∧
        (∀ p, p < x.pages → .page x p ∈ k.steps) ∧ .commit x.area x.seq ∈ k.steps ∧
        u.dev.f = s.dev.f ∧ u.dev.h.regs = s.dev.h.regs ∧ u.nv = s.nv ∧ u.pending = s.pending) ∧
    (∀ (st : FlashStep) (l : List FlashStep), s.dev.h.job = some j → j.steps = st :: l →
      ((l ≠ [] → (∀ a q, st ≠ .commit a q) →
        ∃ u : State, exec (.flashOpComplete true t) s = .next u ∧ u.nv = s.nv.apply st ∧
          u.dev.h.job = some { j with steps := l, tries := 0 } ∧ u.dev.h.jobs = s.dev.h.jobs ∧
          u.pending = s.pending) ∧
      (j.tries = 0 →
        ∃ u : State, exec (.flashOpComplete false t) s = .next u ∧ u.nv = s.nv.fails st ∧
          u.dev.h.job = some { j with tries := 1 } ∧ u.dev.h.jobs = s.dev.h.jobs ∧ u.pending = s.pending))) ∧
    (∀ (q : Nat) (r : Rec), s.dev.h.job = some j → j.kind = .settings → j.abandoned = false → j.steps = [.commit .settings q] →
        j.record = some r → r.seq = q → s.dev.h.dev ≠ .settingsHold → (∀ p ∈ s.nv.wear, p.2 < 80000) →
      ∃ u : State, exec (.flashOpComplete true t) s = .next u ∧
        u.nv = { s.nv with recs := s.nv.recs.map (fun x =>
          if x.area == .settings && x.seq == q && !x.retired then { x with commit := programWord x.commit commitWord } else x) } ∧
        (programWord erasedWord commitWord).normal = commitWord ∧
        u.dev.h.job = none ∧ u.dev.fld Fld.NVS_LAST_CAUSE = 0 ∧ u.dev.fld Fld.NVS_LAST_TYPE = 1 ∧
        (∀ g x, j.tag = some g → s.dev.op g = some x → x.halted = false → u.dev.op g = none) ∧ u.pending = s.pending) ∧
    (∀ (slot : Bool) (k : Nat), s.dev.h.job = some j → j.kind = .chunk slot k → j.steps = [] → j.abandoned = false →
      ∃ u : State, exec (.chunkComplete t) s = .next u ∧ u.dev.h.job = none ∧
        u.dev.h.stg = { s.dev.h.stg with staged := keyIn s.dev.h.stg.staged k } ∧ u.dev.flag Fld.FW_STATUS_BUSY = false ∧
        u.dev.flag Fld.FW_STATUS_CHUNK_OK = true ∧ u.dev.fld Fld.FW_STATUS_CAUSE = 0 ∧ u.nv = s.nv ∧ u.pending = s.pending))

/-- Staging (chapter 15): OPEN empties the target slot's header region and opens the session, CLOSE ends it; the window takes data; chunk 0
is kept and another chunk's programming joins the storage queue.
The model's choices in it: OPEN acts at once, log entry 67. -/
def Obligations.StagingTakesChunks : Prop :=
  ∀ (s : State) (data : Word) (off t : Nat), s.dev.stagingOpen = true → s.dev.barOpen false = true →
      s.dev.f.ch.rest = none →
    ((s.dev.flag Fld.FW_STATUS_STAGE_OPEN = false → s.dev.flashBad = false →
        (s.dev.flag Fld.FW_STATUS_RECOVERY = true ∨ bitOf data.toNat 2 ≠ s.dev.runSlot) →
      ∃ u : State, exec (.fwStageOpen false data t) s = .next u ∧ u.dev.flag Fld.FW_STATUS_STAGE_OPEN = true ∧
        u.dev.fld Fld.FW_STATUS_STAGE_SLOT = b2n (bitOf data.toNat 2) ∧ u.dev.h.stg = ⟨none, []⟩ ∧
        u.nv.recs = s.nv.recs.filter (fun r => r.area != slotArea (bitOf data.toNat 2)) ∧
        u.nv.img = s.nv.img ∧ u.pending = s.pending) ∧
    (∃ u : State, exec (.fwStageClose false data t) s = .next u ∧ u.dev.flag Fld.FW_STATUS_STAGE_OPEN = false ∧
      u.dev.h.stg = ⟨none, []⟩ ∧ (∀ k, k ≠ Reg.FW_STATUS → u.dev.rd k = s.dev.rd k) ∧ u.dev.f = s.dev.f ∧
      u.dev.h.jobs = s.dev.h.jobs ∧ u.nv = s.nv ∧ u.pending = s.pending) ∧
    (0x8000 ≤ off → off < 0xC000 → off % 4 = 0 →
      ((s.dev.flag Fld.FW_STATUS_BUSY = false →
        ∃ u : State, exec (.fwStageWinWrite false off data) s = .next u ∧ u.dev.rd off = data ∧
          (∀ k, k ≠ off → u.dev.rd k = s.dev.rd k) ∧ u.dev.f = s.dev.f ∧ u.dev.h.stg = s.dev.h.stg ∧
          u.nv = s.nv ∧ u.pending = s.pending) ∧
      (s.dev.flag Fld.FW_STATUS_BUSY = true →
        exec (.fwStageWinWrite false off data) s = .next { s with dev := s.dev.setFld Fld.FW_STATUS_WIN_BUSY 1 }))) ∧
    (s.dev.flag Fld.FW_STATUS_BUSY = false → s.dev.flag Fld.FW_STATUS_STAGE_OPEN = true →
        crc32c (bytesOfQuads (quadsOfWords s.dev.window)) = s.dev.rd Reg.FW_STAGE_CRC → bitsOf data.toNat 0 7 ≤ 92 →
      ((bitsOf data.toNat 0 7 = 0 →
        ∃ u : State, exec (.fwStageChunk false data t) s = .next u ∧ u.dev.h.stg.chunk0 = some s.dev.window ∧
          u.dev.flag Fld.FW_STATUS_CHUNK_OK = true ∧ u.dev.fld Fld.FW_STATUS_CAUSE = 0 ∧ u.dev.h.jobs = s.dev.h.jobs ∧
          u.nv = s.nv ∧ u.pending = s.pending) ∧
      (bitsOf data.toNat 0 7 ≠ 0 → s.dev.flashBad = false →
        ∃ u : State, exec (.fwStageChunk false data t) s = .next u ∧ u.dev.flag Fld.FW_STATUS_BUSY = true ∧
          u.dev.h.jobs = s.dev.h.jobs ++ [⟨.chunk (s.dev.flag Fld.FW_STATUS_STAGE_SLOT) (bitsOf data.toNat 0 7), none, none, [],
            chunkPlan (s.dev.flag Fld.FW_STATUS_STAGE_SLOT) (bitsOf data.toNat 0 7) s.dev.window, 0, false⟩] ∧
          u.dev.h.stg = s.dev.h.stg ∧ u.nv = s.nv ∧ u.pending = s.pending))))

/-- Installation (chapter 15): FW_INSTALL, FW_FALLBACK and ROM_INSTALL that no cause of the table refuses queue the slot's new header with an
ACT_GEN above that of the slot it replaces as the choice; FW_INSTALL and FW_FALLBACK that one refuses queue nothing.
The model's choices in it: the checks' results are operands, log entry 15, and the generation of ROM_INSTALL is the model's choice, log
entry 68. -/
def Obligations.InstallationsQueueAHeader : Prop :=
  ∀ (s : State) (tag t : Nat) (o : Op) (chk : SlotCheck) (h : Rec) (data : Word),
    ((s.dev.mgmtOp tag cmdFW_INSTALL = some o →
      ((s.installCause o.desc chk = 0 →
        exec (.fwInstall tag chk t) s = .next { s with dev :=
          (((s.dev.at t).taken tag).queueJob
          ⟨.install o.desc.slot o.desc.restart, some tag,
            some (s.headerRec o.desc.slot s.dev.stagedManifest (s.actGen s.dev.runSlot + 1)), [], [], 0, false⟩) }) ∧
      (s.installCause o.desc chk ≠ 0 →
        ∃ u : State, exec (.fwInstall tag chk t) s = .next u ∧ u.dev.h.jobs = s.dev.h.jobs ∧
          u.dev.flag Fld.FW_STATUS_STAGE_OPEN = false ∧ u.dev.h.stg = ⟨none, []⟩ ∧ u.nv = s.nv ∧ u.pending = s.pending))) ∧
    (s.dev.mgmtOp tag cmdFW_FALLBACK = some o →
      ((s.fallbackCause chk = 0 → s.header (!s.dev.runSlot) = some h →
        exec (.fwFallback tag chk t) s = .next { s with dev :=
          (((s.dev.at t).taken tag).queueJob
          ⟨.fallback, some tag, some (s.headerRec (!s.dev.runSlot) h.body (s.actGen s.dev.runSlot + 1)), [], [], 0, false⟩) }) ∧
      (s.fallbackCause chk ≠ 0 →
        ∃ u : State, exec (.fwFallback tag chk t) s = .next u ∧ u.dev.h.jobs = s.dev.h.jobs ∧
          u.dev.h.stg = s.dev.h.stg ∧ u.nv = s.nv ∧ u.pending = s.pending))) ∧
    (s.dev.flag Fld.FW_STATUS_RECOVERY = true → s.dev.h.dev = .boot → s.dev.barOpen false = true → s.dev.f.ch.rest = none →
        s.dev.flashBad = false →
        s.stagedCause (s.dev.flag Fld.FW_STATUS_STAGE_SLOT) (s.dev.fld Fld.FW_STAGE_CHUNK_INDEX) chk = 0 →
      exec (.romInstall false data chk t) s = .next { s with dev :=
        ((s.dev.at t).queueJob
        ⟨.romInstall (s.dev.flag Fld.FW_STATUS_STAGE_SLOT), none,
          some (s.headerRec (s.dev.flag Fld.FW_STATUS_STAGE_SLOT) s.dev.stagedManifest
            (s.actGen (!s.dev.flag Fld.FW_STATUS_STAGE_SLOT) + 1)), [], [], 0, false⟩) }))

/-- Fuses (chapter 16): an advance of the lifecycle takes its word and then the complement, an advance of the minimum security version its
number; each is programmed and counts when the programming verifies, and a failed one changes no fuse; both report on V3.
The model's choices in it: log entries 70 and 91. -/
def Obligations.FuseAdvances : Prop :=
  ∀ (s : State) (data : Word) (t : Nat),
    ((s.dev.hostOpen false = true → (s.dev.h.dev = .run ∨ s.dev.h.dev = .safe ∨ s.dev.h.dev = .settingsHold) → s.dev.inForce Sn.SEC_LOCKED = 0 →
        s.nv.lifecycle ≠ .manufacture → s.dev.h.sec.lcProg = none →
      ((∀ l, s.dev.h.sec.lcFirst = none → lcTarget data = some l → s.nv.lifecycle.code < l.code →
          (s.dev.h.sec.keyed = true ∨ l = .retired) →
        exec (.secLcAdv false data t) s = .next { s with dev :=
          { s.dev.at t with h := { s.dev.h with sec := { s.dev.h.sec with lcFirst := some data } } } }) ∧
      (∀ w, s.dev.h.sec.lcFirst = some w → data = ~~~w →
        exec (.secLcAdv false data t) s = .next { s with dev :=
          { s.dev.at t with h := { s.dev.h with sec := { s.dev.h.sec with lcFirst := none, lcProg := lcTarget w } } } }))) ∧
    (∀ r, s.dev.hostOpen false = true → s.dev.h.dev = .run → s.dev.inForce Sn.SEC_LOCKED = 0 → s.dev.h.sec.svnProg = none → s.running = some r →
        s.nv.svnMin < bitsOf data.toNat 0 7 → bitsOf data.toNat 0 7 ≤ 64 → bitsOf data.toNat 0 7 ≤ mfSvn r.body →
      exec (.secSvnAdv false data t) s = .next { s with dev :=
        { s.dev.at t with h := { s.dev.h with sec := { s.dev.h.sec with svnProg := some (bitsOf data.toNat 0 7) } } } }) ∧
    (∀ l, s.dev.h.sec.lcProg = some l →
      ((s.nv.lifecycle.code < l.code →
        ∃ u : State, exec (.fuseProgramComplete true true t) s = .next u ∧ u.nv = { s.nv with lifecycle := l } ∧
          u.dev.h.sec.lcProg = none ∧ (l = .retired → u.dev.h.sec.keyed = false ∧ u.dev.h.boot.restart = true) ∧
          u.pending = s.pending) ∧
      exec (.fuseProgramComplete true false t) s = .next { s with dev :=
        ({ s.dev.at t with h := { s.dev.h with sec := { s.dev.h.sec with lcProg := none } } }).v3 })) ∧
    (∀ n, s.dev.h.sec.svnProg = some n →
      exec (.fuseProgramComplete false true t) s = .next { s with
        dev := ({ s.dev.at t with h := { s.dev.h with sec := { s.dev.h.sec with svnProg := none } } }).v3
        nv := { s.nv with svnMin := max s.nv.svnMin n } } ∧
      exec (.fuseProgramComplete false false t) s = .next { s with dev :=
        ({ s.dev.at t with h := { s.dev.h with sec := { s.dev.h.sec with svnProg := none } } }).v3 }))

/-- Tamper sources (chapter 16): each source that fires is logged; under LOCK or ERASE the device is locked; under ERASE the keys leave
secure RAM, the secure fuses are blocked and a firmware restart is due. Nonvolatile contents stay.
The model's choices in it: log entry 70. -/
def Obligations.TamperPolicies : Prop :=
  ∀ (s : State) (h f now t k : Nat), s.dev.h.dev ≠ .off → k < 6 → (bitOf h k = true ∨ (s.dev.f.powered = true ∧ k ≠ 0 ∧ bitOf f k = true)) →
    ∃ u : State, exec (.tamperFire h f now t) s = .next u ∧
      bitOf (u.dev.fld Fld.SEC_TAMPER_STATUS_SEEN) k = true ∧
      (1 ≤ s.dev.pol k → u.dev.h.sec.locked = true) ∧
      (2 ≤ s.dev.pol k → u.dev.h.sec.keyed = false ∧ u.dev.h.sec.index = none ∧ u.dev.h.sec.blocked = true ∧
        u.dev.h.boot.restart = true ∧ u.dev.h.mir.session = none) ∧
      u.nv = s.nv ∧ u.pending = s.pending

/-- Owner commands (chapter 16): OWNER_ENROL and REKEY that no cause refuses replace the nonce and queue the KEY_INDEX record with the new
owner hash, or with the new Mirror or Record Key generation; one that a cause refuses replaces the nonce and leaves the cause.
The model's choices in it: the nonce is a free value, log entry 5, and a rekey of both keys writes KEY_INDEX twice, log entry 69. -/
def Obligations.OwnerCommands : Prop :=
  ∀ (s : State) (tag t : Nat) (o : Op) (b : List Quad) (chk : OwnerCheck), s.dev.ownerState = true → s.dev.body tag = some b →
    ((s.dev.mgmtOp tag cmdOWNER_ENROL = some o →
      ((∀ x, s.enrolCause o.desc b chk = 0 → s.dev.h.sec.index = some x →
        exec (.ownerEnrol tag chk t) s = .next { s with dev :=
          (((((s.dev.at t).taken tag).dropBody tag).newNonce).queueJob
            ⟨.enrol (s.verifiesUnder (!s.dev.runSlot) (zeros b 3 13) chk.other), some tag,
              some (s.dev.indexRec { x with owner := if zeros b 3 13 then 0 else chk.hash }), [], [], 0, false⟩) }) ∧
      (s.enrolCause o.desc b chk ≠ 0 →
        ∃ u : State, exec (.ownerEnrol tag chk t) s = .next u ∧
          u.dev.fld Fld.SEC_STATUS_CAUSE = s.enrolCause o.desc b chk ∧ u.dev.nonce = Config.freeValue s.dev.freeCtr ∧
          u.dev.h.jobs = s.dev.h.jobs ∧ u.dev.h.sec = s.dev.h.sec ∧ u.nv = s.nv ∧ u.pending = s.pending))) ∧
    (s.dev.mgmtOp tag cmdREKEY = some o → (s.dev.h.dev = .standby → bitOf (wordAt b 0x18) 0 = false) →
      ((∀ x, s.rekeyCause o.desc b chk = 0 → wordAt b 0x18 ≠ 0 → s.dev.h.sec.index = some x →
        exec (.rekey tag chk t) s = .next { s with dev :=
          (((((s.dev.at t).taken tag).dropBody tag).newNonce).queueJob
            ⟨.rekey (wordAt b 0x18), some tag,
              some (s.dev.indexRec (if bitOf (wordAt b 0x18) 1
                then { x with mirGen := wordAt b 0x1C, kcv := chk.kcv % 2 ^ 24 }
                else { x with trans := true, recGen := x.recGen + 1 })),
              if wordAt b 0x18 = 3 then [1] else [], [], 0, false⟩) }) ∧
      (∀ x, s.rekeyCause o.desc b chk = 0 → wordAt b 0x18 = 0 → s.dev.h.sec.index = some x →
        ∃ u : State, exec (.rekey tag chk t) s = .next u ∧ u.dev.nonce = Config.freeValue s.dev.freeCtr ∧
          u.dev.h.jobs = s.dev.h.jobs ∧ u.dev.h.sec = s.dev.h.sec ∧ u.nv = s.nv ∧ u.pending = s.pending) ∧
      (s.rekeyCause o.desc b chk ≠ 0 →
        ∃ u : State, exec (.rekey tag chk t) s = .next u ∧
          u.dev.fld Fld.SEC_STATUS_CAUSE = s.rekeyCause o.desc b chk ∧ u.dev.nonce = Config.freeValue s.dev.freeCtr ∧
          u.dev.h.jobs = s.dev.h.jobs ∧ u.dev.h.sec = s.dev.h.sec ∧ u.nv = s.nv ∧ u.pending = s.pending))))

/-- Mirror sessions (chapter 17): a port that may form a session sends its HELLO; a good HELLO opens the session, and an ACTIVE device that
meets an ACTIVE partner of a higher epoch gives way; STATUS goes out and comes in with the session's counters; a session that hears
nothing for 1 ms, or loses alignment, ends.
The model's choices in it: the layout of sent frames, log entry 71, and log entry 72. -/
def Obligations.MirrorSessions : Prop :=
  ∀ (s : State) (t epoch : Nat) (x : HelloFrame) (hd : FrameHead) (m : Session) (aligned : Bool),
    ((s.dev.mirOn = true → s.dev.h.mir.session = none →
      ∃ u : State, exec (.mirSessionStart t) s = .next u ∧ u.dev.h.mir.hello = some (Config.freeValue s.dev.freeCtr) ∧
        u.dev.h.mir.session = none ∧ u.dev.h.regs = s.dev.h.regs ∧ u.dev.f = s.dev.f ∧
        u.dev.out = .mirror 1 s.dev.role s.dev.h.dev.code 0 0 [s.nv.serial, Config.freeValue s.dev.freeCtr,
          Config.freeValue (s.dev.freeCtr + 1), BitVec.ofNat 64 s.dev.profile, BitVec.ofNat 64 s.dev.mirKcv,
          BitVec.ofNat 64 s.dev.epoch] :: s.dev.out ∧
        u.nv = s.nv ∧ u.pending = s.pending) ∧
    (s.dev.mirOn = true → s.dev.h.mir.hello.isSome = true → s.dev.h.mir.session = none → x.auth = true → x.kcv = s.dev.mirKcv →
        profileOk x.profile = true →
      ∃ u : State, exec (.hello x t) s = .next u ∧
        u.dev.h.mir.session = some ⟨decide (s.nv.serial.toNat < x.serial.toNat), 0, 0, x.epoch⟩ ∧
        u.dev.flag Fld.MIR_STATUS_LINK_UP = true ∧ u.dev.fld Fld.MIR_STATUS_PARTNER_ROLE = x.role % 4 ∧
        (u.dev.src .h Sn.MIR_LINK_DOWN).active = false ∧
        (s.dev.role = roleACTIVE → x.role = roleACTIVE → s.dev.epoch < x.epoch →
          u.dev.role = roleRELINQUISHED ∧ (u.dev.src .h Sn.MIR_DUAL_ACTIVE).active = true) ∧
        (s.dev.role = roleACTIVE → x.role = roleACTIVE → s.dev.epoch = x.epoch →
          u.dev.role = roleACTIVE ∧ (u.dev.src .h Sn.MIR_DUAL_ACTIVE).active = true) ∧
        u.nv = s.nv ∧ u.pending = s.pending) ∧
    (s.dev.h.mir.session = some m →
      ((∃ (u : State) (body : List Quad), exec (.mirStatusSend t) s = .next u ∧
        u.dev.out = .mirror 2 s.dev.role s.dev.h.dev.code 0 m.tx body :: s.dev.out ∧
        u.dev.h.mir = { s.dev.h.mir with statusAt := max s.dev.now t, session := some { m with tx := m.tx + 1 } } ∧
        u.dev.h.regs = s.dev.h.regs ∧ u.dev.f = s.dev.f ∧ u.nv = s.nv ∧ u.pending = s.pending) ∧
      (hd.auth = true → m.rx ≤ hd.counter →
        ∃ u : State, exec (.mirStatus hd epoch t) s = .next u ∧
          u.dev.h.mir.session = some { m with rx := hd.counter + 1 } ∧ u.dev.h.mir.lastRx = max s.dev.now t ∧
          u.dev.fld Fld.MIR_STATUS_PARTNER_ROLE = hd.role % 4 ∧ u.dev.fld Fld.MIR_STATUS_PARTNER_STATE = hd.state % 16 ∧
          (s.dev.role = roleACTIVE → hd.role = roleACTIVE → s.dev.h.mir.take = none →
            (u.dev.src .h Sn.MIR_DUAL_ACTIVE).active = true) ∧
          (s.dev.role = roleACTIVE → hd.role ≠ roleACTIVE → (u.dev.src .h Sn.MIR_DUAL_ACTIVE).active = false) ∧
          u.nv = s.nv ∧ u.pending = s.pending) ∧
      ((aligned = false ∨ s.dev.h.mir.lastRx + msCycles ≤ max s.dev.now t) →
        ∃ u : State, exec (.mirLinkTimeout aligned t) s = .next u ∧ u.dev.h.mir.session = none ∧ u.dev.h.mir.rx = none ∧
          u.dev.flag Fld.MIR_STATUS_LINK_UP = false ∧ u.dev.h.mir.snap = s.dev.h.mir.snap ∧
          (u.dev.src .h Sn.MIR_LINK_DOWN).active = true ∧ u.nv = s.nv ∧ u.pending = s.pending))))

/-- The snapshot stream (chapter 17): a capture that is due sends HEAD, nine segments and COMMIT under a higher epoch; the standby begins
a buffer at HEAD, latches its count for it, collects the segments, and commits a complete snapshot of a higher epoch; a frame late by
1 ms discards the buffer, and nothing committed for three periods is reported; a committed snapshot is queued for flash.
The model's choices in it: log entry 73. -/
def Obligations.MirrorSnapshots : Prop :=
  ∀ (s : State) (t : Nat) (hd : FrameHead) (m : Session) (r : MirRx),
    (((s.dev.at t).captureDue = true → s.dev.h.mir.session = some m →
      ∃ u : State, exec (.mirSnapshotCapture t) s = .next u ∧ u.dev.epoch = s.dev.nextEpoch % 2 ^ 64 ∧
        u.dev.h.mir.session = some { m with tx := m.tx + 11 } ∧ u.dev.h.mir.capAt = max s.dev.now t ∧
        (∃ l : List Emit, u.dev.out = l ++ s.dev.out ∧ l.length = 11) ∧
        u.dev.f = s.dev.f ∧ u.nv = s.nv ∧ u.pending = s.pending) ∧
    (s.dev.h.mir.session = some m → hd.auth = true → m.rx ≤ hd.counter →
      ((∀ epoch segs len profile, s.dev.role = roleSTANDBY →
        ∃ u : State, exec (.mirHead hd epoch segs len profile t) s = .next u ∧
          u.dev.h.mir.rx = some ⟨epoch, segs, len, profile, [], max s.dev.now t, max s.dev.now t, false, false⟩ ∧
          u.dev.h.mir.snap = s.dev.h.mir.snap ∧ u.dev.f.car = s.dev.f.car ∧ u.nv = s.nv ∧ u.pending = s.pending) ∧
      (∀ (idx : Nat) (body : List Word), s.dev.h.mir.rx = some r → idx < r.segs → body.length = 256 →
        ∃ u : State, exec (.mirSeg hd idx body t) s = .next u ∧
          u.dev.h.mir.rx = some { r with got := r.got.set (fun _ => []) idx body, lastAt := max s.dev.now t } ∧
          u.dev.h.mir.snap = s.dev.h.mir.snap ∧ u.dev.f = s.dev.f ∧ u.nv = s.nv ∧ u.pending = s.pending) ∧
      (∀ (epoch : Nat) (crc word : Word), s.dev.role = roleSTANDBY → s.dev.h.mir.rx = some r → r.complete epoch crc word = true →
        ((s.dev.epoch < epoch →
          ∃ u : State, exec (.mirCommit hd epoch crc word t) s = .next u ∧ u.dev.h.mir.rx = none ∧
            u.dev.h.mir.snap = some ⟨r.body, r.profile, if r.latched then s.dev.f.headLatch else none, r.heard, 0⟩ ∧
            u.dev.flag Fld.MIR_STATUS_SNAP_VALID = true ∧ u.dev.epoch = epoch % 2 ^ 64 ∧ u.nv = s.nv ∧ u.pending = s.pending) ∧
        (epoch ≤ s.dev.epoch →
          ∃ u : State, exec (.mirCommit hd epoch crc word t) s = .next u ∧ u.dev.h.mir.rx = none ∧
            u.dev.h.mir.snap = s.dev.h.mir.snap ∧ (u.dev.src .h Sn.MIR_EPOCH).last = max s.dev.now t ∧
            u.nv = s.nv ∧ u.pending = s.pending))))) ∧
    (s.dev.h.mir.rx = some r →
      ((s.dev.role = roleSTANDBY → s.dev.h.link.up = true → r.latched = false →
        ∃ u : State, exec (.mirHeadLatch t) s = .next u ∧
          u.dev.f.headLatch = some ⟨s.dev.f.car.moved, s.dev.f.car.wraps, (List.range 8).map (s.dev.at t).tmCount,
            s.dev.f.car.lost⟩ ∧
          u.dev.h.mir.rx = some { r with latched := true } ∧ u.dev.f.car = s.dev.f.car ∧ u.dev.f.regs = s.dev.f.regs ∧
          u.dev.h.regs = s.dev.h.regs ∧ u.nv = s.nv ∧ u.pending = s.pending) ∧
      (r.lastAt + msCycles ≤ max s.dev.now t →
        ∃ u : State, exec (.mirSnapTimeout t) s = .next u ∧ u.dev.h.mir.rx = none ∧ u.dev.h.mir.snap = s.dev.h.mir.snap ∧
          (u.dev.src .h Sn.MIR_SNAP_ABORT).last = max s.dev.now t ∧ u.nv = s.nv ∧ u.pending = s.pending))) ∧
    (s.dev.h.dev = .standby →
      ((s.dev.h.mir.commitAt + 3 * s.dev.fld Fld.MIR_CFG_PERIOD * msCycles ≤ max s.dev.now t →
        ∃ u : State, exec (.mirSnapMiss t) s = .next u ∧ (u.dev.src .h Sn.MIR_SNAP_MISS).active = true ∧
          (s.dev.at t).SameApart u.dev ∧ u.nv = s.nv ∧ u.pending = s.pending) ∧
      (∀ x : Snap, s.dev.h.mir.snap = some x → s.dev.fld Fld.MIR_CFG_STORE ≠ 0 →
          s.dev.h.mir.storeAt + s.dev.fld Fld.MIR_CFG_STORE * 60000 * msCycles ≤ max s.dev.now t →
        ∃ (u : State) (j : Job), exec (.snapshotStoreTimer t) s = .next u ∧ u.dev.h.jobs = s.dev.h.jobs ++ [j] ∧
          j.kind = .snapshot ∧ j.tag = none ∧
          (∃ y : Rec, j.record = some y ∧ y.area = .snapshot ∧ y.body = quadsOfWords x.words ∧ y.gen = s.dev.recGen) ∧
          u.dev.h.mir = { s.dev.h.mir with storeAt := max s.dev.now t } ∧ u.dev.f = s.dev.f ∧ u.dev.h.regs = s.dev.h.regs ∧
          u.nv = s.nv ∧ u.pending = s.pending))))

/-- Takeover and dual activity (chapter 17): MIR_TAKEOVER in STANDBY that no cause refuses samples the levels into both images and waits
for its commit; another state completes WRONG_STATE, and a cause refuses it. TAKE makes the device RELINQUISHED; 1 ms after its own
TAKE a partner that still reports ACTIVE counts as dual activity.
The model's choices in it: sampling in the command's row, log entry 74, and the TAKE window, log entry 75. -/
def Obligations.MirrorTakeover : Prop :=
  ∀ (s : State) (tag t : Nat) (sda : SdaCheck) (o : Op) (x : Snap) (hd : FrameHead) (m : Session) (b : Nat),
    ((s.dev.mgmtOp tag cmdMIR_TAKEOVER = some o →
      ((s.dev.h.dev ≠ .standby →
        exec (.mirTakeover tag sda t) s = .next { s with dev := ((s.dev.at t).taken tag).finish tag stWRONG_STATE 0 }) ∧
      (s.dev.h.dev = .standby → s.dev.haltAct = false → s.dev.safeAct false = false → s.dev.safeAct true = false →
          s.dev.h.mir.takeover = none →
        ((s.dev.takeoverCause o.desc = 0 → s.dev.h.mir.snap = some x →
          ∃ u : State, exec (.mirTakeover tag sda t) s = .next u ∧ u.dev.h.mir = { s.dev.h.mir with takeover := some ⟨tag, false, sda⟩ } ∧
            u.dev.h.imgA = { s.dev.h.imgA with
              cur := Container.make (s.dev.levels &&& snapOutputs x.words &&& s.dev.mapMask false) false 0 routeRefresh } ∧
            u.dev.h.imgB = { s.dev.h.imgB with
              cur := Container.make (s.dev.levels &&& snapOutputs x.words &&& s.dev.mapMask true) true 0 routeRefresh } ∧
            u.dev.h.dev = .standby ∧ u.dev.f = s.dev.f ∧ u.dev.h.regs = s.dev.h.regs ∧ u.nv = s.nv ∧ u.pending = s.pending) ∧
        (s.dev.takeoverCause o.desc ≠ 0 →
          ∃ u : State, exec (.mirTakeover tag sda t) s = .next u ∧ u.dev.h.mir = s.dev.h.mir ∧
            u.dev.fld Fld.MIR_STATUS_CAUSE = s.dev.takeoverCause o.desc ∧ u.dev.h.imgA = s.dev.h.imgA ∧
            u.dev.h.imgB = s.dev.h.imgB ∧ u.dev.f = s.dev.f ∧ u.nv = s.nv ∧ u.pending = s.pending))))) ∧
    (s.dev.h.mir.session = some m → hd.auth = true → m.rx ≤ hd.counter →
      ∃ u : State, exec (.mirTake hd t) s = .next u ∧ u.dev.role = roleRELINQUISHED ∧
        (s.dev.role ≠ roleRELINQUISHED → (u.dev.src .h Sn.MIR_DUAL_ACTIVE).active = true) ∧
        u.dev.h.mir.session = some { m with rx := hd.counter + 1 } ∧ u.nv = s.nv ∧ u.pending = s.pending) ∧
    (s.dev.h.mir.take = some b → b + msCycles ≤ max s.dev.now t →
      ∃ u : State, exec (.mirTakeWindowEnd t) s = .next u ∧ u.dev.h.mir.take = none ∧
        (s.dev.role = roleACTIVE → s.dev.partner = roleACTIVE → s.dev.h.mir.session.isSome = true →
          (u.dev.src .h Sn.MIR_DUAL_ACTIVE).active = true) ∧
        u.dev.h.mir = { s.dev.h.mir with take := none } ∧ u.dev.f.car = s.dev.f.car ∧ u.nv = s.nv ∧ u.pending = s.pending))

/-- Power and PERST_N (chapter 18): the release of the dies' power-on resets, which begins them in their state after power-on and
leaves OFF once both are released; the loss of a die's supply, of which an H-side with the link up learns as link down, and which
leaves STANDBY and SETTINGS_HOLD for HALT; and PERST_N, which resets the H-side but leaves the keys in secure RAM and the nonvolatile
contents. A flash operation cut short is kept for the next boot to meet.
The model's choices in it: log entries 80, 88 and 94. -/
def Obligations.PowerAndPerst : Prop :=
  ∀ (s : State) (t : Nat),
    ((s.dev.h.boot.released = false →
      exec (.powerOnResetHRelease t) s = .next { s with dev := { s.dev.at t with h := { HDie.reset with
        dev := if s.dev.f.released then .boot else .off, boot := { Boot.reset with cut := s.dev.h.boot.cut } } } }) ∧
    (s.dev.f.released = false →
      ∃ u : State, exec (.powerOnResetFRelease t) s = .next u ∧
        u.dev.f = { FDie.power with brk := { Brk.reset with idleFrom := max s.dev.now t } } ∧
        u.dev.h = { s.dev.h with
          dev := if s.dev.h.dev = .off ∧ s.dev.h.boot.released = true then .boot else s.dev.h.dev } ∧
        u.nv = s.nv ∧ u.pending = s.pending) ∧
    (∃ u : State, exec (.vddCoreHLoss t) s = .next u ∧
        u.dev.h = { HDie.reset with
          dev := .off, powered := false, boot := { Boot.reset with released := false, cut := s.dev.cutOf } } ∧
        u.dev.f.snH = [] ∧ u.dev.f.powered = s.dev.f.powered ∧ u.dev.f.watch = s.dev.f.watch ∧
        (∀ n, (u.dev.slot n).st = .free) ∧ u.nv = s.nv ∧ u.pending = s.pending) ∧
    (s.dev.f.powered = true →
      ∃ u : State, exec (.vddFLoss t) s = .next u ∧ u.dev.f.powered = false ∧ u.dev.f.released = false ∧
        u.dev.f.image = none ∧ u.dev.f.ops = [] ∧ u.nv = s.nv ∧ u.pending = s.pending ∧
        ((s.dev.h.dev = .off ∨ s.dev.h.dev = .rest) → u.dev.h = s.dev.h) ∧
        (s.dev.h.dev = .boot → u.dev.h.dev = .boot) ∧
        ((s.dev.h.dev = .standby ∨ s.dev.h.dev = .settingsHold) → u.dev.h.dev = .halt ∧ u.dev.h.boot.env = none ∧
          (u.dev.src .h Sn.FW_SETTINGS_HOLD).active = false) ∧
        (s.dev.h.dev ≠ .off → s.dev.h.dev ≠ .rest → (s.dev.h.link.up = true ∨ s.dev.h.link.training = true) →
          u.dev.h.link.up = false ∧ u.dev.flag Fld.SYS_LOCK_STATUS_F_STALE = true ∧
          (u.dev.src .h Sn.PRZ_LINK_DOWN).last = max s.dev.now t)) ∧
    (s.dev.h.dev ≠ .off → s.dev.h.boot.perst = false →
      ∃ u : State, exec (.perstAssert t) s = .next u ∧ u.dev.h.boot.perst = true ∧ u.dev.h.dev = .boot ∧ u.dev.h.sn = [] ∧
        u.dev.h.boot.cut = s.dev.cutOf ∧ u.dev.f.image = (if s.dev.h.fReset then none else s.dev.f.image) ∧
        u.dev.h.ops = [] ∧ u.dev.h.rings = [] ∧ u.dev.h.link = Link.down ∧ u.dev.h.jobs = [] ∧ u.dev.h.job = none ∧
        u.dev.h.pciA = PciFn.reset ∧ u.dev.h.pciB = PciFn.reset ∧
        u.dev.h.sec = { s.dev.h.sec with lcFirst := none } ∧ u.dev.f.snH = [] ∧ (∀ n, (u.dev.slot n).st = .free) ∧
        u.dev.f.watch = s.dev.f.watch ∧ u.nv = s.nv ∧ u.pending = s.pending))

/-- The commands that boot run the boot order (chapter 18): from PERST_N, from a firmware restart with both dies reset, from
a cold F-side that has trained, and again 3 s after the start of a boot that has not completed. The last steps of a boot
(chapter 18): step B3 waits while the link cannot train; when B5 to B8 complete, the device is in STANDBY or in the state
that the reactions in force say, with the last step reached and the boot no longer waiting.
The model's choices in it: a boot is one step, log entry 76. -/
def Obligations.BootOrder : Prop :=
  (∀ (s : State) (env : BootEnv) (t b : Nat),
    ((s.dev.h.boot.released = true → s.dev.h.boot.perst = true →
      exec (.perstDeassert env t) s = .next
        (({ s with dev := { s.dev.at t with h := { s.dev.h with boot := { s.dev.h.boot with perst := false } } } } : State).boot
          (if s.dev.h.boot.p1 then 1 else 0) env)) ∧
    (s.dev.h.boot.restart = true → s.dev.h.job = none → s.dev.h.dev ≠ .off → s.dev.h.boot.perst = false →
      exec (.firmwareRestart env t) s = .next ((s.mapDev (·.at t)).restart env)) ∧
    (s.dev.f.released = true → s.dev.f.image = none → s.dev.h.link.up = false → s.dev.h.dev ≠ .off → s.dev.h.dev ≠ .boot →
        s.dev.h.boot.perst = false →
      (s.dev.h.job = none → exec (.fSideColdReturn env t) s = .next ((s.mapDev (·.at t)).restart env)) ∧
      (s.dev.h.job.isSome = true → exec (.fSideColdReturn env t) s = .next { s with dev := (s.dev.at t).restartDue })) ∧
    (s.dev.h.dev = .boot → s.dev.h.boot.began = some b → b + 3000 * msCycles ≤ max s.dev.now t →
      exec (.bootTimeout env t) s = .next (State.bootFrom env 8 false
        { s with dev := { s.dev.at t with h := { s.dev.h with
          boot := { s.dev.h.boot with began := some (max (max s.dev.now t) env.start), env := none } } } })))) ∧
  (∀ (s : State) (env : BootEnv) (resumed first : Bool),
    ((s.dev.f.released = false →
      (s.bootB3 first env).1 = true ∧ (s.bootB3 first env).2.dev.h.boot.env = some env ∧
      (s.bootB3 first env).2.dev.h.link.up = false ∧ (s.bootB3 first env).2.nv = s.nv) ∧
    ((s.bootRest resumed env).1 = true →
      (s.bootRest resumed env).2.dev.fld Fld.SYS_BOOT_STEP = 12 ∧ (s.bootRest resumed env).2.dev.h.boot.env = none ∧
      ((s.bootRest resumed env).2.dev.h.dev = .standby ∨ (s.bootRest resumed env).2.dev.h.dev = .run ∨
        (s.bootRest resumed env).2.dev.h.dev = .safe ∨ (s.bootRest resumed env).2.dev.h.dev = .halt))))

/-- A boot on an empty flash (chapters 15, 16 and 18): no KEY_INDEX record, so the keys do not load and SEC_ERASED holds; no
slot verifies, so the device stays in BOOT with RECOVERY 1 and lets the recovery staging write; nothing is written to flash.
The model's choices in it: a boot is one step, log entry 76; empty slots lead to RECOVERY, log entry 78. -/
def Obligations.EmptyFlashBootsIntoRecovery : Prop :=
  ∀ (s : State) (cause : Nat) (env : BootEnv), s.nv.recs = [] → s.dev.h.boot.cut = none → cause < 4 →
    s.dev.h.boot.p1 = false →
    (s.boot cause env).dev.h.dev = .boot ∧ (s.boot cause env).dev.flag Fld.FW_STATUS_RECOVERY = true ∧
    (s.boot cause env).dev.stagingOpen = true ∧
    (s.boot cause env).dev.fld Fld.SYS_BOOT_CAUSE = cause ∧ (s.boot cause env).dev.fld Fld.SYS_BOOT_STEP = 4 ∧
    (s.boot cause env).dev.h.sec.keyed = false ∧ ((s.boot cause env).dev.src .h Sn.SEC_ERASED).active = true ∧
    (s.boot cause env).nv = s.nv ∧ (s.boot cause env).pending = s.pending

/-- The reapplication after an F-side reset (chapter 18): the link trains, the running slot's image loads, and the channels
are enabled and held until both functions' first OUT_WRITE; an image that does not load leaves the link down and raises
FW_F_LOAD.
The model's choices in it: the reapplication is one row, log entry 82. -/
def Obligations.FSideReapplies : Prop :=
  ∀ (s : State) (env : BootEnv) (t : Nat), s.dev.h.fReset = true → s.dev.f.released = true → s.dev.h.dev ≠ .off →
      s.dev.h.dev ≠ .boot → ((s.dev.at t).trained env.fwd env.ret).h.link.up = true →
    ((env.load = true →
      ∃ u : State, exec (.fSideResetReapply env t) s = .next u ∧ u.dev.f.ch.enabled = true ∧ u.dev.f.ch.waitA = true ∧
        u.dev.f.ch.waitB = true ∧
        (s.current .settings = none → u.dev.h.fReset = false ∧ u.dev.f.image = some (mfFHash s.manifest) ∧ u.nv = s.nv) ∧
        u.pending = s.pending) ∧
    (env.load = false →
      ∃ u : State, exec (.fSideResetReapply env t) s = .next u ∧ u.dev.h.link.up = false ∧ u.dev.h.fReset = true ∧
        (u.dev.src .h Sn.FW_F_LOAD).last = max s.dev.now t ∧ u.nv = s.nv ∧ u.pending = s.pending))

/-- A step takes the command in front of the queue and runs it with the rest of the queue; on an empty queue time passes and nothing else
changes (the model's choice, log entry 2). -/
def Obligations.StepTakesFront : Prop :=
  ∀ (c : Instr) (s : State), step (s.push c) = exec c s ∧
    step { s with pending := [] } = .next { s with dev := { s.dev with now := s.dev.now + 1 }, pending := [] }

/-- Every command answers a next state and leaves the queue of waiting commands alone, and fuses change one way only: the lifecycle state
and the minimum security version never fall, and the serial number, the stepping and the identity key stay. -/
def Obligations.FusesChangeOneWay : Prop :=
  ∀ (c : Instr) (s : State), ∃ u : State, exec c s = .next u ∧ u.pending = s.pending ∧
    s.nv.lifecycle.code ≤ u.nv.lifecycle.code ∧ s.nv.svnMin ≤ u.nv.svnMin ∧ u.nv.serial = s.nv.serial ∧
    u.nv.stepping = s.nv.stepping ∧ u.nv.dikPub = s.nv.dikPub

/-- The tables of the nonvolatile contents keep their canonical form over every step. -/
def Obligations.NonVolatileStaysCanonical : Prop :=
  ∀ s u : State, s.nv.canonical = true → step s = .next u → u.nv.canonical = true

/-- The block after reset: the invariant of the nonvolatile contents holds, no command waits, the device is in BOOT with PERST_N asserted,
the link is down, no tag is held, the images are word 0 with a valid check, the channels are held and registers have the values that
the index gives.
The model's choices in it: where the spec gives no reset value the values are the model's, log entries 8 to 14. -/
def Obligations.StateAtReset : Prop :=
  State.reset.nv.canonical = true ∧ State.reset.pending = [] ∧ State.reset.dev.h.dev = .boot ∧
  State.reset.dev.h.boot.perst = true ∧ State.reset.dev.h.link.up = false ∧ State.reset.dev.inflight = 0 ∧
  State.reset.dev.h.imgA.cur = Container.make 0 false 0 routeRefresh ∧
  State.reset.dev.h.imgB.cur = Container.make 0 true 0 routeRefresh ∧
  State.reset.dev.f.car.modulus = 2 ^ 48 ∧ State.reset.dev.f.ch.held = BitVec.allOnes 48 ∧
  State.reset.dev.rd Reg.PRZ_REFRESH = 0xC28 ∧ State.reset.dev.rd Reg.PRZ_REF_EFF = 40 ∧ State.reset.dev.rd Reg.RM_CTRL = 0x20 ∧
  (∀ n, n < 64 → State.reset.dev.rd (Reg.RM_RING_CFG n) = 40) ∧ State.reset.dev.rd Reg.RM_FETCH_WEIGHT = 136 ∧
  (∀ i, i < 12 → State.reset.dev.rd (Reg.SN_QUIET i) = 0x33333333) ∧
  State.reset.dev.rd (Reg.WD_OPEN 0) = 0x3E8 ∧ State.reset.dev.rd (Reg.WD_TIMEOUT 1) = 0x186A0 ∧
  State.reset.dev.rd (Reg.WD_OPEN 2) = 0x1F4 ∧ State.reset.dev.rd (Reg.WD_TIMEOUT 2) = 0x7D0 ∧
  State.reset.dev.rd (Reg.WD_FIRST 2) = 0x32 ∧ State.reset.dev.rd Reg.SEC_TAMPER_POL = 0x212 ∧
  State.reset.dev.rd Reg.MIR_CFG = 0x28 ∧ State.reset.dev.rd Reg.CAR_MOD_HI = 0xFFFF ∧
  State.reset.dev.rd Reg.CAR_INT_RATE = 0x80000000 ∧ State.reset.dev.rd (Reg.CH_CHK_SETTLE 0) = 0x32323232 ∧
  State.reset.dev.rd Reg.TWP_STATUS = 1 ∧ (∀ v, v < 4 → State.reset.dev.rd (msixKey true v 3) = 1)
end

