-- ==== Sys2Proof/Laws/Bits.lean ====
section
/-!
SUPPORT. Fields of a word: what a field reads after a write of itself or of another field.
-/

namespace Sys2Proof.Machine

theorem testBit_bitsOf (n lo w i : Nat) : (bitsOf n lo w).testBit i = (decide (i < w) && n.testBit (lo + i)) := by
  simp [bitsOf, Nat.testBit_mod_two_pow, Nat.testBit_div_two_pow, Nat.add_comm]

theorem bitOf_eq_testBit (n i : Nat) : bitOf n i = n.testBit i := by
  rw [bitOf, Nat.testBit_eq_decide_div_mod_eq, Bool.beq_eq_decide_eq]

theorem testBit_fieldMask (w lo i : Nat) :
    ((2 ^ w - 1) * 2 ^ lo).testBit i = (decide (lo ≤ i) && decide (i < lo + w)) := by
  rw [← Nat.shiftLeft_eq, Nat.testBit_shiftLeft]
  by_cases h : lo ≤ i
  · simp only [h, decide_true, Bool.true_and, Nat.testBit_two_pow_sub_one]
    congr 1; simp only [eq_iff_iff]; omega
  · simp [h]

/-- A bit of a word after a field is replaced. -/
theorem testBit_setBits (x : Word) (lo w v i : Nat) (hi : i < 32) :
    (setBits x lo w v).toNat.testBit i =
      if lo ≤ i ∧ i < lo + w then v.testBit (i - lo) else x.toNat.testBit i := by
  have hmask : ∀ j, (BitVec.ofNat 32 ((2 ^ w - 1) * 2 ^ lo)).getLsbD j =
      (decide (j < 32) && (decide (lo ≤ j) && decide (j < lo + w))) := by
    intro j; rw [BitVec.getLsbD_ofNat, testBit_fieldMask]
  have hval : (BitVec.ofNat 32 (v * 2 ^ lo)).getLsbD i = (decide (lo ≤ i) && v.testBit (i - lo)) := by
    rw [BitVec.getLsbD_ofNat, ← Nat.shiftLeft_eq, Nat.testBit_shiftLeft]; simp [hi]
  show (setBits x lo w v).getLsbD i = _
  simp only [setBits, BitVec.getLsbD_or, BitVec.getLsbD_and, BitVec.getLsbD_not, hmask, hval, hi, decide_true, Bool.true_and]
  by_cases h1 : lo ≤ i <;> by_cases h2 : i < lo + w <;> simp [h1, h2, BitVec.getLsbD]

/-- A field after a write of itself. -/
theorem bitsOf_setBits_same (x : Word) (lo w v : Nat) (h : lo + w ≤ 32) :
    bitsOf (setBits x lo w v).toNat lo w = v % 2 ^ w := by
  apply Nat.eq_of_testBit_eq
  intro i
  rw [testBit_bitsOf, Nat.testBit_mod_two_pow]
  by_cases hi : i < w
  · rw [testBit_setBits _ _ _ _ _ (by omega), if_pos (by omega)]; simp [hi]
  · simp [hi]

/-- A field after a write of another one of the same word. -/
theorem bitsOf_setBits_ne (x : Word) (lo w v lo' w' : Nat) (h : lo' + w' ≤ 32) (hd : lo' + w' ≤ lo ∨ lo + w ≤ lo') :
    bitsOf (setBits x lo w v).toNat lo' w' = bitsOf x.toNat lo' w' := by
  apply Nat.eq_of_testBit_eq
  intro i
  rw [testBit_bitsOf, testBit_bitsOf]
  by_cases hi : i < w'
  · rw [testBit_setBits _ _ _ _ _ (by omega), if_neg (by omega)]
  · simp [hi]

theorem bitsOf_lt (n lo w : Nat) : bitsOf n lo w < 2 ^ w := Nat.mod_lt _ (Nat.two_pow_pos w)

end Sys2Proof.Machine
end

