-- ==== Sys2Proof/Laws/Tab.lean ====
section
/-!
SUPPORT. Sparse tables: reading after a write, and that every operation keeps the canonical form.
-/

namespace Sys2Proof

variable {α : Type}

/-- No listed key of the table is below `j`, nor `j` itself. -/
def Tab.above (j : Nat) (m : Tab α) : Bool := m.all (fun p => decide (j < p.1))

@[simp] theorem Tab.above_nil (j : Nat) : Tab.above j ([] : Tab α) = true := rfl

@[simp] theorem Tab.above_cons (j : Nat) (p : Nat × α) (m : Tab α) :
    Tab.above j (p :: m) = (decide (j < p.1) && Tab.above j m) := rfl

@[simp] theorem Tab.wf_nil [DecidableEq α] (d : Nat → α) : Tab.wf d ([] : Tab α) = true := rfl

theorem Tab.wf_cons [DecidableEq α] (d : Nat → α) (j : Nat) (v : α) (m : Tab α) :
    Tab.wf d ((j, v) :: m) = (decide (v ≠ d j) && Tab.above j m && Tab.wf d m) := rfl

@[simp] theorem Tab.get_nil (d : Nat → α) (k : Nat) : Tab.get d ([] : Tab α) k = d k := rfl

theorem Tab.get_cons (d : Nat → α) (j : Nat) (v : α) (m : Tab α) (k : Nat) :
    Tab.get d ((j, v) :: m) k = if k = j then v else Tab.get d m k := rfl

/-- A key below every listed one reads as the default. -/
theorem Tab.get_of_above (d : Nat → α) {k : Nat} : ∀ {m : Tab α}, Tab.above k m = true → Tab.get d m k = d k
  | [], _ => rfl
  | (j, v) :: m, h => by
    simp only [Tab.above_cons, Bool.and_eq_true, decide_eq_true_eq] at h
    rw [Tab.get_cons, if_neg (by omega), Tab.get_of_above d h.2]

theorem Tab.above_trans {i j : Nat} (hij : i < j) : ∀ {m : Tab α}, Tab.above j m = true → Tab.above i m = true
  | [], _ => rfl
  | p :: m, h => by
    simp only [Tab.above_cons, Bool.and_eq_true, decide_eq_true_eq] at h ⊢
    exact ⟨by omega, Tab.above_trans hij h.2⟩

theorem Tab.get_ins_same (d : Nat → α) (k : Nat) (v : α) : ∀ m : Tab α, Tab.get d (m.ins k v) k = v
  | [] => by simp [Tab.ins, Tab.get_cons]
  | (j, u) :: m => by
    unfold Tab.ins
    split
    · simp [Tab.get_cons]
    · split
      · simp [Tab.get_cons]
      · rename_i h _; simp [Tab.get_cons, h, Tab.get_ins_same d k v m]

theorem Tab.get_ins_ne (d : Nat → α) {k l : Nat} (v : α) (h : l ≠ k) : ∀ m : Tab α, Tab.get d (m.ins k v) l = Tab.get d m l
  | [] => by simp [Tab.ins, Tab.get_cons, h]
  | (j, u) :: m => by
    unfold Tab.ins
    split
    · rename_i hk; subst hk; simp [Tab.get_cons, h]
    · split
      · simp [Tab.get_cons, h]
      · simp [Tab.get_cons, Tab.get_ins_ne d v h m]

theorem Tab.get_del_ne (d : Nat → α) {k l : Nat} (h : l ≠ k) : ∀ m : Tab α, Tab.get d (m.del k) l = Tab.get d m l
  | [] => rfl
  | (j, u) :: m => by
    by_cases hj : j = k
    · subst hj
      have := Tab.get_del_ne d h m
      simp only [Tab.del] at this
      simp [Tab.del, Tab.get_cons, h, this]
    · have := Tab.get_del_ne d h m
      simp only [Tab.del] at this
      simp [Tab.del, Tab.get_cons, hj, this]

theorem Tab.get_del_same (d : Nat → α) (k : Nat) : ∀ m : Tab α, Tab.get d (m.del k) k = d k
  | [] => rfl
  | (j, u) :: m => by
    have := Tab.get_del_same d k m
    simp only [Tab.del] at this
    by_cases hj : j = k
    · simp [Tab.del, hj, this]
    · simp [Tab.del, Tab.get_cons, hj, this, Ne.symm hj]

/-- A read of the key written gives the value written. -/
@[simp] theorem Tab.get_set_same [DecidableEq α] (d : Nat → α) (m : Tab α) (k : Nat) (v : α) : Tab.get d (m.set d k v) k = v := by
  unfold Tab.set
  split
  · rename_i h; rw [Tab.get_del_same, h]
  · exact Tab.get_ins_same d k v m

/-- A write leaves every other key. -/
theorem Tab.get_set_ne [DecidableEq α] (d : Nat → α) (m : Tab α) {k l : Nat} (v : α) (h : l ≠ k) :
    Tab.get d (m.set d k v) l = Tab.get d m l := by
  unfold Tab.set
  split
  · exact Tab.get_del_ne d h m
  · exact Tab.get_ins_ne d v h m

/-- A read after a write, whatever the keys. -/
theorem Tab.get_set [DecidableEq α] (d : Nat → α) (m : Tab α) (k l : Nat) (v : α) :
    Tab.get d (m.set d k v) l = if l = k then v else Tab.get d m l := by
  split
  · rename_i h; subst h; simp
  · rename_i h; exact Tab.get_set_ne d m v h

theorem Tab.above_del {j k : Nat} : ∀ {m : Tab α}, Tab.above j m = true → Tab.above j (m.del k) = true := by
  intro m h
  simp only [Tab.above, List.all_eq_true, decide_eq_true_eq] at h ⊢
  intro p hp
  exact h p (List.mem_of_mem_filter hp)

theorem Tab.above_ins {j k : Nat} {v : α} (hjk : j < k) : ∀ {m : Tab α}, Tab.above j m = true → Tab.above j (m.ins k v) = true
  | [], _ => by simp [Tab.ins, hjk]
  | (i, u) :: m, h => by
    simp only [Tab.above_cons, Bool.and_eq_true, decide_eq_true_eq] at h
    unfold Tab.ins
    split
    · simp [hjk, h.2]
    · split
      · simp [hjk, h.1, h.2]
      · simp [h.1, Tab.above_ins hjk h.2]

theorem Tab.wf_del [DecidableEq α] (d : Nat → α) (k : Nat) : ∀ {m : Tab α}, Tab.wf d m = true → Tab.wf d (m.del k) = true
  | [], _ => rfl
  | (j, v) :: m, h => by
    simp only [Tab.wf_cons, Bool.and_eq_true] at h
    have ih := Tab.wf_del d k h.2
    have ha := Tab.above_del (k := k) h.1.2
    by_cases hj : j = k
    · simpa [Tab.del, hj] using ih
    · have : Tab.del ((j, v) :: m) k = (j, v) :: Tab.del m k := by simp [Tab.del, hj]
      rw [this, Tab.wf_cons]
      simp only [Bool.and_eq_true]
      exact ⟨⟨h.1.1, ha⟩, ih⟩

theorem Tab.wf_ins [DecidableEq α] (d : Nat → α) {k : Nat} {v : α} (hv : v ≠ d k) :
    ∀ {m : Tab α}, Tab.wf d m = true → Tab.wf d (m.ins k v) = true
  | [], _ => by simp [Tab.ins, Tab.wf_cons, hv]
  | (j, u) :: m, h => by
    have h0 := h
    simp only [Tab.wf_cons, Bool.and_eq_true] at h
    unfold Tab.ins
    split
    · rename_i hk; subst hk; simp [Tab.wf_cons, hv, h.1.2, h.2]
    · split
      · rename_i hk hlt
        rw [Tab.wf_cons]
        simp only [Tab.above_cons, Bool.and_eq_true, decide_eq_true_eq]
        exact ⟨⟨hv, hlt, Tab.above_trans hlt h.1.2⟩, h0⟩
      · rename_i hk hlt
        rw [Tab.wf_cons]
        simp only [Bool.and_eq_true]
        exact ⟨⟨h.1.1, Tab.above_ins (by omega) h.1.2⟩, Tab.wf_ins d hv h.2⟩

/-- A write keeps the canonical form. -/
theorem Tab.wf_set [DecidableEq α] (d : Nat → α) {m : Tab α} (h : Tab.wf d m = true) (k : Nat) (v : α) :
    Tab.wf d (m.set d k v) = true := by
  unfold Tab.set
  split
  · exact Tab.wf_del d k h
  · rename_i hv; exact Tab.wf_ins d hv h

/-- A write to the value that a key reads as keeps the canonical form too. -/
theorem Tab.wf_upd [DecidableEq α] (d : Nat → α) {m : Tab α} (h : Tab.wf d m = true) (k : Nat) (g : α → α) :
    Tab.wf d (m.upd d k g) = true := Tab.wf_set d h k _

theorem Tab.above_filter {j : Nat} {m : Tab α} (p : Nat × α → Bool) (h : Tab.above j m = true) :
    Tab.above j (m.filter p) = true := by
  simp only [Tab.above, List.all_eq_true, decide_eq_true_eq] at h ⊢
  exact fun q hq => h q (List.mem_of_mem_filter hq)

/-- Dropping pairs keeps the canonical form. -/
theorem Tab.wf_filter [DecidableEq α] (d : Nat → α) (p : Nat × α → Bool) : ∀ {m : Tab α}, Tab.wf d m = true →
    Tab.wf d (m.filter p) = true
  | [], _ => rfl
  | (j, v) :: m, h => by
    simp only [Tab.wf_cons, Bool.and_eq_true] at h
    have ih := Tab.wf_filter d p h.2
    by_cases hp : p (j, v) = true
    · rw [List.filter_cons_of_pos hp, Tab.wf_cons]
      simp only [Bool.and_eq_true]
      exact ⟨⟨h.1.1, Tab.above_filter p h.1.2⟩, ih⟩
    · rw [List.filter_cons_of_neg hp]; exact ih

theorem Tab.above_mapVals [DecidableEq α] (d : Nat → α) (g : α → α) {j : Nat} {m : Tab α} (h : Tab.above j m = true) :
    Tab.above j (m.mapVals d g) = true := by
  apply Tab.above_filter
  simp only [Tab.above, List.all_eq_true, List.mem_map, decide_eq_true_eq] at h ⊢
  rintro q ⟨p, hp, rfl⟩
  exact h p hp

/-- Passing every value through a function keeps the canonical form. -/
theorem Tab.wf_mapVals [DecidableEq α] (d : Nat → α) (g : α → α) : ∀ {m : Tab α}, Tab.wf d m = true →
    Tab.wf d (m.mapVals d g) = true
  | [], _ => rfl
  | (j, v) :: m, h => by
    simp only [Tab.wf_cons, Bool.and_eq_true] at h
    have ih := Tab.wf_mapVals d g h.2
    have ha := Tab.above_mapVals d g h.1.2
    unfold Tab.mapVals at ih ha ⊢
    rw [List.map_cons]
    by_cases hp : g v = d j
    · rw [List.filter_cons_of_neg (by simp [hp])]; exact ih
    · rw [List.filter_cons_of_pos (by simp [hp]), Tab.wf_cons]
      simp only [Bool.and_eq_true, decide_eq_true_eq]
      exact ⟨⟨hp, ha⟩, ih⟩

end Sys2Proof
end

