-- ==== Sys2Proof/Laws/Ops.lean ====
section
/-!
SUPPORT. The shared operations: for each, what every part of the device is after it.
-/

namespace Sys2Proof.Machine

/-! ## Register files -/

/-- The H-side's registers after a write. -/
def Dev.wrH (d : Dev) (k : Nat) (v : Word) : Tab Word :=
  if onFSide (baseOff k) then d.h.regs else d.h.regs.set resetWord k v

/-- The F-side's registers after a write. -/
def Dev.wrF (d : Dev) (k : Nat) (v : Word) : Tab Word :=
  if onFSide (baseOff k) then d.f.regs.set resetWord k v else d.f.regs

@[simp] theorem Dev.wr_now (d : Dev) (k : Nat) (v : Word) : (d.wr k v).now = d.now := by unfold Dev.wr; split <;> rfl
@[simp] theorem Dev.wr_out (d : Dev) (k : Nat) (v : Word) : (d.wr k v).out = d.out := by unfold Dev.wr; split <;> rfl
@[simp] theorem Dev.wr_freeCtr (d : Dev) (k : Nat) (v : Word) : (d.wr k v).freeCtr = d.freeCtr := by unfold Dev.wr; split <;> rfl
@[simp] theorem Dev.wr_h (d : Dev) (k : Nat) (v : Word) : (d.wr k v).h = { d.h with regs := d.wrH k v } := by
  unfold Dev.wr Dev.wrH; split <;> rfl
@[simp] theorem Dev.wr_f (d : Dev) (k : Nat) (v : Word) : (d.wr k v).f = { d.f with regs := d.wrF k v } := by
  unfold Dev.wr Dev.wrF; split <;> rfl

/-- A register reads what was last written to it. -/
@[simp] theorem Dev.rd_wr_same (d : Dev) (k : Nat) (v : Word) : (d.wr k v).rd k = v := by
  unfold Dev.rd; simp only [Dev.wr_h, Dev.wr_f, Dev.wrH, Dev.wrF]
  split <;> simp_all

/-- A write leaves every other register. -/
theorem Dev.rd_wr_ne (d : Dev) {k l : Nat} (v : Word) (h : l ≠ k) : (d.wr k v).rd l = d.rd l := by
  unfold Dev.rd; simp only [Dev.wr_h, Dev.wr_f, Dev.wrH, Dev.wrF]
  by_cases h1 : onFSide (baseOff l) = true <;> by_cases h2 : onFSide (baseOff k) = true <;>
    simp [h1, h2, Tab.get_set_ne _ _ _ h]

theorem Dev.rd_wr (d : Dev) (k l : Nat) (v : Word) : (d.wr k v).rd l = if l = k then v else d.rd l := by
  split
  · rename_i h; subst h; simp
  · rename_i h; exact d.rd_wr_ne v h

/-- A register read depends on the register files alone. -/
theorem Dev.rd_congr {d e : Dev} (hh : d.h.regs = e.h.regs) (hf : d.f.regs = e.f.regs) (k : Nat) : d.rd k = e.rd k := by
  unfold Dev.rd; rw [hh, hf]

@[simp] theorem Dev.setFld_now (d : Dev) (F : Fld) (v : Nat) : (d.setFld F v).now = d.now := Dev.wr_now ..
@[simp] theorem Dev.setFld_out (d : Dev) (F : Fld) (v : Nat) : (d.setFld F v).out = d.out := Dev.wr_out ..
@[simp] theorem Dev.setFld_freeCtr (d : Dev) (F : Fld) (v : Nat) : (d.setFld F v).freeCtr = d.freeCtr := Dev.wr_freeCtr ..
@[simp] theorem Dev.setFld_h (d : Dev) (F : Fld) (v : Nat) :
    (d.setFld F v).h = { d.h with regs := d.wrH F.off (setBits (d.rd F.off) F.lo F.w v) } := Dev.wr_h ..
@[simp] theorem Dev.setFld_f (d : Dev) (F : Fld) (v : Nat) :
    (d.setFld F v).f = { d.f with regs := d.wrF F.off (setBits (d.rd F.off) F.lo F.w v) } := Dev.wr_f ..

theorem Dev.rd_setFld_ne (d : Dev) (F : Fld) (v : Nat) {k : Nat} (h : k ≠ F.off) : (d.setFld F v).rd k = d.rd k :=
  d.rd_wr_ne _ h

theorem Dev.rd_setFld_same (d : Dev) (F : Fld) (v : Nat) : (d.setFld F v).rd F.off = setBits (d.rd F.off) F.lo F.w v :=
  d.rd_wr_same ..

/-- A field reads what was last written to it. -/
theorem Dev.fld_setFld_same (d : Dev) (F : Fld) (v : Nat) (h : F.lo + F.w ≤ 32) : (d.setFld F v).fld F = v % 2 ^ F.w := by
  unfold Dev.fld; rw [Dev.rd_setFld_same, bitsOf_setBits_same _ _ _ _ h]

/-- A write of a field leaves every field of another register. -/
theorem Dev.fld_setFld_off (d : Dev) (F G : Fld) (v : Nat) (h : G.off ≠ F.off) : (d.setFld F v).fld G = d.fld G := by
  unfold Dev.fld; rw [Dev.rd_setFld_ne _ _ _ h]

/-- A write of a field leaves every other field of its register. -/
theorem Dev.fld_setFld_ne (d : Dev) (F G : Fld) (v : Nat) (hw : G.lo + G.w ≤ 32)
    (hd : G.off ≠ F.off ∨ G.lo + G.w ≤ F.lo ∨ F.lo + F.w ≤ G.lo) : (d.setFld F v).fld G = d.fld G := by
  by_cases h : G.off = F.off
  · unfold Dev.fld; rw [h, Dev.rd_setFld_same]; exact bitsOf_setBits_ne _ _ _ _ _ _ hw (by tauto)
  · exact Dev.fld_setFld_off _ _ _ _ h

@[simp] theorem Dev.setShadow_now (d : Dev) (k : Nat) (v : Word) : (d.setShadow k v).now = d.now := rfl
@[simp] theorem Dev.setShadow_out (d : Dev) (k : Nat) (v : Word) : (d.setShadow k v).out = d.out := rfl
@[simp] theorem Dev.setShadow_freeCtr (d : Dev) (k : Nat) (v : Word) : (d.setShadow k v).freeCtr = d.freeCtr := rfl
@[simp] theorem Dev.setShadow_h (d : Dev) (k : Nat) (v : Word) : (d.setShadow k v).h = d.h := rfl
@[simp] theorem Dev.setShadow_f (d : Dev) (k : Nat) (v : Word) :
    (d.setShadow k v).f = { d.f with regs := d.f.regs.set resetWord k v } := rfl

/-! ## Time, outputs and free values -/

@[simp] theorem Dev.at_now (d : Dev) (t : Nat) : (d.at t).now = max d.now t := rfl
@[simp] theorem Dev.at_h (d : Dev) (t : Nat) : (d.at t).h = d.h := rfl
@[simp] theorem Dev.at_f (d : Dev) (t : Nat) : (d.at t).f = d.f := rfl
@[simp] theorem Dev.at_out (d : Dev) (t : Nat) : (d.at t).out = d.out := rfl
@[simp] theorem Dev.at_freeCtr (d : Dev) (t : Nat) : (d.at t).freeCtr = d.freeCtr := rfl
@[simp] theorem Dev.rd_at (d : Dev) (t k : Nat) : (d.at t).rd k = d.rd k := rfl
@[simp] theorem Dev.fld_at (d : Dev) (t : Nat) (F : Fld) : (d.at t).fld F = d.fld F := rfl
@[simp] theorem Dev.flag_at (d : Dev) (t : Nat) (F : Fld) : (d.at t).flag F = d.flag F := rfl

@[simp] theorem Dev.emit_now (d : Dev) (e : Emit) : (d.emit e).now = d.now := rfl
@[simp] theorem Dev.emit_h (d : Dev) (e : Emit) : (d.emit e).h = d.h := rfl
@[simp] theorem Dev.emit_f (d : Dev) (e : Emit) : (d.emit e).f = d.f := rfl
@[simp] theorem Dev.emit_out (d : Dev) (e : Emit) : (d.emit e).out = e :: d.out := rfl
@[simp] theorem Dev.emit_freeCtr (d : Dev) (e : Emit) : (d.emit e).freeCtr = d.freeCtr := rfl
@[simp] theorem Dev.rd_emit (d : Dev) (e : Emit) (k : Nat) : (d.emit e).rd k = d.rd k := rfl
@[simp] theorem Dev.fld_emit (d : Dev) (e : Emit) (F : Fld) : (d.emit e).fld F = d.fld F := rfl
@[simp] theorem Dev.flag_emit (d : Dev) (e : Emit) (F : Fld) : (d.emit e).flag F = d.flag F := rfl

@[simp] theorem Dev.tlp_now (d : Dev) (fn : Func) (p : Tlp) : (d.tlp fn p).now = d.now := rfl
@[simp] theorem Dev.tlp_h (d : Dev) (fn : Func) (p : Tlp) : (d.tlp fn p).h = d.h := rfl
@[simp] theorem Dev.tlp_f (d : Dev) (fn : Func) (p : Tlp) : (d.tlp fn p).f = d.f := rfl
@[simp] theorem Dev.tlp_freeCtr (d : Dev) (fn : Func) (p : Tlp) : (d.tlp fn p).freeCtr = d.freeCtr := rfl
@[simp] theorem Dev.tlps_now (d : Dev) (fn : Func) (l : List Tlp) : (d.tlps fn l).now = d.now := rfl
@[simp] theorem Dev.tlps_h (d : Dev) (fn : Func) (l : List Tlp) : (d.tlps fn l).h = d.h := rfl
@[simp] theorem Dev.tlps_f (d : Dev) (fn : Func) (l : List Tlp) : (d.tlps fn l).f = d.f := rfl
@[simp] theorem Dev.tlps_freeCtr (d : Dev) (fn : Func) (l : List Tlp) : (d.tlps fn l).freeCtr = d.freeCtr := rfl
@[simp] theorem Dev.hostRead_now (d : Dev) (fn : Func) (a n : Nat) : (d.hostRead fn a n).now = d.now := rfl
@[simp] theorem Dev.hostRead_h (d : Dev) (fn : Func) (a n : Nat) : (d.hostRead fn a n).h = d.h := rfl
@[simp] theorem Dev.hostRead_f (d : Dev) (fn : Func) (a n : Nat) : (d.hostRead fn a n).f = d.f := rfl
@[simp] theorem Dev.hostRead_freeCtr (d : Dev) (fn : Func) (a n : Nat) : (d.hostRead fn a n).freeCtr = d.freeCtr := rfl
@[simp] theorem Dev.hostWrite_now (d : Dev) (fn : Func) (a : Nat) (l : List Quad) : (d.hostWrite fn a l).now = d.now := rfl
@[simp] theorem Dev.hostWrite_h (d : Dev) (fn : Func) (a : Nat) (l : List Quad) : (d.hostWrite fn a l).h = d.h := rfl
@[simp] theorem Dev.hostWrite_f (d : Dev) (fn : Func) (a : Nat) (l : List Quad) : (d.hostWrite fn a l).f = d.f := rfl
@[simp] theorem Dev.hostWrite_freeCtr (d : Dev) (fn : Func) (a : Nat) (l : List Quad) : (d.hostWrite fn a l).freeCtr = d.freeCtr := rfl
@[simp] theorem Dev.rd_tlp (d : Dev) (fn : Func) (p : Tlp) (k : Nat) : (d.tlp fn p).rd k = d.rd k := rfl
@[simp] theorem Dev.fld_tlp (d : Dev) (fn : Func) (p : Tlp) (F : Fld) : (d.tlp fn p).fld F = d.fld F := rfl
@[simp] theorem Dev.flag_tlp (d : Dev) (fn : Func) (p : Tlp) (F : Fld) : (d.tlp fn p).flag F = d.flag F := rfl
@[simp] theorem Dev.rd_tlps (d : Dev) (fn : Func) (l : List Tlp) (k : Nat) : (d.tlps fn l).rd k = d.rd k := rfl
@[simp] theorem Dev.fld_tlps (d : Dev) (fn : Func) (l : List Tlp) (F : Fld) : (d.tlps fn l).fld F = d.fld F := rfl
@[simp] theorem Dev.flag_tlps (d : Dev) (fn : Func) (l : List Tlp) (F : Fld) : (d.tlps fn l).flag F = d.flag F := rfl
@[simp] theorem Dev.rd_hostRead (d : Dev) (fn : Func) (a n : Nat) (k : Nat) : (d.hostRead fn a n).rd k = d.rd k := rfl
@[simp] theorem Dev.fld_hostRead (d : Dev) (fn : Func) (a n : Nat) (F : Fld) : (d.hostRead fn a n).fld F = d.fld F := rfl
@[simp] theorem Dev.flag_hostRead (d : Dev) (fn : Func) (a n : Nat) (F : Fld) : (d.hostRead fn a n).flag F = d.flag F := rfl
@[simp] theorem Dev.rd_hostWrite (d : Dev) (fn : Func) (a : Nat) (l : List Quad) (k : Nat) : (d.hostWrite fn a l).rd k = d.rd k := rfl
@[simp] theorem Dev.fld_hostWrite (d : Dev) (fn : Func) (a : Nat) (l : List Quad) (F : Fld) : (d.hostWrite fn a l).fld F = d.fld F := rfl
@[simp] theorem Dev.flag_hostWrite (d : Dev) (fn : Func) (a : Nat) (l : List Quad) (F : Fld) : (d.hostWrite fn a l).flag F = d.flag F := rfl
@[simp] theorem Dev.tlp_out (d : Dev) (fn : Func) (p : Tlp) : (d.tlp fn p).out = .tlp fn (d.pci fn).ecrcGen p :: d.out := rfl

@[simp] theorem Dev.draw_fst (d : Dev) : d.draw.1 = Config.freeValue d.freeCtr := rfl
@[simp] theorem Dev.draw_snd (d : Dev) : d.draw.2 = { d with freeCtr := d.freeCtr + 1 } := rfl

/-- A command on the device alone answers a next state. -/
theorem State.onDev_eq (s : State) (g : Dev → Dev) : s.onDev g = .next { s with dev := g s.dev } := rfl

/-! ## Tables of the two dies -/

@[simp] theorem Dev.op_setOp_same (d : Dev) (g : Nat) (o : Option Op) : (d.setOp g o).op g = o := by
  simp [Dev.op, Dev.setOp]
theorem Dev.op_setOp_ne (d : Dev) {g k : Nat} (o : Option Op) (h : k ≠ g) : (d.setOp g o).op k = d.op k := by
  simp [Dev.op, Dev.setOp, Tab.get_set_ne _ _ _ h]
@[simp] theorem Dev.ring_setRing_same (d : Dev) (n : Nat) (r : Ring) : (d.setRing n r).ring n = r := by
  simp [Dev.ring, Dev.setRing]
theorem Dev.ring_setRing_ne (d : Dev) {n k : Nat} (r : Ring) (h : k ≠ n) : (d.setRing n r).ring k = d.ring k := by
  simp [Dev.ring, Dev.setRing, Tab.get_set_ne _ _ _ h]
@[simp] theorem Dev.fop_setFop_same (d : Dev) (g : Nat) (o : Option FOp) : (d.setFop g o).fop g = o := by
  simp [Dev.fop, Dev.setFop]
theorem Dev.fop_setFop_ne (d : Dev) {g k : Nat} (o : Option FOp) (h : k ≠ g) : (d.setFop g o).fop k = d.fop k := by
  simp [Dev.fop, Dev.setFop, Tab.get_set_ne _ _ _ h]

/-- A function's PCI state after its replacement. -/
@[simp] theorem Dev.pci_setPci_same (d : Dev) (fn : Func) (p : PciFn) : (d.setPci fn p).pci fn = p := by
  cases fn <;> rfl
@[simp] theorem Dev.pci_setPci_other (d : Dev) (fn : Func) (p : PciFn) : (d.setPci fn p).pci (!fn) = d.pci (!fn) := by
  cases fn <;> rfl

end Sys2Proof.Machine
end

