-- ==== Sys2Proof/Laws/Irq.lean ====
section
/-!
SUPPORT. Interrupt reports: they touch a function's PCI state, its PCI_INT_CAUSE, what waits in Rest, and what is put out.
-/

namespace Sys2Proof.Machine

@[simp] theorem Dev.setPci_now (d : Dev) (fn : Func) (p : PciFn) : (d.setPci fn p).now = d.now := by cases fn <;> rfl
@[simp] theorem Dev.setPci_f (d : Dev) (fn : Func) (p : PciFn) : (d.setPci fn p).f = d.f := by cases fn <;> rfl
@[simp] theorem Dev.setPci_out (d : Dev) (fn : Func) (p : PciFn) : (d.setPci fn p).out = d.out := by cases fn <;> rfl
@[simp] theorem Dev.setPci_freeCtr (d : Dev) (fn : Func) (p : PciFn) : (d.setPci fn p).freeCtr = d.freeCtr := by cases fn <;> rfl
@[simp] theorem Dev.setPci_regs (d : Dev) (fn : Func) (p : PciFn) : (d.setPci fn p).h.regs = d.h.regs := by cases fn <;> rfl
@[simp] theorem Dev.rd_setPci (d : Dev) (fn : Func) (p : PciFn) (k : Nat) : (d.setPci fn p).rd k = d.rd k := by cases fn <;> rfl

@[simp] theorem Dev.message_now (d : Dev) (fn : Func) (v : Nat) : (d.message fn v).now = d.now := rfl
@[simp] theorem Dev.message_h (d : Dev) (fn : Func) (v : Nat) : (d.message fn v).h = d.h := rfl
@[simp] theorem Dev.message_f (d : Dev) (fn : Func) (v : Nat) : (d.message fn v).f = d.f := rfl
@[simp] theorem Dev.message_freeCtr (d : Dev) (fn : Func) (v : Nat) : (d.message fn v).freeCtr = d.freeCtr := rfl
@[simp] theorem Dev.rd_message (d : Dev) (fn : Func) (v k : Nat) : (d.message fn v).rd k = d.rd k := rfl

@[simp] theorem Dev.intx_now (d : Dev) (fn : Func) : (d.intx fn).now = d.now := by
  unfold Dev.intx; dsimp only; split <;> simp
@[simp] theorem Dev.intx_f (d : Dev) (fn : Func) : (d.intx fn).f = d.f := by
  unfold Dev.intx; dsimp only; split <;> simp
@[simp] theorem Dev.intx_freeCtr (d : Dev) (fn : Func) : (d.intx fn).freeCtr = d.freeCtr := by
  unfold Dev.intx; dsimp only; split <;> simp
@[simp] theorem Dev.rd_intx (d : Dev) (fn : Func) (k : Nat) : (d.intx fn).rd k = d.rd k := by
  unfold Dev.intx; dsimp only; split <;> simp

/-- An interrupt report leaves time, the F-side and the free values. -/
@[simp] theorem Dev.irq_now (d : Dev) (fn : Func) (v : Nat) : (d.irq fn v).now = d.now := by
  unfold Dev.irq; dsimp only; repeat' split
  all_goals simp
@[simp] theorem Dev.irq_freeCtr (d : Dev) (fn : Func) (v : Nat) : (d.irq fn v).freeCtr = d.freeCtr := by
  unfold Dev.irq; dsimp only; repeat' split
  all_goals simp

theorem onFSide_keyOf_intCause (fn : Func) : onFSide (baseOff (Fld.PCI_INT_CAUSE_CAUSE.of fn).off) = false := by
  cases fn <;> decide

@[simp] theorem Dev.irq_f (d : Dev) (fn : Func) (v : Nat) : (d.irq fn v).f = d.f := by
  unfold Dev.irq; dsimp only; repeat' split
  all_goals simp [Dev.wrF, onFSide_keyOf_intCause]

/-- The only register that a report may change is the function's PCI_INT_CAUSE. -/
theorem Dev.rd_irq_ne (d : Dev) (fn : Func) (v : Nat) {k : Nat} (h : k ≠ keyOf fn Reg.PCI_INT_CAUSE) :
    (d.irq fn v).rd k = d.rd k := by
  unfold Dev.irq; dsimp only; repeat' split
  all_goals first
    | rfl
    | (simp only [Dev.rd_setPci])
    | (simp only [Dev.rd_message])
    | (rw [Dev.rd_intx]; exact Dev.rd_setFld_ne _ _ _ h)

end Sys2Proof.Machine
end

