-- ==== Sys2Proof/Laws/Bulk.lean ====
section
/-!
SUPPORT. The bulk stream and the ends of operations: sending an item changes the sender's end of the stream and what is put out, and
nothing else; an operation that ends on the F-side keeps its status and RESULT.
-/

namespace Sys2Proof.Machine

/-- The time of an FW_READ's sending is all that its sending changes in the reads. -/
theorem stampRead_asked (p : FwRead → Bool) (now : Nat) : ∀ l : List FwRead,
    (stampRead p now l).map FwRead.asked = l.map FwRead.asked
  | [] => rfl
  | r :: t => by
    unfold stampRead
    split
    · rfl
    · rw [List.map_cons, stampRead_asked p now t, List.map_cons]

/-- A bulk item that goes out changes its end of the stream, what is put out, and, an FW_READ, the time of its read. -/
theorem Dev.sendNext_shape (d : Dev) (x : Die) (b0 : BulkEnd) (c : Cell) : ∃ b r,
    r.map FwRead.asked = d.h.fwReads.map FwRead.asked ∧
    d.sendNext x b0 c = ({ d with out := .cell x (c.wire b0.txSeq) :: d.out, h.fwReads := r }).setBulk x b := by
  refine ⟨{ b0 with
    txSeq := (b0.txSeq + 1) % 32
    replayAt := if b0.replay.isEmpty then d.now else b0.replayAt
    replay := b0.replay ++ [c] }, (d.sendNext x b0 c).h.fwReads, ?_, ?_⟩
  · unfold Dev.sendNext
    cases c <;> cases x <;> first | rfl | exact stampRead_asked ..
  · unfold Dev.sendNext
    cases c <;> cases x <;> rfl

theorem Dev.sendNext_out (d : Dev) (x : Die) (b : BulkEnd) (c : Cell) :
    (d.sendNext x b c).out = .cell x (c.wire b.txSeq) :: d.out := by
  unfold Dev.sendNext
  cases c <;> cases x <;> rfl

/-- Draining changes one end of the stream, what is put out, and the times of the FW_READs sent. -/
theorem Dev.drainBulk_shape (x : Die) : ∀ (n : Nat) (d : Dev),
    ∃ b l r, r.map FwRead.asked = d.h.fwReads.map FwRead.asked ∧
      Dev.drainBulk x n d = ({ d with out := l, h.fwReads := r }).setBulk x b
  | 0, d => ⟨d.bulk x, d.out, d.h.fwReads, rfl, by cases x <;> rfl⟩
  | n + 1, d => by
    unfold Dev.drainBulk
    dsimp only
    split
    · exact ⟨d.bulk x, d.out, d.h.fwReads, rfl, by cases x <;> rfl⟩
    · split
      · exact ⟨d.bulk x, d.out, d.h.fwReads, rfl, by cases x <;> rfl⟩
      · obtain ⟨b0, r0, hr0, h0⟩ := Dev.sendNext_shape d x _ _
        obtain ⟨b, l, r, hr, h⟩ := Dev.drainBulk_shape x n (Dev.sendNext d x _ _)
        exact ⟨b, l, r, hr.trans (by rw [h0, ← hr0]; cases x <;> rfl), h.trans (by rw [h0]; cases x <;> rfl)⟩

/-- Draining adds to what is put out. -/
theorem Dev.drainBulk_out (x : Die) : ∀ (n : Nat) (d : Dev), ∃ l, (Dev.drainBulk x n d).out = l ++ d.out
  | 0, d => ⟨[], rfl⟩
  | n + 1, d => by
    unfold Dev.drainBulk
    dsimp only
    split
    · exact ⟨[], rfl⟩
    · split
      · exact ⟨[], rfl⟩
      · obtain ⟨l, h⟩ := Dev.drainBulk_out x n (Dev.sendNext d x _ _)
        exact ⟨l ++ [.cell x _], by rw [h, Dev.sendNext_out, List.append_assoc]; rfl⟩

/-- Sending an item changes one end of the stream, what is put out, and the times of the FW_READs sent. -/
theorem Dev.sendBulk_shape (d : Dev) (x : Die) (c : Cell) :
    ∃ b l r, r.map FwRead.asked = d.h.fwReads.map FwRead.asked ∧
      d.sendBulk x c = ({ d with out := l, h.fwReads := r }).setBulk x b := by
  unfold Dev.sendBulk
  dsimp only
  obtain ⟨b, l, r, hr, h⟩ := Dev.drainBulk_shape x 16 (d.setBulk x _)
  exact ⟨b, l, r, hr.trans (by cases x <;> rfl), h.trans (by cases x <;> rfl)⟩

@[simp] theorem Dev.setBulk_now (d : Dev) (x : Die) (b : BulkEnd) : (d.setBulk x b).now = d.now := by cases x <;> rfl
@[simp] theorem Dev.setBulk_out (d : Dev) (x : Die) (b : BulkEnd) : (d.setBulk x b).out = d.out := by cases x <;> rfl
@[simp] theorem Dev.bulk_setBulk (d : Dev) (x : Die) (b : BulkEnd) : (d.setBulk x b).bulk x = b := by cases x <;> rfl
@[simp] theorem Dev.setBulk_h_f (d : Dev) (b : BulkEnd) : (d.setBulk .f b).h = d.h := rfl
@[simp] theorem Dev.setBulk_f_h (d : Dev) (b : BulkEnd) : (d.setBulk .h b).f = d.f := rfl
@[simp] theorem Dev.setBulk_f_f (d : Dev) (b : BulkEnd) : (d.setBulk .f b).f = { d.f with bulk := b } := rfl
@[simp] theorem Dev.setBulk_h_h (d : Dev) (b : BulkEnd) : (d.setBulk .h b).h = { d.h with bulk := b } := rfl
@[simp] theorem Dev.rd_setBulk (d : Dev) (x : Die) (b : BulkEnd) (k : Nat) : (d.setBulk x b).rd k = d.rd k := by cases x <;> rfl

/-- An operation that ends on the F-side: its context keeps status and RESULT, OP_CLOSE is queued, and nothing else of the device
changes but the F-side's end of the bulk stream, what is put out, and the times of the FW_READs sent. -/
theorem Dev.endF_shape (d : Dev) (tag status : Nat) (result : Quad) {o : FOp} (h : d.fop tag = some o)
    (he : o.ended = none) (hop : (d.op tag).isSome = true) :
    ∃ b l r, r.map FwRead.asked = d.h.fwReads.map FwRead.asked ∧ d.endF tag status result =
      ({ d.setFop tag (some { o with ended := some (status, result) }) with out := l, h.fwReads := r }).setBulk .f b := by
  unfold Dev.endF
  rw [h]
  dsimp only
  rw [if_neg (by simp [he]), if_neg (by cases h' : d.op tag <;> simp_all)]
  obtain ⟨b, l, r, hr, h⟩ := Dev.sendBulk_shape (d.setFop tag (some { o with ended := some (status, result) })) .f
    (.opClose o.desc.unit tag status)
  exact ⟨b, l, r, hr, h⟩

/-- An operation that its block can take: it has arrived, it is of the opcode, it has neither been taken nor ended, and the order of
its ring lets it take effect (R113). -/
theorem Dev.freshOp_spec {d : Dev} {tag opc : Nat} {o : FOp} (h : d.freshOp tag opc = some o) :
    d.fop tag = some o ∧ o.ended = none ∧ o.desc.opcode = opc ∧ o.begun = false ∧ d.effectTurn tag = true := by
  unfold Dev.freshOp Dev.liveOp at h
  split at h
  · split at h
    · cases h
    · rename_i o' hl hb
      split at hl
      · split at hl
        · rename_i hc
          simp only [Bool.and_eq_true, Option.isNone_iff_eq_none, beq_iff_eq] at hc
          cases h; cases hl
          exact ⟨by assumption, hc.1, hc.2, by simpa using hb⟩
        · cases hl
      · cases hl
  · cases h

/-- The other way round. -/
theorem Dev.freshOp_of {d : Dev} {tag opc : Nat} {o : FOp} (h : d.fop tag = some o) (he : o.ended = none)
    (ho : o.desc.opcode = opc) (hb : o.begun = false) (ht : d.effectTurn tag = true) : d.freshOp tag opc = some o := by
  simp [Dev.freshOp, Dev.liveOp, h, he, ho, hb, ht]

end Sys2Proof.Machine
end

