-- ==== Sys2Proof/Laws/Reaction.lean ====
section
/-!
SUPPORT. What the operations of a Safety Net reaction leave alone (`Dev.SameApart`), one lemma for each.
-/

namespace Sys2Proof.Machine

theorem Dev.SameApart.refl (d : Dev) : d.SameApart d := by constructor <;> first | (intros; rfl) | exact ⟨[], rfl⟩

theorem Dev.SameApart.trans {d e g : Dev} (h : d.SameApart e) (k : e.SameApart g) : d.SameApart g :=
  ⟨k.now.trans h.now, let ⟨l, hl⟩ := h.out; let ⟨m, hm⟩ := k.out; ⟨m ++ l, by rw [hm, hl, List.append_assoc]⟩, k.freeCtr.trans h.freeCtr, fun r hr => (k.regs r hr).trans (h.regs r hr), k.sweepA.trans h.sweepA, k.sweepB.trans h.sweepB, k.turn.trans h.turn, k.ord.trans h.ord, k.imgA.trans h.imgA, k.imgB.trans h.imgB, k.fwQ.trans h.fwQ, k.fwReads.trans h.fwReads, k.cmpAt.trans h.cmpAt, k.hPowered.trans h.hPowered, k.porHeld.trans h.porHeld, k.param.trans h.param, k.refNum.trans h.refNum, k.lastTick.trans h.lastTick, k.copy.trans h.copy, k.wdA.trans h.wdA, k.wdB.trans h.wdB, k.fReset.trans h.fReset, k.bodies.trans h.bodies, k.jobs.trans h.jobs, k.job.trans h.job, k.stg.trans h.stg, k.sec.trans h.sec, k.mir.trans h.mir, k.boot.trans h.boot, k.linkUp.trans h.linkUp, k.powered.trans h.powered, k.released.trans h.released, k.watch.trans h.watch, k.fops.trans h.fops, k.ft.trans h.ft, k.car.trans h.car, k.fsp.trans h.fsp, k.twp.trans h.twp, k.wdF.trans h.wdF, k.image.trans h.image, k.headLatch.trans h.headLatch, k.posNum.trans h.posNum⟩

theorem Dev.SameApart.fold {α : Type} (f : Dev → α → Dev) (h : ∀ (d : Dev) (a : α), d.SameApart (f d a)) :
    ∀ (l : List α) (d : Dev), d.SameApart (l.foldl f d)
  | [], d => Dev.SameApart.refl d
  | a :: l, d => (h d a).trans (Dev.SameApart.fold f h l (f d a))

/-- A write of one of the reaction's registers. -/
theorem Dev.wr_apart (d : Dev) (k : Nat) (v : Word) (hk : reactReg k = true) : d.SameApart (d.wr k v) := by
  constructor
  case regs => intro r hr; exact d.rd_wr_ne v (by rintro rfl; simp [hk] at hr)
  case out => exact ⟨[], by simp⟩
  all_goals simp

theorem Dev.setFld_apart (d : Dev) (F : Fld) (v : Nat) (hk : reactReg F.off = true) : d.SameApart (d.setFld F v) :=
  d.wr_apart F.off _ hk

theorem Dev.emit_apart (d : Dev) (e : Emit) : d.SameApart (d.emit e) := by constructor <;> first | (intros; rfl) | exact ⟨[e], rfl⟩

theorem Dev.setBulk_apart (d : Dev) (x : Die) (b : BulkEnd) : d.SameApart (d.setBulk x b) := by
  cases x <;> constructor <;> first | (intros; rfl) | exact ⟨[], rfl⟩

theorem Dev.drainBulk_apart (x : Die) (n : Nat) (d : Dev) : d.SameApart (d.drainBulk x n) := by
  have ho := Dev.drainBulk_out x n d
  obtain ⟨b, l, r, hr, h⟩ := Dev.drainBulk_shape x n d
  rw [h] at ho ⊢
  cases x <;> constructor <;> first | (intros; rfl) | exact ho | exact hr

theorem Dev.setSrc_apart (d : Dev) (x : Die) (i : Nat) (s : Src) : d.SameApart (d.setSrc x i s) := by
  cases x <;> constructor <;> first | (intros; rfl) | exact ⟨[], rfl⟩

theorem Dev.setPci_apart (d : Dev) (fn : Func) (p : PciFn) : d.SameApart (d.setPci fn p) := by
  cases fn <;> constructor <;> first | (intros; rfl) | exact ⟨[], rfl⟩

theorem Dev.intx_apart (d : Dev) (fn : Func) : d.SameApart (d.intx fn) := by
  unfold Dev.intx; dsimp only
  split
  · exact .refl d
  · exact (d.setPci_apart fn _).trans (Dev.emit_apart _ _)

theorem Dev.tlp_apart (d : Dev) (fn : Func) (p : Tlp) : d.SameApart (d.tlp fn p) := Dev.emit_apart _ _

theorem Dev.tlps_apart (d : Dev) (fn : Func) (l : List Tlp) : d.SameApart (d.tlps fn l) := by
  constructor <;> first | (intros; rfl) | exact ⟨_, rfl⟩

theorem Dev.message_apart (d : Dev) (fn : Func) (v : Nat) : d.SameApart (d.message fn v) := Dev.emit_apart _ _

/-- An interrupt report. -/
theorem Dev.irq_apart (d : Dev) (fn : Func) (v : Nat) : d.SameApart (d.irq fn v) := by
  unfold Dev.irq; dsimp only
  split
  · constructor <;> first | (intros; rfl) | exact ⟨[], rfl⟩
  split
  · split
    · exact d.setPci_apart ..
    · exact d.message_apart ..
  · exact (d.setFld_apart _ _ (by cases fn <;> rfl)).trans (Dev.intx_apart _ _)

theorem Dev.irqBoth_apart (d : Dev) (v : Nat) : d.SameApart (d.irqBoth v) := (d.irq_apart false v).trans (Dev.irq_apart _ true v)

theorem Dev.setOp_apart (d : Dev) (g : Nat) (o : Option Op) : d.SameApart (d.setOp g o) := by constructor <;> first | (intros; rfl) | exact ⟨[], rfl⟩

theorem Dev.setRing_apart (d : Dev) (n : Nat) (r : Ring) : d.SameApart (d.setRing n r) := by constructor <;> first | (intros; rfl) | exact ⟨[], rfl⟩

theorem Dev.bump_apart (d : Dev) (c s : Fld) (hc : reactReg c.off = true) (hs : reactReg s.off = true) :
    d.SameApart (d.bump c s) := by
  unfold Dev.bump; dsimp only
  split
  · exact .refl d
  · split
    · exact (d.setFld_apart c _ hc).trans (Dev.setFld_apart _ s _ hs)
    · exact d.setFld_apart c _ hc

/-- A completion entry. -/
theorem Dev.complete_apart (d : Dev) (g : Nat) (o : Op) (st : Nat) (r : Quad) : d.SameApart (d.complete g o st r) := by
  unfold Dev.complete; dsimp only
  split
  · exact d.setOp_apart ..
  split
  · exact (d.setOp_apart g none).trans (Dev.bump_apart _ _ _ (by cases o.fn <;> rfl) (by cases o.fn <;> rfl))
  · exact ((d.setOp_apart g none).trans (Dev.emit_apart _ _)).trans (Dev.setRing_apart _ _ _)

theorem Dev.finish_apart (d : Dev) (g st : Nat) (r : Quad) : d.SameApart (d.finish g st r) := by
  unfold Dev.finish
  split
  · split
    · exact d.complete_apart ..
    · split
      · exact d.setOp_apart ..
      · exact d.complete_apart ..
  · exact .refl d

theorem Dev.haltBegin_apart (d : Dev) : d.SameApart d.haltBegin := by
  unfold Dev.haltBegin
  apply Dev.SameApart.fold
  intro e p
  dsimp only
  split
  · exact e.complete_apart ..
  · exact e.setOp_apart ..

theorem Dev.haltEntries_apart (d : Dev) : d.SameApart d.haltEntries := by
  unfold Dev.haltEntries
  apply Dev.SameApart.fold
  intro e p
  split
  · exact e.complete_apart ..
  · exact .refl e

theorem Dev.restAbort_apart (d : Dev) : d.SameApart d.restAbort := by
  have h0 : d.SameApart { d.idleReset with h.restEntry := none } := by constructor <;> first | (intros; rfl) | exact ⟨[], rfl⟩
  unfold Dev.restAbort
  split
  · dsimp only
    split
    · exact h0.trans (Dev.finish_apart _ _ _ _)
    · exact h0
  · exact .refl d

/-- The device state follows the reactions. -/
theorem Dev.followReactions_apart (d : Dev) : d.SameApart d.followReactions := by
  have h1 : ∀ (e : Dev) s b c, e.SameApart { e with h.dev := s, h.ranOnce := b, f.ranOnce := c } := by
    intros; constructor <;> first | (intros; rfl) | exact ⟨[], rfl⟩
  unfold Dev.followReactions
  split
  all_goals first
    | exact .refl d
    | (dsimp only
       have h0 : d.SameApart (if d.reactState = DevState.run then d else d.restAbort) := by
         split
         · exact .refl d
         · exact d.restAbort_apart
       generalize (if d.reactState = DevState.run then d else d.restAbort) = e at h0 ⊢
       repeat' split
       all_goals first
         | exact h0.trans (h1 _ _ _ _)
         | exact (h0.trans (h1 _ _ _ _)).trans (Dev.haltBegin_apart _)
         | exact (((h0.trans (h1 _ _ _ _)).trans (Dev.haltEntries_apart _)).trans (Dev.drainBulk_apart _ _ _)).trans
             (Dev.drainBulk_apart _ _ _))

theorem Dev.setShadow_apart (d : Dev) (k : Nat) (v : Word) (hk : onFSide (baseOff k) = false) : d.SameApart (d.setShadow k v) := by
  constructor
  case regs =>
    intro r _
    unfold Dev.rd
    by_cases h : onFSide (baseOff r) = true
    · simp only [h, if_true]
      exact Tab.get_set_ne _ _ _ (by rintro rfl; simp [hk] at h)
    · simp only [h]; rfl
  case out => exact ⟨[], rfl⟩
  all_goals rfl

/-- A pulse of a FAULT pin. -/
theorem Dev.pulse_apart (d : Dev) (x : Die) : d.SameApart (d.pulse x) := by
  unfold Dev.pulse
  cases x <;> dsimp only
  · have h0 : d.SameApart { d with h.pulse := some d.now } := by constructor <;> first | (intros; rfl) | exact ⟨[], rfl⟩
    have h1 : ∀ (e : Dev) (fn : Func), e.SameApart
        (if e.fld (Fld.SN_ACK_H_MODE.of fn) = 2 then e.setFld (Fld.SN_ACK_H_MODE.of fn) 0 else e) := by
      intro e fn; split
      · exact e.setFld_apart _ _ (by cases fn <;> rfl)
      · exact .refl e
    exact (h0.trans (h1 _ false)).trans (h1 _ true)
  · have h0 : d.SameApart { d with f.pulse := some d.now } := by constructor <;> first | (intros; rfl) | exact ⟨[], rfl⟩
    have h1 : ∀ (e : Dev) (fn : Func), e.SameApart
        (if bitsOf (e.shadow (keyOf fn Reg.SN_ACK)).toNat 2 2 = 2
          then e.setShadow (keyOf fn Reg.SN_ACK) (setBits (e.shadow (keyOf fn Reg.SN_ACK)) 2 2 0) else e) := by
      intro e fn; split
      · exact e.setShadow_apart _ _ (by cases fn <;> rfl)
      · exact .refl e
    exact (h0.trans (h1 _ false)).trans (h1 _ true)

theorem Dev.learnPulseF_apart (d : Dev) : d.SameApart d.learnPulseF := by
  have h1 : ∀ (e : Dev) (fn : Func), e.SameApart
      (if e.fld (Fld.SN_ACK_F_MODE.of fn) = 2 then e.setFld (Fld.SN_ACK_F_MODE.of fn) 0 else e) := by
    intro e fn; split
    · exact e.setFld_apart _ _ (by cases fn <;> rfl)
    · exact .refl e
  exact (h1 _ false).trans (h1 _ true)

theorem Dev.sendEvent_apart (d : Dev) (x : Die) (i sev : Nat) (active a b : Bool) : d.SameApart (d.sendEvent x i sev active a b) := by
  unfold Dev.sendEvent; dsimp only
  split
  · exact ((d.setBulk_apart x _).trans (Dev.emit_apart _ _)).trans (Dev.emit_apart _ _)
  · exact d.setBulk_apart x _

theorem Dev.condEnd_apart (d : Dev) (x : Die) (i : Nat) : d.SameApart (d.condEnd x i) := by
  unfold Dev.condEnd; dsimp only
  split
  · exact .refl d
  · split
    · exact (d.setSrc_apart x i _).trans (Dev.sendEvent_apart _ _ _ _ _ _ _)
    · exact d.setSrc_apart x i _

theorem Dev.setCh_apart (d : Dev) (c : Chans) : d.SameApart { d with f.ch := c } := by constructor <;> first | (intros; rfl) | exact ⟨[], rfl⟩

theorem Dev.addDue_apart (d : Dev) (m : W48) : d.SameApart (d.addDue m) := by
  unfold Dev.addDue
  apply Dev.SameApart.fold
  intro e b
  dsimp only
  split
  · exact .refl e
  · exact e.setCh_apart _

theorem Dev.mism_apart (d : Dev) (m : W48) : d.SameApart (d.setMask48 Reg.CH_PIN_MISM_LO Reg.CH_PIN_MISM_HI m) :=
  (d.wr_apart Reg.CH_PIN_MISM_LO _ rfl).trans (Dev.wr_apart _ Reg.CH_PIN_MISM_HI _ rfl)

theorem Dev.dueIf_apart (d : Dev) (c : Chans) (m : W48) (p : Prop) [Decidable p] :
    d.SameApart (if p then { d with f.ch := c } else ({ d with f.ch := c }).addDue m) := by
  split
  · exact d.setCh_apart c
  · exact (d.setCh_apart c).trans (Dev.addDue_apart _ m)

theorem Dev.mismGone_apart (d : Dev) (m : W48) (p : Nat × Nat → Bool) :
    d.SameApart (if m = 0
      then ({ d.setMask48 Reg.CH_PIN_MISM_LO Reg.CH_PIN_MISM_HI m with
        f.ch.mismCnt := (d.setMask48 Reg.CH_PIN_MISM_LO Reg.CH_PIN_MISM_HI m).f.ch.mismCnt.filter p }).condEnd .f Sn.CHK_PIN
      else { d.setMask48 Reg.CH_PIN_MISM_LO Reg.CH_PIN_MISM_HI m with
        f.ch.mismCnt := (d.setMask48 Reg.CH_PIN_MISM_LO Reg.CH_PIN_MISM_HI m).f.ch.mismCnt.filter p }) := by
  have h := fun q => (d.mism_apart m).trans (Dev.setCh_apart (d.setMask48 Reg.CH_PIN_MISM_LO Reg.CH_PIN_MISM_HI m) q)
  split
  · exact (h _).trans (Dev.condEnd_apart ..)
  · exact h _

/-- The commanded levels taken anew. -/
theorem Dev.pins_apart (d : Dev) : d.SameApart d.pins := by
  unfold Dev.pins; dsimp only
  split
  · exact d.dueIf_apart ..
  · exact (d.dueIf_apart ..).trans (Dev.mismGone_apart ..)

theorem Dev.wakeTrain_apart (d : Dev) : d.SameApart d.wakeTrain := by
  unfold Dev.wakeTrain
  split
  · constructor <;> first | (intros; rfl) | exact ⟨[], rfl⟩
  · exact .refl d

theorem Dev.wakeH_apart (d : Dev) (host : Bool) : d.SameApart (d.wakeH host) := by
  have h1 : ∀ e : Dev, e.SameApart { e with f.brk.awakeH := true, h.pm := .l0 } := by intro e; constructor <;> first | (intros; rfl) | exact ⟨[], rfl⟩
  unfold Dev.wakeH; dsimp only
  split
  · exact .refl d
  · split
    · exact (h1 _).trans (Dev.wakeTrain_apart _)
    · exact ((d.emit_apart _).trans (h1 _)).trans (Dev.wakeTrain_apart _)

theorem Dev.wakeF_apart (d : Dev) : d.SameApart d.wakeF := by
  have h1 : d.SameApart { d with f.brk.awakeF := true } := by constructor <;> first | (intros; rfl) | exact ⟨[], rfl⟩
  exact h1.trans (Dev.wakeTrain_apart _)

/-- A wake event. -/
theorem Dev.wake_apart (d : Dev) (x : Die) (src : Nat) : d.SameApart (d.wake x src) := by
  unfold Dev.wake; dsimp only
  split
  · exact .refl d
  · have h1 : d.SameApart (if bitOf (d.fld Fld.BRK_WAKE_SRC) src then d
        else d.setFld Fld.BRK_WAKE_SRC (d.fld Fld.BRK_WAKE_SRC + 2 ^ src)) := by
      split
      · exact .refl d
      · exact d.setFld_apart _ _ (by rfl)
    have h2 : ∀ e : Dev, e.SameApart (if e.f.brk.wakeAt.isSome then e else { e with f.brk.wakeAt := some d.now }) := by
      intro e; split
      · exact .refl e
      · constructor <;> first | (intros; rfl) | exact ⟨[], rfl⟩
    have h3 := (h1.trans (h2 _)).trans (Dev.emit_apart _ (.wakeBeacon x))
    cases x
    · exact h3.trans (Dev.wakeH_apart _ _)
    · exact h3.trans (Dev.wakeF_apart _)

theorem reactReg_latch (fn : Func) {i : Nat} (hi : i < 96) : reactReg (latchFld fn i).off = true := by
  have h3 : i / 32 = 0 ∨ i / 32 = 1 ∨ i / 32 = 2 := by omega
  rcases h3 with h | h | h <;> cases fn <;> simp [latchFld, h] <;> rfl

/-- The record of an activation. -/
theorem Dev.record_apart (d : Dev) {i : Nat} (sev : Nat) (hi : i < 96) : d.SameApart (d.record i sev) := by
  have h1 : ∀ (e : Dev) (fn : Func), e.SameApart
      (if e.flag (latchFld fn i) then e else (e.setFld (latchFld fn i) 1).irq fn 2) := by
    intro e fn; split
    · exact .refl e
    · exact (e.setFld_apart _ _ (reactReg_latch fn hi)).trans (Dev.irq_apart _ _ _)
  unfold Dev.record
  exact ((((h1 d false).trans (h1 _ true)).trans (Dev.setFld_apart _ _ _ (by rfl))).trans (Dev.setFld_apart _ _ _ (by rfl))).trans
    (Dev.followReactions_apart _)

theorem Dev.startPulse_apart (d : Dev) (x : Die) (on : Bool) : d.SameApart (d.startPulse x on) := by
  unfold Dev.startPulse
  split
  · exact (d.pulse_apart x).trans (Dev.wake_apart _ x 3)
  · exact .refl d

theorem Dev.announce_apart (d : Dev) (x : Die) {i : Nat} (f : Nat) (a b : Bool) (hi : i < 96) :
    d.SameApart (d.announce x i f a b) := by
  unfold Dev.announce
  cases x
  · exact (d.sendEvent_apart ..).trans (Dev.record_apart _ _ hi)
  · exact (d.sendEvent_apart ..).trans (Dev.pins_apart _)

theorem Dev.raiseInfo_apart (d : Dev) (x : Die) {i : Nat} (a b : Bool) (hi : i < 96) : d.SameApart (d.raiseInfo x i a b) := by
  have h : ∀ s : Src, d.SameApart ((d.setSrc x i s).sendEvent x i 0 true a b) := fun s =>
    (d.setSrc_apart x i s).trans (Dev.sendEvent_apart ..)
  unfold Dev.raiseInfo; dsimp only
  split
  · exact d.setSrc_apart ..
  · cases x
    · exact (h _).trans (Dev.record_apart _ _ hi)
    · exact h _

theorem Dev.raiseForce_apart (d : Dev) (x : Die) {i : Nat} (sev : Nat) (a b : Bool) (hi : i < 96) :
    d.SameApart (d.raiseForce x i sev a b) := by
  unfold Dev.raiseForce; dsimp only
  generalize (d.src x i).widen a b = sc
  split
  · exact ((d.setSrc_apart ..).trans (Dev.startPulse_apart ..)).trans (Dev.announce_apart _ x _ _ _ hi)
  · exact d.setSrc_apart ..

/-- An activation of a source, with its reaction. -/
theorem Dev.raise_apart (d : Dev) (x : Die) {i : Nat} (a b : Bool) (hi : i < 96) : d.SameApart (d.raise x i a b) := by
  unfold Dev.raise
  split
  · exact d.raiseInfo_apart x a b hi
  · exact d.raiseForce_apart x _ a b hi

theorem Dev.raiseBoth_apart (d : Dev) (x : Die) {i : Nat} (hi : i < 96) : d.SameApart (d.raiseBoth x i) := d.raise_apart x _ _ hi
theorem Dev.raiseFn_apart (d : Dev) (x : Die) {i : Nat} (fn : Func) (hi : i < 96) : d.SameApart (d.raiseFn x i fn) :=
  d.raise_apart x _ _ hi
theorem Dev.raiseCode_apart (d : Dev) (x : Die) {i : Nat} (c : Nat) (hi : i < 96) : d.SameApart (d.raiseCode x i c) := by
  unfold Dev.raiseCode
  split
  · exact d.raise_apart x _ _ hi
  · split
    · exact d.raise_apart x _ _ hi
    · exact d.raiseBoth_apart x hi

theorem reactReg_rec {i : Nat} (hi : i < 96) : reactReg (Fld.SN_REC_COUNT (i / 2) (i % 2)).off = true := by
  show reactReg (0x1100 + 4 * (i / 2)) = true
  unfold reactReg; simp; omega

theorem reactReg_recSat {i : Nat} (hi : i < 96) : reactReg (Reg.SN_REC_SAT (i / 32)) = true := by
  show reactReg (0x10C0 + 4 * (i / 32)) = true
  unfold reactReg; simp; omega

/-- A recovery counted. -/
theorem Dev.recover_apart (d : Dev) {i : Nat} (hi : i < 96) : d.SameApart (d.recover i) := by
  have h1 : ∀ e : Dev, e.SameApart ((e.irqBoth 2).followReactions) := fun e =>
    (e.irqBoth_apart 2).trans (Dev.followReactions_apart _)
  have h4 : ∀ (e : Dev) t, e.SameApart { e with h.recAt := t } := by intros; constructor <;> first | (intros; rfl) | exact ⟨[], rfl⟩
  have h2 := fun v => d.setFld_apart (Fld.SN_REC_COUNT (i / 2) (i % 2)) v (reactReg_rec hi)
  have h3 := fun v => ((h2 v).trans (Dev.setFld_apart _ ⟨Reg.SN_REC_SAT (i / 32), i % 32, 1⟩ 1 (reactReg_recSat hi))).trans
    (Dev.raiseBoth_apart _ .h (i := Sn.SN_REC_SAT) (by decide))
  unfold Dev.recover; dsimp only
  split
  · exact (h4 d _).trans (h1 _)
  · split
    · exact ((h3 _).trans (h4 _ _)).trans (h1 _)
    · exact ((h2 _).trans (h4 _ _)).trans (h1 _)

/-- The end of a reaction. -/
theorem Dev.endReaction_apart (d : Dev) (x : Die) {i : Nat} (hi : i < 96) : d.SameApart (d.endReaction x i) := by
  have h1 : ∀ e : Dev, e.SameApart e.idleReset := by intro e; constructor <;> first | (intros; rfl) | exact ⟨[], rfl⟩
  have h0 : ∀ (s : Src) (a b : Bool), d.SameApart ((d.setSrc x i s).sendEvent x i 0 false a b).idleReset := fun s a b =>
    ((d.setSrc_apart x i s).trans (Dev.sendEvent_apart _ x i 0 false a b)).trans (h1 _)
  cases x <;> unfold Dev.endReaction <;> dsimp only <;> (repeat' split)
  all_goals first
    | with_reducible exact h0 ..
    | with_reducible exact (h0 ..).trans (Dev.recover_apart _ hi)
    | with_reducible exact (h0 ..).trans (Dev.followReactions_apart _)

end Sys2Proof.Machine
end

