-- ==== Sys2Proof/Laws/State.lean ====
section
/-!
SUPPORT. The small lemmas of the state: what each update of a part leaves in every part.
-/

namespace Sys2Proof.Machine

/-! ## The block -/

@[simp] theorem State.mapDev_dev (s : State) (g : Dev → Dev) : (s.mapDev g).dev = g s.dev := rfl
@[simp] theorem State.mapDev_nv (s : State) (g : Dev → Dev) : (s.mapDev g).nv = s.nv := rfl
@[simp] theorem State.mapDev_pending (s : State) (g : Dev → Dev) : (s.mapDev g).pending = s.pending := rfl

@[simp] theorem State.push_dev (s : State) (c : Instr) : (s.push c).dev = s.dev := rfl
@[simp] theorem State.push_nv (s : State) (c : Instr) : (s.push c).nv = s.nv := rfl
@[simp] theorem State.push_pending (s : State) (c : Instr) : (s.push c).pending = c :: s.pending := rfl

@[simp] theorem State.idle_dev (s : State) : (s.idle).dev = s.dev.at (s.dev.now + 1) := rfl
@[simp] theorem State.idle_nv (s : State) : (s.idle).nv = s.nv := rfl
@[simp] theorem State.idle_pending (s : State) : (s.idle).pending = s.pending := rfl

/-! ## Parts of the H-side -/

@[simp] theorem Dev.setRing_now (d : Dev) (n : Nat) (r : Ring) : (d.setRing n r).now = d.now := rfl
@[simp] theorem Dev.setRing_out (d : Dev) (n : Nat) (r : Ring) : (d.setRing n r).out = d.out := rfl
@[simp] theorem Dev.setRing_freeCtr (d : Dev) (n : Nat) (r : Ring) : (d.setRing n r).freeCtr = d.freeCtr := rfl
@[simp] theorem Dev.setRing_f (d : Dev) (n : Nat) (r : Ring) : (d.setRing n r).f = d.f := rfl
@[simp] theorem Dev.setRing_h (d : Dev) (n : Nat) (r : Ring) : (d.setRing n r).h = { d.h with rings := d.h.rings.set (fun _ => Ring.idle) n r } := rfl
@[simp] theorem Dev.rd_setRing (d : Dev) (n : Nat) (r : Ring) (k : Nat) : (d.setRing n r).rd k = d.rd k := rfl
@[simp] theorem Dev.fld_setRing (d : Dev) (n : Nat) (r : Ring) (G : Fld) : (d.setRing n r).fld G = d.fld G := rfl

@[simp] theorem Dev.setOp_now (d : Dev) (g : Nat) (o : Option Op) : (d.setOp g o).now = d.now := rfl
@[simp] theorem Dev.setOp_out (d : Dev) (g : Nat) (o : Option Op) : (d.setOp g o).out = d.out := rfl
@[simp] theorem Dev.setOp_freeCtr (d : Dev) (g : Nat) (o : Option Op) : (d.setOp g o).freeCtr = d.freeCtr := rfl
@[simp] theorem Dev.setOp_f (d : Dev) (g : Nat) (o : Option Op) : (d.setOp g o).f = d.f := rfl
@[simp] theorem Dev.setOp_h (d : Dev) (g : Nat) (o : Option Op) : (d.setOp g o).h = { d.h with ops := d.h.ops.set (fun _ => none) g o } := rfl
@[simp] theorem Dev.rd_setOp (d : Dev) (g : Nat) (o : Option Op) (k : Nat) : (d.setOp g o).rd k = d.rd k := rfl
@[simp] theorem Dev.fld_setOp (d : Dev) (g : Nat) (o : Option Op) (G : Fld) : (d.setOp g o).fld G = d.fld G := rfl

@[simp] theorem Dev.setImg_now (d : Dev) (fn : Func) (i : Image) : (d.setImg fn i).now = d.now := by cases fn <;> rfl
@[simp] theorem Dev.setImg_out (d : Dev) (fn : Func) (i : Image) : (d.setImg fn i).out = d.out := by cases fn <;> rfl
@[simp] theorem Dev.setImg_freeCtr (d : Dev) (fn : Func) (i : Image) : (d.setImg fn i).freeCtr = d.freeCtr := by cases fn <;> rfl
@[simp] theorem Dev.setImg_f (d : Dev) (fn : Func) (i : Image) : (d.setImg fn i).f = d.f := by cases fn <;> rfl
@[simp] theorem Dev.img_setImg_same (d : Dev) (fn : Func) (i : Image) : (d.setImg fn i).img fn = i := by cases fn <;> rfl
@[simp] theorem Dev.img_setImg_other (d : Dev) (fn : Func) (i : Image) : (d.setImg fn i).img (!fn) = d.img (!fn) := by cases fn <;> rfl
@[simp] theorem Dev.rd_setImg (d : Dev) (fn : Func) (i : Image) (k : Nat) : (d.setImg fn i).rd k = d.rd k := by cases fn <;> rfl

@[simp] theorem Dev.setSweep_now (d : Dev) (fn : Func) (w : Sweep) : (d.setSweep fn w).now = d.now := by cases fn <;> rfl
@[simp] theorem Dev.setSweep_out (d : Dev) (fn : Func) (w : Sweep) : (d.setSweep fn w).out = d.out := by cases fn <;> rfl
@[simp] theorem Dev.setSweep_freeCtr (d : Dev) (fn : Func) (w : Sweep) : (d.setSweep fn w).freeCtr = d.freeCtr := by cases fn <;> rfl
@[simp] theorem Dev.setSweep_f (d : Dev) (fn : Func) (w : Sweep) : (d.setSweep fn w).f = d.f := by cases fn <;> rfl
@[simp] theorem Dev.sweep_setSweep_same (d : Dev) (fn : Func) (w : Sweep) : (d.setSweep fn w).sweep fn = w := by cases fn <;> rfl
@[simp] theorem Dev.sweep_setSweep_other (d : Dev) (fn : Func) (w : Sweep) : (d.setSweep fn w).sweep (!fn) = d.sweep (!fn) := by cases fn <;> rfl
@[simp] theorem Dev.rd_setSweep (d : Dev) (fn : Func) (w : Sweep) (k : Nat) : (d.setSweep fn w).rd k = d.rd k := by cases fn <;> rfl

/-! ## Parts of the F-side -/

@[simp] theorem Dev.setFop_now (d : Dev) (g : Nat) (o : Option FOp) : (d.setFop g o).now = d.now := rfl
@[simp] theorem Dev.setFop_out (d : Dev) (g : Nat) (o : Option FOp) : (d.setFop g o).out = d.out := rfl
@[simp] theorem Dev.setFop_freeCtr (d : Dev) (g : Nat) (o : Option FOp) : (d.setFop g o).freeCtr = d.freeCtr := rfl
@[simp] theorem Dev.setFop_h (d : Dev) (g : Nat) (o : Option FOp) : (d.setFop g o).h = d.h := rfl
@[simp] theorem Dev.setFop_f (d : Dev) (g : Nat) (o : Option FOp) : (d.setFop g o).f = { d.f with ops := d.f.ops.set (fun _ => none) g o } := rfl
@[simp] theorem Dev.rd_setFop (d : Dev) (g : Nat) (o : Option FOp) (k : Nat) : (d.setFop g o).rd k = d.rd k := rfl
@[simp] theorem Dev.fld_setFop (d : Dev) (g : Nat) (o : Option FOp) (G : Fld) : (d.setFop g o).fld G = d.fld G := rfl

@[simp] theorem Dev.setSlot_now (d : Dev) (n : Nat) (x : Slot) : (d.setSlot n x).now = d.now := rfl
@[simp] theorem Dev.setSlot_out (d : Dev) (n : Nat) (x : Slot) : (d.setSlot n x).out = d.out := rfl
@[simp] theorem Dev.setSlot_freeCtr (d : Dev) (n : Nat) (x : Slot) : (d.setSlot n x).freeCtr = d.freeCtr := rfl
@[simp] theorem Dev.setSlot_h (d : Dev) (n : Nat) (x : Slot) : (d.setSlot n x).h = d.h := rfl
@[simp] theorem Dev.setSlot_f (d : Dev) (n : Nat) (x : Slot) : (d.setSlot n x).f = { d.f with car.slots := d.f.car.slots.set (fun _ => Slot.free) n x } := rfl
@[simp] theorem Dev.rd_setSlot (d : Dev) (n : Nat) (x : Slot) (k : Nat) : (d.setSlot n x).rd k = d.rd k := rfl
@[simp] theorem Dev.fld_setSlot (d : Dev) (n : Nat) (x : Slot) (G : Fld) : (d.setSlot n x).fld G = d.fld G := rfl

@[simp] theorem Dev.setFspEntry_now (d : Dev) (n : Nat) (x : FspEntry) : (d.setFspEntry n x).now = d.now := rfl
@[simp] theorem Dev.setFspEntry_out (d : Dev) (n : Nat) (x : FspEntry) : (d.setFspEntry n x).out = d.out := rfl
@[simp] theorem Dev.setFspEntry_freeCtr (d : Dev) (n : Nat) (x : FspEntry) : (d.setFspEntry n x).freeCtr = d.freeCtr := rfl
@[simp] theorem Dev.setFspEntry_h (d : Dev) (n : Nat) (x : FspEntry) : (d.setFspEntry n x).h = d.h := rfl
@[simp] theorem Dev.setFspEntry_f (d : Dev) (n : Nat) (x : FspEntry) : (d.setFspEntry n x).f = { d.f with fsp.entries := d.f.fsp.entries.set (fun _ => FspEntry.empty) n x } := rfl
@[simp] theorem Dev.rd_setFspEntry (d : Dev) (n : Nat) (x : FspEntry) (k : Nat) : (d.setFspEntry n x).rd k = d.rd k := rfl
@[simp] theorem Dev.fld_setFspEntry (d : Dev) (n : Nat) (x : FspEntry) (G : Fld) : (d.setFspEntry n x).fld G = d.fld G := rfl

@[simp] theorem Dev.setFspSel_now (d : Dev) (n : Nat) (x : FspSel) : (d.setFspSel n x).now = d.now := rfl
@[simp] theorem Dev.setFspSel_out (d : Dev) (n : Nat) (x : FspSel) : (d.setFspSel n x).out = d.out := rfl
@[simp] theorem Dev.setFspSel_freeCtr (d : Dev) (n : Nat) (x : FspSel) : (d.setFspSel n x).freeCtr = d.freeCtr := rfl
@[simp] theorem Dev.setFspSel_h (d : Dev) (n : Nat) (x : FspSel) : (d.setFspSel n x).h = d.h := rfl
@[simp] theorem Dev.setFspSel_f (d : Dev) (n : Nat) (x : FspSel) : (d.setFspSel n x).f = { d.f with fsp.sels := d.f.fsp.sels.set (fun _ => FspSel.idle) n x } := rfl
@[simp] theorem Dev.rd_setFspSel (d : Dev) (n : Nat) (x : FspSel) (k : Nat) : (d.setFspSel n x).rd k = d.rd k := rfl
@[simp] theorem Dev.fld_setFspSel (d : Dev) (n : Nat) (x : FspSel) (G : Fld) : (d.setFspSel n x).fld G = d.fld G := rfl

/-- A slot reads what was last put in it, and a put leaves every other slot. -/
@[simp] theorem Dev.slot_setSlot_same (d : Dev) (n : Nat) (x : Slot) : (d.setSlot n x).slot n = x := by
  simp [Dev.slot]
theorem Dev.slot_setSlot_ne (d : Dev) {n k : Nat} (x : Slot) (h : k ≠ n) : (d.setSlot n x).slot k = d.slot k := by
  simp [Dev.slot, Tab.get_set_ne _ _ _ h]
@[simp] theorem Dev.fspEntry_setFspEntry_same (d : Dev) (n : Nat) (x : FspEntry) : (d.setFspEntry n x).fspEntry n = x := by
  simp [Dev.fspEntry]
theorem Dev.fspEntry_setFspEntry_ne (d : Dev) {n k : Nat} (x : FspEntry) (h : k ≠ n) :
    (d.setFspEntry n x).fspEntry k = d.fspEntry k := by
  simp [Dev.fspEntry, Tab.get_set_ne _ _ _ h]
@[simp] theorem Dev.fspSel_setFspSel_same (d : Dev) (n : Nat) (x : FspSel) : (d.setFspSel n x).fspSel n = x := by
  simp [Dev.fspSel]
theorem Dev.fspSel_setFspSel_ne (d : Dev) {n k : Nat} (x : FspSel) (h : k ≠ n) : (d.setFspSel n x).fspSel k = d.fspSel k := by
  simp [Dev.fspSel, Tab.get_set_ne _ _ _ h]
@[simp] theorem Dev.cap_setCap_same (d : Dev) (fn : Func) (c : Option Cap) : (d.setCap fn c).cap fn = c := by cases fn <;> rfl
@[simp] theorem Dev.cap_setCap_other (d : Dev) (fn : Func) (c : Option Cap) : (d.setCap fn c).cap (!fn) = d.cap (!fn) := by
  cases fn <;> rfl

/-! ## Watchdogs -/

@[simp] theorem Dev.wd_setWd_same (d : Dev) (k : Nat) (w : Wd) : (d.setWd k w).wd k = w := by
  unfold Dev.wd Dev.setWd; split_ifs <;> rfl
@[simp] theorem Dev.setWd_now (d : Dev) (k : Nat) (w : Wd) : (d.setWd k w).now = d.now := by unfold Dev.setWd; split_ifs <;> rfl
@[simp] theorem Dev.setWd_out (d : Dev) (k : Nat) (w : Wd) : (d.setWd k w).out = d.out := by unfold Dev.setWd; split_ifs <;> rfl
@[simp] theorem Dev.rd_setWd (d : Dev) (k : Nat) (w : Wd) (j : Nat) : (d.setWd k w).rd j = d.rd j := by
  unfold Dev.setWd; split_ifs <;> rfl

/-! ## What is put out, and the idle time -/

@[simp] theorem Dev.emitCell_now (d : Dev) (x : Die) (c : Cell) : (d.emitCell x c).now = d.now := rfl
@[simp] theorem Dev.emitCell_h (d : Dev) (x : Die) (c : Cell) : (d.emitCell x c).h = d.h := rfl
@[simp] theorem Dev.emitCell_f (d : Dev) (x : Die) (c : Cell) : (d.emitCell x c).f = d.f := rfl
@[simp] theorem Dev.emitCell_out (d : Dev) (x : Die) (c : Cell) : (d.emitCell x c).out = .cell x (c.wire 0) :: d.out := rfl
@[simp] theorem Dev.emitCell_freeCtr (d : Dev) (x : Die) (c : Cell) : (d.emitCell x c).freeCtr = d.freeCtr := rfl

@[simp] theorem Dev.idleReset_now (d : Dev) : d.idleReset.now = d.now := rfl
@[simp] theorem Dev.idleReset_h (d : Dev) : d.idleReset.h = d.h := rfl
@[simp] theorem Dev.idleReset_f (d : Dev) : d.idleReset.f = { d.f with brk := { d.f.brk with idleFrom := d.now } } := rfl
@[simp] theorem Dev.idleReset_out (d : Dev) : d.idleReset.out = d.out := rfl
@[simp] theorem Dev.idleReset_freeCtr (d : Dev) : d.idleReset.freeCtr = d.freeCtr := rfl

end Sys2Proof.Machine
end

