-- ==== Sys2Proof/Laws/Timers.lean ====
section
/-!
SUPPORT. The field timers: what taking a count down leaves, for the timer and for everything else.
-/

namespace Sys2Proof.Machine

/-- A register of the F-side reads the same in devices with the same F-side. -/
theorem Dev.rd_of_f {d e : Dev} {k : Nat} (hk : onFSide (baseOff k) = true) (h : d.f = e.f) : d.rd k = e.rd k := by
  unfold Dev.rd; rw [if_pos hk, if_pos hk, h]

@[simp] theorem Dev.v1_now (d : Dev) (c : Nat) : (d.v1 c).now = d.now := by
  unfold Dev.v1; repeat' split
  all_goals simp
@[simp] theorem Dev.v1_f (d : Dev) (c : Nat) : (d.v1 c).f = d.f := by
  unfold Dev.v1; repeat' split
  all_goals simp

@[simp] theorem Dev.tm_setTm_same (d : Dev) (k : Nat) (x : Timer) : (d.setTm k x).tm k = x := by simp [Dev.tm, Dev.setTm]
theorem Dev.tm_setTm_ne (d : Dev) {k j : Nat} (x : Timer) (h : j ≠ k) : (d.setTm k x).tm j = d.tm j := by
  simp [Dev.tm, Dev.setTm, Tab.get_set_ne _ _ _ h]
@[simp] theorem Dev.setTm_now (d : Dev) (k : Nat) (x : Timer) : (d.setTm k x).now = d.now := rfl
@[simp] theorem Dev.setTm_h (d : Dev) (k : Nat) (x : Timer) : (d.setTm k x).h = d.h := rfl
@[simp] theorem Dev.rd_setTm (d : Dev) (k : Nat) (x : Timer) (r : Nat) : (d.setTm k x).rd r = d.rd r := rfl
@[simp] theorem Dev.setTm_regs (d : Dev) (k : Nat) (x : Timer) : (d.setTm k x).f.regs = d.f.regs := rfl
@[simp] theorem Dev.setTm_lf (d : Dev) (k : Nat) (x : Timer) : (d.setTm k x).f.ft.lf = d.f.ft.lf := rfl
@[simp] theorem Dev.setTm_halted (d : Dev) (k : Nat) (x : Timer) : (d.setTm k x).f.ft.halted = d.f.ft.halted := rfl

/-- WRAP is a register of the F-side; its report leaves the rest of the F-side. -/
theorem Dev.tmWrapped_ft (d : Dev) (k : Nat) : (d.tmWrapped k).f.ft = d.f.ft := by
  unfold Dev.tmWrapped; dsimp only; repeat' split
  all_goals simp
@[simp] theorem Dev.tmWrapped_now (d : Dev) (k : Nat) : (d.tmWrapped k).now = d.now := by
  unfold Dev.tmWrapped; dsimp only; repeat' split
  all_goals simp
@[simp] theorem Dev.tm_tmWrapped (d : Dev) (k j : Nat) : (d.tmWrapped k).tm j = d.tm j := by
  unfold Dev.tm; rw [Dev.tmWrapped_ft]

/-- A wrap writes FT_STATUS alone among the registers of the F-side. -/
theorem Dev.rd_tmWrapped_f (d : Dev) (k : Nat) {r : Nat} (hr : onFSide (baseOff r) = true) (h : r ≠ Reg.FT_STATUS) :
    (d.tmWrapped k).rd r = d.rd r := by
  have hw : ∀ v, (d.setFld Fld.FT_STATUS_WRAP v).rd r = d.rd r := fun v => Dev.rd_setFld_ne _ _ _ h
  unfold Dev.tmWrapped; dsimp only; repeat' split
  all_goals first
    | rfl
    | (exact hw _)
    | (rw [Dev.rd_of_f hr (Dev.v1_f _ _)]; exact hw _)
    | (exact Dev.rd_of_f hr (Dev.v1_f _ _))

/-- What taking a count down leaves of a timer. -/
theorem Dev.tm_tmTake_same (d : Dev) (k : Nat) (loaded : Bool) : ∃ w,
    (d.tmTake k loaded).tm k = { d.tm k with base := d.tmCount k, since := d.now, wrapAt := w } := by
  unfold Dev.tmTake; dsimp only; repeat' split
  all_goals exact ⟨_, by simp [Dev.tmCount]; rfl⟩

@[simp] theorem Dev.tmTake_now (d : Dev) (k : Nat) (l : Bool) : (d.tmTake k l).now = d.now := by
  unfold Dev.tmTake; dsimp only; repeat' split
  all_goals simp
@[simp] theorem Dev.tmTake_lf (d : Dev) (k : Nat) (l : Bool) : (d.tmTake k l).f.ft.lf = d.f.ft.lf := by
  unfold Dev.tmTake; dsimp only; repeat' split
  all_goals simp [Dev.tmWrapped_ft]
@[simp] theorem Dev.tmTake_halted (d : Dev) (k : Nat) (l : Bool) : (d.tmTake k l).f.ft.halted = d.f.ft.halted := by
  unfold Dev.tmTake; dsimp only; repeat' split
  all_goals simp [Dev.tmWrapped_ft]

/-- The other timers stay. -/
theorem Dev.tm_tmTake_ne (d : Dev) {k j : Nat} (l : Bool) (h : j ≠ k) : (d.tmTake k l).tm j = d.tm j := by
  unfold Dev.tmTake; dsimp only; repeat' split
  all_goals simp [Dev.tm_setTm_ne _ _ h]

theorem Dev.rd_tmTake_f (d : Dev) (k : Nat) (l : Bool) {r : Nat} (hr : onFSide (baseOff r) = true) (h : r ≠ Reg.FT_STATUS) :
    (d.tmTake k l).rd r = d.rd r := by
  unfold Dev.tmTake; dsimp only; repeat' split
  all_goals first
    | simp; done
    | (rw [Dev.rd_tmWrapped_f _ _ hr h]; simp)

@[simp] theorem Dev.tmSync_now (d : Dev) (k : Nat) : (d.tmSync k).now = d.now := Dev.tmTake_now ..
@[simp] theorem Dev.tmSync_lf (d : Dev) (k : Nat) : (d.tmSync k).f.ft.lf = d.f.ft.lf := Dev.tmTake_lf ..
@[simp] theorem Dev.tmSync_halted (d : Dev) (k : Nat) : (d.tmSync k).f.ft.halted = d.f.ft.halted := Dev.tmTake_halted ..

/-- A timer's count taken down stands in its base from now; every other field of it stays but the note of its last wrap. -/
theorem Dev.tm_tmSync_same (d : Dev) (k : Nat) : ∃ w,
    (d.tmSync k).tm k = { d.tm k with base := d.tmCount k, since := d.now, wrapAt := w } := Dev.tm_tmTake_same ..

theorem Dev.tm_tmSync_ne (d : Dev) {k j : Nat} (h : j ≠ k) : (d.tmSync k).tm j = d.tm j := Dev.tm_tmTake_ne _ _ h

theorem Dev.rd_tmSync_f (d : Dev) (k : Nat) {r : Nat} (hr : onFSide (baseOff r) = true) (h : r ≠ Reg.FT_STATUS) :
    (d.tmSync k).rd r = d.rd r := Dev.rd_tmTake_f _ _ _ hr h

/-- A note of a pace touches the timer's list of paces alone. -/
theorem Dev.tm_tmNote_same (d : Dev) (k : Nat) : ∃ l, (d.tmNote k).tm k = { d.tm k with legs := l } := by
  unfold Dev.tmNote; dsimp only; repeat' split
  all_goals first
    | exact ⟨_, Dev.tm_setTm_same ..⟩
    | exact ⟨_, rfl⟩
theorem Dev.tm_tmNote_ne (d : Dev) {k j : Nat} (h : j ≠ k) : (d.tmNote k).tm j = d.tm j := by
  unfold Dev.tmNote; dsimp only; repeat' split
  all_goals first
    | rfl
    | exact Dev.tm_setTm_ne _ _ h
@[simp] theorem Dev.rd_tmNote (d : Dev) (k r : Nat) : (d.tmNote k).rd r = d.rd r := by
  unfold Dev.tmNote; dsimp only; repeat' split
  all_goals simp
@[simp] theorem Dev.tmNote_now (d : Dev) (k : Nat) : (d.tmNote k).now = d.now := by
  unfold Dev.tmNote; dsimp only; repeat' split
  all_goals simp

/-- A mask of one timer acts on that timer alone. -/
theorem foldl_mask_single (d : Dev) (g : Dev → Nat → Dev) {k : Nat} (hk : k < 8) :
    (List.range 8).foldl (fun d j => if bitOf (2 ^ k) j then g d j else d) d = g d k := by
  rw [show List.range 8 = [0, 1, 2, 3, 4, 5, 6, 7] from rfl]
  interval_cases k <;> simp [List.foldl, bitOf]

theorem any_mask_single (p : Nat → Bool) {k : Nat} (hk : k < 8) :
    (List.range 8).any (fun j => bitOf (2 ^ k) j && p j) = p k := by
  rw [show List.range 8 = [0, 1, 2, 3, 4, 5, 6, 7] from rfl]
  interval_cases k <;> simp [List.any, bitOf]

/-- Where the timers are the same, a timer is. -/
theorem Dev.tm_congr {d e : Dev} (h : d.f.ft = e.f.ft) (k : Nat) : d.tm k = e.tm k := by unfold Dev.tm; rw [h]

/-- A started timer: it runs from here, unless a stop of this cycle names it. -/
theorem Dev.tm_tmStart_same (d : Dev) (k : Nat) : ∃ w l st, (d.tmStart k).tm k = { d.tm k with
    base := if d.flag (Fld.FT_CFG_ZERO k) then 0 else d.tmCount k
    mark := if d.flag (Fld.FT_CFG_ZERO k) then 0 else d.tmCount k
    since := d.now, armed := true, run := (d.tm k).stopAt != some d.now, startAt := st, wrapAt := w, legs := l } := by
  obtain ⟨w, hw⟩ := Dev.tm_tmTake_same d k (d.flag (Fld.FT_CFG_ZERO k))
  unfold Dev.tmStart; dsimp only
  obtain ⟨l, hl⟩ := Dev.tm_tmNote_same (Dev.setTm _ k _) k
  exact ⟨w, l, _, by rw [hl, Dev.tm_setTm_same, hw]⟩

/-- A stopped timer. -/
theorem Dev.tm_tmStop_same (d : Dev) (k : Nat) : ∃ w l, (d.tmStop k).tm k = { d.tm k with
    base := d.tmCount k, since := d.now, run := false, wrapAt := w, stopAt := some d.now, legs := l } := by
  obtain ⟨w, hw⟩ := Dev.tm_tmSync_same d k
  obtain ⟨l, hl⟩ := Dev.tm_tmNote_same ((d.tmSync k).setTm k { (d.tmSync k).tm k with run := false, stopAt := some d.now }) k
  exact ⟨w, l, by unfold Dev.tmStop; rw [hl, Dev.tm_setTm_same, hw]⟩

theorem Dev.tm_tmStop_ne (d : Dev) {k j : Nat} (h : j ≠ k) : (d.tmStop k).tm j = d.tm j := by
  unfold Dev.tmStop; rw [Dev.tm_tmNote_ne _ h, Dev.tm_setTm_ne _ _ h, Dev.tm_tmSync_ne _ h]

end Sys2Proof.Machine
end

