-- ==== Sys2Proof/WellFormed.lean ====
section
/-!
DEFINITION. Well-formed commands: every number that names a thing of the device names one that exists: a tag (R103), a ring
(R91), a slot (R30), a channel (R147), a bank, a timer (R226), a watchdog (R242), a Safety Net source (Table SN-1), a vector
(R78), a select (R172), a register offset (R10). An ill-formed command cannot be asked of the device; the machine takes it all
the same, as R10 to R13 say of an offset that holds no register and as a step whose condition does not hold otherwise.
-/

namespace Sys2Proof

/-- One of the 512 tags (R103). -/
def tagOk (n : Nat) : Bool := decide (n < 512)

/-- One of the 64 rings (R91). -/
def ringOk (n : Nat) : Bool := decide (n < 64)

/-- One of the 256 slots (R30). -/
def slotOk (n : Nat) : Bool := decide (n < 256)

/-- One of the 48 channels. -/
def chanOk (n : Nat) : Bool := decide (n < 48)

/-- One of the six banks of eight channels. -/
def bankOk (n : Nat) : Bool := decide (n < 6)

/-- One of the eight field timers (R226). -/
def timerOk (n : Nat) : Bool := decide (n < 8)

/-- A mask of field timers. -/
def maskOk (n : Nat) : Bool := decide (n < 256)

/-- WDA, WDB or WDF (R242). -/
def wdOk (n : Nat) : Bool := decide (n < 3)

/-- One of the 96 Safety Net sources (Table SN-1). -/
def srcOk (n : Nat) : Bool := decide (n < 96)

/-- One of a function's four interrupt vectors (R78). -/
def vecOk (n : Nat) : Bool := decide (n < 4)

/-- One of the eight selects of the Field Serial Port (R172). -/
def selOk (n : Nat) : Bool := decide (n < 8)

/-- A mask of lanes (R44). -/
def lanesOk (n : Nat) : Bool := decide (n < 16)

/-- The offset of a register word: aligned, in the 128 KiB of BAR0 (R10, R74). -/
def offOk (n : Nat) : Bool := decide (n % 4 = 0 ∧ n < 0x20000)

/-- The offset of a word that is reached through the field window: there, or at 0x1440 to 0x145F (Table IDX-1). -/
def windowOk (n : Nat) : Bool := offOk n && decide ((0x2000 ≤ n ∧ n < 0x8000) ∨ (0x1440 ≤ n ∧ n < 0x1460))

/-- The command is well formed. -/
def Instr.wellFormed (i : Instr) : Bool :=
  match i with
  | .carEnWrite .. => true
  | .carPosLoad .. => true
  | .turnClr .. => true
  | .carLock .. => true
  | .carSrcWrite .. => true
  | .carPosLoRead .. => true
  | .quadCount .. => true
  | .quadIllegalTransition .. => true
  | .ncoCount .. => true
  | .ppsEdge .. => true
  | .mainsZeroCross .. => true
  | .syncReferenceLoss .. => true
  | .holdoverExpire .. => true
  | .encBiasOpen .. => true
  | .absSampleTimeout .. => true
  | .predictionTimeout .. => true
  | .slotPlacedFire slot _ => slotOk slot
  | .absSampleRun .. => true
  | .absSampleCommit .. => true
  | .slotArm tag _ => tagOk tag
  | .slotDisarm tag _ => tagOk tag
  | .todLoad tag _ => tagOk tag
  | .positionForward .. => true
  | .positionCellReceive .. => true
  | .refreshTick .. => true
  | .refreshCellReceive .. => true
  | .refreshWatchPeriod .. => true
  | .refreshWatchExpire .. => true
  | .missStatusReceive .. => true
  | .przRefreshWrite .. => true
  | .paramReceive .. => true
  | .paramAckReceive .. => true
  | .bulkCellReceive .. => true
  | .ackSendTimer .. => true
  | .ack .. => true
  | .nak .. => true
  | .replayTimeout .. => true
  | .laneFail _ lanes _ => lanesOk lanes
  | .retrain .. => true
  | .przRetrainCmd .. => true
  | .trainingComplete .. => true
  | .linkTrainRetry .. => true
  | .restCellReceive .. => true
  | .fieldWindowWrite _ off _ _ => windowOk off
  | .fieldWindowApply .. => true
  | .fwAck .. => true
  | .fieldWindowRead .. => true
  | .fwRead .. => true
  | .fwReadReply _ off _ => windowOk off
  | .fwReadTimeout .. => true
  | .configRequest .. => true
  | .busMasterEnableWrite .. => true
  | .flr .. => true
  | .functionResetComplete .. => true
  | .d3hotEntry .. => true
  | .d0Return .. => true
  | .msixUnmask _ vec => vecOk vec
  | .pciIntCauseClear .. => true
  | .pcieLinkDown .. => true
  | .pcieLinkUp .. => true
  | .pcieL1Exit .. => true
  | .readCompletionTimeout .. => true
  | .ownershipMapWrite _ off _ => offOk off
  | .registerWrite .. => true
  | .counterClear _ off _ _ => offOk off
  | .sysLockSetWrite .. => true
  | .ringEnable _ n _ => ringOk n
  | .ringDisable _ n _ _ => ringOk n
  | .sweepTimer .. => true
  | .sweepReadComplete .. => true
  | .fetchGrant .. => true
  | .descriptorReadComplete n _ _ _ => ringOk n
  | .operationOpen tag _ => tagOk tag
  | .opOpen tag _ => tagOk tag
  | .opClose tag _ _ _ _ => tagOk tag
  | .v0CoalesceTimer n _ => ringOk n
  | .nop tag _ => tagOk tag
  | .outWrite tag _ _ => tagOk tag
  | .bufferReadComplete tag _ _ _ => tagOk tag
  | .immediateWriteApply tag _ _ => tagOk tag
  | .chSample tag _ => tagOk tag
  | .chCapture tag _ => tagOk tag
  | .readbackSample bank _ _ _ => bankOk bank
  | .vioLowDetect bank _ => bankOk bank
  | .vioLowClear bank _ => bankOk bank
  | .filterAccept ch _ _ _ => chanOk ch
  | .captureRecordSend .. => true
  | .captureTimeout .. => true
  | .overloadTrip ch _ => chanOk ch
  | .chOvlClear _ off _ _ => offOk off
  | .chCfgWrite _ ch _ _ => chanOk ch
  | .fspEntryLoad tag _ => tagOk tag
  | .fspRun tag _ => tagOk tag
  | .fspTarget tag _ => tagOk tag
  | .fspDisable .. => true
  | .fspRunStart .. => true
  | .fspWordStart .. => true
  | .fspWordEnd .. => true
  | .fspTargetWordBegin sel _ _ => selOk sel
  | .fspTargetWordEnd sel _ _ => selOk sel
  | .fspSelAbort sel _ => selOk sel
  | .fspTgtCfgWrite _ off _ _ => offOk off
  | .twpXfer tag _ => tagOk tag
  | .twpTarget tag _ => tagOk tag
  | .twpEnable .. => true
  | .twpCtlEnWrite .. => true
  | .twpCtlRst .. => true
  | .twpBusIdleTimeout .. => true
  | .twpStartDetect .. => true
  | .twpStopDetect .. => true
  | .twpXferStart .. => true
  | .twpXferEnd .. => true
  | .twpArbLoss .. => true
  | .twpSclLowTimeout .. => true
  | .twpSdaLowTimeout .. => true
  | .twpTargetAddressMatch .. => true
  | .twpTargetEnd .. => true
  | .twpWakeMatch .. => true
  | .ftStart _ mask _ => maskOk mask
  | .ftStop _ mask _ => maskOk mask
  | .ftWrap k _ => timerOk k
  | .ftCapLoRead _ k _ => timerOk k
  | .ftCapHiRead _ k _ => timerOk k
  | .ftMarkLoRead _ k _ => timerOk k
  | .ftCapture tag _ => tagOk tag
  | .fSeqDebugHalt .. => true
  | .fSeqDebugRelease .. => true
  | .lowFrequencyPathSwitch .. => true
  | .encZEdge .. => true
  | .wdService k _ _ => wdOk k
  | .wdExpire k _ => wdOk k
  | .wdEnable _ k _ _ => wdOk k
  | .wdKey _ k _ _ => wdOk k
  | .snSourceActive _ src _ _ _ => srcOk src
  | .snQuietExpire _ src _ => srcOk src
  | .snEvent .. => true
  | .snSevWrite _ i _ _ => decide (i < 6)
  | .snQuietWrite _ i _ _ => decide (i < 12)
  | .snRecClr .. => true
  | .snAckWrite .. => true
  | .shadowCompare .. => true
  | .faultPulseEnd .. => true
  | .faultPinMismatch .. => true
  | .supplyOutOfRange src _ => srcOk src
  | .supplyReturnInRange src _ => srcOk src
  | .temperatureThreshold .. => true
  | .clockLoss src _ => srcOk src
  | .clockReturn src _ => srcOk src
  | .lfOscillatorFault .. => true
  | .sequencerTrap .. => true
  | .eccError .. => true
  | .restEnter tag _ => tagOk tag
  | .restExchange .. => true
  | .idleTimeout .. => true
  | .barkerSample .. => true
  | .wakeEvent src _ => decide (src < 4)
  | .wakeBeacon .. => true
  | .wakeLate .. => true
  | .recordWriteStart .. => true
  | .flashOpComplete .. => true
  | .settingsCommit tag _ => tagOk tag
  | .calWrite tag _ => tagOk tag
  | .fwStageOpen .. => true
  | .fwStageClose .. => true
  | .fwStageWinWrite _ off _ => offOk off
  | .fwStageChunk .. => true
  | .chunkComplete .. => true
  | .romInstall .. => true
  | .fwInstall tag _ _ => tagOk tag
  | .fwFallback tag _ _ => tagOk tag
  | .secLcAdv .. => true
  | .secSvnAdv .. => true
  | .fuseProgramComplete .. => true
  | .tamperFire .. => true
  | .ownerEnrol tag _ _ => tagOk tag
  | .rekey tag _ _ => tagOk tag
  | .mirTakeover tag _ _ => tagOk tag
  | .mirSessionStart .. => true
  | .hello .. => true
  | .mirStatusSend .. => true
  | .mirStatus .. => true
  | .mirLinkTimeout .. => true
  | .mirSnapshotCapture .. => true
  | .mirHead .. => true
  | .mirHeadLatch .. => true
  | .mirSeg _ idx body _ => decide (idx < 9) && decide (body.length ≤ 256)
  | .mirCommit .. => true
  | .mirSnapTimeout .. => true
  | .mirSnapMiss .. => true
  | .snapshotStoreTimer .. => true
  | .mirTake .. => true
  | .mirTakeWindowEnd .. => true
  | .powerOnResetHRelease .. => true
  | .powerOnResetFRelease .. => true
  | .vddCoreHLoss .. => true
  | .vddFLoss .. => true
  | .fSideColdReturn .. => true
  | .perstAssert .. => true
  | .perstDeassert .. => true
  | .bootTimeout .. => true
  | .firmwareRestart .. => true
  | .fSideResetReapply .. => true

end Sys2Proof
end

