-- ==== Sys2Proof/Tests/Slice0.lean ====
section
/-!
SUPPORT. Tests: ill-formed commands, worked examples of the spec, and for every statement a state and operands that meet its
hypotheses, for each of its clauses.
-/

namespace Sys2Proof.Tests
open Sys2Proof.Machine
set_option maxRecDepth 20000

/-- A device in RUN with the link up, both functions enabled, and nothing in its flash. -/
def base : State :=
  ⟨⟨0,
    { HDie.reset with
      dev := .run
      pciA := { PciFn.reset with bme := true, mse := true, msixEn := true }
      pciB := { PciFn.reset with bme := true, mse := true, msixEn := true }
      link := ⟨true, false, 15, 3, 0, 0, false, 0⟩
      boot := { Boot.reset with perst := false, p1 := true, fDue := false } },
    { FDie.power with image := some [], ch := { Chans.reset with enabled := true } },
    [], 0⟩,
    ⟨.development, 0, 0, 0, [], [], [], [], []⟩, []⟩

/-- That device with something changed. -/
def on (g : Dev → Dev) : State := { base with dev := g base.dev }

/-- The Carousel is Function A's; it counts; it counts with a source selected and in use. -/
def own (d : Dev) : Dev := d.setFld Fld.PCI_OWN_PORT_CAR 1
def counting (d : Dev) : Dev := (own d).setFld Fld.CAR_CTRL_EN 1
def source (n : Nat) (d : Dev) : Dev :=
  let e := (counting d).setFld Fld.CAR_SRC_SEL n
  { e with f.car.src := n }

/-- A descriptor from its opcode, DEST, OPT and payload. -/
def de (op dest opt : Nat) (q1 q2 q3 q4 q5 q6 : Quad) : Desc :=
  ⟨BitVec.ofNat 64 (op + dest * 2 ^ 32 + opt * 2 ^ 48), q1, q2, q3, q4, q5, q6, 0⟩

/-- The context on the F-side of an operation of Function A on ring 0. -/
def fo (e : Desc) : FOp := ⟨false, 0, e, [], false, none⟩

/-- The operation on the H-side. -/
def ho (e : Desc) (st : OpStage) : Op := ⟨false, 0, e, st, 0, false, false, false⟩

/-- The device with that operation under tag 0, on one side, on the other, or on both. -/
def putF (d : Dev) (o : FOp) : Dev := d.setFop 0 (some o)
def putH (d : Dev) (o : Op) : Dev := d.setOp 0 (some o)
def putB (e : Desc) (d : Dev) : Dev := putF (putH d (ho e .opened)) (fo e)
def putBegun (e : Desc) (d : Dev) : Dev := putF (putH d (ho e .opened)) { fo e with begun := true }

/-- The run of the ABS entry is in its word: entry 0, of 12 bits, with these bits of its ECTRL. -/
def absRun (ectrl : Nat) (d : Dev) : Dev :=
  { d with f.fsp := { Fsp.reset with
      entries := [(0, ⟨true, [5 + 11 * 2 ^ 6], ectrl, 0, 0, 0⟩)]
      cur := some ⟨none, 0, false, 0, 0, 0, 0, 0, false, none, 0, 0, false, false, false, 0, false, false⟩
      inWord := true } }

/-- A cell with a good header check. -/
def cell (typ route seq : Nat) (body : Quad) : Cell80 :=
  let hd : BitVec 13 := BitVec.ofNat 13 (typ * 2 ^ 10 + route * 2 ^ 5 + seq)
  hd ++ hchkOf hd ++ body

theorem barOpen_wr (d : Dev) (k : Nat) (v : Word) : (d.wr k v).barOpen false = d.barOpen false := by
  unfold Dev.wr; split <;> rfl

theorem rest_wr (d : Dev) (k : Nat) (v : Word) : (d.wr k v).f.ch.rest = d.f.ch.rest := by
  unfold Dev.wr; split <;> rfl

/-- An open staging session whose window has the CRC written to FW_STAGE_CRC. -/
def staged : State :=
  on fun d => (d.setFld Fld.FW_STATUS_STAGE_OPEN 1).wr Reg.FW_STAGE_CRC (crc32c (bytesOfQuads (quadsOfWords base.dev.window)))

theorem staged_window : staged.dev.window = base.dev.window := by
  unfold Dev.window
  refine List.map_congr_left fun k _ => ?_
  show (Dev.wr _ _ _).rd (Reg.FW_STAGE_WIN k) = base.dev.rd (Reg.FW_STAGE_WIN k)
  rw [Dev.rd_wr_ne, Dev.rd_setFld_ne] <;> simp only [Reg.FW_STAGE_WIN, Reg.FW_STAGE_CRC, Fld.FW_STATUS_STAGE_OPEN, Reg.FW_STATUS, ne_eq] <;> omega

theorem staged_flag (F : Fld) (h : F.off ≠ Reg.FW_STAGE_CRC) :
    staged.dev.flag F = (on fun d => d.setFld Fld.FW_STATUS_STAGE_OPEN 1).dev.flag F :=
  congrArg (fun w : Word => bitsOf w.toNat F.lo F.w == 1) (Dev.rd_wr_ne _ _ h)

theorem staged_bar : staged.dev.barOpen false = true :=
  (barOpen_wr _ _ _).trans (by decide)

theorem staged_rest : staged.dev.f.ch.rest = none :=
  (rest_wr _ _ _).trans (by decide)

theorem staged_crc : crc32c (bytesOfQuads (quadsOfWords staged.dev.window)) = staged.dev.rd Reg.FW_STAGE_CRC :=
  (congrArg (fun w => crc32c (bytesOfQuads (quadsOfWords w))) staged_window).trans (Dev.rd_wr_same _ _ _).symm

/-- A device in which every source has severity DEGRADE. -/
def allOn : State :=
  on fun d => (List.range 6).foldl (fun d k => (d.wr (Reg.SN_SEV k) 0x55555555).setShadow (Reg.SN_SEV k) 0x55555555) d

/-! ## Ill-formed commands -/

theorem test_ill_formed_numbers :
    Instr.wellFormed (.slotArm 512 0) = false ∧ Instr.wellFormed (.ringEnable false 64 0) = false ∧
    Instr.wellFormed (.slotPlacedFire 256 0) = false ∧ Instr.wellFormed (.chCfgWrite false 48 0 0) = false ∧
    Instr.wellFormed (.vioLowDetect 6 0) = false ∧ Instr.wellFormed (.ftWrap 8 0) = false ∧
    Instr.wellFormed (.ftStart false 256 0) = false ∧ Instr.wellFormed (.wdExpire 3 0) = false ∧
    Instr.wellFormed (.supplyOutOfRange 96 0) = false ∧ Instr.wellFormed (.wakeEvent 4 0) = false ∧
    Instr.wellFormed (.msixUnmask false 4) = false ∧ Instr.wellFormed (.fspSelAbort 8 0) = false ∧
    Instr.wellFormed (.laneFail .f 16 0) = false := by decide

theorem test_ill_formed_offsets :
    Instr.wellFormed (.ownershipMapWrite false 0x111 0) = false ∧ Instr.wellFormed (.fieldWindowWrite false 0x1000 0 0) = false ∧
    Instr.wellFormed (.fieldWindowWrite false 0x2000 0 0) = true ∧ Instr.wellFormed (.fwReadReply false 0x1440 0) = true := by
  decide

/-! ## Worked examples of the spec -/

/-- Table CHK-7: word 0x0000_0002_0000 of Function B, ring 32, DEST 0x100. -/
theorem test_container_check : (Container.make 0x20000 true 32 0x100).chk = 0xCE84 := by decide

/-- The check value of chapter 08: CRC-32C of the bytes "123456789". -/
theorem test_crc32c : crc32c [0x31, 0x32, 0x33, 0x34, 0x35, 0x36, 0x37, 0x38, 0x39] = 0xE3069283 := by decide

/-- Table RM-15: QW0 of the completion entry for SEQ 0x0107. -/
theorem test_completion_entry : entryQ0 0x0107 0x0A1 32 true stOK opOUT_WRITE 0x0A3F = 0x0A3F0100C0A10107 := by decide

/-- Table RM-14: the descriptor's fields. -/
theorem test_descriptor_fields :
    let e : Desc := ⟨0x0000010001070101, 0, 0x0000000200000000, 0x20000, 0, 0, 0, 0⟩
    e.opcode = opOUT_WRITE ∧ e.makeChk = true ∧ e.noIrq = false ∧ e.seq = 0x0107 ∧ e.dest = 0x100 ∧ e.value.word = 0x20000 ∧
      e.outMask = chBit 17 ∧ e.bad = false := by decide

/-- Chapter 08: the 26th request frame's header is 0xA000_1FE0. -/
theorem test_frame_header :
    natOfBits (frameHeader (nextAlive^[10] 0) false false false 8160) = 0xA0001FE0 := by decide

/-- Table FSP-15: entry 0 is accepted, sends 170 containers a word and receives 26. -/
theorem test_entry_load :
    let e : Desc := ⟨0, 0, 0x000002C40007F7D3, 0x137D5, 0, 0, BitVec.ofNat 64 (0x550 + 170 * 2 ^ 32), 0⟩
    fspLoadBad e = false ∧ wordTx (livePhases e.phases) = 170 ∧ wordRx (livePhases e.phases) = 26 ∧ ecFramed e.ectrl = true := by
  decide

/-- Chapter 11: a second word 4 µs into the window of WDA, whose OPEN is 5000, is a violation: Function A is reset. -/
theorem test_early_service :
    (match exec (.wdService 0 0x3E5F 3200)
        (on fun d => { d.setFld (Fld.WD_OPEN_OPEN 0) 5000 with h.wdA := { Wd.off with en := true, armed := true } }) with
      | .next u => u.dev.h.pciA.resetAt.isSome && u.dev.h.pciB.resetAt.isNone
      | _ => false) = true := by decide

/-- Chapter 11: at 10 ms it is a valid service, and the count starts again. -/
theorem test_valid_service :
    (match exec (.wdService 0 0x3E5F 8000000)
        (on fun d => { d.setFld (Fld.WD_OPEN_OPEN 0) 5000 with h.wdA := { Wd.off with en := true, armed := true } }) with
      | .next u => u.dev.h.pciA.resetAt.isNone && u.dev.wdCount 0 == 0
      | _ => false) = true := by decide

/-- Chapter 01: CAR_SLOT_SPLIT with 32 slots each gives Function A slots 0 to 31 and Function B slots 224 to 255. -/
theorem test_slot_split :
    let d := (base.dev.setFld Fld.CAR_SLOT_SPLIT_A_COUNT 32).setFld Fld.CAR_SLOT_SPLIT_B_COUNT 32
    d.slotCode 31 = codeOf false ∧ d.slotCode 32 = 0 ∧ d.slotCode 223 = 0 ∧ d.slotCode 224 = codeOf true := by decide

/-- The table of commands gives no bits, so no word spells one. -/
theorem test_no_words : decodeTableWord 8 0 = none ∧ State.reset.withFetchWord 8 0 = State.reset := ⟨rfl, rfl⟩

/-! ## Witnesses: each clause of a statement applies somewhere -/

theorem witness_CarouselControlWrites :
    (∃ (s : State) (fn : Func) (data : Word) (m : Nat), s.dev.carCode = codeOf fn ∧
      m = s.dev.fld Fld.CAR_MOD_LO_MODM1_LO + 2 ^ 32 * s.dev.fld Fld.CAR_MOD_HI_MODM1_HI + 1 ∧ bitOf data.toNat 0 = true ∧
      bitOf data.toNat 1 = false ∧ bitOf data.toNat 2 = false ∧ bitOf data.toNat 3 = false ∧ s.dev.carEn = false ∧ m ≠ 1) ∧
    (∃ (s : State) (fn : Func) (data : Word), s.dev.carCode = codeOf fn ∧ bitOf data.toNat 0 = false ∧
      bitOf data.toNat 1 = false ∧ bitOf data.toNat 2 = false ∧ bitOf data.toNat 3 = false ∧ s.dev.carEn = true) ∧
    (∃ (s : State) (fn : Func) (data : Word), s.dev.carCode = codeOf fn ∧ bitOf data.toNat 0 = s.dev.carEn ∧
      bitOf data.toNat 1 = false ∧ bitOf data.toNat 2 = false ∧ s.dev.loadValue < s.dev.f.car.modulus) ∧
    (∃ (s : State) (fn : Func) (data : Word) (t : Nat), s.dev.carCode = codeOf fn ∧ bitOf data.toNat 0 = s.dev.carEn ∧
      bitOf data.toNat 2 = false ∧ bitOf data.toNat 3 = false ∧ (∀ w, s.dev.f.car.lastWrap ≠ some (max s.dev.now t, w)) ∧
      s.dev.carRuns = true ∧ s.dev.f.car.src = 1 ∧ s.dev.fld Fld.CAR_SRC_SEL = 1 ∧ s.dev.f.car.pendSrc = none ∧
      s.dev.f.car.pos = 0) ∧
    (∃ (s : State) (fn : Func) (data : Word) (t : Nat), s.dev.carCode = codeOf fn ∧ bitOf data.toNat 0 = s.dev.carEn ∧
      bitOf data.toNat 2 = false ∧ bitOf data.toNat 3 = false ∧ s.dev.f.car.lastWrap = some (max s.dev.now t, true)) ∧
    (∃ (s : State) (fn : Func) (data : Word), s.dev.carCode = codeOf fn ∧ bitOf data.toNat 0 = s.dev.carEn ∧
      bitOf data.toNat 1 = false ∧ bitOf data.toNat 3 = false) ∧
    (∃ (s : State) (fn : Func) (data : Word), s.dev.carCode = codeOf fn ∧ bitsOf data.toNat 0 3 < 5 ∧
      bitsOf data.toNat 3 2 ≠ 3 ∧ s.dev.flag Fld.CAR_CTRL_LOCK = false) ∧
    (∃ (s : State) (fn : Func) (data : Word), s.dev.carCode = codeOf fn ∧ bitsOf data.toNat 0 3 < 5 ∧
      bitsOf data.toNat 3 2 ≠ 3 ∧ s.dev.flag Fld.CAR_CTRL_LOCK = true ∧ s.dev.f.car.lost = false) :=
  ⟨⟨on own, false, 1, 2 ^ 48, by decide⟩, ⟨on counting, false, 0, by decide⟩, ⟨on counting, false, 1, by decide⟩,
    ⟨on (source 1), false, 1, 0, by decide⟩,
    ⟨on fun d => let e := source 1 d; { e with f.car.lastWrap := some (0, true) }, false, 1, 0, by decide⟩,
    ⟨on counting, false, 1, by decide⟩, ⟨on own, false, 4, by decide⟩,
    ⟨on fun d => (own d).setFld Fld.CAR_CTRL_LOCK 1, false, 4, by decide⟩⟩

theorem witness_CarouselSlotSplit :
    (∃ (d : Dev) (n : Nat), n < 256 ∧ d.fld Fld.CAR_SLOT_SPLIT_A_COUNT + d.fld Fld.CAR_SLOT_SPLIT_B_COUNT ≤ 256) ∧
    (∃ (d : Dev) (fn : Func) (data : Word), d.carCode = codeOf fn ∧ d.flag Fld.CAR_CTRL_LOCK = false ∧
      (256 < bitsOf data.toNat 0 9 + bitsOf data.toNat 9 9 ∨ d.carEn = true)) ∧
    (∃ (d : Dev) (fn : Func) (data : Word), d.carCode = codeOf fn ∧ d.flag Fld.CAR_CTRL_LOCK = false ∧
      bitsOf data.toNat 0 9 + bitsOf data.toNat 9 9 ≤ 256 ∧ d.carEn = false) :=
  ⟨⟨base.dev, 0, by decide⟩, ⟨(on own).dev, false, 0x101FF, by decide⟩, ⟨(on own).dev, false, 0x10080, by decide⟩⟩

theorem witness_CarouselCounts :
    (∃ s : State, s.dev.carRuns = true ∧ s.dev.f.car.pendSrc = none ∧ s.dev.fld Fld.CAR_SRC_SEL = 1 ∧ s.dev.f.car.src = 1 ∧
      s.dev.fld Fld.CAR_SRC_Z_MODE = 0) ∧
    (∃ (s : State) (t : Nat), s.dev.carRuns = true ∧ s.dev.f.car.pendSrc = none ∧ isNco s.dev.f.car.src = true ∧
      s.dev.ncoRate ≠ 0 ∧ 2 ^ 31 ≤ (s.dev.at t).ncoPhase) ∧
    (∃ (s : State) (rx : List (BitVec 8)) (bits : List Bool) (t : Nat), s.dev.carRuns = true ∧ s.dev.f.car.pendSrc = none ∧
      s.dev.fld Fld.CAR_SRC_SEL = 2 ∧ s.dev.f.car.src = 2 ∧ s.dev.fld Fld.CAR_ABS_CFG_BITS ≠ 0 ∧ s.dev.f.car.lost = false ∧
      s.dev.f.car.pos < s.dev.f.car.modulus ∧ (s.dev.at t).absReceived rx = some (some bits)) ∧
    (∃ (s : State) (rx : List (BitVec 8)) (t : Nat), s.dev.carRuns = true ∧ s.dev.f.car.pendSrc = none ∧
      s.dev.fld Fld.CAR_SRC_SEL = 2 ∧ s.dev.f.car.src = 2 ∧ s.dev.fld Fld.CAR_ABS_CFG_BITS ≠ 0 ∧ s.dev.f.car.lost = false ∧
      s.dev.f.car.pos < s.dev.f.car.modulus ∧ (s.dev.at t).absReceived rx = some none ∧ s.dev.f.car.absBad < 2) :=
  ⟨⟨on (source 1), by decide⟩,
    ⟨on fun d => (counting d).setFld Fld.CAR_INT_RATE_RATE (2 ^ 31 + 5), 1, by decide⟩,
    ⟨on fun d => absRun 0 ((source 2 d).setFld Fld.CAR_ABS_CFG_BITS 12), List.replicate 12 0, List.replicate 12 false, 0, by decide⟩,
    ⟨on fun d => absRun 16 ((source 2 d).setFld Fld.CAR_ABS_CFG_BITS 12), List.replicate 12 0, 0, by decide⟩⟩

theorem witness_CarouselLossesAndReferences :
    (∃ s : State, s.dev.f.ch.rest = none ∧ s.dev.carEn = true ∧ s.dev.f.car.lost = false ∧ s.dev.fld Fld.CAR_SRC_SEL = 1) ∧
    (∃ (s : State) (q t : Nat), s.dev.f.ch.rest = none ∧ s.dev.carEn = true ∧ s.dev.f.car.lost = false ∧
      s.dev.fld Fld.CAR_SRC_SEL = 1 ∧ s.dev.f.car.illFirst = some q ∧ q + 800000 ≤ max s.dev.now t) ∧
    (∃ (s : State) (t : Nat), s.dev.f.ch.rest = none ∧ s.dev.carEn = true ∧ s.dev.f.car.lost = false ∧
      s.dev.fld Fld.CAR_SRC_SEL = 2 ∧ s.dev.f.car.absLast + 256 * s.dev.fld Fld.CAR_ABS_CFG_PERIOD ≤ max s.dev.now t) ∧
    (∃ (s : State) (q t : Nat), s.dev.f.ch.rest = none ∧ s.dev.carEn = true ∧ s.dev.f.car.lost = false ∧
      s.dev.f.car.holdSince = some q ∧ q + max 1 (s.dev.fld Fld.CAR_SYNC_CFG_HOLD) * 800000000 ≤ max s.dev.now t) ∧
    (∃ s : State, s.dev.f.ch.rest = none ∧ s.dev.fld Fld.CAR_SRC_SEL = 3 ∧ s.dev.f.car.pendSrc = none) ∧
    (∃ s : State, s.dev.f.ch.rest = none ∧ s.dev.fld Fld.CAR_SRC_SEL = 4 ∧ s.dev.f.car.pendSrc = none ∧
      s.dev.f.car.holdSince = none) :=
  ⟨⟨on (source 1), by decide⟩,
    ⟨on fun d => let e := source 1 d; { e with f.car.illFirst := some 0 }, 0, 800000, by decide⟩,
    ⟨on (source 2), 67108864, by decide⟩,
    ⟨on fun d => let e := source 3 d; { e with f.car.holdSince := some 0 }, 0, 2 ^ 60, by decide⟩,
    ⟨on (source 3), by decide⟩, ⟨on (source 4), by decide⟩⟩

theorem witness_CarouselSlotCommands :
    (∃ (s : State) (tag t : Nat) (o : FOp), s.dev.freshOp tag opSLOT_ARM = some o ∧
      s.dev.slotCode o.desc.dest = codeOf o.fn ∧ o.desc.target < s.dev.f.car.modulus ∧ (s.dev.slot o.desc.dest).st = .free ∧
      (s.dev.ring o.ring).running = true ∧
      (s.dev.f.ch.standby = true ∨ (s.dev.at t).targetLate o.desc.qual o.desc.target = false) ∧
      (o.desc.action = 2 → s.dev.entryForeign o.fn (o.desc.operand1.toNat % 256) = false)) ∧
    (∃ (s : State) (tag : Nat) (o : FOp), s.dev.freshOp tag opSLOT_DISARM = some o ∧
      s.dev.slotCode o.desc.dest = codeOf o.fn ∧ (s.dev.slot o.desc.dest).st ≠ .free) ∧
    (∃ (s : State) (n t : Nat), (s.dev.slot n).st = .pending ∧ (s.dev.slot n).placed ≤ max s.dev.now t ∧
      (s.dev.at t).slotsAct = true ∧ (s.dev.at t).predOk = true) ∧
    (∃ (s : State) (t : Nat), (s.dev.at t).predOk = false ∧ Tab.wf (fun _ => Slot.free) s.dev.f.car.slots = true) ∧
    (∃ (s : State) (tag : Nat) (o : FOp), s.dev.freshOp tag opTOD_LOAD = some o ∧ s.dev.carCode = codeOf o.fn ∧
      o.desc.value.good o.fn o.ring 0x130 = true ∧ s.dev.f.car.tod = none ∧ o.desc.value.word.toNat < s.dev.f.car.modulus) ∧
    (∃ (s : State) (n t : Nat), s.dev.absEntry = some n ∧ (s.dev.fspEntry n).loaded = true ∧ (s.dev.fspEntry n).txWords = 0 ∧
      ecWords (s.dev.fspEntry n).ectrl = 1 ∧ (∃ p ∈ (s.dev.fspEntry n).phases, phKind p = 5) ∧
      (∀ a, s.dev.f.fsp.absAt = some a → a + 64 * s.dev.fld Fld.CAR_ABS_CFG_PERIOD ≤ max s.dev.now t)) :=
  ⟨⟨on fun d => putF ({ (d.setFld (Fld.CAR_SLOT_SPLIT_A_COUNT) 8) with h.rings := [(0, { Ring.idle with running := true })] }) (fo (de opSLOT_ARM 0 0 0 (100 + 2 ^ 56) (2 ^ 24) 0 0 0)),
     0, 0, fo (de opSLOT_ARM 0 0 0 (100 + 2 ^ 56) (2 ^ 24) 0 0 0), by decide⟩,
    ⟨on fun d => putF ((d.setFld Fld.CAR_SLOT_SPLIT_A_COUNT 8).setSlot 0 { Slot.free with st := .pending, placed := 5 }) (fo (de opSLOT_DISARM 0 0 0 0 0 0 0 0)),
     0, fo (de opSLOT_DISARM 0 0 0 0 0 0 0 0), by decide⟩,
    ⟨on fun d => ((counting d).setFld Fld.CAR_INT_RATE_RATE 5).setSlot 3 { Slot.free with st := .pending, placed := 5 },
     3, 5, by decide⟩,
    ⟨on fun d => (source 1 d).setSlot 3 { Slot.free with st := .pending, placed := 5 }, 0, by decide⟩,
    ⟨on fun d => putF (own d) (fo (de opTOD_LOAD 0x130 0 0 (Container.make 77 false 0 0x130).bits 0 0 0 0)),
     0, fo (de opTOD_LOAD 0x130 0 0 (Container.make 77 false 0 0x130).bits 0 0 0 0), by decide⟩,
    ⟨on fun d => absRun 0 (source 2 d), 0, 0, by decide, by decide, by decide, by decide, by decide, fun _ h => nomatch h⟩⟩

theorem witness_PositionForwarding :
    (∃ (s : State) (c : Cell80), s.dev.h.link.up = true ∧ c.hchkGood = true ∧ c.typ = 2 ∧ c.route / 8 ≠ 3 ∧
      c.container.good false 0 routePosition = true) ∧
    (∃ (s : State) (c : Cell80), s.dev.h.link.up = true ∧ c.hchkGood = true ∧ c.typ = 2 ∧ c.route / 8 ≠ 3 ∧
      c.container.good false 0 routePosition = false) ∧
    (∃ (s : State) (c : Cell80), s.dev.h.link.up = true ∧ c.hchkGood = false) :=
  ⟨⟨base, cell 2 0 1 (Container.make 5 false 0 routePosition).bits, by decide⟩, ⟨base, cell 2 0 1 0, by decide⟩,
    ⟨base, cell 2 0 1 0 ^^^ BitVec.ofNat 80 (2 ^ 64), by decide⟩⟩

theorem witness_RefreshTicksAndPeriod :
    (∃ (s : State) (t : Nat), s.dev.h.link.up = true ∧ s.dev.h.dev ≠ .rest ∧
      s.dev.h.lastTick + s.dev.fld Fld.PRZ_REF_EFF_EFF * 20 ≤ max s.dev.now t) ∧
    (∃ (s : State) (data : Word), s.dev.h.link.up = true ∧ s.dev.hostOpen false = true ∧
      s.dev.flag Fld.PRZ_CTRL_LOCK = false ∧ 10 ≤ bitsOf data.toNat 0 10 ∧ bitsOf data.toNat 0 10 ≤ 640 ∧
      2 ≤ bitsOf data.toNat 10 4) ∧
    (∃ (s : State) (c : Cell80), s.dev.h.link.up = true ∧ goodLink c 0x04 = true) ∧
    (∃ (s : State) (c : Cell80), s.dev.h.link.up = true ∧ goodLink c 0x05 = true ∧
      s.dev.h.param = some (c.bits 46 10, c.bits 42 4, c.bits 32 10)) ∧
    (∃ (s : State) (c : Cell80), s.dev.h.link.up = true ∧ goodLink c 0x07 = true) :=
  ⟨⟨base, 800, by decide⟩, ⟨base, 10 + 2 * 2 ^ 10, by decide⟩, ⟨base, (Cell.param 40 3 50).wire 0, by decide⟩,
    ⟨on fun d => { d with h.param := some (40, 3, 50) }, (Cell.paramAck 40 3 50).wire 0, by decide⟩,
    ⟨base, (Cell.missStatus 2).wire 0, by decide⟩⟩

theorem witness_RefreshCommitsAndWatch :
    (∃ (s : State) (c : Cell80), s.dev.h.link.up = true ∧ c.hchkGood = true ∧ c.typ = 1 ∧ c.route % 16 = 0 ∧
      c.route / 16 = 0 ∧ s.dev.f.watch.lastNum = some c.seq) ∧
    (∃ (s : State) (a : Container) (c : Cell80) (t : Nat), s.dev.h.link.up = true ∧ c.hchkGood = true ∧ c.typ = 1 ∧
      c.route % 16 = 0 ∧ c.route / 16 = 1 ∧ s.dev.f.watch.refA = some (c.seq, a) ∧
      (s.dev.at t).nextSlot s.dev.f.watch.refAt = true ∧ (s.dev.at t).watchDue = false ∧
      s.dev.f.watch.expAt ≠ some (max s.dev.now t) ∧ s.dev.h.mir.takeover = none ∧ s.dev.f.ch.rest = none ∧
      a.good false 0 routeRefresh = true ∧ c.container.good true 0 routeRefresh = true) ∧
    (∃ (s : State) (a : Container) (c : Cell80) (t : Nat), s.dev.h.link.up = true ∧ c.hchkGood = true ∧ c.typ = 1 ∧
      c.route % 16 = 0 ∧ c.route / 16 = 1 ∧ s.dev.f.watch.refA = some (c.seq, a) ∧
      (s.dev.at t).nextSlot s.dev.f.watch.refAt = true ∧ (s.dev.at t).watchDue = false ∧
      s.dev.f.watch.expAt ≠ some (max s.dev.now t) ∧ s.dev.h.mir.takeover = none ∧ s.dev.f.ch.rest = none ∧
      a.good false 0 routeRefresh = false ∧ c.container.good true 0 routeRefresh = false) ∧
    (∃ (s : State) (l t : Nat), s.dev.f.watch.lastCommit = some l ∧
      s.dev.f.watch.reported ≠ min 15 ((max s.dev.now t - l) / (s.dev.f.watch.period * 20)) ∧ s.dev.h.link.up = true) ∧
    (∃ (s : State) (l t : Nat), s.dev.f.watch.lastCommit = some l ∧ s.dev.f.watch.expired = false ∧
      l + s.dev.f.watch.missN * s.dev.f.watch.period * 20 ≤ max s.dev.now t ∧ 0 < (s.dev.at t).sevOf .f Sn.PRZ_REF_MISS) :=
  ⟨⟨on fun d => { d with f.watch := { Watch.reset with lastNum := some 3 } },
     (Cell.refresh false 3 (Container.make 1 false 0 routeRefresh)).wire 0, by decide⟩,
    ⟨on fun d => { d with f.watch := { Watch.reset with refA := some (3, Container.make 1 false 0 routeRefresh) } },
     Container.make 1 false 0 routeRefresh, (Cell.refresh true 3 (Container.make 2 true 0 routeRefresh)).wire 0, 0, by decide⟩,
    ⟨on fun d => { d with f.watch := { Watch.reset with refA := some (3, ⟨0, 0⟩) } }, ⟨0, 0⟩, cell 1 16 3 0, 0, by decide⟩,
    ⟨on fun d => { d with f.watch := { Watch.reset with lastCommit := some 0 } }, 0, 800, by decide⟩,
    ⟨on fun d => { d with f.watch := { Watch.reset with lastCommit := some 0 } }, 0, 2400, by decide⟩⟩

theorem witness_BulkStreamAcknowledges :
    (∃ (s : State) (x : Die) (c : Cell80), s.dev.h.link.up = true ∧ c.hchkGood = true ∧ (c.typ = 3 ∨ (c.typ = 4 ∧
      c.cchkGood = true ∧ (c.opcode = 0x20 ∨ c.opcode = 0x21))) ∧ c.route ≤ 7 ∧ c.seq = (s.dev.bulk x).rxSeq) ∧
    (∃ (s : State) (x : Die) (c : Cell80), s.dev.h.link.up = true ∧ c.hchkGood = true ∧ (c.typ = 3 ∨ (c.typ = 4 ∧
      c.cchkGood = true ∧ (c.opcode = 0x20 ∨ c.opcode = 0x21))) ∧ c.route ≤ 7 ∧ c.seq ≠ (s.dev.bulk x).rxSeq ∧
      (s.dev.bulk x).nakSent = false) ∧
    (∃ (s : State) (x : Die) (t : Nat), s.dev.h.link.up = true ∧ (s.dev.bulk x).since ≠ 0 ∧
      (s.dev.bulk x).sinceAt + 160 ≤ max s.dev.now t) ∧
    (∃ (s : State) (x : Die) (c : Cell80) (k : Nat), s.dev.h.link.up = true ∧ goodLink c 0x01 = true ∧
      (s.dev.bulk x).waitFw = [] ∧ (s.dev.bulk x).waitOp = [] ∧ s.dev.h.fwReads = [] ∧
      k = (c.bits 51 5 + 32 + (s.dev.bulk x).replay.length - (s.dev.bulk x).txSeq) % 32 ∧ k < (s.dev.bulk x).replay.length) ∧
    (∃ (s : State) (x : Die) (c : Cell80) (k t : Nat) (i : Instr), s.dev.h.link.up = true ∧ (s.dev.bulk x).replay ≠ [] ∧
      (s.dev.bulk x).resends < 3 ∧ s.dev.h.dev ≠ .halt ∧
      k = ((s.dev.bulk x).txSeq + 32 - (s.dev.bulk x).replay.length % 32) % 32 ∧
      ((i = .nak x c t ∧ goodLink c 0x02 = true) ∨
        (i = .replayTimeout x t ∧ (s.dev.bulk x).replayAt + 1600 ≤ max s.dev.now t))) :=
  ⟨⟨base, .f, cell 3 2 0 0, by decide⟩, ⟨base, .f, cell 3 2 7 0, by decide⟩,
    ⟨on fun d => { d with h.bulk := { BulkEnd.idle with since := 2, sinceAt := 5 } }, .h, 165, by decide⟩,
    ⟨on fun d => { d with h.bulk := { BulkEnd.idle with
        txSeq := 3, replay := [.opOpen 0 false 0 0 0, .opOpen 0 false 0 1 0, .opOpen 0 false 0 2 0] } },
     .h, (Cell.ack 1).wire 0, 1, by decide⟩,
    ⟨on fun d => { d with h.bulk := { BulkEnd.idle with txSeq := 1, replay := [.opOpen 0 false 0 0 0] } }, .h, (Cell.nak 0).wire 0,
     0, 0, .nak .h ((Cell.nak 0).wire 0) 0, by decide⟩⟩

theorem witness_LinkTrains :
    (∃ (s : State) (x : Die) (lanes : Nat), s.dev.h.link.up = true ∧
      lanes &&& (match x with | .f => s.dev.h.link.fwd | .h => s.dev.h.link.ret) ≠ 0) ∧
    (∃ (s : State) (c : Cell80), s.dev.h.link.up = true ∧ goodLink c 0x03 = true) ∧
    (∃ s : State, s.dev.h.link.up = true ∧ s.dev.h.link.stopped = false ∧ s.dev.hostOpen false = true ∧
      s.dev.hostOpen true = true) ∧
    (∃ (s : State) (fwd ret : Nat), s.dev.h.link.training = true ∧
      2 ≤ lanesIn (fwd % 16 &&& (15 ^^^ s.dev.h.link.fwdBad)) ∧ 1 ≤ lanesIn (ret % 4 &&& (3 ^^^ s.dev.h.link.retBad)) ∧
      s.dev.f.released = true ∧ s.dev.h.fReset = false ∧ s.dev.f.image.isSome = true ∧ s.dev.h.boot.env = none ∧
      s.dev.f.ch.rest = none) ∧
    (∃ (s : State) (t : Nat), s.dev.h.link.up = false ∧ s.dev.h.link.training = false ∧ s.dev.h.link.stopped = false ∧
      s.dev.h.dev ≠ .off ∧ s.dev.h.link.retryAt ≤ max s.dev.now t) :=
  ⟨⟨base, .f, 2, by decide⟩, ⟨base, (Cell.retrain 15 3).wire 0, by decide⟩, ⟨base, by decide⟩,
    ⟨on fun d => { d with h.link := ⟨false, true, 0, 0, 0, 0, false, 0⟩ }, 15, 3, by decide⟩,
    ⟨on fun d => { d with h.link := Link.down }, 5, by decide⟩⟩

/-- A write and a read wait on the H-side. -/
def oneWrite : State := on fun d => { d with h.fwQ := [⟨false, 0x2000, 5, false⟩] }
def oneRead : State := on fun d => { d with h.fwReads := [⟨false, 0x2000, 0, some 4, true⟩] }

theorem witness_FieldWindowAccesses :
    (∃ (s : State) (fn : Func) (off : Nat), onFSide off = true ∧ off % 4 = 0 ∧ s.dev.h.dev ≠ .boot ∧ s.dev.barOpen fn = true ∧
      s.dev.f.ch.rest = none ∧ s.dev.linkIsDown = false ∧ s.dev.h.fwQ.length < 16) ∧
    (∃ (s : State) (fn : Func) (k : Nat) (data : Word) (c : Cell80), s.dev.h.link.up = true ∧ k < 12 ∧
      writeCell c fn (Reg.SN_QUIET k) data) ∧
    (∃ (s : State) (data : Word) (c : Cell80), s.dev.h.link.up = true ∧ writeCell c false Reg.CH_LOCK data) ∧
    (∃ (s : State) (data : Word) (c : Cell80), s.dev.h.link.up = true ∧ writeCell c true Reg.CH_LOCK data) ∧
    (∃ (s : State) (k : Nat) (c : Cell80), s.dev.h.link.up = true ∧ isBulkCell c 3 0 = true ∧
      c.container.good (bitOf c.container.word.toNat 47) 0 routeFieldWindow = false ∧ k < 48 ∧
      4 * bitsOf c.container.word.toNat 32 14 = Reg.CH_CFG k) ∧
    (∃ (s : State) (fn : Func) (off : Nat) (w : FwWrite) (q : List FwWrite) (c : Cell80), s.dev.h.link.up = true ∧
      s.dev.h.fwQ = w :: q ∧ q.length < 16 ∧ w.fn = fn ∧ w.off = off ∧ w.lock = false ∧ shadowOff off = false ∧
      s.dev.h.fwReads = [] ∧ windowCell c 0x11 fn off ∧ c.bits 37 4 = 0) ∧
    (∃ (s : State) (fn : Func) (off : Nat) (w : FwWrite) (q : List FwWrite) (c : Cell80), s.dev.h.link.up = true ∧
      s.dev.h.fwQ = w :: q ∧ q.length < 16 ∧ w.fn = fn ∧ w.off = off ∧ w.lock = false ∧ shadowOff off = false ∧
      s.dev.h.fwReads = [] ∧ windowCell c 0x11 fn off ∧ c.bits 37 4 ≠ 0 ∧ c.bits 37 4 < 8) ∧
    (∃ (s : State) (fn : Func) (ecrc : Bool) (off : Nat), s.dev.barOpen fn = true ∧ s.dev.f.ch.rest = none ∧
      s.dev.ecrcDrops fn ecrc = false ∧ onFSide off = true ∧ off % 4 = 0 ∧ s.dev.linkIsDown = true) ∧
    (∃ (s : State) (fn : Func) (ecrc : Bool) (off : Nat), s.dev.barOpen fn = true ∧ s.dev.f.ch.rest = none ∧
      s.dev.ecrcDrops fn ecrc = false ∧ onFSide off = true ∧ off % 4 = 0 ∧ s.dev.h.link.up = true ∧ s.dev.h.fwQ = [] ∧
      s.dev.h.fwReads = []) ∧
    (∃ (s : State) (fn : Func) (ecrc : Bool) (off : Nat), s.dev.barOpen fn = true ∧ s.dev.f.ch.rest = none ∧
      s.dev.ecrcDrops fn ecrc = false ∧ onFSide off = false ∧ off % 4 = 0) ∧
    (∃ (bar : Bar) (off size : Nat), bar = .bar0 ∧ (size ≠ 4 ∨ off % 4 ≠ 0)) ∧
    (∃ (bar : Bar) (off size : Nat), bar = .bar2 ∧ ¬ (size = 4 ∧ off % 4 = 0) ∧ ¬ (size = 8 ∧ off % 8 = 0)) ∧
    (∃ (s : State) (fn : Func) (k : Nat) (c : Cell80), s.dev.h.link.up = true ∧ k < 48 ∧ windowCell c 0x10 fn (Reg.CH_CFG k)) ∧
    (∃ (s : State) (fn : Func) (off : Nat) (r : FwRead) (rest : List FwRead), s.dev.h.fwReads = r :: rest ∧ r.fn = fn ∧
      r.off = off ∧ r.sent.isSome = true) ∧
    (∃ (s : State) (fn : Func) (q t : Nat) (r : FwRead) (rest : List FwRead), s.dev.h.fwReads = r :: rest ∧
      r.fn = fn ∧ r.sent = some q ∧ q + 80000 ≤ max s.dev.now t) :=
  ⟨⟨base, false, 0x2000, by decide⟩,
    ⟨base, false, 0, 5, (Cell.fwWrite (fwContainer false (Reg.SN_QUIET 0) 5)).wire 0, by decide, by decide, by decide, by decide⟩,
    ⟨base, 5, (Cell.fwWrite (fwContainer false Reg.CH_LOCK 5)).wire 0, by decide, by decide, by decide⟩,
    ⟨base, 5, (Cell.fwWrite (fwContainer true Reg.CH_LOCK 5)).wire 0, by decide, by decide, by decide⟩,
    ⟨base, 0, (Cell.fwWrite ⟨BitVec.ofNat 48 (Reg.CH_CFG 0 / 4 * 2 ^ 32), 0⟩).wire 0, by decide⟩,
    ⟨oneWrite, false, 0x2000, ⟨false, 0x2000, 5, false⟩, [], (Cell.fwAck false 0x2000 0).wire 0, by decide, by decide, by decide,
     by decide, by decide, by decide, by decide, by decide, ⟨by decide, by decide, by decide⟩, by decide⟩,
    ⟨oneWrite, false, 0x2000, ⟨false, 0x2000, 5, false⟩, [], (Cell.fwAck false 0x2000 3).wire 0, by decide, by decide, by decide,
     by decide, by decide, by decide, by decide, by decide, ⟨by decide, by decide, by decide⟩, by decide⟩,
    ⟨on fun d => { d with h.link := Link.down }, false, false, 0x2000, by decide⟩,
    ⟨base, false, false, 0x2000, by decide⟩, ⟨base, false, true, 0x10, by decide⟩,
    ⟨.bar0, 2, 4, by decide⟩, ⟨.bar2, 4, 8, by decide⟩,
    ⟨base, false, 0, (Cell.fwRead false (Reg.CH_CFG 0)).wire 0, by decide, by decide, by decide, by decide, by decide⟩,
    ⟨oneRead, false, 0x2000, ⟨false, 0x2000, 0, some 4, true⟩, [], by decide⟩,
    ⟨oneRead, false, 4, 80004, ⟨false, 0x2000, 0, some 4, true⟩, [], by decide⟩⟩

theorem witness_ClearThenIncrementReadsOne :
    (∃ (s : State) (fn : Func) (off : Nat) (data : Word), s.dev.hostOpen fn = true ∧
      (off ∈ [Reg.PCI_CNT_SAT, Reg.RM_CNT_SAT, Reg.RM_CHK_STATUS, Reg.CH_CHK_SAT] ∨
        (off = Reg.RM_PRESS_SAT ∧ bitOf data.toNat (3 - fn.idx) = false) ∨
        (fn = false ∧ off ∈ [Reg.PRZ_CNT_SAT, Reg.NVS_CNT_SAT, Reg.SEC_CNT_SAT, Reg.MIR_CNT_SAT, Reg.CH_CNT_SAT]) ∨
        (off = Reg.CAR_CNT_SAT ∧ s.dev.carCode = codeOf fn) ∨
        (off = Reg.FSP_CNT_SAT ∧ s.dev.owns Fld.PCI_OWN_PORT_FSP fn = true) ∨
        (off = Reg.TWP_CNT_SAT ∧ s.dev.twpCtl = codeOf fn ∧ bitOf data.toNat 10 = false) ∨
        (off = Reg.TWP_CNT_SAT ∧ s.dev.twpTgt = codeOf fn ∧ bitOf data.toNat 8 = false ∧ bitOf data.toNat 9 = false))) ∧
    (∃ (s : State) (data : Word), s.dev.h.dev = .run ∧ s.dev.carCode = codeOf true ∧
      s.dev.owns Fld.PCI_OWN_PORT_FSP true = true ∧ s.dev.twpCtl = codeOf true ∧ s.dev.twpTgt = codeOf false ∧
      bitOf data.toNat 10 = false ∧ bitOf data.toNat 8 = true) :=
  ⟨⟨base, true, Reg.RM_CNT_SAT, 2, by decide⟩, ⟨on fun d => d.wr Reg.PCI_OWN_PORT 0x9A, 0x100, by decide⟩⟩

theorem witness_ConfigurationSpaceAndPowerStates :
    (∃ (s : State) (fn : Func) (ecrc : Bool), s.dev.h.dev ≠ .off ∧ s.dev.h.boot.perst = false ∧ s.dev.f.ch.rest = none ∧
      s.dev.cfgReady = true ∧ s.dev.ecrcDrops fn ecrc = false ∧ (s.dev.pci fn).d3 = false) ∧
    (∃ (s : State) (fn : Func), s.dev.h.dev ≠ .off ∧ s.dev.h.boot.perst = false ∧ s.dev.f.ch.rest = none ∧
      s.dev.cfgReady = true ∧ (s.dev.pci fn).d3 = true) ∧
    (∃ (s : State) (fn : Func) (ecrc : Bool), s.dev.h.dev ≠ .off ∧ s.dev.h.boot.perst = false ∧ s.dev.f.ch.rest = none ∧
      s.dev.h.dev = .boot ∧ s.dev.fld Fld.SYS_BOOT_STEP < 3 ∧ s.dev.ecrcDrops fn ecrc = false) :=
  ⟨⟨base, false, true, by decide⟩, ⟨on fun d => { d with h.pciA := { PciFn.reset with d3 := true } }, false, by decide⟩,
    ⟨on fun d => { d with h.dev := .boot }, false, true, by decide⟩⟩

theorem witness_InterruptsUnmaskAndClear :
    (∃ (s : State) (fn : Func) (vec : Nat), vec < 4 ∧ s.dev.barOpen fn = true ∧ (s.dev.pci fn).msixMask = false ∧
      (s.dev.pci fn).msixEn = true ∧ (s.dev.pci fn).d3 = false ∧ bitOf (s.dev.pci fn).pba vec = true ∧
      (∀ v, v < 4 → v ≠ vec → bitOf (s.dev.pci fn).pba v = true → s.dev.masked fn v = true)) ∧
    (∃ (s : State) (fn : Func), s.dev.hostOpen fn = true) :=
  ⟨⟨on fun d => { d with h.pciA := { d.h.pciA with pba := 4 } }, false, 2, by decide⟩, ⟨base, false, by decide⟩⟩

theorem witness_FunctionResetsAlone :
    (∃ s : State, s.dev.cfgOpen = true ∧ s.dev.broaderReset = false ∧ s.dev.f.ch.rest = none ∧
      Tab.wf (fun _ => none) s.dev.h.ops = true ∧ Tab.wf (fun _ => Ring.idle) s.dev.h.rings = true) ∧
    (∃ (s : State) (fn : Func), (s.dev.pci fn).resetAt.isSome = true) :=
  ⟨⟨base, by decide⟩, ⟨on fun d => { d with h.pciA := { PciFn.reset with resetAt := some 3 } }, false, by decide⟩⟩

theorem witness_PcieLinkEvents :
    (∃ (s : State) (speed width : Nat), s.dev.h.dev ≠ .off ∧ s.dev.h.boot.perst = false ∧ 4 ≤ s.dev.targetSpeed ∧ 1 ≤ speed ∧
      speed ≤ 4 ∧ speed ≤ s.dev.targetSpeed ∧ (width = 1 ∨ (width = 2 ∧ speed < 4))) ∧
    (∃ s : State, s.dev.h.dev ≠ .off ∧ s.dev.h.boot.perst = false ∧ s.dev.f.ch.rest = none) :=
  ⟨⟨base, 3, 2, by decide⟩, ⟨base, by decide⟩⟩

theorem witness_HostWritesRegisters :
    (∃ (s : State) (fn : Func) (i : Nat) (data : Word), s.dev.hostOpen fn = true ∧ i < 3 ∧ fn = false ∧
      s.dev.flag Fld.PCI_OWN_CTRL_LOCK = false ∧ (∀ k, k < 16 → mapCodeAt data k ≠ 3)) ∧
    (∃ (s : State) (fn : Func) (i : Nat), s.dev.hostOpen fn = true ∧ i < 3 ∧
      (fn = true ∨ s.dev.flag Fld.PCI_OWN_CTRL_LOCK = true)) ∧
    (∃ (s : State) (fn : Func) (ecrc : Bool), s.dev.hostOpen fn = true ∧ s.dev.ecrcDrops fn ecrc = true) ∧
    (∃ (s : State) (fn : Func) (ecrc : Bool) (n : Nat), s.dev.hostOpen fn = true ∧ n < 64 ∧ s.dev.ringOwner n = fn ∧
      s.dev.ringEn n = false ∧ s.dev.ecrcDrops fn ecrc = false) ∧
    (∃ (s : State) (fn : Func) (ecrc : Bool) (off size : Nat), s.dev.hostOpen fn = true ∧ (size ≠ 4 ∨ off % 4 ≠ 0) ∧
      s.dev.ecrcDrops fn ecrc = false) ∧
    (∃ (s : State) (fn : Func) (ecrc : Bool) (n : Nat), s.dev.hostOpen fn = true ∧ n < 4 ∧ (s.dev.pci fn).msixEn = false ∧
      s.dev.ecrcDrops fn ecrc = false) ∧
    (∃ (s : State) (fn : Func), s.dev.hostOpen fn = true ∧ s.dev.hostOpen false = true) :=
  ⟨⟨base, false, 1, 0x5, by decide⟩, ⟨base, true, 1, by decide⟩,
    ⟨on fun d => { d with h.pciA := { d.h.pciA with ecrcChk := true } }, false, false, by decide⟩,
    ⟨base, false, true, 2, by decide⟩, ⟨base, false, true, 2, 4, by decide⟩,
    ⟨on fun d => { d with h.pciA := { PciFn.reset with mse := true } }, false, true, 1, by decide⟩, ⟨base, false, by decide⟩⟩

/-- Ring 2 of Function A is enabled; it runs; its sweep is outstanding too. -/
def rings (d : Dev) : Dev := (d.setFld Fld.RM_CTRL_A_RINGS 4).wr (Reg.RM_DB_BASE_LO 0) 0x1000
def ringOn (d : Dev) : Dev := (rings d).wr (Reg.RM_RING_CFG 2) 9
def ringRuns (r : Ring) (d : Dev) : Dev := { ringOn d with h.rings := [(2, { r with running := true })] }
def swept (d : Dev) : Dev := { ringRuns Ring.idle d with h.sweepA := ⟨true, false, 0, 2, 3, 63⟩ }

theorem witness_RingsEnableAndDisable :
    (∃ (s : State) (fn : Func) (n : Nat) (data : Word), n < 64 ∧ s.dev.ringOwner n = fn ∧ s.dev.hostOpen fn = true ∧
      s.dev.ringEn n = false ∧ s.dev.enableBad fn n (bitsOf data.toNat 1 4) = false) ∧
    (∃ (s : State) (fn : Func) (n : Nat) (data : Word), n < 64 ∧ s.dev.ringOwner n = fn ∧ s.dev.hostOpen fn = true ∧
      s.dev.ringEn n = false ∧ s.dev.enableBad fn n (bitsOf data.toNat 1 4) = true) ∧
    (∃ (s : State) (fn : Func) (n : Nat) (data : Word), n < 64 ∧ s.dev.ringOwner n = fn ∧ s.dev.hostOpen fn = true ∧
      s.dev.ringEn n = true ∧ changes (s.dev.rd (Reg.RM_RING_CFG n)) (data &&& ~~~1) 0xFFFF001E = false ∧
      Tab.wf (fun _ => none) s.dev.h.ops = true) :=
  ⟨⟨on rings, false, 2, 9, by decide⟩, ⟨on rings, false, 2, 3, by decide⟩, ⟨on ringOn, false, 2, 8, by decide⟩⟩

theorem witness_SweepsAndFetches :
    (∃ (s : State) (fn : Func) (n t : Nat), s.dev.fetchMay fn = true ∧ s.dev.enabledRings fn = [n] ∧
      (s.dev.sweep fn).outstanding = false ∧
      (s.dev.sweep fn).last + s.dev.fld (Fld.RM_SWEEP_CFG_PERIOD fn.idx) * 400 ≤ max s.dev.now t) ∧
    (∃ (s : State) (fn : Func) (n : Nat) (w : Quad), (s.dev.sweep fn).outstanding = true ∧ (s.dev.sweep fn).deferred = false ∧
      s.dev.enabledRings fn = [n] ∧ (s.dev.sweep fn).base = s.dev.ringLocal n ∧ (s.dev.ring n).running = true ∧
      bitsOf w.toNat 16 16 = s.dev.fld (Fld.RM_RING_CFG_GEN n) ∧ bitsOf w.toNat 32 32 = 0 ∧
      (bitsOf w.toNat 0 16 + 2 ^ 16 - (s.dev.ring n).ci) % 2 ^ 16 ≤ s.dev.ringDepth n) ∧
    (∃ (s : State) (fn : Func), (s.dev.sweep fn).outstanding = true ∧ (s.dev.sweep fn).deferred = false ∧
      s.dev.cplTimeoutOff fn = false) ∧
    (∃ (s : State) (fn : Func), (s.dev.sweep fn).outstanding = true ∧ (s.dev.sweep fn).deferred = false ∧
      s.dev.cplTimeoutOff fn = true) ∧
    (∃ (s : State) (fn : Func), s.dev.h.turn = fn ∧ s.dev.fetchWants fn = true ∧ 0 < (s.dev.sweep fn).credits ∧
      s.dev.v0Due = false ∧ s.dev.tagMay fn = true) ∧
    (∃ (s : State) (fn : Func), s.dev.h.turn = fn ∧ s.dev.fetchWants fn = true ∧ 0 < (s.dev.sweep fn).credits ∧
      s.dev.v0Due = false ∧ s.dev.tagMay fn = false) ∧
    (∃ (s : State) (n c : Nat) (more : List (Nat × Bool)) (e : Desc), (s.dev.ring n).fetching = (c + 1, false) :: more ∧
      s.dev.admission (s.dev.ringOwner n) n e = none) :=
  ⟨⟨on ringOn, false, 2, 2 ^ 40, by decide⟩, ⟨on swept, false, 2, 3, by decide⟩, ⟨on swept, false, by decide⟩,
    ⟨on fun d => (swept d).wr (cfgKey false 0x88) 0x10, false, by decide⟩,
    ⟨on fun d => { (ringRuns { Ring.idle with pi := 3 } d).setFld (Fld.RM_CEIL_CEIL 0) 8 with h.sweepA := ⟨false, false, 0, 2, 3, 63⟩ },
     false, by decide⟩,
    ⟨on fun d => { (((rings d).setFld (Fld.RM_CEIL_CEIL 0) 0).wr (Reg.RM_RING_CFG 0) 9) with
        h.rings := [(0, { Ring.idle with running := true, pi := 3 })], h.sweepA := ⟨false, false, 0, 2, 3, 63⟩ },
     false, by decide⟩,
    ⟨on (ringRuns { Ring.idle with fetching := [(1, false)] }), 2, 0, [], Desc.zero, by decide⟩⟩

theorem witness_OperationsOpenAndClose :
    (∃ (s : State) (tag : Nat) (o : Op), s.dev.op tag = some o ∧ o.stage = .admitted ∧ s.dev.openTurn o = true ∧
      s.dev.h.dev ≠ .rest ∧ (s.dev.pci o.fn).d3 = false ∧ o.desc.opcode = opNOP) ∧
    (∃ (s : State) (tag : Nat) (o : Op), s.dev.op tag = some o ∧ o.stage = .admitted ∧ s.dev.openTurn o = true ∧
      s.dev.h.dev ≠ .rest ∧ (s.dev.pci o.fn).d3 = false ∧ o.desc.crosses = true ∧
      (o.desc.opcode = opOUT_WRITE → o.desc.update = 0) ∧ s.dev.h.link.up = true ∧ s.dev.haltAct = false ∧
      s.dev.h.bulk.waitOp = [] ∧ s.dev.h.bulk.replay.length < 16) ∧
    (∃ (s : State) (tag : Nat) (o : Op), s.dev.op tag = some o ∧ s.dev.fop tag = none ∧ o.stage = .opened ∧
      o.desc.crosses = true ∧ (o.desc.opcode = opOUT_WRITE → o.desc.update = 0) ∧ s.dev.h.link.up = true ∧
      s.dev.h.bulk.waitOp.any (Cell.opens tag) = false) ∧
    (∃ (s : State) (tag at_ : Nat) (o : Op), s.dev.op tag = some o ∧ o.drop = false ∧ o.halted = false ∧
      (s.dev.pci o.fn).bme = true ∧
      at_ = s.dev.addr (Reg.RM_CPL_BASE_LO o.ring) (Reg.RM_CPL_BASE_HI o.ring) + 16 * ((s.dev.ring o.ring).cplPi % s.dev.ringDepth o.ring) ∧
      o.stage = .opened ∧ o.desc.opcode = opNOP ∧ s.dev.h.dev ≠ .rest) ∧
    (∃ (s : State) (tag at_ st : Nat) (o : Op) (x : FOp) (result : Quad), s.dev.op tag = some o ∧
      o.drop = false ∧ o.halted = false ∧ (s.dev.pci o.fn).bme = true ∧
      at_ = s.dev.addr (Reg.RM_CPL_BASE_LO o.ring) (Reg.RM_CPL_BASE_HI o.ring) + 16 * ((s.dev.ring o.ring).cplPi % s.dev.ringDepth o.ring) ∧
      s.dev.fop tag = some x ∧ x.ended = some (st, result) ∧ x.got = [] ∧ s.dev.h.link.up = true ∧
      s.dev.f.bulk.waitOp.any (Cell.closes tag) = false ∧
      (o.desc.boxed = true → result ≠ 0 → (Container.ofBits result).good o.fn o.ring o.desc.dest = true)) ∧
    (∃ (s : State) (tag : Nat) (o : Op), s.dev.op tag = some o ∧ o.stage = .opened ∧ o.drop = false ∧ o.desc.opcode = opMGMT ∧
      o.desc.bodyBytes.isSome = true ∧ s.dev.body tag = none) ∧
    (∃ (s : State) (n at_ t : Nat), (s.dev.ring n).irqDue = some at_ ∧ at_ + 160 ≤ max s.dev.now t) :=
  ⟨⟨on fun d => putH d (ho (de opNOP 0 0 0 0 0 0 0 0) .admitted), 0, ho (de opNOP 0 0 0 0 0 0 0 0) .admitted, by decide⟩,
    ⟨on fun d => putH d (ho (de opCH_SAMPLE 0x101 0 0 0 0 0 0 0) .admitted), 0,
     ho (de opCH_SAMPLE 0x101 0 0 0 0 0 0 0) .admitted, by decide⟩,
    ⟨on fun d => putH d (ho (de opCH_SAMPLE 0x101 0 0 0 0 0 0 0) .opened), 0, ho (de opCH_SAMPLE 0x101 0 0 0 0 0 0 0) .opened,
     by decide⟩,
    ⟨on fun d => putH d (ho (de opNOP 0 0 0 0 0 0 0 0) .opened), 0, 0, ho (de opNOP 0 0 0 0 0 0 0 0) .opened, by decide⟩,
    ⟨on fun d => putF (putH d (ho (de opCH_CAPTURE 0x101 0 0 0 0 0 0 0) .opened)) { fo (de opCH_CAPTURE 0x101 0 0 0 0 0 0 0) with ended := some (0, 5) },
     0, 0, 0, ho (de opCH_CAPTURE 0x101 0 0 0 0 0 0 0) .opened,
     { fo (de opCH_CAPTURE 0x101 0 0 0 0 0 0 0) with ended := some (0, 5) }, 5, by decide⟩,
    ⟨on fun d => putH d (ho (de opMGMT 0x1F0 cmdREKEY 0 0 0 0 0 0) .opened), 0,
     ho (de opMGMT 0x1F0 cmdREKEY 0 0 0 0 0 0) .opened, by decide⟩,
    ⟨on fun d => { d with h.rings := [(2, { Ring.idle with irqDue := some 4 })] }, 2, 4, 164, by decide⟩⟩

theorem witness_OutWriteMergesIntoImage :
    (∃ (s : State) (tag : Nat) (agree : Bool) (o : Op), s.dev.openedOp tag opOUT_WRITE = some o ∧ s.dev.mergeTurn o = true ∧
      s.dev.h.dev ≠ .rest ∧ o.desc.value.good o.fn o.ring 0x100 = true ∧ agree = true) ∧
    (∃ (s : State) (tag : Nat) (agree : Bool) (o : Op), s.dev.openedOp tag opOUT_WRITE = some o ∧ s.dev.mergeTurn o = true ∧
      s.dev.h.dev ≠ .rest ∧ (o.desc.value.good o.fn o.ring 0x100 && agree) = false) :=
  ⟨⟨on fun d => putH d (ho (de opOUT_WRITE 0x100 0 0 (Container.make 9 false 0 0x100).bits 0xFF 0 0 0) .opened), 0, true,
     ho (de opOUT_WRITE 0x100 0 0 (Container.make 9 false 0 0x100).bits 0xFF 0 0 0) .opened, by decide⟩,
    ⟨on fun d => putH d (ho (de opOUT_WRITE 0x100 0 0 (Container.make 9 false 0 0x100).bits 0xFF 0 0 0) .opened), 0, false,
     ho (de opOUT_WRITE 0x100 0 0 (Container.make 9 false 0 0x100).bits 0xFF 0 0 0) .opened, by decide⟩⟩

/-- A record of an edge. -/
def aRecord : CapRec := ⟨some (3, 0), ⟨0, 0⟩, ⟨0, 0⟩⟩

theorem witness_ChannelSamplesAndCaptures :
    (∃ (s : State) (tag : Nat) (o : FOp), s.dev.freshOp tag opCH_SAMPLE = some o ∧ s.dev.f.ch.rest = none ∧
      (s.dev.op tag).isSome = true) ∧
    (∃ (s : State) (tag : Nat) (o : FOp), s.dev.freshOp tag opCH_CAPTURE = some o ∧ s.dev.cap o.fn = none ∧
      s.dev.h.restEntry = none ∧ s.dev.f.ch.rest = none) ∧
    (∃ (s : State) (fn : Func) (o : FOp) (c : Cap) (r : CapRec) (rest : List CapRec), s.dev.cap fn = some c ∧
      s.dev.fop c.tag = some o ∧ c.lost = 0 ∧ c.unsent = r :: rest ∧ c.sent + 1 < c.count) ∧
    (∃ (s : State) (fn : Func) (e t : Nat) (o : FOp) (c : Cap), s.dev.cap fn = some c ∧ s.dev.fop c.tag = some o ∧
      c.lost = 0 ∧ c.unsent = [] ∧ c.tEnd = some e ∧ e ≤ max s.dev.now t ∧ o.ended = none ∧ (s.dev.op c.tag).isSome = true) :=
  ⟨⟨on (putB (de opCH_SAMPLE 0x101 0 0 0 0 0 0 0)), 0, fo (de opCH_SAMPLE 0x101 0 0 0 0 0 0 0), by decide⟩,
    ⟨on (putB (de opCH_CAPTURE 0x101 4 64 0xF 1 0 0 0)), 0, fo (de opCH_CAPTURE 0x101 4 64 0xF 1 0 0 0), by decide⟩,
    ⟨on fun d => { putF d (fo (de opCH_CAPTURE 0x101 4 64 0xF 1 0 0 0)) with
        f.ch.capA := some ⟨0, 0xF, 1, 4, 1, 0, 64, some 9, [aRecord], 0, 0⟩ },
     false, fo (de opCH_CAPTURE 0x101 4 64 0xF 1 0 0 0), ⟨0, 0xF, 1, 4, 1, 0, 64, some 9, [aRecord], 0, 0⟩, aRecord, [], by decide⟩,
    ⟨on fun d => { putB (de opCH_CAPTURE 0x101 4 64 0xF 1 0 0 0) d with f.ch.capA := some ⟨0, 0xF, 1, 4, 1, 0, 64, some 9, [], 0, 0⟩ },
     false, 9, 9, fo (de opCH_CAPTURE 0x101 4 64 0xF 1 0 0 0), ⟨0, 0xF, 1, 4, 1, 0, 64, some 9, [], 0, 0⟩, by decide⟩⟩

/-- An IMMEDIATE OUT_WRITE of the low eight channels. -/
def immWrite : Desc := de opOUT_WRITE 0x100 1 0 (Container.make 9 false 0 0x100).bits 0xFF 0 0 0

theorem witness_ChannelWordsAndLevels :
    (∃ (s : State) (tag : Nat) (o : FOp) (x : Op) (v : Container), s.dev.freshOp tag opOUT_WRITE = some o ∧
      o.desc.update = 1 ∧ s.dev.op tag = some x ∧ x.stage = .closing ∧ v.good o.fn o.ring 0x100 = true) ∧
    (∃ (s : State) (bank e t : Nat) (rest : List Nat) (o : FOp) (rb pull rel : W48) (w : OutWait),
      Tab.get (fun _ => []) s.dev.f.ch.due bank = e :: rest ∧ e ≤ max s.dev.now t ∧ bank < 6 ∧
      rel = s.dev.f.ch.maskOf (fun c => cfgMode c == 3) &&& s.dev.f.ch.cmd ∧
      s.dev.f.ch.compared &&& bankMask bank &&& (((s.dev.f.ch.cmd ^^^ rb) &&& ~~~rel) ||| (pull &&& rel)) = 0 ∧
      s.dev.mask48 Reg.CH_PIN_MISM_LO Reg.CH_PIN_MISM_HI = 0 ∧ s.dev.f.ch.outw = [w] ∧
      w.since + s.dev.settle bank ≤ max s.dev.now t ∧ w.left &&& ~~~bankMask bank = 0 ∧ w.bad = false ∧ w.held = false ∧
      s.dev.fop w.tag = some o ∧ o.ended = none ∧ (s.dev.op w.tag).isSome = true) ∧
    (∃ (s : State) (ch raw t : Nat) (level : Bool), ch < 48 ∧ (s.dev.f.ch.level &&& chBit ch != 0) = !level ∧
      s.dev.f.ch.enabled = true ∧ s.dev.f.ch.rest = none ∧ raw + 8 * cfgFilt (s.dev.f.ch.cfgAt ch) ≤ max s.dev.now t) :=
  ⟨⟨on fun d => putF (putH d (ho immWrite .closing)) (fo immWrite), 0, fo immWrite, ho immWrite .closing,
     Container.make 9 false 0 0x100, by decide⟩,
    ⟨on fun d => let e := putBegun immWrite d
       { e with f.ch := { e.f.ch with due := [(0, [100])], outw := [⟨0, false, 0xFF, 0xFF, 0, false, false⟩] } },
     0, 100, 2 ^ 20, [], { fo immWrite with begun := true }, 0, 0, 0, ⟨0, false, 0xFF, 0xFF, 0, false, false⟩, by decide⟩,
    ⟨base, 3, 0, 0, true, by decide⟩⟩

theorem witness_ChannelSuppliesAndSetUp :
    (∃ (s : State) (bank : Nat), bank < 6 ∧ bitOf (s.dev.fld Fld.CH_STATUS_VIO_LOW) bank = false) ∧
    (∃ (s : State) (bank : Nat), bank < 6 ∧ s.dev.fld Fld.CH_STATUS_VIO_LOW = 2 ^ bank) ∧
    (∃ (s : State) (ch : Nat), ch < 48 ∧ s.dev.f.ch.outMask &&& chBit ch ≠ 0) ∧
    (∃ (s : State) (fn : Func) (data : Word), ∀ k, k < 32 → bitOf data.toNat k = true → s.dev.mayConfigure fn k = true) ∧
    (∃ (s : State) (fn : Func) (ch : Nat), ch < 48 ∧ s.dev.mayConfigure fn ch = true ∧
      bitOf (s.dev.fld Fld.CH_LOCK_LOCK) (ch / 8) = false ∧ s.dev.f.ch.enabled = true) :=
  ⟨⟨base, 2, by decide⟩, ⟨on fun d => d.setFld Fld.CH_STATUS_VIO_LOW 4, 2, by decide⟩,
    ⟨on fun d => { d with f.ch := { d.f.ch with cfg := [(1, 2)] } }, 1, by decide⟩, ⟨base, false, 6, by decide⟩,
    ⟨base, false, 1, by decide⟩⟩

/-- The FSP's select 0 is Function A's. -/
def sel0 (d : Dev) : Dev := d.setFld (Fld.PCI_OWN_PORT_FSP_SEL 0) 1

/-- An entry load, a run and a target operation; entry 0 with one receive phase of 12 bits, plain or framed, its run, and a target
operation whose reply is empty. -/
def dLoad : Desc := de opFSP_ENTRY_LOAD 0x118 0 0 (5 + 11 * 2 ^ 6) 0 0 0 0
def dRun : Desc := de opFSP_RUN 0x118 0 64 16 0 0 0 0
def dTarget : Desc := de opFSP_TARGET 0x110 0 64 1 0 1 0 0
def entry (ectrl : Nat) : FspEntry := ⟨true, [5 + 11 * 2 ^ 6], ectrl, 0, 0, 0⟩
def framed : FspEntry := ⟨true, [4 + 11 * 2 ^ 6, 5 + 11 * 2 ^ 6], 16, 0, 0, 0⟩
def aRun : FspRun := ⟨some 0, 0, false, 0, 64, 16, 0, 0, false, some [], 0, 0, false, false, false, 0, false, false⟩
def aTgt : FspTgt := ⟨0, 0, false, 0, 1, 0, 1, some []⟩
/-- The lanes of a word with an intact frame of that many bits: one bit a clock, on lane 0. -/
def goodFrame (n : Nat) : List (BitVec 8) :=
  (frameBits (nextAlive 0) false false false (List.replicate n false)).map (fun b => if b then 1 else 0)
def fsp (x : Fsp) (d : Dev) : Dev := { d with f.fsp := x }
def withEntry (ectrl : Nat) : Fsp := { Fsp.reset with entries := [(0, entry ectrl)] }

theorem witness_SerialPortOperations :
    (∃ (s : State) (tag : Nat) (o : FOp), s.dev.freshOp tag opFSP_ENTRY_LOAD = some o ∧ (s.dev.op tag).isSome = true ∧
      s.dev.flag Fld.FSP_CTRL_ROLE = false ∧ s.dev.f.fsp.cur = none ∧ s.dev.f.fsp.queue = [] ∧
      (∀ w ∈ s.dev.f.fsp.waiting ++ s.dev.f.fsp.fired, w.asked = true ∧ w.entry ≠ o.desc.entry) ∧
      s.dev.absEntry ≠ some o.desc.entry ∧ s.dev.selCode (ecSel o.desc.ectrl) = codeOf o.fn ∧
      ((s.dev.fspEntry o.desc.entry).loaded = true →
        s.dev.selCode (ecSel (s.dev.fspEntry o.desc.entry).ectrl) = codeOf o.fn) ∧ fspLoadBad o.desc = false) ∧
    (∃ (s : State) (tag : Nat) (o : FOp) (c : FspRun), s.dev.freshOp tag opFSP_ENTRY_LOAD = some o ∧
      s.dev.flag Fld.FSP_CTRL_ROLE = false ∧ s.dev.f.fsp.cur = some c ∧ s.dev.f.fsp.queue = [] ∧
      (∀ w ∈ s.dev.f.fsp.runs, w.asked = true ∨ w.txWords = 0)) ∧
    (∃ (s : State) (tag : Nat) (o : FOp) (x : FspEntry), s.dev.freshOp tag opFSP_RUN = some o ∧
      s.dev.flag Fld.FSP_CTRL_ROLE = false ∧ s.dev.fspEntry o.desc.entry = x ∧ x.loaded = true ∧
      s.dev.selCode (ecSel x.ectrl) = codeOf o.fn ∧ s.dev.absEntry ≠ some o.desc.entry ∧ s.dev.f.fsp.queue = [] ∧
      x.txWords ≤ 16384 ∧ s.dev.f.fsp.cur = none ∧ s.dev.f.fsp.waiting = [] ∧ s.dev.f.fsp.fired = [] ∧ x.txWords = 0 ∧
      (∀ w ∈ s.dev.f.fsp.runs, w.asked = true ∨ w.txWords = 0) ∧ (∀ w ∈ s.dev.f.fsp.waiting, w.entry ≠ o.desc.entry)) ∧
    (∃ (s : State) (tag sel : Nat) (o : FOp), s.dev.freshOp tag opFSP_TARGET = some o ∧ s.dev.flag Fld.FSP_CTRL_ROLE = false ∧
      sel = o.desc.dest - 0x110 ∧
      bitsOf o.desc.q2.toNat 0 16 = (s.dev.fld (Fld.FSP_TGT_LEN_RPL_LENM1 sel) + 48) / 48 ∧
      (s.dev.fld (Fld.FSP_TGT_LEN_RQ_MAXM1 sel) + 48) / 48 ≤ bitsOf o.desc.q4.toNat 0 16) ∧
    (∃ (s : State) (fn : Func) (data : Word), s.dev.owns Fld.PCI_OWN_PORT_FSP fn = true ∧ s.dev.flag Fld.FSP_CTRL_EN = true ∧
      changes (s.dev.rd Reg.FSP_CTRL) (data &&& 0xFFFFFFFE) 0x6 = false ∧
      (s.dev.f.fsp.inWord = true ∨ s.dev.f.fsp.serving.isSome = true)) ∧
    (∃ (s : State) (fn : Func) (data : Word), s.dev.owns Fld.PCI_OWN_PORT_FSP fn = true ∧ s.dev.flag Fld.FSP_CTRL_EN = true ∧
      changes (s.dev.rd Reg.FSP_CTRL) (data &&& 0xFFFFFFFE) 0x6 = false ∧ s.dev.f.fsp.inWord = false ∧
      s.dev.f.fsp.serving = none) ∧
    (∃ (s : State) (fn : Func) (sel : Nat) (data : Word), sel < 8 ∧ s.dev.selCode sel = codeOf fn ∧
      (∀ y ∈ s.dev.f.fsp.tgts, y.sel ≠ sel) ∧ (∀ y, s.dev.f.fsp.serving = some y → y.1 ≠ sel) ∧
      (s.dev.f.fsp.inWord = true → ∀ y, s.dev.f.fsp.cur = some y → ecSel (s.dev.fspEntry y.entry).ectrl ≠ sel) ∧
      2 ≤ bitsOf data.toNat 6 8) :=
  ⟨⟨on fun d => putB dLoad (sel0 d), 0, fo dLoad, by decide⟩,
    ⟨on fun d => fsp { withEntry 0 with cur := some aRun } (putF d (fo dLoad)), 0, fo dLoad, aRun, by decide⟩,
    ⟨on fun d => fsp (withEntry 0) (putF (sel0 d) (fo dRun)), 0, fo dRun, entry 0, by decide⟩,
    ⟨on fun d => putF d (fo dTarget), 0, 0, fo dTarget, by decide⟩,
    ⟨on fun d => fsp { withEntry 0 with cur := some aRun, inWord := true } ((d.setFld Fld.PCI_OWN_PORT_FSP 1).setFld Fld.FSP_CTRL_EN 1),
     false, 0, by decide⟩,
    ⟨on fun d => (d.setFld Fld.PCI_OWN_PORT_FSP 1).setFld Fld.FSP_CTRL_EN 1, false, 0, by decide⟩,
    ⟨on sel0, false, 0, 0x80, by decide, by decide, by decide, (fun _ h => nomatch h), (fun h => nomatch h),
     by decide⟩⟩

theorem witness_SerialPortWords :
    (∃ (s : State) (x : FspEntry) (r : FspRun) (rest : List FspItem), s.dev.f.fsp.inWord = false ∧ x = s.dev.fspEntry r.entry ∧
      s.dev.fspOn 0 = true ∧ s.dev.f.fsp.stopping = false ∧ s.dev.f.fsp.cur = none ∧ s.dev.f.fsp.absDue = false ∧
      (∀ w ∈ s.dev.f.fsp.runs, w.asked = true ∨ w.txWords = 0) ∧ r.staged.isSome = true ∧
      ecWords x.ectrl * wordRx x.phases ≤ r.rxCap ∧ s.dev.f.fsp.fired = [] ∧ s.dev.f.fsp.queue = .run r :: rest) ∧
    (∃ (s : State) (x : FspEntry) (r : FspRun) (fired : List FspRun), s.dev.f.fsp.inWord = false ∧
      x = s.dev.fspEntry r.entry ∧ s.dev.fspOn 0 = true ∧ s.dev.f.fsp.stopping = false ∧ s.dev.f.fsp.cur = none ∧
      s.dev.f.fsp.absDue = false ∧ (∀ w ∈ s.dev.f.fsp.runs, w.asked = true ∨ w.txWords = 0) ∧ r.staged.isSome = true ∧
      ecWords x.ectrl * wordRx x.phases ≤ r.rxCap ∧ s.dev.f.fsp.fired = r :: fired) ∧
    (∃ (s : State) (x : FspEntry) (r : FspRun) (cs : List Container), s.dev.f.fsp.inWord = false ∧ x = s.dev.fspEntry r.entry ∧
      s.dev.fspOn 0 = true ∧ s.dev.f.fsp.cur = some r ∧ s.dev.rxStaged + wordRx x.phases ≤ 16384 ∧
      cs = ((r.staged.getD []).drop (wordTx x.phases * r.word)).take (wordTx x.phases) ∧
      (∀ c ∈ cs, c.good r.fn r.ring 0x118 = true)) ∧
    (∃ (s : State) (x : FspEntry) (r : FspRun) (p g : Nat) (o : FOp), s.dev.f.fsp.inWord = false ∧
      x = s.dev.fspEntry r.entry ∧ s.dev.f.fsp.cur = some r ∧ x.phases.filter (fun y => phKind y == 5) = [p] ∧ r.word + 1 = ecWords x.ectrl ∧
      s.dev.f.fsp.queue = [] ∧ s.dev.f.fsp.stopping = false ∧ r.tag = some g ∧ s.dev.fop g = some o ∧ o.ended = none ∧
      (s.dev.op g).isSome = true ∧ ecFramed x.ectrl = false) ∧
    (∃ (s : State) (x : FspEntry) (k : FspSel) (r : FspRun) (p g : Nat) (o : FOp) (lanes : List (BitVec 8)) (fr : RxFrame),
      s.dev.f.fsp.inWord = false ∧ x = s.dev.fspEntry r.entry ∧ k = s.dev.fspSel (ecSel x.ectrl) ∧
      s.dev.f.fsp.cur = some r ∧ x.phases.filter (fun y => phKind y == 5) = [p] ∧ r.word + 1 = ecWords x.ectrl ∧
      s.dev.f.fsp.queue = [] ∧ s.dev.f.fsp.stopping = false ∧ r.tag = some g ∧ s.dev.fop g = some o ∧ o.ended = none ∧
      (s.dev.op g).isSome = true ∧ ecFramed x.ectrl = true ∧
      fr = readFrame (laneBits (phWidth p) (phD1 p) lanes) (phLen p) ∧ fr.bad = false ∧ fr.under = false ∧
      fr.badRx = false ∧ fr.alive = nextAlive k.rxAlive) ∧
    (∃ (s : State) (sel : Nat) (asserted : Bool) (x : FspTgt), sel < 8 ∧ s.dev.fspOn 1 = true ∧ s.dev.f.fsp.serving = none ∧
      s.dev.rxStaged + (s.dev.fld (Fld.FSP_TGT_LEN_RQ_MAXM1 sel) + 48) / 48 ≤ 16384 ∧
      (asserted = true ∨ s.dev.flag (Fld.FSP_TGT_CFG_HELD sel) = true) ∧ s.dev.fspReady sel = some x) ∧
    (∃ (s : State) (sel : Nat) (asserted : Bool), sel < 8 ∧ s.dev.fspOn 1 = true ∧ s.dev.f.fsp.serving = none ∧
      s.dev.rxStaged + (s.dev.fld (Fld.FSP_TGT_LEN_RQ_MAXM1 sel) + 48) / 48 ≤ 16384 ∧
      (asserted = true ∨ s.dev.flag (Fld.FSP_TGT_CFG_HELD sel) = true) ∧ s.dev.fspReady sel = none) ∧
    (∃ (s : State) (sel : Nat), sel < 8 ∧ s.dev.fspOn 1 = true ∧ s.dev.f.fsp.serving = none ∧
      s.dev.rxStaged + (s.dev.fld (Fld.FSP_TGT_LEN_RQ_MAXM1 sel) + 48) / 48 ≤ 16384 ∧
      s.dev.flag (Fld.FSP_TGT_CFG_HELD sel) = false) ∧
    (∃ (s : State) (sel : Nat) (x : FspTgt) (k : FspSel) (o : FOp) (request : List (BitVec 8)) (fr : RxFrame), sel < 8 ∧
      k = s.dev.fspSel sel ∧ s.dev.f.fsp.serving = some (sel, some x.tag) ∧
      s.dev.f.fsp.tgts.find? (fun y => y.tag == x.tag) = some x ∧
      fr = readFrame (laneBits (s.dev.fld (Fld.FSP_TGT_CFG_RQ_W sel)) false request)
        (s.dev.fld (Fld.FSP_TGT_LEN_RQ_MAXM1 sel) + 1) ∧ fr.bad = false ∧ fr.under = false ∧
      fr.alive = nextAlive k.rxAlive ∧ k.pendUnder = false ∧ s.dev.f.fsp.stopping = false ∧
      s.dev.fop x.tag = some o ∧ o.ended = none ∧ (s.dev.op x.tag).isSome = true) ∧
    (∃ (s : State) (sel a : Nat) (cs : List Container), sel < 8 ∧ s.dev.f.fsp.serving = some (sel, none) ∧
      s.dev.f.fsp.stopping = false ∧ (s.dev.fspSel sel).prev = some (a, cs)) ∧
    (∃ (s : State) (r : FspRun), s.dev.f.fsp.cur = some r ∧ s.dev.f.fsp.inWord = true ∧ s.dev.f.fsp.stopping = true) :=
  ⟨⟨on fun d => fsp { withEntry 0 with queue := [.run aRun] } (d.setFld Fld.FSP_CTRL_EN 1), entry 0, aRun, [], by decide⟩,
    ⟨on fun d => fsp { withEntry 0 with fired := [aRun] } (d.setFld Fld.FSP_CTRL_EN 1), entry 0, aRun, [], by decide⟩,
    ⟨on fun d => fsp { withEntry 0 with cur := some aRun } (d.setFld Fld.FSP_CTRL_EN 1), entry 0, aRun, [], by decide⟩,
    ⟨on fun d => fsp { withEntry 0 with cur := some aRun } (putBegun dRun d), entry 0, aRun, 5 + 11 * 2 ^ 6, 0,
     { fo dRun with begun := true }, by decide⟩,
    ⟨on fun d => fsp { Fsp.reset with entries := [(0, framed)], cur := some aRun } (putBegun dRun d), framed, FspSel.idle, aRun, 5 + 11 * 2 ^ 6, 0,
     { fo dRun with begun := true }, goodFrame 12,
     readFrame (laneBits (phWidth (5 + 11 * 2 ^ 6)) (phD1 (5 + 11 * 2 ^ 6)) (goodFrame 12)) (phLen (5 + 11 * 2 ^ 6)), by decide⟩,
    ⟨on fun d => fsp { Fsp.reset with tgts := [aTgt] } ((d.setFld Fld.FSP_CTRL_EN 1).setFld Fld.FSP_CTRL_ROLE 1), 0, true, aTgt,
     by decide⟩,
    ⟨on fun d => (d.setFld Fld.FSP_CTRL_EN 1).setFld Fld.FSP_CTRL_ROLE 1, 0, true, by decide⟩,
    ⟨on fun d => (d.setFld Fld.FSP_CTRL_EN 1).setFld Fld.FSP_CTRL_ROLE 1, 0, by decide⟩,
    ⟨on fun d => fsp { Fsp.reset with tgts := [aTgt], serving := some (0, some 0) } (putBegun dTarget d), 0, aTgt, FspSel.idle,
     { fo dTarget with begun := true }, goodFrame 1, readFrame (laneBits 0 false (goodFrame 1)) 1, by decide⟩,
    ⟨on fun d => fsp { Fsp.reset with serving := some (0, none), sels := [(0, { FspSel.idle with prev := some (3, []) })] } d,
     0, 3, [], by decide⟩,
    ⟨on fun d => fsp { withEntry 0 with cur := some aRun, inWord := true, stopping := true } d, aRun, by decide⟩⟩

theorem witness_TwoWireTransferBadDescriptor :
    (∃ (s : State) (tag : Nat) (o : FOp), s.dev.freshOp tag opTWP_XFER = some o ∧ (s.dev.op tag).isSome = true ∧
      o.desc.twpA10 = false ∧ (o.desc.twpAddr ≤ 0x07 ∨ (0x78 ≤ o.desc.twpAddr ∧ o.desc.twpAddr ≤ 0x7F))) ∧
    (∀ e ∈ [de opTWP_XFER 0x120 (0x80) 0 1 0 0 0 0, de opTWP_XFER 0x120 (0x7) 0 1 0 0 0 0, de opTWP_XFER 0x120 (0x78) 0 1 0 0 0 0,
        de opTWP_XFER 0x120 (0x7F) 0 1 0 0 0 0, de opTWP_XFER 0x120 (0x50) 0 33 0 0 0 0, de opTWP_XFER 0x120 (0x50) 0 256 0 0 0 0],
      (putF base.dev (fo e)).freshOp 0 opTWP_XFER = some (fo e) ∧
      ((e.twpAddr / 2 ^ 7 ≠ 0 ∧ e.twpA10 = false) ∨ (e.twpA10 = false ∧ (e.twpAddr ≤ 0x07 ∨ (0x78 ≤ e.twpAddr ∧
        e.twpAddr ≤ 0x7F))) ∨ 32 < e.twpWrLen ∨ (e.twpRdLen ≠ 0 ∧ e.buf = 0))) ∧
    (∃ (d : Dev) (e : Desc), d.fld Fld.TWP_TGT_CFG_TGT_EN = 1 ∧ e.twpAddr = d.fld Fld.TWP_TGT_CFG_ADDR ∧
      e.twpA10 = d.flag Fld.TWP_TGT_CFG_A10) :=
  ⟨⟨on (putB (de opTWP_XFER 0x120 3 0 1 0 0 0 0)), 0, fo (de opTWP_XFER 0x120 3 0 1 0 0 0 0), by decide⟩, by decide,
    ⟨(base.dev.setFld Fld.TWP_TGT_CFG_TGT_EN 1).setFld Fld.TWP_TGT_CFG_ADDR 0x50, de opTWP_XFER 0x120 (0x50) 0 1 0 0 0 0,
     by decide⟩⟩

/-- A transfer and a target operation; the port with both roles enabled, its transfer begun, and this state of its own. -/
def dXfer : Desc := de opTWP_XFER 0x120 80 0 1 0 0 0 0
def dTwpTarget : Desc := de opTWP_TARGET 0x121 0 0 1 0 0 0 0
def twpOn (d : Dev) : Dev :=
  ((d.setFld Fld.TWP_CTRL_EN 1).setFld Fld.TWP_CTRL_CTL_EN 1).setFld Fld.TWP_TGT_CFG_TGT_EN 1
def twp (x : Twp) (d : Dev) : Dev := { putBegun dXfer ((twpOn d).setFld Fld.TWP_CTRL_LTO_EN 1) with f.twp := x }
def twpFree : Twp := { Twp.reset with busy := false }
def xferBegun : FOp := { fo dXfer with begun := true }

theorem witness_TwoWireTransfers :
    (∃ (s : State) (tag : Nat) (o : FOp), s.dev.f.twp.stuck = false ∧ s.dev.flag Fld.TWP_CTRL_EN = true ∧
      s.dev.freshOp tag opTWP_XFER = some o ∧ s.dev.twpXferBad o.desc = false ∧ s.dev.flag Fld.TWP_CTRL_CTL_EN = true ∧
      s.dev.h.restEntry = none ∧ s.dev.f.ch.rest = none) ∧
    (∃ (s : State) (tag : Nat) (o : FOp), s.dev.f.twp.stuck = false ∧ s.dev.flag Fld.TWP_CTRL_EN = true ∧
      s.dev.freshOp tag opTWP_TARGET = some o ∧ o.desc.twpWrLen ≤ 32 ∧ (o.desc.twpRdLen = 0 ∨ o.desc.buf ≠ 0) ∧
      s.dev.flag Fld.TWP_TGT_CFG_TGT_EN = true) ∧
    (∃ (s : State) (tag t : Nat) (q : List Nat) (o : FOp), s.dev.twpCtlOn = true ∧ s.dev.f.twp.onBus = false ∧
      s.dev.f.twp.busy = false ∧ s.dev.f.twp.lastStop + tBuf (s.dev.fld Fld.TWP_CTRL_MODE) ≤ max s.dev.now t ∧
      s.dev.fop tag = some o ∧ s.dev.f.twp.cur = none ∧ s.dev.f.twp.queue = tag :: q) ∧
    (∃ (s : State) (tag losses t : Nat) (o : FOp), s.dev.twpCtlOn = true ∧ s.dev.f.twp.onBus = false ∧
      s.dev.f.twp.busy = false ∧ s.dev.f.twp.lastStop + tBuf (s.dev.fld Fld.TWP_CTRL_MODE) ≤ max s.dev.now t ∧
      s.dev.fop tag = some o ∧ s.dev.f.twp.cur = some (tag, losses)) ∧
    (∃ (s : State) (tag losses : Nat) (o : FOp), s.dev.f.twp.cur = some (tag, losses) ∧ s.dev.f.twp.onBus = true ∧
      s.dev.fop tag = some o ∧ o.ended = none ∧ (s.dev.op tag).isSome = true ∧ losses < o.desc.twpRetries) ∧
    (∃ (s : State) (tag losses : Nat) (o : FOp), s.dev.f.twp.cur = some (tag, losses) ∧ s.dev.f.twp.onBus = true ∧
      s.dev.fop tag = some o ∧ o.ended = none ∧ (s.dev.op tag).isSome = true ∧ o.desc.twpRetries ≤ losses) :=
  ⟨⟨on fun d => putF (twpOn d) (fo dXfer), 0, fo dXfer, by decide⟩, ⟨on fun d => putF (twpOn d) (fo dTwpTarget), 0, fo dTwpTarget, by decide⟩,
    ⟨on (twp { twpFree with queue := [0] }), 0, 2 ^ 20, [], xferBegun, by decide⟩,
    ⟨on (twp { twpFree with cur := some (0, 1) }), 0, 1, 2 ^ 20, xferBegun, by decide⟩,
    ⟨on fun d => { putBegun (de opTWP_XFER 0x120 (80 + 3 * 2 ^ 11) 0 1 0 0 0 0) d with f.twp := { twpFree with cur := some (0, 1), onBus := true } },
     0, 1, { fo (de opTWP_XFER 0x120 (80 + 3 * 2 ^ 11) 0 1 0 0 0 0) with begun := true }, by decide⟩,
    ⟨on (twp { twpFree with cur := some (0, 9), onBus := true }), 0, 9, xferBegun, by decide⟩⟩

theorem witness_TwoWireBusAndTarget :
    (∃ (s : State) (q t : Nat), s.dev.f.twp.serving = none ∧ s.dev.f.twp.quietFrom = some q ∧ q + 40000 ≤ max s.dev.now t) ∧
    (∃ (s : State) (tag : Nat) (rest : List Nat), s.dev.twpTgtOn = true ∧ s.dev.f.twp.serving = none ∧
      s.dev.f.twp.tgts = tag :: rest) ∧
    (∃ s : State, s.dev.twpTgtOn = true ∧ s.dev.f.twp.serving = none ∧ s.dev.f.twp.tgts = []) ∧
    (∃ (s : State) (tag : Nat) (o : FOp), s.dev.f.twp.serving = some tag ∧ s.dev.fop tag = some o ∧ o.ended = none ∧
      (s.dev.op tag).isSome = true) ∧
    (∃ (s : State) (tag losses : Nat) (o : FOp), s.dev.flag Fld.TWP_CTRL_LTO_EN = true ∧
      s.dev.f.twp.cur = some (tag, losses) ∧ s.dev.f.twp.onBus = true ∧ s.dev.fop tag = some o ∧ o.ended = none ∧
      (s.dev.op tag).isSome = true) ∧
    (∃ (s : State) (n : Nat) (sclLow held : Bool), s.dev.flag Fld.TWP_CTRL_LTO_EN = true ∧ s.dev.twpUp = true ∧
      s.dev.flag Fld.TWP_CTRL_CTL_EN = true ∧ 1 ≤ n ∧ (sclLow || held) = true) :=
  ⟨⟨on (twp { twpFree with quietFrom := some 1 }), 1, 40001, by decide⟩, ⟨on (twp { twpFree with tgts := [0] }), 0, [], by decide⟩,
    ⟨on (twp twpFree), by decide⟩, ⟨on (twp { twpFree with serving := some 0 }), 0, xferBegun, by decide⟩,
    ⟨on (twp { twpFree with cur := some (0, 1), onBus := true }), 0, 1, xferBegun, by decide⟩,
    ⟨on (twp twpFree), 9, false, true, by decide⟩⟩

theorem witness_TwoWireSetUp :
    (∃ (s : State) (fn : Func) (data : Word), s.dev.twpTgt = codeOf fn ∧ s.dev.twpActive = false ∧
      (s.dev.flag Fld.TWP_CTRL_LOCK = true → changes (s.dev.rd Reg.TWP_TGT_CFG) (data &&& 0xFFFFF7FF) 0x7FF = false)) ∧
    (∃ (s : State) (fn : Func) (data : Word), s.dev.twpMay fn = true ∧ bitsOf data.toNat 2 2 = s.dev.fld Fld.TWP_CTRL_MODE ∧
      s.dev.fld Fld.TWP_CTRL_MODE ≠ 3 ∧ sclBad (s.dev.fld Fld.TWP_CTRL_MODE) (s.dev.rd Reg.TWP_SCL_TIM) = false ∧
      bitOf data.toNat 5 = false ∧ bitOf data.toNat 1 = true ∧ s.dev.twpActive = false ∧ s.dev.flag Fld.TWP_CTRL_EN = false ∧
      s.dev.f.ch.standby = false) ∧
    (∃ (s : State) (fn : Func) (data : Word) (tag losses : Nat) (o : FOp), s.dev.twpMay fn = true ∧
      bitsOf data.toNat 2 2 = s.dev.fld Fld.TWP_CTRL_MODE ∧ s.dev.fld Fld.TWP_CTRL_MODE ≠ 3 ∧
      sclBad (s.dev.fld Fld.TWP_CTRL_MODE) (s.dev.rd Reg.TWP_SCL_TIM) = false ∧ bitOf data.toNat 5 = false ∧
      bitOf data.toNat 0 = true ∧ bitOf data.toNat 1 = true ∧ s.dev.f.twp.cur = some (tag, losses) ∧ s.dev.fop tag = some o ∧
      o.ended = none ∧ (s.dev.op tag).isSome = true ∧ s.dev.f.ch.standby = false) :=
  ⟨⟨on fun d => d.setFld Fld.PCI_OWN_PORT_TWP_TGT 1, false, 0x850, by decide⟩, ⟨base, false, 3, by decide⟩,
    ⟨on (twp { twpFree with cur := some (0, 1), onBus := true }), false, 3, 0, 1, xferBegun, by decide⟩⟩

theorem witness_FieldTimerStartsAndStops :
    ∃ (s : State) (fn : Func) (k : Nat), k < 8 ∧ s.dev.tmMay fn k = true ∧ 4 ≤ k :=
  ⟨base, false, 5, by decide⟩

/-- A capture operation of timer 0, whose source is the encoder's Z edge. -/
def dCap : Desc := de opFT_CAPTURE 0x128 0 0 0 0 0 0 0
def capZ (d : Dev) : Dev := d.setFld (Fld.FT_CFG_CAP_SRC 0) 4

theorem witness_FieldTimerCapturesAndClocks :
    (∃ (s : State) (tag k t : Nat) (o : FOp), k < 8 ∧ s.dev.freshOp tag opFT_CAPTURE = some o ∧ o.desc.dest = 0x128 + k ∧
      s.dev.fld (Fld.FT_CFG_CAP_SRC k) ≠ 0 ∧ (s.dev.tm k).opened = none ∧
      (∀ c, (s.dev.tm k).capAt = some c → c.1 ≠ max s.dev.now t) ∧ bitOf (s.dev.fld Fld.FT_STATUS_VALID) k = false) ∧
    (∃ (s : State) (tag k t : Nat) (o : FOp), k < 8 ∧ s.dev.freshOp tag opFT_CAPTURE = some o ∧ o.desc.dest = 0x128 + k ∧
      s.dev.fld (Fld.FT_CFG_CAP_SRC k) ≠ 0 ∧ (s.dev.tm k).opened = none ∧
      (∀ c, (s.dev.tm k).capAt = some c → c.1 ≠ max s.dev.now t) ∧ bitOf (s.dev.fld Fld.FT_STATUS_VALID) k = true ∧
      (s.dev.op tag).isSome = true) ∧
    (∃ (s : State) (tag k cap0 t : Nat) (valid0 lost0 : Bool) (o : FOp), k < 8 ∧ s.dev.freshOp tag opFT_CAPTURE = some o ∧
      o.desc.dest = 0x128 + k ∧ s.dev.fld (Fld.FT_CFG_CAP_SRC k) ≠ 0 ∧ (s.dev.tm k).opened = none ∧
      (s.dev.tm k).capAt = some (max s.dev.now t, cap0, valid0, lost0) ∧ (s.dev.op tag).isSome = true) ∧
    (∃ (s : State) (k t : Nat) (rising : Bool), k < 8 ∧ s.dev.f.ch.rest = none ∧
      (∀ j, j < 8 → (s.dev.fld (Fld.FT_CFG_CAP_SRC j) = 4 ↔ j = k)) ∧
      edgeTaken (s.dev.fld (Fld.FT_CFG_CAP_EDGE k)) rising = true ∧
      (s.dev.flag (Fld.FT_CFG_CAP_ARM k) = true → (s.dev.tm k).armed = true) ∧ (s.dev.tm k).opened = none ∧
      bitOf (s.dev.fld Fld.FT_STATUS_VALID) k = false ∧ (s.dev.tm k).clrAt ≠ some (max s.dev.now t) ∧
      (∀ e, (s.dev.tm k).startAt = some e → e.1 ≠ max s.dev.now t)) ∧
    (∃ (s : State) (fn : Func) (k : Nat), k < 8 ∧ (if fn then (s.dev.tm k).freshB else (s.dev.tm k).freshA) = true ∧
      bitOf (s.dev.fld Fld.FT_STATUS_VALID) k = true) ∧
    (∃ (s : State) (fn : Func) (k : Nat), k < 8 ∧ (if fn then (s.dev.tm k).freshB else (s.dev.tm k).freshA) = false) ∧
    (∃ s : State, s.dev.f.ft.lf = none ∧ s.dev.f.ch.rest.isSome = true ∧ s.dev.f.brk.awakeF = false) ∧
    (∃ s : State, s.dev.f.ft.lf.isSome = true ∧ (s.dev.f.ch.rest = none ∨ s.dev.f.brk.awakeF = true)) ∧
    (∃ (s : State) (t : Nat), debugOpen s.nv.lifecycle s.dev = true ∧ (s.dev.at t).wdDue 2 = false) ∧
    (∃ s : State, s.dev.f.ft.halted = true) :=
  ⟨⟨on fun d => putB dCap (capZ d), 0, 0, 0, fo dCap, by decide, by decide, by decide, by decide, by decide,
     (fun _ h => nomatch h), by decide⟩,
    ⟨on fun d => putB dCap ((capZ d).setFld Fld.FT_STATUS_VALID 1), 0, 0, 0, fo dCap, by decide, by decide, by decide, by decide,
     by decide, (fun _ h => nomatch h), by decide⟩,
    ⟨on fun d => putB dCap { capZ d with f.ft.tm := [(0, { Timer.reset with capAt := some (7, 5, false, false) })] },
     0, 0, 5, 7, false, false, fo dCap, by decide⟩,
    ⟨on fun d => (capZ d).setFld (Fld.FT_CFG_CAP_EDGE 0) 1, 0, 0, true, by decide, by decide, by decide, by decide, by decide,
     by decide, by decide, by decide, fun _ h => nomatch h⟩,
    ⟨on fun d => { d.setFld Fld.FT_STATUS_VALID 4 with f.ft.tm := [(2, { Timer.reset with freshA := true })] }, false, 2,
     by decide⟩,
    ⟨base, false, 2, by decide⟩, ⟨on fun d => { d with f.ch.rest := some (0, 0) }, by decide⟩,
    ⟨on fun d => { d with f.ft.lf := some 3 }, by decide⟩, ⟨base, 0, by decide⟩,
    ⟨on fun d => { d with f.ft.halted := true }, by decide⟩⟩

theorem witness_WatchdogServiceAndKeys :
    (∃ (s : State) (k t : Nat), k ≤ 2 ∧ (s.dev.wd k).en = true ∧ (s.dev.wd k).held = false ∧ (s.dev.at t).wdDue k = false ∧
      (k = 2 ∨ s.dev.hostOpen (k == 1) = true) ∧ (s.dev.wd k).armed = false) ∧
    (∃ (s : State) (k t : Nat), k ≤ 2 ∧ (s.dev.wd k).en = true ∧ (s.dev.wd k).held = false ∧ (s.dev.at t).wdDue k = false ∧
      (k = 2 ∨ s.dev.hostOpen (k == 1) = true) ∧ (s.dev.wd k).armed = true ∧ s.dev.wdOpen k ≤ (s.dev.at t).wdCount k) ∧
    (∃ (s : State) (k t : Nat) (data : Word), k ≤ 2 ∧ (s.dev.wd k).en = true ∧ (s.dev.wd k).held = false ∧
      (s.dev.at t).wdDue k = false ∧ (k = 2 ∨ s.dev.hostOpen (k == 1) = true) ∧
      (if (s.dev.wd k).armed then data ≠ 0x00003E5F ∨ (s.dev.at t).wdCount k < s.dev.wdOpen k else data ≠ 0x0000C1A0)) ∧
    (∃ (s : State) (fn : Func) (k t : Nat), k ≤ 2 ∧ fn = wdWriter k ∧ (k = 2 ∨ s.dev.hostOpen fn = true) ∧
      (s.dev.at t).wdDue k = false ∧ s.dev.flag (Fld.WD_CTRL_LOCK k) = false ∧ (s.dev.wd k).keyArmed = true) ∧
    (∃ (s : State) (fn : Func) (k t : Nat) (data : Word), k ≤ 2 ∧ fn = wdWriter k ∧ (k = 2 ∨ s.dev.hostOpen fn = true) ∧
      (s.dev.at t).wdDue k = false ∧ s.dev.flag (Fld.WD_CTRL_LOCK k) = false ∧ (s.dev.wd k).en = false ∧
      bitOf data.toNat 1 = false ∧ bitOf data.toNat 2 = false) :=
  ⟨⟨on fun d => { d with h.wdA := { Wd.off with en := true } }, 0, 0, by decide⟩,
    ⟨on fun d => { d with h.wdA := { Wd.off with en := true, first := true, armed := true } }, 0, 0, by decide⟩,
    ⟨on fun d => { d with h.wdA := { Wd.off with en := true } }, 0, 0, 5, by decide⟩,
    ⟨on fun d => { d with h.wdA := { Wd.off with keyArmed := true } }, false, 0, 0, by decide⟩,
    ⟨base, false, 0, 0, 1, by decide⟩⟩

theorem witness_WatchdogExpiryResetsDomain :
    (∃ (s : State) (k t : Nat), k ≤ 2 ∧ (s.dev.at t).wdDue k = true ∧ k < 2 ∧ s.dev.broaderReset = false) ∧
    (∃ (s : State) (k t : Nat), k ≤ 2 ∧ (s.dev.at t).wdDue k = true ∧ k < 2 ∧ s.dev.h.fReset = true) ∧
    (∃ (s : State) (k t : Nat), k ≤ 2 ∧ (s.dev.at t).wdDue k = true ∧ k = 2) :=
  ⟨⟨on fun d => { d with h.wdA := { Wd.off with en := true } }, 0, 2 ^ 30, by decide⟩,
    ⟨on fun d => { d with h.wdA := { Wd.off with en := true }, h.fReset := true }, 0, 2 ^ 30, by decide⟩,
    ⟨on fun d => { d with f.wdF := { Wd.off with en := true } }, 2, 2 ^ 32, by decide⟩⟩

theorem witness_SafetyNetConditionBegins :
    (∃ (s : State) (c : Instr) (x : Die) (i t : Nat), ((c = .snSourceActive x i true true t ∧ raisedOn x i = true) ∨
      (c = .faultPinMismatch x true t ∧ i = (match x with | .h => Sn.SN_FAULT_PIN_H | .f => Sn.SN_FAULT_PIN_F)) ∨
      (c = .supplyOutOfRange i t ∧ supplyDie i = some x) ∨
      (c = .temperatureThreshold x true true t ∧ i = (match x with | .h => Sn.SYS_TEMP_H_CRIT | .f => Sn.SYS_TEMP_F_CRIT)) ∨
      (c = .temperatureThreshold x false true t ∧ i = (match x with | .h => Sn.SYS_TEMP_H_HIGH | .f => Sn.SYS_TEMP_F_HIGH)) ∨
      (c = .clockLoss i t ∧ clockDie i = some x) ∨ (c = .lfOscillatorFault true t ∧ x = .f ∧ i = Sn.SYS_LF_OSC) ∨
      (c = .sequencerTrap x t ∧ i = (match x with | .h => Sn.SYS_SEQ_H | .f => Sn.SYS_SEQ_F)) ∨
      (c = .eccError x true t ∧ i = (match x with | .h => Sn.SYS_ECC_H_UNCORR | .f => Sn.SYS_ECC_F_UNCORR)) ∨
      (c = .eccError x false t ∧ i = (match x with | .h => Sn.SYS_ECC_H_CORR | .f => Sn.SYS_ECC_F_CORR))) ∧ i < 96 ∧
      s.dev.f.ch.rest = none ∧ 0 < (s.dev.at t).sevOf x i) ∧
    (∀ p ∈ [(Die.h, Sn.SN_FAULT_PIN_H), (.f, Sn.SN_FAULT_PIN_F), (.h, Sn.SYS_TEMP_H_HIGH), (.f, Sn.SYS_TEMP_F_HIGH), (.h, 46),
        (.h, 49), (.f, 50), (.f, 51), (.h, 52), (.h, 53), (.f, 54), (.f, 55), (.f, Sn.SYS_LF_OSC), (.h, Sn.SYS_SEQ_H),
        (.f, Sn.SYS_SEQ_F), (.h, Sn.SYS_ECC_H_UNCORR), (.f, Sn.SYS_ECC_F_CORR)],
      p.2 < 96 ∧ allOn.dev.f.ch.rest = none ∧ 0 < (allOn.dev.at 0).sevOf p.1 p.2) ∧
    (base.dev.at 0).sevOf .h Sn.SYS_ECC_H_CORR = 0 ∧ (base.dev.src .h Sn.SYS_ECC_H_CORR).force = 0 :=
  ⟨⟨base, .temperatureThreshold .h true true 0, .h, Sn.SYS_TEMP_H_CRIT, 0, by decide⟩, by decide, by decide⟩

/-- A source of the H-side: still active, and ended. -/
def sources (active : Bool) (d : Dev) : Dev := { d with h.sn := [(Sn.SYS_TEMP_H_CRIT, ⟨active, 3, true, true, 0, none⟩)] }

theorem witness_SafetyNetConditionEnds :
    (∃ (s : State) (x : Die) (i t : Nat) (c : Instr), i < 96 ∧
      ((c = .faultPinMismatch x false t ∧ i = (match x with | .h => Sn.SN_FAULT_PIN_H | .f => Sn.SN_FAULT_PIN_F)) ∨
      (c = .supplyReturnInRange i t ∧ supplyDie i = some x ∧ s.dev.h.powered = true ∧ s.dev.f.powered = true) ∨
      (c = .temperatureThreshold x true false t ∧ i = (match x with | .h => Sn.SYS_TEMP_H_CRIT | .f => Sn.SYS_TEMP_F_CRIT)) ∨
      (c = .clockReturn i t ∧ clockDie i = some x) ∨ (c = .lfOscillatorFault false t ∧ x = .f ∧ i = Sn.SYS_LF_OSC)) ∧
      (s.dev.src x i).active = true) ∧
    (∃ (x : Die) (i : Nat), i < 96 ∧ supplyDie i = some x) ∧
    (∃ (s : State) (x : Die) (i t : Nat), i < 96 ∧ (s.dev.src x i).force ≠ 0 ∧ (s.dev.src x i).active = false ∧
      i ≠ Sn.SEC_ERASED ∧ (s.dev.src x i).last + (s.dev.at t).quietOf x i < (s.dev.at t).quietNow ∧ i ≠ Sn.SN_REC_SAT ∧
      x = .h ∧ (s.dev.srcFAtH i).force = 0 ∧ s.dev.fld (Fld.SN_REC_COUNT (i / 2) (i % 2)) + 1 < 0xFFFF) :=
  ⟨⟨on (sources true), .h, Sn.SYS_TEMP_H_CRIT, 0, .temperatureThreshold .h true false 0, by decide⟩,
    ⟨.h, Sn.SYS_VCORE_H, by decide⟩, ⟨on (sources false), .h, Sn.SYS_TEMP_H_CRIT, 2 ^ 40, by decide⟩⟩

/-- An event cell: source 5 at severity 1, active, for Function A. -/
def anEvent (num : Nat) : Cell80 := (Cell.snEvent num 5 1 true true false).wire 0

theorem witness_SafetyNetEventsSentTwice :
    (∃ (s : State) (x : Die) (c : Cell80), s.dev.h.link.up = true ∧ goodEvent c = true ∧
      (s.dev.bulk x).evSeen ≠ some (c.seq, c.bits 16 40)) ∧
    (∃ (s : State) (x : Die) (c : Cell80), s.dev.h.link.up = true ∧ goodEvent c = true ∧
      (s.dev.bulk x).evSeen = some (c.seq, c.bits 16 40)) ∧
    (∃ (s : State) (c : Cell80), s.dev.h.link.up = true ∧ (c.hchkGood && c.cchkGood) = false ∧ c.typ = 5) ∧
    (∃ d : Dev, d.h.link.up = false) :=
  ⟨⟨base, .f, anEvent 3, by decide⟩,
    ⟨on fun d => { d with f.bulk := { BulkEnd.idle with evSeen := some ((anEvent 3).seq, (anEvent 3).bits 16 40) } }, .f, anEvent 3,
     by decide⟩,
    ⟨base, cell 5 0 3 0, by decide⟩, ⟨State.reset.dev, by decide⟩⟩

theorem witness_SafetyNetEventsAndSetUp :
    (∃ (s : State) (x : Die) (i : Nat) (c : Cell80), s.dev.h.link.up = true ∧ goodEvent c = true ∧ i = c.bits 49 7 ∧
      (s.dev.bulk x).evSeen ≠ some (c.seq, c.bits 16 40) ∧ c.bits 46 1 = 1) ∧
    (∃ (s : State) (x : Die) (i : Nat) (c : Cell80), s.dev.h.link.up = true ∧ goodEvent c = true ∧ i = c.bits 49 7 ∧
      (s.dev.bulk x).evSeen ≠ some (c.seq, c.bits 16 40) ∧ c.bits 46 1 = 0) ∧
    (∃ (s : State) (i : Nat) (data : Word), s.dev.flag Fld.SN_CTRL_LOCK = false ∧ s.dev.hostOpen false = true ∧ i < 6 ∧
      sevBad i data = false) ∧
    (∃ (s : State) (i : Nat) (data : Word), s.dev.flag Fld.SN_CTRL_LOCK = false ∧ s.dev.hostOpen false = true ∧ i < 12 ∧
      quietBad data = false) ∧
    (∃ (s : State) (i : Nat) (data : Word), i < 96 ∧ bitOf data.toNat 7 = false ∧ bitsOf data.toNat 0 7 = i ∧
      s.dev.hostOpen false = true) ∧
    (∃ (s : State) (fn : Func), s.dev.hostOpen fn = true) ∧
    (∃ (s : State) (x : Die) (t p : Nat), (match x with | .h => s.dev.h.pulse | .f => s.dev.f.pulse) = some p ∧
      p + 8000 ≤ max s.dev.now t) ∧
    (∃ (s : State) (t : Nat), s.dev.h.cmpAt < (s.dev.at t).comparePoint ∧ s.dev.h.dev ≠ .boot ∧ s.dev.h.dev ≠ .off ∧
      s.dev.h.link.up = true ∧ s.dev.h.syncPend = false ∧ s.dev.h.fReset = false ∧ s.dev.shadowSame = false) ∧
    (∃ (s : State) (t : Nat), s.dev.h.cmpAt < (s.dev.at t).comparePoint ∧ s.dev.shadowSame = true) ∧
    (∃ (s : State) (t : Nat), (s.dev.at t).comparePoint ≤ s.dev.h.cmpAt) :=
  ⟨⟨base, .f, 5, anEvent 3, by decide⟩, ⟨base, .f, 5, (Cell.snEvent 3 5 1 false true false).wire 0, by decide⟩,
    ⟨base, 3, BitVec.ofNat 32 (sevDefaultWord 3), by decide⟩, ⟨base, 3, 0x33333333, by decide⟩, ⟨base, 5, 5, by decide⟩,
    ⟨base, false, by decide⟩, ⟨on fun d => { d with f.pulse := some 4 }, .f, 8004, 4, by decide⟩,
    ⟨on fun d => d.wr (Reg.SN_SEV 0) 0, 2 ^ 40, by decide⟩, ⟨base, 2 ^ 40, by decide⟩, ⟨base, 0, by decide⟩⟩

/-- A command of MGMT_MBOX; the device asked to enter Rest. -/
def mgmt (cmd len : Nat) : Desc := de opMGMT 0x1F0 cmd 0 len 0 0 0 0
def entering (d : Dev) : Dev := { d with h.restEntry := some ⟨none⟩ }
def resting (d : Dev) : Dev := { d with f.ch.rest := some (0, 0) }

theorem witness_RestEntryCompletes :
    (∃ (s : State) (tag : Nat) (o : Op), s.dev.mgmtOp tag cmdREST_ENTER = some o ∧ s.dev.restRefused = false) ∧
    (∃ (s : State) (t : Nat), s.dev.brk Fld.BRK_CTRL_IDLE_EN = 1 ∧ s.dev.restRefused = false ∧
      (∀ p ∈ s.dev.f.sn, p.2.force = 0) ∧ (∀ p ∈ s.dev.f.snH, p.2.force = 0) ∧
      max s.dev.f.brk.idleFrom (lastMove s.dev.f.car.hist) + s.dev.brk Fld.BRK_IDLE_IDLE_S * 800000000 ≤ max s.dev.now t) ∧
    (∃ (s : State) (e : RestEntry) (t : Nat), s.dev.h.restEntry = some e ∧ s.dev.h.dev = .run ∧ s.dev.f.fsp.inWord = false ∧
      s.dev.f.fsp.serving = none ∧ s.dev.f.twp.cur = none ∧ s.dev.restOpen = false ∧
      (s.dev.h.link.up = true ∨ s.dev.h.link.stopped = true) ∧ (∀ p ∈ s.dev.f.sn, p.2.force < 2) ∧
      (∀ p ∈ s.dev.f.snH, p.2.force < 2) ∧ (∀ k, (s.dev.at t).wdDue k = false)) ∧
    (∃ (s : State) (c : Cell80), (s.dev.h.restEntry.isSome = true ∨ s.dev.f.ch.rest.isSome = true) ∧ s.dev.h.link.up = true ∧
      goodLink c 0x06 = true ∧ c.bits 55 1 = 1) ∧
    (∃ (s : State) (c : Cell80), (s.dev.h.restEntry.isSome = true ∨ s.dev.f.ch.rest.isSome = true) ∧ s.dev.h.link.up = true ∧
      goodLink c 0x06 = true ∧ c.bits 55 1 = 0) :=
  ⟨⟨on fun d => putH d (ho (mgmt cmdREST_ENTER 0) .opened), 0, ho (mgmt cmdREST_ENTER 0) .opened, by decide⟩,
    ⟨on fun d => (d.setFld Fld.BRK_CTRL_IDLE_EN 1).setFld Fld.BRK_IDLE_IDLE_S 1, 2 ^ 40, by decide⟩,
    ⟨on entering, ⟨none⟩, 0, by decide, by decide, by decide, by decide, by decide, by decide, by decide, by decide, by decide,
     fun k => match k with | 0 => by decide | 1 => by decide | _ + 2 => rfl⟩,
    ⟨on entering, (Cell.rest true).wire 0, by decide⟩, ⟨on entering, (Cell.rest false).wire 0, by decide⟩⟩

theorem witness_WakeEventsComplete :
    (∃ (s : State) (src : Nat), s.dev.f.ch.rest.isSome = true ∧ src < 4) ∧
    (∃ s : State, s.dev.f.brk.wakeAt.isSome = true) ∧
    (∃ (s : State) (w t : Nat), s.dev.f.brk.wakeAt = some w ∧ s.dev.f.ch.rest.isSome = true ∧
      s.dev.f.brk.late = false ∧ w + 144000 < max s.dev.now t) ∧
    (∃ s : State, s.dev.f.ch.rest.isSome = true ∧ s.dev.flag Fld.TWP_TGT_CFG_TGT_EN = true ∧
      s.dev.flag Fld.TWP_TGT_CFG_WAKE_EN = true) :=
  ⟨⟨on resting, 1, by decide⟩, ⟨on fun d => { resting d with f.brk.wakeAt := some 9 }, by decide⟩,
    ⟨on fun d => { resting d with f.brk.wakeAt := some 9 }, 9, 144010, by decide⟩,
    ⟨on fun d => resting ((d.setFld Fld.TWP_TGT_CFG_TGT_EN 1).setFld Fld.TWP_TGT_CFG_WAKE_EN 1), by decide⟩⟩

theorem witness_BarkerSampleVotes :
    (∃ (s : State) (t : Nat), s.dev.f.powered = true ∧ s.dev.brk Fld.BRK_CTRL_EN = 1 ∧ (s.dev.at t).sampleTick = false) ∧
    (∃ (s : State) (t : Nat), s.dev.f.powered = true ∧ s.dev.brk Fld.BRK_CTRL_EN = 1 ∧ (s.dev.at t).sampleTick = true ∧
      s.dev.f.ch.rest = none) :=
  ⟨⟨on fun d => { d.setFld Fld.BRK_CTRL_EN 1 with f.brk := { Brk.reset with sampleAt := some 5 } }, 5, by decide⟩,
    ⟨on fun d => d.setFld Fld.BRK_CTRL_EN 1, 0, by decide⟩⟩

/-- The keys of a device with an empty KEY_INDEX; a settings record and its write, with these operations still to make. -/
def keys : Sec := { Sec.reset with keyed := true, index := some ⟨0, 0, false, 0, 0⟩ }
def keyed (d : Dev) : Dev := { d with h.sec := keys }
def aRec : Rec := ⟨.settings, 0, 1, 4, 1, 0, 0, [], none, 0, erasedWord, erasedWord, false, []⟩
def aJob (l : List FlashStep) : Job := ⟨.settings, none, some aRec, [], l, 0, false⟩
def slotRec (body : List Quad) : Rec := ⟨.slotA, 0, 1, 1, 1, 0, 0, body, none, 0, programWord erasedWord commitWord, erasedWord, false, []⟩
def dCommit : Desc := mgmt cmdSETTINGS_COMMIT 0

theorem witness_RecordWritesQueueAndStart :
    (∃ (s : State) (tag : Nat) (o : Op) (b : List Quad) (cal : Bool), s.dev.body tag = some b ∧
      s.dev.mgmtOp tag (if cal then cmdCAL_WRITE else cmdSETTINGS_COMMIT) = some o ∧ s.bodyCause cal o.desc b = 0) ∧
    (∃ (s : State) (tag : Nat) (o : Op) (b : List Quad) (cal : Bool), s.dev.body tag = some b ∧
      s.dev.mgmtOp tag (if cal then cmdCAL_WRITE else cmdSETTINGS_COMMIT) = some o ∧ s.bodyCause cal o.desc b ≠ 0) :=
  ⟨⟨{ on fun d => { putH (keyed d) (ho (de opMGMT 0x1F0 cmdSETTINGS_COMMIT 0 0 (2 ^ 32) 0 0 0) .opened) with h.bodies := [(0, some [])] } with
        nv := { base.nv with recs := [slotRec []] } },
     0, ho (de opMGMT 0x1F0 cmdSETTINGS_COMMIT 0 0 (2 ^ 32) 0 0 0) .opened, [], false, by decide⟩,
    ⟨on fun d => { putH d (ho (de opMGMT 0x1F0 cmdSETTINGS_COMMIT 0 0 (2 ^ 32) 0 0 0) .opened) with h.bodies := [(0, some [])] },
     0, ho (de opMGMT 0x1F0 cmdSETTINGS_COMMIT 0 0 (2 ^ 32) 0 0 0) .opened, [], false, by decide⟩⟩

theorem witness_RecordWritesRunTheirOperations :
    (∃ (s : State) (j : Job) (rest : List Job) (r : Rec), s.dev.h.job = none ∧ s.dev.h.jobs = j :: rest ∧
      s.dev.flashBad = false ∧ j.record = some r) ∧
    (∃ (s : State) (j : Job) (st : FlashStep) (l : List FlashStep), s.dev.h.job = some j ∧ j.steps = st :: l ∧ j.tries = 0 ∧
      l ≠ [] ∧ (∀ a q, st ≠ .commit a q)) ∧
    (∃ (s : State) (j : Job) (q : Nat) (r : Rec), s.dev.h.job = some j ∧ j.kind = .settings ∧ j.abandoned = false ∧
      j.steps = [.commit .settings q] ∧ j.record = some r ∧ r.seq = q ∧ s.dev.h.dev ≠ .settingsHold ∧
      (∀ p ∈ s.nv.wear, p.2 < 80000)) ∧
    (∃ (s : State) (j : Job) (slot : Bool) (k : Nat), s.dev.h.job = some j ∧ j.kind = .chunk slot k ∧ j.steps = [] ∧
      j.abandoned = false) :=
  ⟨⟨on fun d => { d with h.jobs := [aJob []] }, aJob [], [], aRec, by decide⟩,
    ⟨on fun d => { d with h.job := some (aJob [.erase .settings 0, .page aRec 0]) }, aJob [.erase .settings 0, .page aRec 0],
     .erase .settings 0, [.page aRec 0], by decide, by decide, by decide, by decide, fun _ _ h => nomatch h⟩,
    ⟨on fun d => { d with h.job := some (aJob [.commit .settings 4]) }, aJob [.commit .settings 4], 4, aRec, by decide⟩,
    ⟨on fun d => { d with h.job := some ⟨.chunk true 3, none, none, [], [], 0, false⟩ },
     ⟨.chunk true 3, none, none, [], [], 0, false⟩, true, 3, by decide⟩⟩

theorem witness_StagingTakesChunks :
    (∃ (s : State) (data : Word), s.dev.stagingOpen = true ∧ s.dev.barOpen false = true ∧ s.dev.f.ch.rest = none ∧
    s.dev.flag Fld.FW_STATUS_STAGE_OPEN = false ∧ s.dev.flashBad = false ∧
    (s.dev.flag Fld.FW_STATUS_RECOVERY = true ∨ bitOf data.toNat 2 ≠ s.dev.runSlot)) ∧
    (∃ (s : State), s.dev.stagingOpen = true ∧ s.dev.barOpen false = true ∧ s.dev.f.ch.rest = none) ∧
    (∃ (s : State) (off : Nat), s.dev.stagingOpen = true ∧ s.dev.barOpen false = true ∧ s.dev.f.ch.rest = none ∧
    0x8000 ≤ off ∧ off < 0xC000 ∧ off % 4 = 0 ∧ s.dev.flag Fld.FW_STATUS_BUSY = false) ∧
    (∃ (s : State) (off : Nat), s.dev.stagingOpen = true ∧ s.dev.barOpen false = true ∧ s.dev.f.ch.rest = none ∧
    0x8000 ≤ off ∧ off < 0xC000 ∧ off % 4 = 0 ∧ s.dev.flag Fld.FW_STATUS_BUSY = true) ∧
    (∃ (s : State) (data : Word), s.dev.stagingOpen = true ∧ s.dev.barOpen false = true ∧ s.dev.f.ch.rest = none ∧
    s.dev.flag Fld.FW_STATUS_BUSY = false ∧ s.dev.flag Fld.FW_STATUS_STAGE_OPEN = true ∧
    crc32c (bytesOfQuads (quadsOfWords s.dev.window)) = s.dev.rd Reg.FW_STAGE_CRC ∧ bitsOf data.toNat 0 7 ≤ 92 ∧
    bitsOf data.toNat 0 7 = 0) ∧
    (∃ (s : State) (data : Word), s.dev.stagingOpen = true ∧ s.dev.barOpen false = true ∧ s.dev.f.ch.rest = none ∧
    s.dev.flag Fld.FW_STATUS_BUSY = false ∧ s.dev.flag Fld.FW_STATUS_STAGE_OPEN = true ∧
    crc32c (bytesOfQuads (quadsOfWords s.dev.window)) = s.dev.rd Reg.FW_STAGE_CRC ∧ bitsOf data.toNat 0 7 ≤ 92 ∧
    bitsOf data.toNat 0 7 ≠ 0 ∧ s.dev.flashBad = false) :=
  ⟨⟨base, 5, by decide⟩,
    ⟨base, by decide⟩,
    ⟨base, 0x8000, by decide⟩,
    ⟨on fun d => d.setFld Fld.FW_STATUS_BUSY 1, 0xBFFC, by decide⟩,
    ⟨staged, 0, by decide, staged_bar, staged_rest, (staged_flag _ (by decide)).trans (by decide),
     (staged_flag _ (by decide)).trans (by decide), staged_crc, by decide, by decide⟩,
    ⟨staged, 3, by decide, staged_bar, staged_rest, (staged_flag _ (by decide)).trans (by decide),
     (staged_flag _ (by decide)).trans (by decide), staged_crc, by decide, by decide, by decide⟩⟩

/-- A staged image for slot B, complete but for its checks. -/
def stagedB (d : Dev) : Dev :=
  { (((d.setFld Fld.FW_STATUS_STAGE_OPEN 1).setFld Fld.FW_STATUS_STAGE_SLOT 1).wr Reg.SYS_PROFILE 1).wr Reg.FW_STAGE_CHUNK 1 with
    h.sec := { Sec.reset with keyed := true }, h.stg := ⟨some [1, 0, 0, 0, 2, 4096], [1]⟩ }
def dInstall : Desc := mgmt cmdFW_INSTALL (2 ^ 9 + 1)
def dFallback : Desc := mgmt cmdFW_FALLBACK 0
def allGood : SlotCheck := ⟨true, true, true⟩

theorem witness_InstallationsQueueAHeader :
    (∃ (s : State) (tag : Nat) (o : Op) (chk : SlotCheck), s.dev.mgmtOp tag cmdFW_INSTALL = some o ∧
      s.installCause o.desc chk = 0) ∧
    (∃ (s : State) (tag : Nat) (o : Op) (chk : SlotCheck), s.dev.mgmtOp tag cmdFW_INSTALL = some o ∧
      s.installCause o.desc chk ≠ 0) ∧
    (∃ (s : State) (tag : Nat) (o : Op) (chk : SlotCheck) (h : Rec), s.dev.mgmtOp tag cmdFW_FALLBACK = some o ∧
      s.fallbackCause chk = 0 ∧ s.header (!s.dev.runSlot) = some h) ∧
    (∃ (s : State) (tag : Nat) (o : Op) (chk : SlotCheck), s.dev.mgmtOp tag cmdFW_FALLBACK = some o ∧ s.fallbackCause chk ≠ 0) ∧
    (∃ (s : State) (chk : SlotCheck), s.dev.flag Fld.FW_STATUS_RECOVERY = true ∧ s.dev.h.dev = .boot ∧
      s.dev.barOpen false = true ∧ s.dev.f.ch.rest = none ∧ s.dev.flashBad = false ∧
      s.stagedCause (s.dev.flag Fld.FW_STATUS_STAGE_SLOT) (s.dev.fld Fld.FW_STAGE_CHUNK_INDEX) chk = 0) :=
  ⟨⟨on fun d => putH (stagedB d) (ho dInstall .opened), 0, ho dInstall .opened, allGood, by decide⟩,
    ⟨on fun d => putH d (ho dInstall .opened), 0, ho dInstall .opened, allGood, by decide⟩,
    ⟨{ on fun d => putH (keyed (d.wr Reg.SYS_PROFILE 1)) (ho dFallback .opened) with
        nv := { base.nv with recs := [{ slotRec [0, 0, 2] with area := .slotB }] } },
     0, ho dFallback .opened, allGood, { slotRec [0, 0, 2] with area := .slotB }, by decide⟩,
    ⟨on fun d => putH d (ho dFallback .opened), 0, ho dFallback .opened, allGood, by decide⟩,
    ⟨on fun d => { (stagedB d).setFld Fld.FW_STATUS_RECOVERY 1 with h.dev := .boot }, allGood, by decide⟩⟩

theorem witness_FuseAdvances :
    (∃ (s : State) (data : Word) (l : Lifecycle), s.dev.hostOpen false = true ∧
      (s.dev.h.dev = .run ∨ s.dev.h.dev = .safe ∨ s.dev.h.dev = .settingsHold) ∧ s.dev.inForce Sn.SEC_LOCKED = 0 ∧
      s.nv.lifecycle ≠ .manufacture ∧ s.dev.h.sec.lcProg = none ∧ s.dev.h.sec.lcFirst = none ∧ lcTarget data = some l ∧
      s.nv.lifecycle.code < l.code ∧ (s.dev.h.sec.keyed = true ∨ l = .retired)) ∧
    (∃ (s : State) (data w : Word), s.dev.hostOpen false = true ∧
      (s.dev.h.dev = .run ∨ s.dev.h.dev = .safe ∨ s.dev.h.dev = .settingsHold) ∧ s.dev.inForce Sn.SEC_LOCKED = 0 ∧
      s.nv.lifecycle ≠ .manufacture ∧ s.dev.h.sec.lcProg = none ∧ s.dev.h.sec.lcFirst = some w ∧ data = ~~~w) ∧
    (∃ (s : State) (data : Word) (r : Rec), s.dev.hostOpen false = true ∧ s.dev.h.dev = .run ∧
      s.dev.inForce Sn.SEC_LOCKED = 0 ∧ s.dev.h.sec.svnProg = none ∧ s.running = some r ∧ s.nv.svnMin < bitsOf data.toNat 0 7 ∧
      bitsOf data.toNat 0 7 ≤ 64 ∧ bitsOf data.toNat 0 7 ≤ mfSvn r.body) ∧
    (∃ (s : State) (l : Lifecycle), s.dev.h.sec.lcProg = some l ∧ s.nv.lifecycle.code < l.code) ∧
    (∃ (s : State) (n : Nat), s.dev.h.sec.svnProg = some n) :=
  ⟨⟨on keyed, 0x4C430002, .production, by decide⟩,
    ⟨on fun d => { d with h.sec := { keys with lcFirst := some 0x4C430002 } }, 0xB3BCFFFD, 0x4C430002, by decide⟩,
    ⟨{ on keyed with nv := { base.nv with recs := [slotRec [0, 5]] } }, 3, slotRec [0, 5], by decide⟩,
    ⟨on fun d => { d with h.sec := { keys with lcProg := some .production } }, .production, by decide⟩,
    ⟨on fun d => { d with h.sec := { keys with svnProg := some 3 } }, 3, by decide⟩⟩

theorem witness_TamperPolicies :
    (∃ (s : State) (h f k : Nat), s.dev.h.dev ≠ .off ∧ k < 6 ∧ (bitOf h k = true ∨ (s.dev.f.powered = true ∧ k ≠ 0 ∧
      bitOf f k = true)) ∧ 2 ≤ s.dev.pol k) :=
  ⟨on fun d => d.wr Reg.SEC_TAMPER_POL 0x2AA, 4, 0, 2, by decide⟩

/-- The results of an owner's checks, all good; the bodies of an enrolment, of a rekey of the Mirror Key, and of one that asks for no
key. -/
def ownerGood : OwnerCheck := ⟨true, true, allGood, allGood, true, 0, 0⟩
def dEnrol : Desc := mgmt cmdOWNER_ENROL 320
def dRekey : Desc := mgmt cmdREKEY 272
def enrolBody : List Quad := 0x0000003000000001 :: List.replicate 39 0
def rekeyBody (keysAsked : Quad) : List Quad := 0x0000003100000001 :: 0 :: 0 :: keysAsked :: List.replicate 30 0
def owner (e : Desc) (b : List Quad) : State := on fun d => { putH (keyed d) (ho e .opened) with h.bodies := [(0, some b)] }

theorem witness_OwnerCommands :
    (∃ (s : State) (tag : Nat) (o : Op) (b : List Quad) (chk : OwnerCheck) (x : KeyIndex), s.dev.ownerState = true ∧
      s.dev.body tag = some b ∧ s.dev.mgmtOp tag cmdOWNER_ENROL = some o ∧ s.enrolCause o.desc b chk = 0 ∧
      s.dev.h.sec.index = some x) ∧
    (∃ (s : State) (tag : Nat) (o : Op) (b : List Quad) (chk : OwnerCheck), s.dev.ownerState = true ∧
      s.dev.body tag = some b ∧ s.dev.mgmtOp tag cmdOWNER_ENROL = some o ∧ s.enrolCause o.desc b chk ≠ 0) ∧
    (∃ (s : State) (tag : Nat) (o : Op) (b : List Quad) (chk : OwnerCheck) (x : KeyIndex), s.dev.ownerState = true ∧
      s.dev.body tag = some b ∧ s.dev.mgmtOp tag cmdREKEY = some o ∧
      (s.dev.h.dev = .standby → bitOf (wordAt b 0x18) 0 = false) ∧ s.rekeyCause o.desc b chk = 0 ∧ wordAt b 0x18 ≠ 0 ∧
      s.dev.h.sec.index = some x) ∧
    (∃ (s : State) (tag : Nat) (o : Op) (b : List Quad) (chk : OwnerCheck) (x : KeyIndex), s.dev.ownerState = true ∧
      s.dev.body tag = some b ∧ s.dev.mgmtOp tag cmdREKEY = some o ∧
      (s.dev.h.dev = .standby → bitOf (wordAt b 0x18) 0 = false) ∧ s.rekeyCause o.desc b chk = 0 ∧ wordAt b 0x18 = 0 ∧
      s.dev.h.sec.index = some x) ∧
    (∃ (s : State) (tag : Nat) (o : Op) (b : List Quad) (chk : OwnerCheck), s.dev.ownerState = true ∧
      s.dev.body tag = some b ∧ s.dev.mgmtOp tag cmdREKEY = some o ∧
      (s.dev.h.dev = .standby → bitOf (wordAt b 0x18) 0 = false) ∧ s.rekeyCause o.desc b chk ≠ 0) :=
  ⟨⟨owner dEnrol enrolBody, 0, ho dEnrol .opened, enrolBody, ownerGood, ⟨0, 0, false, 0, 0⟩, by decide⟩,
    ⟨owner dEnrol [], 0, ho dEnrol .opened, [], ownerGood, by decide⟩,
    ⟨owner dRekey (rekeyBody 1), 0, ho dRekey .opened, rekeyBody 1, ownerGood, ⟨0, 0, false, 0, 0⟩, by decide⟩,
    ⟨owner dRekey (rekeyBody 0), 0, ho dRekey .opened, rekeyBody 0, ownerGood, ⟨0, 0, false, 0, 0⟩, by decide⟩,
    ⟨owner dRekey [], 0, ho dRekey .opened, [], ownerGood, by decide⟩⟩

theorem witness_MirrorSessions :
    (∃ (s : State), s.dev.mirOn = true ∧ s.dev.h.mir.session = none) ∧
    (∃ (s : State) (x : HelloFrame), s.dev.mirOn = true ∧ s.dev.h.mir.hello.isSome = true ∧ s.dev.h.mir.session = none ∧
    x.auth = true ∧ x.kcv = s.dev.mirKcv ∧ profileOk x.profile = true) ∧
    (∃ (s : State) (m : Session), s.dev.h.mir.session = some m) ∧
    (∃ (s : State) (hd : FrameHead) (m : Session), s.dev.h.mir.session = some m ∧ hd.auth = true ∧ m.rx ≤ hd.counter) ∧
    (∃ (s : State) (t : Nat) (m : Session) (aligned : Bool), s.dev.h.mir.session = some m ∧
    (aligned = false ∨ s.dev.h.mir.lastRx + msCycles ≤ max s.dev.now t)) :=
  ⟨⟨on fun d => let e := d.setFld Fld.MIR_CFG_EN 1; { e with h.sec := { Sec.reset with keyed := true, index := some ⟨0, 1, false, 0, 0⟩ } },
     by decide⟩,
    ⟨on fun d => let e := d.setFld Fld.MIR_CFG_EN 1; { e with h.mir := { Mir.reset with hello := some 7 }, h.sec := { Sec.reset with keyed := true, index := some ⟨0, 1, false, 0, 0⟩ } },
     ⟨1, 1, 0, 0, 0, 0, true⟩, by decide⟩,
    ⟨on fun d => { d with h.mir := { Mir.reset with session := some ⟨true, 5, 2, 0⟩ } }, ⟨true, 5, 2, 0⟩, by decide⟩,
    ⟨on fun d => { d with h.mir := { Mir.reset with session := some ⟨true, 5, 2, 0⟩ } }, ⟨1, 7, 3, true⟩, ⟨true, 5, 2, 0⟩,
     by decide⟩,
    ⟨on fun d => { d with h.mir := { Mir.reset with session := some ⟨true, 5, 2, 0⟩ } }, 0, ⟨true, 5, 2, 0⟩, false, by decide⟩⟩

theorem witness_MirrorSnapshots :
    (∃ (s : State) (t : Nat) (m : Session), (s.dev.at t).captureDue = true ∧ s.dev.h.mir.session = some m) ∧
    (∃ (s : State) (hd : FrameHead) (m : Session), s.dev.h.mir.session = some m ∧ hd.auth = true ∧ m.rx ≤ hd.counter ∧
    s.dev.role = roleSTANDBY) ∧
    (∃ (s : State) (hd : FrameHead) (m : Session) (r : MirRx) (idx : Nat) (body : List Word), s.dev.h.mir.session = some m ∧
    hd.auth = true ∧ m.rx ≤ hd.counter ∧ s.dev.h.mir.rx = some r ∧ idx < r.segs ∧ body.length = 256) ∧
    (∃ (s : State) (hd : FrameHead) (m : Session) (r : MirRx) (epoch : Nat) (crc : Word) (word : Word), s.dev.h.mir.session = some m ∧
    hd.auth = true ∧ m.rx ≤ hd.counter ∧ s.dev.role = roleSTANDBY ∧ s.dev.h.mir.rx = some r ∧
    r.complete epoch crc word = true ∧ s.dev.epoch < epoch) ∧
    (∃ (s : State) (hd : FrameHead) (m : Session) (r : MirRx) (epoch : Nat) (crc : Word) (word : Word), s.dev.h.mir.session = some m ∧
    hd.auth = true ∧ m.rx ≤ hd.counter ∧ s.dev.role = roleSTANDBY ∧ s.dev.h.mir.rx = some r ∧
    r.complete epoch crc word = true ∧ epoch ≤ s.dev.epoch) ∧
    (∃ (s : State) (r : MirRx), s.dev.h.mir.rx = some r ∧ s.dev.role = roleSTANDBY ∧ s.dev.h.link.up = true ∧
    r.latched = false) ∧
    (∃ (s : State) (t : Nat) (r : MirRx), s.dev.h.mir.rx = some r ∧ r.lastAt + msCycles ≤ max s.dev.now t) ∧
    (∃ (s : State) (t : Nat), s.dev.h.dev = .standby ∧
    s.dev.h.mir.commitAt + 3 * s.dev.fld Fld.MIR_CFG_PERIOD * msCycles ≤ max s.dev.now t) ∧
    (∃ (s : State) (t : Nat) (x : Snap), s.dev.h.dev = .standby ∧ s.dev.h.mir.snap = some x ∧
    s.dev.fld Fld.MIR_CFG_STORE ≠ 0 ∧ s.dev.h.mir.storeAt + s.dev.fld Fld.MIR_CFG_STORE * 60000 * msCycles ≤ max s.dev.now t) :=
  ⟨⟨on fun d => { d.setFld Fld.MIR_STATUS_PARTNER_ROLE 1 with h.mir := { Mir.reset with session := some ⟨true, 5, 2, 0⟩ } },
     2^40, ⟨true, 5, 2, 0⟩, by decide⟩,
    ⟨on fun d => { d.setFld Fld.MIR_STATUS_ROLE_NOW 1 with h.mir := { Mir.reset with session := some ⟨true, 5, 2, 0⟩ } },
     ⟨1, 7, 3, true⟩, ⟨true, 5, 2, 0⟩, by decide⟩,
    ⟨on fun d => { d with h.mir := { Mir.reset with session := some ⟨true, 5, 2, 0⟩, rx := some ⟨5, 1, 4, 1, [(0, 5 :: List.replicate 255 0)], 0, 0, false, false⟩ } },
     ⟨1, 7, 3, true⟩, ⟨true, 5, 2, 0⟩, ⟨5, 1, 4, 1, [(0, 5 :: List.replicate 255 0)], 0, 0, false, false⟩, 0,
     List.replicate 256 0, by decide⟩,
    ⟨on fun d => { d.setFld Fld.MIR_STATUS_ROLE_NOW 1 with h.mir := { Mir.reset with session := some ⟨true, 5, 2, 0⟩, rx := some ⟨5, 1, 4, 1, [(0, 5 :: List.replicate 255 0)], 0, 0, false, false⟩ } },
     ⟨1, 7, 3, true⟩, ⟨true, 5, 2, 0⟩, ⟨5, 1, 4, 1, [(0, 5 :: List.replicate 255 0)], 0, 0, false, false⟩, 5, (bodyCrc [5]),
     0xC3A55A3C, by decide⟩,
    ⟨on fun d => { d.setFld Fld.MIR_STATUS_ROLE_NOW 1|>.setFld Fld.MIR_EPOCH_LO_EPOCH 5 with h.mir := { Mir.reset with session := some ⟨true, 5, 2, 0⟩, rx := some ⟨5, 1, 4, 1, [(0, 5 :: List.replicate 255 0)], 0, 0, false, false⟩ } },
     ⟨1, 7, 3, true⟩, ⟨true, 5, 2, 0⟩, ⟨5, 1, 4, 1, [(0, 5 :: List.replicate 255 0)], 0, 0, false, false⟩, 5, (bodyCrc [5]),
     0xC3A55A3C, by decide⟩,
    ⟨on fun d => { d.setFld Fld.MIR_STATUS_ROLE_NOW 1 with h.mir := { Mir.reset with session := some ⟨true, 5, 2, 0⟩, rx := some ⟨5, 1, 4, 1, [(0, 5 :: List.replicate 255 0)], 0, 0, false, false⟩ } },
     ⟨5, 1, 4, 1, [(0, 5 :: List.replicate 255 0)], 0, 0, false, false⟩, by decide⟩,
    ⟨on fun d => { d.setFld Fld.MIR_STATUS_ROLE_NOW 1 with h.mir := { Mir.reset with session := some ⟨true, 5, 2, 0⟩, rx := some ⟨5, 1, 4, 1, [(0, 5 :: List.replicate 255 0)], 0, 0, false, false⟩ } },
     800000, ⟨5, 1, 4, 1, [(0, 5 :: List.replicate 255 0)], 0, 0, false, false⟩, by decide⟩,
    ⟨on fun d => { d with h.dev := .standby, h.mir := { Mir.reset with snap := none } }, 2^40, by decide⟩,
    ⟨on fun d => { d.setFld Fld.MIR_CFG_STORE 1 with h.dev := .standby, h.mir := { Mir.reset with snap := some ⟨[], 1, none, 0, 0⟩ } },
     2^40, ⟨[], 1, none, 0, 0⟩, by decide⟩⟩

theorem witness_MirrorTakeover :
    (∃ (s : State) (tag : Nat) (o : Op), s.dev.mgmtOp tag cmdMIR_TAKEOVER = some o ∧ s.dev.h.dev ≠ .standby) ∧
    (∃ (s : State) (tag : Nat) (o : Op) (x : Snap), s.dev.mgmtOp tag cmdMIR_TAKEOVER = some o ∧ s.dev.h.dev = .standby ∧
    s.dev.haltAct = false ∧ s.dev.safeAct false = false ∧ s.dev.safeAct true = false ∧ s.dev.h.mir.takeover = none ∧
    s.dev.takeoverCause o.desc = 0 ∧ s.dev.h.mir.snap = some x) ∧
    (∃ (s : State) (tag : Nat) (o : Op), s.dev.mgmtOp tag cmdMIR_TAKEOVER = some o ∧ s.dev.h.dev = .standby ∧
    s.dev.haltAct = false ∧ s.dev.safeAct false = false ∧ s.dev.safeAct true = false ∧ s.dev.h.mir.takeover = none ∧
    s.dev.takeoverCause o.desc ≠ 0) ∧
    (∃ (s : State) (hd : FrameHead) (m : Session), s.dev.h.mir.session = some m ∧ hd.auth = true ∧ m.rx ≤ hd.counter) ∧
    (∃ (s : State) (t : Nat) (b : Nat), s.dev.h.mir.take = some b ∧ b + msCycles ≤ max s.dev.now t) :=
  ⟨⟨on fun d => putH (d) (ho (de opMGMT 0x1F0 cmdMIR_TAKEOVER 0 0 0 0 0 0) .opened), 0,
     ho (de opMGMT 0x1F0 cmdMIR_TAKEOVER 0 0 0 0 0 0) .opened, by decide⟩,
    ⟨on fun d => let e := putH d (ho (de opMGMT 0x1F0 cmdMIR_TAKEOVER 0 0 0 0 0 0) .opened); { e with h.dev := .standby, h.sec := { Sec.reset with keyed := true }, h.mir := { Mir.reset with snap := some (⟨0 :: 0 :: 0 :: 0 :: (base.dev.regWords (Reg.PCI_OWN_CH 0) 3 ++ [base.dev.rd Reg.PCI_OWN_PORT, base.dev.rd Reg.PCI_OWN_FT]), 0, none, 0, 0⟩) } },
     0, ho (de opMGMT 0x1F0 cmdMIR_TAKEOVER 0 0 0 0 0 0) .opened,
     ⟨0 :: 0 :: 0 :: 0 :: (base.dev.regWords (Reg.PCI_OWN_CH 0) 3 ++ [base.dev.rd Reg.PCI_OWN_PORT, base.dev.rd Reg.PCI_OWN_FT]), 0, none, 0, 0⟩,
     by decide⟩,
    ⟨on fun d => let e := putH d (ho (de opMGMT 0x1F0 cmdMIR_TAKEOVER 0 0 0 0 0 0) .opened); { e with h.dev := .standby, h.sec := { Sec.reset with keyed := true }, h.mir := { Mir.reset with snap := none } },
     0, ho (de opMGMT 0x1F0 cmdMIR_TAKEOVER 0 0 0 0 0 0) .opened, by decide⟩,
    ⟨on fun d => { d with h.mir := { Mir.reset with session := some ⟨true, 5, 2, 0⟩ } }, ⟨1, 7, 3, true⟩, ⟨true, 5, 2, 0⟩,
     by decide⟩,
    ⟨on fun d => { d with h.mir := { Mir.reset with session := some ⟨true, 5, 2, 0⟩, take := some 3 } }, 800003, 3, by decide⟩⟩

/-- What a boot meets when nothing goes wrong, with the image loading or not. -/
def env (load : Bool) : BootEnv :=
  ⟨0, [], [], erasedWord, 0, allGood, allGood, load, 15, 3, ⟨0, false, false⟩, 0, 0, 1⟩

theorem witness_PowerAndPerst :
    (∃ s : State, s.dev.h.boot.released = false) ∧ (∃ s : State, s.dev.f.released = false) ∧
    (∃ s : State, s.dev.f.powered = true ∧ (s.dev.h.dev = .off ∨ s.dev.h.dev = .rest)) ∧
    (∃ s : State, s.dev.f.powered = true ∧ s.dev.h.dev = .boot) ∧
    (∃ s : State, s.dev.f.powered = true ∧ (s.dev.h.dev = .standby ∨ s.dev.h.dev = .settingsHold)) ∧
    (∃ s : State, s.dev.f.powered = true ∧ s.dev.h.dev ≠ .off ∧ s.dev.h.dev ≠ .rest ∧
      (s.dev.h.link.up = true ∨ s.dev.h.link.training = true)) ∧
    (∃ s : State, s.dev.h.dev ≠ .off ∧ s.dev.h.boot.perst = false) :=
  ⟨⟨on fun d => { d with h.boot := { Boot.reset with released := false } }, by decide⟩,
    ⟨on fun d => { d with f.released := false }, by decide⟩, ⟨on fun d => { d with h.dev := .off }, by decide⟩,
    ⟨State.reset, by decide⟩, ⟨on fun d => { d with h.dev := .standby }, by decide⟩, ⟨base, by decide⟩, ⟨base, by decide⟩⟩

/-- The F-side has come back cold. -/
def cold (d : Dev) : Dev := { d with f.image := none, h.link := Link.down }

theorem witness_BootOrder :
    (∃ s : State, s.dev.h.boot.released = true ∧ s.dev.h.boot.perst = true) ∧
    (∃ s : State, s.dev.h.boot.restart = true ∧ s.dev.h.job = none ∧ s.dev.h.dev ≠ .off ∧ s.dev.h.boot.perst = false) ∧
    (∃ s : State, s.dev.f.released = true ∧ s.dev.f.image = none ∧ s.dev.h.link.up = false ∧ s.dev.h.dev ≠ .off ∧
      s.dev.h.dev ≠ .boot ∧ s.dev.h.boot.perst = false ∧ s.dev.h.job = none) ∧
    (∃ s : State, s.dev.f.released = true ∧ s.dev.f.image = none ∧ s.dev.h.link.up = false ∧ s.dev.h.dev ≠ .off ∧
      s.dev.h.dev ≠ .boot ∧ s.dev.h.boot.perst = false ∧ s.dev.h.job.isSome = true) ∧
    (∃ (s : State) (t b : Nat), s.dev.h.dev = .boot ∧ s.dev.h.boot.began = some b ∧ b + 3000 * msCycles ≤ max s.dev.now t) ∧
    (∃ s : State, s.dev.f.released = false) ∧
    (∃ (s : State) (e : BootEnv), (s.bootRest false e).1 = true) :=
  ⟨⟨State.reset, by decide⟩, ⟨on fun d => { d with h.boot := { d.h.boot with restart := true } }, by decide⟩, ⟨on cold, by decide⟩,
    ⟨on fun d => { cold d with h.job := some (aJob []) }, by decide⟩,
    ⟨on fun d => { d with h.dev := .boot, h.boot := { d.h.boot with began := some 4 } }, 2 ^ 40, 4, by decide⟩,
    ⟨on fun d => { d with f.released := false }, by decide⟩, ⟨base, env true, by decide⟩⟩

theorem witness_EmptyFlashBootsIntoRecovery :
    ∃ s : State, s.nv.recs = [] ∧ s.dev.h.boot.cut = none ∧ s.dev.h.boot.p1 = false :=
  ⟨on fun d => { d with h.boot := Boot.reset }, by decide⟩

theorem witness_FSideReapplies :
    ∀ load : Bool, ∃ (s : State) (t : Nat), s.dev.h.fReset = true ∧ s.dev.f.released = true ∧ s.dev.h.dev ≠ .off ∧
      s.dev.h.dev ≠ .boot ∧ ((s.dev.at t).trained (env load).fwd (env load).ret).h.link.up = true ∧ (env load).load = load ∧
      s.current .settings = none :=
  fun load => ⟨on fun d => { d with h.fReset := true }, 0, by cases load <;> decide⟩

theorem witness_NonVolatileStaysCanonical :
    ∃ s : State, s.nv.canonical = true ∧ (s.pending = [] ∧ ∃ u : State, step s = .next u) :=
  ⟨base, by decide, rfl, _, rfl⟩

end Sys2Proof.Tests
end

section
/-!
PROOF. Counter clears (R13): what a write of CLR bits does in each register that holds some, and what is left when an increment
of the same cycle follows it.
-/

namespace Sys2Proof.Machine

/-! ## What a write leaves alone -/

/-- The device `e` has the time, the outputs and the registers of `d`, but for registers at which `K` holds. -/
structure Dev.KeepsBut (d e : Dev) (K : Nat → Prop) : Prop where
  now : e.now = d.now
  out : e.out = d.out
  regs : ∀ k, ¬ K k → e.rd k = d.rd k

theorem Dev.KeepsBut.refl (d : Dev) (K : Nat → Prop) : d.KeepsBut d K := ⟨rfl, rfl, fun _ _ => rfl⟩

theorem Dev.KeepsBut.trans {d e g : Dev} {K : Nat → Prop} (h : d.KeepsBut e K) (h' : e.KeepsBut g K) : d.KeepsBut g K :=
  ⟨h'.now.trans h.now, h'.out.trans h.out, fun k hk => (h'.regs k hk).trans (h.regs k hk)⟩

theorem Dev.KeepsBut.mono {d e : Dev} {K L : Nat → Prop} (h : d.KeepsBut e K) (hKL : ∀ k, K k → L k) : d.KeepsBut e L :=
  ⟨h.now, h.out, fun k hk => h.regs k (fun hK => hk (hKL k hK))⟩

theorem Dev.KeepsBut.foldl {α : Type} {K : Nat → Prop} {g : Dev → α → Dev} (d : Dev) (l : List α)
    (hg : ∀ (e : Dev), ∀ x ∈ l, e.KeepsBut (g e x) K) : d.KeepsBut (l.foldl g d) K :=
  List.foldlRecOn l g (motive := (d.KeepsBut · K)) (.refl d K) (fun e he x hx => he.trans (hg e x hx))

theorem Dev.KeepsBut.fld {d e : Dev} {K : Nat → Prop} (h : d.KeepsBut e K) (F : Fld) (hF : ¬ K F.off) : e.fld F = d.fld F := by
  unfold Dev.fld; rw [h.regs _ hF]

theorem Dev.wr_keeps (d : Dev) (k : Nat) (v : Word) : d.KeepsBut (d.wr k v) (· = k) :=
  ⟨by simp, by simp, fun _ h => d.rd_wr_ne v h⟩

theorem Dev.wrAccess_keeps (d : Dev) (k : Nat) (v : Word) : d.KeepsBut (d.wrAccess k v) (· = k) := by
  unfold Dev.wrAccess
  split
  · exact d.wr_keeps k _
  · exact .refl d _

/-! ## One counter with its CLR bit -/

/-- A CLR bit with the counter and the SAT bit that it clears, as `clrBits` lists them. -/
abbrev ClrRow : Type := Nat × Fld × Fld

/-- A row's counter fills a register and its SAT is one bit of another one. -/
def ClrRow.Wf (x : ClrRow) : Prop := x.2.1.lo = 0 ∧ x.2.1.w = 32 ∧ x.2.2.lo < 32 ∧ x.2.2.w = 1 ∧ x.2.2.off ≠ x.2.1.off

/-- Two rows share no counter and no SAT, and no counter of one holds the SAT of the other. -/
def ClrRow.Apart (x y : ClrRow) : Prop :=
  x.2.1.off ≠ y.2.1.off ∧ x.2.1.off ≠ y.2.2.off ∧ x.2.2.off ≠ y.2.1.off ∧ (x.2.2.off ≠ y.2.2.off ∨ x.2.2.lo ≠ y.2.2.lo)

theorem ClrRow.Apart.symm {x y : ClrRow} (h : x.Apart y) : y.Apart x := by
  obtain ⟨hcc, hcs, hsc, hss⟩ := h
  exact ⟨hcc.symm, hsc.symm, hcs.symm, hss.imp Ne.symm Ne.symm⟩

/-- A row's counter and its SAT. -/
def Dev.counter (d : Dev) (x : ClrRow) : Nat × Nat := (d.fld x.2.1, d.fld x.2.2)

/-- The registers of a row. -/
def ClrRow.Holds (x : ClrRow) (k : Nat) : Prop := k = x.2.1.off ∨ k = x.2.2.off

theorem Dev.setFld_keeps (d : Dev) (F : Fld) (v : Nat) : d.KeepsBut (d.setFld F v) (· = F.off) := d.wr_keeps _ _

theorem Dev.setFld_count_keeps (d : Dev) (x : ClrRow) (v : Nat) : d.KeepsBut (d.setFld x.2.1 v) x.Holds :=
  (d.setFld_keeps _ _).mono fun _ => .inl

theorem Dev.setFld_sat_keeps (d : Dev) (x : ClrRow) (v : Nat) : d.KeepsBut (d.setFld x.2.2 v) x.Holds :=
  (d.setFld_keeps _ _).mono fun _ => .inr

theorem Dev.clearCnt_keeps (d : Dev) (x : ClrRow) : d.KeepsBut (d.clearCnt x.2.1 x.2.2) x.Holds :=
  (d.setFld_count_keeps x 0).trans (Dev.setFld_sat_keeps _ x 0)

theorem Dev.bumpBy_keeps (d : Dev) (x : ClrRow) (n : Nat) : d.KeepsBut (d.bumpBy x.2.1 x.2.2 n) x.Holds := by
  unfold Dev.bumpBy
  dsimp only
  split_ifs
  · exact .refl d _
  · exact (d.setFld_count_keeps x _).trans (Dev.setFld_sat_keeps _ x 1)
  · exact d.setFld_count_keeps x _

/-- A write of a row's counter: the counter alone changes. -/
theorem Dev.counter_setFld_count (d : Dev) {x : ClrRow} (hx : x.Wf) (v : Nat) :
    (d.setFld x.2.1 v).counter x = (v % 2 ^ 32, (d.counter x).2) := by
  obtain ⟨hlo, hw, -, -, hoff⟩ := hx
  have hc := d.fld_setFld_same x.2.1 v (by omega)
  rw [hw] at hc
  exact Prod.ext hc (d.fld_setFld_off _ _ v hoff)

/-- A write of a row's SAT: the SAT alone changes. -/
theorem Dev.counter_setFld_sat (d : Dev) {x : ClrRow} (hx : x.Wf) (v : Nat) :
    (d.setFld x.2.2 v).counter x = ((d.counter x).1, v % 2) := by
  obtain ⟨-, -, hlo, hw, hoff⟩ := hx
  have hs := d.fld_setFld_same x.2.2 v (by omega)
  rw [hw] at hs
  exact Prod.ext (d.fld_setFld_off _ _ v hoff.symm) hs

/-- Writes in the registers of a row that leave the other bits of its SAT's register leave the rows apart from it. -/
theorem Dev.counter_setFld_apart (d : Dev) {x y : ClrRow} (hx : x.Wf) (hy : y.Wf) (h : x.Apart y) (v : Nat) :
    (d.setFld x.2.1 v).counter y = d.counter y ∧ (d.setFld x.2.2 v).counter y = d.counter y := by
  obtain ⟨hcc, hcs, hsc, hss⟩ := h
  obtain ⟨-, -, -, hxw, -⟩ := hx
  obtain ⟨-, -, hylo, hyw, -⟩ := hy
  constructor
  · exact Prod.ext (d.fld_setFld_off _ _ v hcc.symm) (d.fld_setFld_off _ _ v hcs.symm)
  · have hs : y.2.2.off ≠ x.2.2.off ∨ y.2.2.lo + y.2.2.w ≤ x.2.2.lo ∨ x.2.2.lo + x.2.2.w ≤ y.2.2.lo := by omega
    exact Prod.ext (d.fld_setFld_off _ _ v hsc.symm) (d.fld_setFld_ne _ _ v (by omega) hs)

/-- A clear leaves a counter and its SAT at 0. -/
theorem Dev.counter_clearCnt (d : Dev) {x : ClrRow} (hx : x.Wf) : (d.clearCnt x.2.1 x.2.2).counter x = (0, 0) := by
  rw [Dev.clearCnt, Dev.counter_setFld_sat _ hx, Dev.counter_setFld_count _ hx]; rfl

theorem Dev.counter_clearCnt_apart (d : Dev) {x y : ClrRow} (hx : x.Wf) (hy : y.Wf) (h : x.Apart y) :
    (d.clearCnt x.2.1 x.2.2).counter y = d.counter y := by
  rw [Dev.clearCnt, (Dev.counter_setFld_apart _ hx hy h 0).2, (Dev.counter_setFld_apart _ hx hy h 0).1]

/-- What `n` increments make of a counter and its SAT (R11). -/
def countBy (n : Nat) (c : Nat × Nat) : Nat × Nat :=
  if n = 0 then c else (min (c.1 + n) (2 ^ 32 - 1), if 2 ^ 32 - 1 ≤ c.1 + n then 1 else c.2)

theorem Dev.counter_bumpBy (d : Dev) {x : ClrRow} (hx : x.Wf) (n : Nat) :
    (d.bumpBy x.2.1 x.2.2 n).counter x = countBy n (d.counter x) := by
  have hc : (d.counter x).1 = d.fld x.2.1 := rfl
  have hmod : min (d.fld x.2.1 + n) (2 ^ 32 - 1) % 2 ^ 32 = min (d.fld x.2.1 + n) (2 ^ 32 - 1) :=
    Nat.mod_eq_of_lt (by omega)
  unfold Dev.bumpBy countBy
  dsimp only
  rw [hc]
  split_ifs with hn hv hge hge
  · rfl
  · rw [Dev.counter_setFld_sat _ hx, Dev.counter_setFld_count _ hx, hmod]
  · omega
  · omega
  · rw [Dev.counter_setFld_count _ hx, hmod]

theorem Dev.counter_bumpBy_apart (d : Dev) {x y : ClrRow} (hx : x.Wf) (hy : y.Wf) (h : x.Apart y) (n : Nat) :
    (d.bumpBy x.2.1 x.2.2 n).counter y = d.counter y := by
  have hset := fun (e : Dev) (v : Nat) => e.counter_setFld_apart hx hy h v
  unfold Dev.bumpBy
  dsimp only
  split_ifs
  · rfl
  · rw [(hset _ 1).2, (hset d _).1]
  · exact (hset d _).1

/-! ## The counters of a register -/

/-- The rows of a register: each well-formed, and apart from one another. -/
def ClrRows (l : List ClrRow) : Prop := (∀ x ∈ l, x.Wf) ∧ l.Pairwise ClrRow.Apart

/-- The registers with CLR bits: those of the H-side, and those of the F-side. -/
def clrRegsH : List Nat := [Reg.PCI_CNT_SAT, Reg.PRZ_CNT_SAT, Reg.RM_CNT_SAT, Reg.RM_CHK_STATUS, Reg.RM_PRESS_SAT, Reg.NVS_CNT_SAT,
  Reg.SEC_CNT_SAT, Reg.MIR_CNT_SAT]
def clrRegsF : List Nat := [Reg.CAR_CNT_SAT, Reg.CH_CNT_SAT, Reg.CH_CHK_SAT, Reg.FSP_CNT_SAT, Reg.TWP_CNT_SAT]

theorem clrBits_rows : ∀ fn : Func, ∀ off ∈ clrRegsH ++ clrRegsF, ClrRows (clrBits fn off) := by
  unfold ClrRows ClrRow.Wf ClrRow.Apart; decide

theorem clrBits_ne_nil : ∀ fn : Func, ∀ off ∈ clrRegsH ++ clrRegsF, clrBits fn off ≠ [] := by decide

theorem ClrRows.filter {l : List ClrRow} (h : ClrRows l) (p : ClrRow → Bool) : ClrRows (l.filter p) :=
  ⟨fun x hx => h.1 x (List.mem_of_mem_filter hx), h.2.filter p⟩

/-- Where each step changes its own row by `h` and leaves the rows apart from it, a pass over the rows changes each by `h`. -/
theorem Dev.counter_foldl {g : Dev → ClrRow → Dev} {h : Nat × Nat → Nat × Nat}
    (hown : ∀ (d : Dev) {x : ClrRow}, x.Wf → (g d x).counter x = h (d.counter x))
    (hapart : ∀ (d : Dev) {x y : ClrRow}, x.Wf → y.Wf → x.Apart y → (g d x).counter y = d.counter y) :
    ∀ {l : List ClrRow} (d : Dev), ClrRows l → ∀ x ∈ l, (l.foldl g d).counter x = h (d.counter x)
  | [], _, _, x, hx => absurd hx (List.not_mem_nil)
  | y :: l, d, ⟨hwf, hpair⟩, x, hx => by
    obtain ⟨hy, hl⟩ := List.forall_mem_cons.mp hwf
    obtain ⟨hyl, hpl⟩ := List.pairwise_cons.mp hpair
    rcases List.mem_cons.mp hx with rfl | hxl
    · have hrest : (l.foldl g (g d x)).counter x = (g d x).counter x :=
        List.foldlRecOn l g (motive := fun e => e.counter x = (g d x).counter x) rfl
          (fun e he z hz => (hapart e (hl z hz) hy (hyl z hz).symm).trans he)
      exact hrest.trans (hown d hy)
    · rw [List.foldl_cons, Dev.counter_foldl hown hapart (g d y) ⟨hl, hpl⟩ x hxl, hapart d hy (hl x hxl) (hyl x hxl)]

/-- The rows whose CLR bit a write sets. -/
def clrNamed (fn : Func) (off : Nat) (data : Word) : List ClrRow := (clrBits fn off).filter (fun x => bitOf data.toNat x.1)

/-- The counters that a write names are cleared. -/
def Dev.clearNamed (d : Dev) (fn : Func) (off : Nat) (data : Word) : Dev :=
  (clrNamed fn off data).foldl (fun d x => d.clearCnt x.2.1 x.2.2) d

/-- The counters that a write names count `n` more. -/
def Dev.bumpNamed (d : Dev) (fn : Func) (off : Nat) (data : Word) (n : Nat) : Dev :=
  (clrNamed fn off data).foldl (fun d x => d.bumpBy x.2.1 x.2.2 n) d

theorem Dev.counter_clear_bump (d : Dev) (fn : Func) {off : Nat} (data : Word) (hoff : off ∈ clrRegsH ++ clrRegsF) :
    ∀ x ∈ clrNamed fn off data, ((d.clearNamed fn off data).bumpNamed fn off data 1).counter x = (1, 0) := by
  intro x hx
  have hrows : ClrRows (clrNamed fn off data) := (clrBits_rows fn off hoff).filter _
  have hclr : (d.clearNamed fn off data).counter x = (0, 0) :=
    Dev.counter_foldl (h := fun _ => (0, 0)) Dev.counter_clearCnt Dev.counter_clearCnt_apart d hrows x hx
  have hbump := Dev.counter_foldl (fun e _ hy => e.counter_bumpBy hy 1) (fun e _ _ hy hz hyz => e.counter_bumpBy_apart hy hz hyz 1)
    (d.clearNamed fn off data) hrows x hx
  rw [hclr] at hbump
  exact hbump

/-- A clear with the increments that follow it touches the registers of the counters that the write names. -/
theorem Dev.clear_bump_keeps (d : Dev) (fn : Func) (off : Nat) (data : Word) (n : Nat) :
    d.KeepsBut ((d.clearNamed fn off data).bumpNamed fn off data n) (fun k => ∃ x ∈ clrNamed fn off data, x.Holds k) :=
  have hmono : ∀ x ∈ clrNamed fn off data, ∀ k, x.Holds k → ∃ y ∈ clrNamed fn off data, y.Holds k :=
    fun x hx _ hk => ⟨x, hx, hk⟩
  (Dev.KeepsBut.foldl d _ fun e x hx => (e.clearCnt_keeps x).mono (hmono x hx)).trans
    (Dev.KeepsBut.foldl _ _ fun e x hx => (e.bumpBy_keeps x n).mono (hmono x hx))

/-- A clear of the named counters, bit by bit. -/
theorem Dev.clearNamed_eq (d : Dev) (fn : Func) (off : Nat) (data : Word) : d.clearNamed fn off data =
    (clrBits fn off).foldl (fun d x => if bitOf data.toNat x.1 then d.clearCnt x.2.1 x.2.2 else d) d :=
  List.foldl_filter

/-! ## The write of each register -/

section
variable (s : State) (d : Dev) (fn : Func) (data : Word)

/-- The block of a shared counter takes the write from both functions. -/
theorem State.blockWrite_shared {off : Nat} (hoff : off = Reg.PCI_CNT_SAT ∨ off = Reg.RM_CNT_SAT) :
    s.blockWrite fn off data = s.mapDev (·.clearNamed fn off data) := by
  simp only [Dev.clearNamed_eq]
  rcases hoff with rfl | rfl
  · rfl
  · rfl

/-- The status bits of RM_CHK_STATUS clear before its counter. -/
theorem State.blockWrite_chkStatus : s.blockWrite fn Reg.RM_CHK_STATUS data =
    s.mapDev (fun d => (d.wrAccess Reg.RM_CHK_STATUS data).clearNamed fn Reg.RM_CHK_STATUS data) := by
  simp only [Dev.clearNamed_eq]; rfl

/-- The blocks that Function A alone writes take the write from it. -/
theorem State.blockWrite_ofA {off : Nat}
    (hoff : off = Reg.PRZ_CNT_SAT ∨ off = Reg.NVS_CNT_SAT ∨ off = Reg.SEC_CNT_SAT ∨ off = Reg.MIR_CNT_SAT) :
    s.blockWrite false off data = s.mapDev (·.clearNamed false off data) := by
  simp only [Dev.clearNamed_eq]
  rcases hoff with rfl | rfl | rfl | rfl
  · rfl
  · rfl
  · rfl
  · rfl

/-- A function clears the counter of its own duplicates (R134). -/
theorem Dev.pressSatWrite_own (h : bitOf data.toNat (3 - fn.idx) = false) :
    d.pressSatWrite fn data = d.clearNamed fn Reg.RM_PRESS_SAT data := by
  have hrows : clrBits fn Reg.RM_PRESS_SAT =
    [(2, Fld.RM_DUP_CNT_COUNT 0, dupSat false), (3, Fld.RM_DUP_CNT_COUNT 1, dupSat true)] := rfl
  rw [Dev.clearNamed_eq, hrows]
  cases fn with
  | false =>
    have hother : bitOf data.toNat 3 = false := h
    simp [Dev.pressSatWrite, Func.idx, hother]
  | true =>
    have hother : bitOf data.toNat 2 = false := h
    simp [Dev.pressSatWrite, Func.idx, hother]

theorem State.blockWrite_pressSat (h : bitOf data.toNat (3 - fn.idx) = false) :
    s.blockWrite fn Reg.RM_PRESS_SAT data = s.mapDev (·.clearNamed fn Reg.RM_PRESS_SAT data) := by
  show s.mapDev (·.pressSatWrite fn data) = _
  rw [State.mapDev, State.mapDev, s.dev.pressSatWrite_own fn data h]

/-- The F-side routes an offset with CLR bits to the block in whose range it lies. -/
theorem Dev.windowWrite_clrReg (c : SdaCheck) {off : Nat} (hoff : off ∈ clrRegsF) :
    d.windowWrite fn off data c =
      if off < 0x2400 then d.carWrite fn off data
      else if off < 0x2800 then d.chWrite fn off data
      else if off < 0x2C00 then d.fspWrite fn off data
      else d.twpWrite fn off data c := by
  have hplace : ∀ k ∈ clrRegsF, (specOf k).isSome = true ∧ k < 0x3000 := by decide
  obtain ⟨hspec, hlt⟩ := hplace off hoff
  obtain ⟨r, hr⟩ := Option.isSome_iff_exists.mp hspec
  unfold Dev.windowWrite
  simp only [hr, hlt, if_true]

/-- The Carousel's owner clears its counters, under LOCK too: no field of the register is locked. -/
theorem Dev.windowWrite_carCntSat (c : SdaCheck) (h : d.carCode = codeOf fn) :
    d.windowWrite fn Reg.CAR_CNT_SAT data c = .ok (d.clearNamed fn Reg.CAR_CNT_SAT data) := by
  have hlock : changes (d.rd Reg.CAR_CNT_SAT) data (carLocked Reg.CAR_CNT_SAT) = false := by
    show changes _ _ 0 = false
    simp [changes]
  rw [d.windowWrite_clrReg fn data c (by decide), if_pos (by decide), Dev.clearNamed_eq, Dev.carWrite, h, hlock]
  simp only [bne_self_eq_false, Bool.and_false, Bool.false_eq_true, if_false]; rfl

/-- Function A clears the counter of lost captures. -/
theorem Dev.windowWrite_chCntSat (c : SdaCheck) :
    d.windowWrite false Reg.CH_CNT_SAT data c = .ok (d.clearNamed false Reg.CH_CNT_SAT data) := by
  rw [d.windowWrite_clrReg false data c (by decide), if_neg (by decide), if_pos (by decide), Dev.clearNamed_eq]; rfl

/-- Either function clears the counters of the integrity chain. -/
theorem Dev.windowWrite_chChkSat (c : SdaCheck) :
    d.windowWrite fn Reg.CH_CHK_SAT data c = .ok (d.clearNamed fn Reg.CH_CHK_SAT data) := by
  rw [d.windowWrite_clrReg fn data c (by decide), if_neg (by decide), if_pos (by decide), Dev.clearNamed_eq]; rfl

/-- The owner of the field serial port clears its counters. -/
theorem Dev.windowWrite_fspCntSat (c : SdaCheck) (h : d.owns Fld.PCI_OWN_PORT_FSP fn = true) :
    d.windowWrite fn Reg.FSP_CNT_SAT data c = .ok (d.clearNamed fn Reg.FSP_CNT_SAT data) := by
  rw [d.windowWrite_clrReg fn data c (by decide), if_neg (by decide), if_neg (by decide), if_pos (by decide), Dev.clearNamed_eq]
  show (if d.owns Fld.PCI_OWN_PORT_FSP fn then Except.ok _ else notOwner) = _
  rw [if_pos h]; rfl

/-- A role's owner clears the counters of its own role (R225). -/
theorem Dev.windowWrite_twpCntSat (c : SdaCheck) (h : (d.twpCtl = codeOf fn ∧ bitOf data.toNat 10 = false) ∨
    (d.twpTgt = codeOf fn ∧ bitOf data.toNat 8 = false ∧ bitOf data.toNat 9 = false)) :
    d.windowWrite fn Reg.TWP_CNT_SAT data c = .ok (d.clearNamed fn Reg.TWP_CNT_SAT data) := by
  have hmay : ¬ (!(d.twpCtl == codeOf fn) && (bitOf data.toNat 8 || bitOf data.toNat 9) ||
      !(d.twpTgt == codeOf fn) && bitOf data.toNat 10 || !(d.twpCtl == codeOf fn) && !(d.twpTgt == codeOf fn)) = true := by
    rcases h with ⟨hctl, h10⟩ | ⟨htgt, h8, h9⟩
    · simp [hctl, h10]
    · simp [htgt, h8, h9]
  rw [d.windowWrite_clrReg fn data c (by decide), if_neg (by decide), if_neg (by decide), if_neg (by decide), Dev.clearNamed_eq]
  show (if _ then notOwner else Except.ok _) = _
  rw [if_neg hmay]; rfl

end

/-! ## How a write reaches its register -/

theorem Dev.hostOpen_iff (d : Dev) (fn : Func) :
    d.hostOpen fn = true ↔ d.barOpen fn = true ∧ d.h.dev ≠ .boot ∧ d.f.ch.rest = none := by
  simp [Dev.hostOpen, and_assoc]

/-- A host's access wakes nothing while the device does not rest. -/
theorem Dev.hostAccess_of_awake (d : Dev) (h : d.f.ch.rest = none) : d.hostAccess = d := by
  simp [Dev.hostAccess, Dev.wake, h]

/-- A write of a function that the device takes acts. -/
theorem State.hostDo_of_open (s : State) {fn : Func} (off : Nat) (g : State → State) (h : s.dev.hostOpen fn = true) :
    s.hostDo fn off g = g s := by
  obtain ⟨hbar, hboot, hrest⟩ := (s.dev.hostOpen_iff fn).mp h
  have hs : s.mapDev (·.hostAccess) = s := by rw [State.mapDev, Dev.hostAccess_of_awake _ hrest]
  unfold State.hostDo
  rw [hs]
  simp [hbar, hboot, Dev.bootAllows]

/-- A write of an H-side register with CLR bits reaches its block. -/
theorem State.reach_clrRegH (s : State) {fn : Func} {off : Nat} (data : Word) (hopen : s.dev.hostOpen fn = true)
    (hoff : off ∈ clrRegsH) : s.reach fn off data = s.blockWrite fn off data := by
  have hplace : ∀ k ∈ clrRegsH, onFSide k = false ∧ 0x100 ≤ k ∧ k < 0x2000 ∧ (specOf k).isSome = true := by decide
  obtain ⟨hside, hlo, hhi, hspec⟩ := hplace off hoff
  obtain ⟨r, hr⟩ := Option.isSome_iff_exists.mp hspec
  have hsys : off ≠ Reg.SYS_LOCK_SET := fun h => absurd (h ▸ hlo) (by decide)
  simp only [State.reach, hside, Bool.false_eq_true, if_false]
  rw [s.hostDo_of_open off _ hopen]
  unfold State.regWrite
  rw [if_pos hhi, hr]
  simp [hsys, Nat.not_lt.mpr hlo]

/-- A write of an F-side register, taken by its block, is its block's. -/
theorem State.reach_of_windowWrite (s : State) {fn : Func} {off : Nat} {data : Word} {d : Dev} (hside : onFSide off = true)
    (h : s.dev.windowWrite fn off data ⟨0, false, false⟩ = .ok d) : s.reach fn off data = { s with dev := d } := by
  simp only [State.reach, hside, if_true, State.mapDev, h, FwOut.orSame]

/-! ## Clears and increments of the same cycle -/

/-- A function may write every CLR bit that the word holds at a register. -/
def Dev.MayClear (d : Dev) (fn : Func) (off : Nat) (data : Word) : Prop :=
  off ∈ [Reg.PCI_CNT_SAT, Reg.RM_CNT_SAT, Reg.RM_CHK_STATUS, Reg.CH_CHK_SAT] ∨
    (off = Reg.RM_PRESS_SAT ∧ bitOf data.toNat (3 - fn.idx) = false) ∨
    (fn = false ∧ off ∈ [Reg.PRZ_CNT_SAT, Reg.NVS_CNT_SAT, Reg.SEC_CNT_SAT, Reg.MIR_CNT_SAT, Reg.CH_CNT_SAT]) ∨
    (off = Reg.CAR_CNT_SAT ∧ d.carCode = codeOf fn) ∨
    (off = Reg.FSP_CNT_SAT ∧ d.owns Fld.PCI_OWN_PORT_FSP fn = true) ∨
    (off = Reg.TWP_CNT_SAT ∧ d.twpCtl = codeOf fn ∧ bitOf data.toNat 10 = false) ∨
    (off = Reg.TWP_CNT_SAT ∧ d.twpTgt = codeOf fn ∧ bitOf data.toNat 8 = false ∧ bitOf data.toNat 9 = false)

/-- A write reaches a register with CLR bits and clears the counters that it names; of the rest that register alone may change. -/
def State.Clears (s : State) (fn : Func) (off : Nat) (data : Word) : Prop :=
  off ∈ clrRegsH ++ clrRegsF ∧
    ∃ d : Dev, s.dev.KeepsBut d (· = off) ∧ s.reach fn off data = { s with dev := d.clearNamed fn off data }

theorem State.clears_of_blockWrite {s : State} {fn : Func} {off : Nat} {data : Word} {d : Dev} (hopen : s.dev.hostOpen fn = true)
    (hoff : off ∈ clrRegsH) (hd : s.dev.KeepsBut d (· = off))
    (h : s.blockWrite fn off data = { s with dev := d.clearNamed fn off data }) : s.Clears fn off data :=
  ⟨List.mem_append_left _ hoff, d, hd, (s.reach_clrRegH data hopen hoff).trans h⟩

theorem State.clears_of_windowWrite {s : State} {fn : Func} {off : Nat} {data : Word} (hoff : off ∈ clrRegsF)
    (h : ∀ c, s.dev.windowWrite fn off data c = .ok (s.dev.clearNamed fn off data)) : s.Clears fn off data :=
  have hside : ∀ k ∈ clrRegsF, onFSide k = true := by decide
  ⟨List.mem_append_right _ hoff, s.dev, .refl _ _, s.reach_of_windowWrite (hside off hoff) (h _)⟩

theorem State.clears_of_mayClear {s : State} {fn : Func} {off : Nat} {data : Word} (hopen : s.dev.hostOpen fn = true)
    (hmay : s.dev.MayClear fn off data) : s.Clears fn off data := by
  have hkept : s.dev.KeepsBut s.dev (· = off) := .refl _ _
  simp only [Dev.MayClear, List.mem_cons, List.not_mem_nil, or_false] at hmay
  rcases hmay with (rfl | rfl | rfl | rfl) | ⟨rfl, hother⟩ | ⟨rfl, rfl | rfl | rfl | rfl | rfl⟩ | ⟨rfl, hcar⟩ | ⟨rfl, hfsp⟩ |
    ⟨rfl, hctl⟩ | ⟨rfl, htgt⟩
  · exact clears_of_blockWrite hopen (by decide) hkept (s.blockWrite_shared fn data (.inl rfl))
  · exact clears_of_blockWrite hopen (by decide) hkept (s.blockWrite_shared fn data (.inr rfl))
  · exact clears_of_blockWrite hopen (by decide) (s.dev.wrAccess_keeps _ data) (s.blockWrite_chkStatus fn data)
  · exact clears_of_windowWrite (by decide) (fun c => s.dev.windowWrite_chChkSat fn data c)
  · exact clears_of_blockWrite hopen (by decide) hkept (s.blockWrite_pressSat fn data hother)
  · exact clears_of_blockWrite hopen (by decide) hkept (s.blockWrite_ofA data (.inl rfl))
  · exact clears_of_blockWrite hopen (by decide) hkept (s.blockWrite_ofA data (.inr (.inl rfl)))
  · exact clears_of_blockWrite hopen (by decide) hkept (s.blockWrite_ofA data (.inr (.inr (.inl rfl))))
  · exact clears_of_blockWrite hopen (by decide) hkept (s.blockWrite_ofA data (.inr (.inr (.inr rfl))))
  · exact clears_of_windowWrite (by decide) (fun c => s.dev.windowWrite_chCntSat data c)
  · exact clears_of_windowWrite (by decide) (fun c => s.dev.windowWrite_carCntSat fn data c hcar)
  · exact clears_of_windowWrite (by decide) (fun c => s.dev.windowWrite_fspCntSat fn data c hfsp)
  · exact clears_of_windowWrite (by decide) (fun c => s.dev.windowWrite_twpCntSat fn data c (.inl hctl))
  · exact clears_of_windowWrite (by decide) (fun c => s.dev.windowWrite_twpCntSat fn data c (.inr htgt))

/-- COUNTER_CLEAR at a register with CLR bits: the write, then the increments of its cycle. -/
theorem exec_counterClear (s : State) (fn : Func) {off : Nat} (data : Word) (n : Nat) (hoff : off ∈ clrRegsH ++ clrRegsF) :
    exec (.counterClear fn off data n) s = .next ((s.reach fn off data).mapDev (·.bumpNamed fn off data n)) := by
  have hrec : off ≠ Reg.SN_REC_CLR := fun h => absurd (h ▸ hoff) (by decide)
  have hrows := clrBits_ne_nil fn off hoff
  show execCounterClear fn off data n s = _
  unfold execCounterClear Dev.bumpNamed clrNamed
  rw [if_neg hrec]
  split
  · contradiction
  · rfl

/-- A counter whose CLR bit a write leaves out stands in none of the registers that the write touches. -/
theorem clrRow_untouched {fn : Func} {off : Nat} {data : Word} (hoff : off ∈ clrRegsH ++ clrRegsF) {x : ClrRow}
    (hx : x ∈ clrBits fn off) (hbit : bitOf data.toNat x.1 = false) :
    ¬ (x.2.1.off = off ∨ ∃ y ∈ clrNamed fn off data, y.Holds x.2.1.off) := by
  have hself : ∀ fn : Func, ∀ k ∈ clrRegsH ++ clrRegsF, ∀ y ∈ clrBits fn k, y.2.1.off ≠ k := by decide
  rintro (h | ⟨y, hy, hholds⟩)
  · exact hself fn off hoff x hx h
  · obtain ⟨hyl, hybit⟩ := List.mem_filter.mp hy
    have hne : x ≠ y := by rintro rfl; exact Bool.false_ne_true (hbit.symm.trans hybit)
    have : Std.Symm ClrRow.Apart := ⟨fun _ _ => ClrRow.Apart.symm⟩
    obtain ⟨hcc, hcs, -, -⟩ := (clrBits_rows fn off hoff).2.forall hx hyl hne
    exact hholds.elim hcc hcs

/-- Settles O13: the write clears each counter that it names, and the increment then takes it from 0 to 1. -/
theorem clearThenIncrementReadsOne : Obligations.ClearThenIncrementReadsOne := by
  unfold Obligations.ClearThenIncrementReadsOne
  intro s fn off data hopen hmay
  obtain ⟨hoff, d, hd, hreach⟩ := State.clears_of_mayClear hopen hmay
  have hkeeps : s.dev.KeepsBut ((d.clearNamed fn off data).bumpNamed fn off data 1)
      (fun k => k = off ∨ ∃ x ∈ clrNamed fn off data, x.Holds k) :=
    (hd.mono fun _ => .inl).trans ((d.clear_bump_keeps fn off data 1).mono fun _ => .inr)
  have hexec : exec (.counterClear fn off data 1) s =
      .next { s with dev := (d.clearNamed fn off data).bumpNamed fn off data 1 } := by
    rw [exec_counterClear s fn data 1 hoff, hreach]; rfl
  refine ⟨_, hexec, ?named, ?unnamed, ?others, hkeeps.now, hkeeps.out, rfl, rfl⟩
  case named =>
    intro x hx hbit
    exact Prod.mk.inj (d.counter_clear_bump fn data hoff x (List.mem_filter.mpr ⟨hx, hbit⟩))
  case unnamed =>
    intro x hx hbit
    exact hkeeps.fld x.2.1 (clrRow_untouched hoff hx hbit)
  case others =>
    intro k hk hrows
    refine hkeeps.regs k ?_
    rintro (h | ⟨x, hx, hholds⟩)
    · exact hk h
    · obtain ⟨hc, hs⟩ := hrows x (List.mem_of_mem_filter hx)
      exact hholds.elim hc hs

end Sys2Proof.Machine
end

section
/-!
PROOF. The slot split (R31): who owns a slot, which writes of CAR_SLOT_SPLIT the Carousel takes, and how a write cell of the field
window comes to its block.
-/

namespace Sys2Proof.Machine

/-! ## The write cell of the field window -/

/-- The three parts of a field-window write's word lie side by side. -/
theorem toNat_fwWord (fn : Func) (off : Nat) (data : Word) :
    (fwWord fn off data).toNat = fn.idx * 2 ^ 47 + off / 4 % 2 ^ 14 * 2 ^ 32 + data.toNat := by
  have hfn : fn.idx ≤ 1 := by cases fn <;> decide
  have hdata := data.isLt
  rw [fwWord, BitVec.toNat_ofNat]
  omega

/-- The F-side reads a container as a function's write of a word at an offset, and its check holds. -/
structure IsFwWrite (c : Container) (fn : Func) (off : Nat) (data : Word) : Prop where
  ofFn : bitOf c.word.toNat 47 = fn
  atOff : 4 * bitsOf c.word.toNat 32 14 = off
  ofData : BitVec.ofNat 32 c.word.toNat = data
  good : c.good fn 0 routeFieldWindow = true

/-- The F-side reads what the H-side has written. -/
theorem isFwWrite_fwContainer (fn : Func) {off : Nat} (data : Word) (hoff : off % 4 = 0 ∧ off < 2 ^ 16) :
    IsFwWrite (fwContainer fn off data) fn off data := by
  have hdata := data.isLt
  have hword : (fwContainer fn off data).word.toNat = _ := toNat_fwWord fn off data
  refine ⟨?ofFn, ?atOff, ?ofData, ?good⟩
  case ofFn =>
    rw [hword, bitOf]
    cases fn with
    | false => simp only [Func.idx, beq_eq_false_iff_ne, Bool.false_eq_true, if_false]; omega
    | true => simp only [Func.idx, beq_iff_eq, if_true]; omega
  case atOff => rw [hword, bitsOf]; omega
  case ofData =>
    apply BitVec.eq_of_toNat_eq
    rw [hword, BitVec.toNat_ofNat]
    omega
  case good => exact beq_self_eq_true _

/-- The offsets of which neither the Safety Net shadow nor WDF takes the write cells. -/
def IsBlockOff (off : Nat) : Prop := shadowOff off = false ∧ ¬ (0x1440 ≤ off ∧ off < 0x1460)

section
variable (d : Dev) (dev : Bool) {c : Container} {fn : Func} {off : Nat} {data : Word} {sda : SdaCheck}

/-- A write that the block takes is applied, and answered without a cause. -/
theorem Dev.windowApply_of_ok {e : Dev} (hc : IsFwWrite c fn off data) (hoff : IsBlockOff off)
    (h : d.windowWrite fn off data sda = .ok e) : d.windowApply dev c sda = (e, 0) := by
  obtain ⟨rfl, rfl, rfl, hgood⟩ := hc
  obtain ⟨hshadow, hwd⟩ := hoff
  simp only [Dev.windowApply, hgood, hshadow, hwd, h, Bool.not_true, Bool.false_eq_true, if_false]

/-- A write that the block refuses sets the block's CFG_REJ, and is answered with the cause. -/
theorem Dev.windowApply_of_error {k : Nat} {F : Fld} (hc : IsFwWrite c fn off data) (hoff : IsBlockOff off)
    (hrej : blockRej off = some F) (hside : onFSide off = true) (h : d.windowWrite fn off data sda = .error k) :
    d.windowApply dev c sda = (d.setFld F 1, k) := by
  obtain ⟨rfl, rfl, rfl, hgood⟩ := hc
  obtain ⟨hshadow, hwd⟩ := hoff
  simp only [Dev.windowApply, hgood, hshadow, hwd, h, hrej, hside, Bool.not_true, Bool.false_eq_true, if_false, if_true]

end

/-! ## A field of a register after an accepted write -/

/-- The write takes the data's bits where the register is writable. -/
theorem getLsbD_writeBits_of_rw (r : RegSpec) (old data : Word) {i : Nat} (h : r.rw.getLsbD i = true) :
    (writeBits r old data).getLsbD i = data.getLsbD i := by
  simp [writeBits, h]

/-- A field all of whose bits are writable holds the data's bits after the write. -/
theorem Dev.fld_wrAccess (d : Dev) {F : Fld} {r : RegSpec} (data : Word) (hr : specOf (baseOff F.off) = some r)
    (hrw : ∀ i < F.w, r.rw.getLsbD (F.lo + i) = true) : (d.wrAccess F.off data).fld F = bitsOf data.toNat F.lo F.w := by
  simp only [Dev.wrAccess, hr, Dev.fld, Dev.rd_wr_same]
  apply Nat.eq_of_testBit_eq
  intro i
  rw [testBit_bitsOf, testBit_bitsOf]
  by_cases hi : i < F.w
  · exact congrArg _ (getLsbD_writeBits_of_rw r _ data (hrw i hi))
  · simp [hi]

/-! ## The slot split -/

/-- A slot lies among the first A_COUNT, else among the last B_COUNT, else between them. -/
theorem Dev.slotCode_cases (d : Dev) {n : Nat} (hn : n < 256) :
    (d.slotCode n = codeOf false ∧ n < d.fld Fld.CAR_SLOT_SPLIT_A_COUNT) ∨
    (d.slotCode n = codeOf true ∧ d.fld Fld.CAR_SLOT_SPLIT_A_COUNT ≤ n ∧ 256 - d.fld Fld.CAR_SLOT_SPLIT_B_COUNT ≤ n) ∨
    (d.slotCode n = 0 ∧ d.fld Fld.CAR_SLOT_SPLIT_A_COUNT ≤ n ∧ n < 256 - d.fld Fld.CAR_SLOT_SPLIT_B_COUNT) := by
  unfold Dev.slotCode
  split_ifs with hA hB
  · exact .inl ⟨rfl, hA⟩
  · exact .inr (.inl ⟨rfl, by omega⟩)
  · exact .inr (.inr ⟨rfl, by omega⟩)

/-- Where the counts fit, a slot's code says in which of the three spans it lies. -/
theorem Dev.slotCode_iff (d : Dev) {n : Nat} (hn : n < 256)
    (hsum : d.fld Fld.CAR_SLOT_SPLIT_A_COUNT + d.fld Fld.CAR_SLOT_SPLIT_B_COUNT ≤ 256) :
    (d.slotCode n = codeOf false ↔ n < d.fld Fld.CAR_SLOT_SPLIT_A_COUNT) ∧
    (d.slotCode n = codeOf true ↔ 256 - d.fld Fld.CAR_SLOT_SPLIT_B_COUNT ≤ n) ∧
    (d.slotCode n = 0 ↔ d.fld Fld.CAR_SLOT_SPLIT_A_COUNT ≤ n ∧ n < 256 - d.fld Fld.CAR_SLOT_SPLIT_B_COUNT) := by
  have hA : codeOf false = 1 := rfl
  have hB : codeOf true = 2 := rfl
  have hcases := d.slotCode_cases hn
  omega

/-- The owner's write of CAR_SLOT_SPLIT while LOCK is 0: refused for its value while EN is 1 or where the counts exceed the slots. -/
theorem Dev.windowWrite_slotSplit (d : Dev) {fn : Func} (data : Word) (sda : SdaCheck) (hown : d.carCode = codeOf fn)
    (hlock : d.flag Fld.CAR_CTRL_LOCK = false) :
    d.windowWrite fn Reg.CAR_SLOT_SPLIT data sda =
      if d.carEn || decide (256 < bitsOf data.toNat 0 9 + bitsOf data.toNat 9 9) then badValue
      else .ok (d.wrAccess Reg.CAR_SLOT_SPLIT data) := by
  show d.carWrite fn Reg.CAR_SLOT_SPLIT data = _
  simp only [Dev.carWrite, hown, hlock, bne_self_eq_false, Bool.false_and, Bool.false_eq_true, if_false]
  rfl

/-- The counts that an accepted write of CAR_SLOT_SPLIT leaves are those of the data, and it writes no other register. -/
theorem Dev.wrAccess_slotSplit (d : Dev) (data : Word) :
    (d.wrAccess Reg.CAR_SLOT_SPLIT data).fld Fld.CAR_SLOT_SPLIT_A_COUNT = bitsOf data.toNat 0 9 ∧
    (d.wrAccess Reg.CAR_SLOT_SPLIT data).fld Fld.CAR_SLOT_SPLIT_B_COUNT = bitsOf data.toNat 9 9 ∧
    ∀ k, k ≠ Reg.CAR_SLOT_SPLIT → (d.wrAccess Reg.CAR_SLOT_SPLIT data).rd k = d.rd k :=
  have hspec : specOf (baseOff Reg.CAR_SLOT_SPLIT) = some ⟨0x2044, 1, 4, 0x3FFFF, 0x0, 0x0, 0x100⟩ := by decide
  ⟨d.fld_wrAccess (F := Fld.CAR_SLOT_SPLIT_A_COUNT) data hspec (by decide),
    d.fld_wrAccess (F := Fld.CAR_SLOT_SPLIT_B_COUNT) data hspec (by decide), (d.wrAccess_keeps _ data).regs⟩

/-- Settles O2: the owners of the slots by the two counts, and the write of the split by what the Carousel takes and refuses. -/
theorem carouselSlotSplit : Obligations.CarouselSlotSplit := by
  unfold Obligations.CarouselSlotSplit
  intro d fn n data dev sda
  refine ⟨d.slotCode_iff, fun hown hlock => ?_⟩
  have hcell := isFwWrite_fwContainer fn (off := Reg.CAR_SLOT_SPLIT) data (by decide)
  have hoff : IsBlockOff Reg.CAR_SLOT_SPLIT := by unfold IsBlockOff; decide
  have hwrite := d.windowWrite_slotSplit data sda hown hlock
  constructor
  case left =>
    intro hbad
    rw [if_pos (by simpa using hbad.symm)] at hwrite
    exact d.windowApply_of_error dev hcell hoff rfl rfl hwrite
  case right =>
    intro hsum hen
    rw [if_neg (by simpa [hen] using hsum)] at hwrite
    exact ⟨_, d.windowApply_of_ok dev hcell hoff hwrite, d.wrAccess_slotSplit data⟩

end Sys2Proof.Machine
end

section
/-!
PROOF. Events sent twice and taken once (R46): what a die puts out for an event, and what a good copy and a copy that fails a check
do at the die that receives it.
-/

namespace Sys2Proof.Machine

@[simp] theorem Dev.bulk_at (d : Dev) (t : Nat) (x : Die) : (d.at t).bulk x = d.bulk x := by cases x <;> rfl
@[simp] theorem Dev.bulk_emitCell (d : Dev) (x y : Die) (c : Cell) : (d.emitCell y c).bulk x = d.bulk x := by cases x <;> rfl
@[simp] theorem Dev.setBulk_setBulk (d : Dev) (x : Die) (b b' : BulkEnd) : (d.setBulk x b).setBulk x b' = d.setBulk x b' := by
  cases x <;> rfl

/-! ## Sending -/

/-- On a link that is up both copies go out under one number, and the next event has the number after it. -/
theorem Dev.sendEvent_of_up {d : Dev} (hup : d.h.link.up = true) (x : Die) (i sev : Nat) (active a b : Bool) :
    d.sendEvent x i sev active a b =
      ((d.setBulk x { d.bulk x with evNum := ((d.bulk x).evNum + 1) % 32 }).emitCell x
        (.snEvent (d.bulk x).evNum i sev active a b)).emitCell x (.snEvent (d.bulk x).evNum i sev active a b) :=
  if_pos hup

theorem Dev.sendEvent_of_down {d : Dev} (hdown : d.h.link.up = false) (x : Die) (i sev : Nat) (active a b : Bool) :
    d.sendEvent x i sev active a b =
      d.setBulk x { d.bulk x with evWait := (d.bulk x).evWait ++ [(i, sev, active, a, b)] } :=
  if_neg (by simp [hdown])

/-! ## The checks of a cell (R42 to R44) -/

/-- On a link that is up a cell that fails a check is counted and reported, and is not taken. -/
theorem Dev.receiveCell_of_bad {d : Dev} {c : Cell80} (x : Die) (hup : d.h.link.up = true)
    (hbad : (!c.hchkGood || (isControl c.typ && !c.cchkGood)) = true) :
    d.receiveCell x c = (false, (d.cellSeen x).cellErr x) := by
  simp only [Dev.receiveCell, hup, hbad, Bool.not_true, Bool.false_eq_true, if_false, if_true]

/-- On a link that is up a cell whose checks hold and that is defined for its direction is taken. -/
theorem Dev.receiveCell_of_good {d : Dev} {c : Cell80} (x : Die) (hup : d.h.link.up = true)
    (hgood : (!c.hchkGood || (isControl c.typ && !c.cchkGood)) = false) (hdef : unexpected c (x == .f) = false) :
    d.receiveCell x c = (true, d.cellSeen x) := by
  simp only [Dev.receiveCell, hup, hgood, hdef, Bool.not_true, Bool.false_eq_true, if_false]

/-- A good event passes its checks, is defined for both directions, and names one of the 96 sources. -/
theorem goodEvent_spec {c : Cell80} (hc : goodEvent c = true) :
    (!c.hchkGood || (isControl c.typ && !c.cchkGood)) = false ∧ (∀ forward, unexpected c forward = false) ∧
    c.typ = 5 ∧ c.bits 49 7 < 96 := by
  simp only [goodEvent, Bool.and_eq_true, beq_iff_eq, decide_eq_true_eq] at hc
  obtain ⟨⟨⟨⟨⟨hhchk, hcchk⟩, htyp⟩, hroute⟩, hop⟩, hsrc⟩ := hc
  refine ⟨?checks, fun forward => ?defined, htyp, hsrc⟩
  case checks => simp [hhchk, hcchk]
  case defined => simp [unexpected, htyp, hroute, hop]

/-! ## Receiving -/

/-- The source, severity, activity and scope of an event cell, acted on at the die that receives it (R266). -/
def Dev.eventAt (d : Dev) (x : Die) (c : Cell80) : Dev :=
  match x with
  | .h => d.eventAtH (c.bits 49 7) (c.bits 47 2) (c.bits 46 1 == 1) (c.bits 44 1 == 1) (c.bits 45 1 == 1)
  | .f => d.eventAtF (c.bits 49 7) (c.bits 47 2) (c.bits 46 1 == 1) (c.bits 44 1 == 1) (c.bits 45 1 == 1)

/-- The receiver of a cell that is taken: an event it has not acted on is noted and acted on. -/
theorem doSnEvent_of_taken {d e : Dev} {x : Die} {c : Cell80} {t : Nat} (hrec : (d.at t).receiveCell x c = (true, e))
    (htyp : c.typ = 5) (hsrc : c.bits 49 7 < 96) :
    doSnEvent x c t d = if (e.bulk x).evSeen = some (c.seq, c.bits 16 40) then e
      else (e.setBulk x { e.bulk x with evSeen := some (c.seq, c.bits 16 40) }).eventAt x c := by
  simp only [doSnEvent, hrec, htyp, Nat.not_le.mpr hsrc]
  by_cases hseen : (e.bulk x).evSeen = some (c.seq, c.bits 16 40)
  · simp [hseen]
  · cases x <;> simp [hseen, Dev.eventAt]

/-- A good copy counts as a cell seen: the first one is noted by its number and payload and acted on, and a copy of the event noted
last is ignored (R46). -/
theorem doSnEvent_of_good {d : Dev} {c : Cell80} (x : Die) (t : Nat) (hup : d.h.link.up = true) (hc : goodEvent c = true) :
    doSnEvent x c t d = if (d.bulk x).evSeen = some (c.seq, c.bits 16 40) then
        (d.at t).setBulk x { d.bulk x with seen := (d.bulk x).seen + 1 }
      else ((d.at t).setBulk x
        { d.bulk x with seen := (d.bulk x).seen + 1, evSeen := some (c.seq, c.bits 16 40) }).eventAt x c := by
  obtain ⟨hchecks, hdef, htyp, hsrc⟩ := goodEvent_spec hc
  rw [doSnEvent_of_taken (Dev.receiveCell_of_good x hup hchecks (hdef _)) htyp hsrc]
  simp [Dev.cellSeen]

/-- An event cell that fails a check is a cell error and nothing else. -/
theorem doSnEvent_of_bad {d : Dev} {c : Cell80} (x : Die) (t : Nat) (hup : d.h.link.up = true)
    (hbad : (c.hchkGood && c.cchkGood) = false) (htyp : c.typ = 5) :
    doSnEvent x c t d = ((d.at t).setBulk x { d.bulk x with seen := (d.bulk x).seen + 1 }).cellErr x := by
  have hfail : (!c.hchkGood || (isControl c.typ && !c.cchkGood)) = true := by
    have hctl : isControl c.typ = true := by rw [htyp]; rfl
    rw [hctl, Bool.true_and, ← Bool.not_and, hbad]; rfl
  simp [doSnEvent, Dev.receiveCell_of_bad x (d := d.at t) hup hfail, Dev.cellSeen]

theorem exec_snEvent (s : State) (x : Die) (c : Cell80) (t : Nat) :
    exec (.snEvent x c t) s = .next { s with dev := doSnEvent x c t s.dev } := rfl

/-- Settles O38: the two copies of a die that sends, and what each copy does at the die that receives it. -/
theorem safetyNetEventsSentTwice : Obligations.SafetyNetEventsSentTwice := by
  unfold Obligations.SafetyNetEventsSentTwice
  constructor
  case left =>
    rintro d x i sev active a b c rfl
    refine ⟨fun hup => ?up, fun hdown => Dev.sendEvent_of_down hdown x i sev active a b⟩
    case up =>
      rw [Dev.sendEvent_of_up hup]
      exact ⟨by simp, by simp⟩
  case right =>
    intro s x t c hup
    simp only [exec_snEvent]
    refine ⟨fun hc => ⟨fun hnew => ?first, fun hseen => ?second⟩, fun hbad htyp => ?bad⟩
    case first =>
      rw [doSnEvent_of_good x t hup hc, if_neg hnew]
      cases x <;> rfl
    case second => rw [doSnEvent_of_good x t hup hc, if_pos hseen]
    case bad => rw [doSnEvent_of_bad x t hup hbad htyp]

end Sys2Proof.Machine
end

section
/-!
PROOF. Bad descriptors of controller transfers (R211): when the two-wire port finds a TWP_XFER bad, and what is left of the device when
an operation ends on the F-side.
-/

namespace Sys2Proof.Machine

/-! ## The end of an operation on the F-side -/

/-- An operation that ends on the F-side keeps its status and RESULT; the other operations, the registers, the H-side's operations and
the two-wire port stay. -/
theorem Dev.endF_frame (d : Dev) (tag status : Nat) (result : Quad) {o : FOp} (hfop : d.fop tag = some o) (hlive : o.ended = none)
    (hop : (d.op tag).isSome = true) :
    (d.endF tag status result).fop tag = some { o with ended := some (status, result) } ∧
    (∀ g, g ≠ tag → (d.endF tag status result).fop g = d.fop g) ∧ (d.endF tag status result).f.twp = d.f.twp ∧
    (∀ k, (d.endF tag status result).rd k = d.rd k) ∧ (d.endF tag status result).h.ops = d.h.ops := by
  obtain ⟨b, l, r, -, hend⟩ := d.endF_shape tag status result hfop hlive hop
  have hsame := d.fop_setFop_same tag (some { o with ended := some (status, result) })
  have hothers := fun g (hg : g ≠ tag) => d.fop_setFop_ne (some { o with ended := some (status, result) }) hg
  rw [hend]
  exact ⟨hsame, hothers, rfl, fun _ => rfl, rfl⟩

/-! ## The five cases -/

@[simp] theorem Dev.freshOp_at (d : Dev) (t tag opc : Nat) : (d.at t).freshOp tag opc = d.freshOp tag opc := rfl

/-- The time and the operations of the F-side have no part in what makes a TWP_XFER bad. -/
@[simp] theorem Dev.twpXferBad_setFop_at (d : Dev) (t tag : Nat) (o : Option FOp) (e : Desc) :
    ((d.at t).setFop tag o).twpXferBad e = d.twpXferBad e := rfl

/-- The port's check of a TWP_XFER is the list of R211. -/
theorem Dev.twpXferBad_iff (d : Dev) (e : Desc) : d.twpXferBad e = true ↔
    (e.twpAddr / 2 ^ 7 ≠ 0 ∧ e.twpA10 = false) ∨
    (e.twpA10 = false ∧ (e.twpAddr ≤ 0x07 ∨ (0x78 ≤ e.twpAddr ∧ e.twpAddr ≤ 0x7F))) ∨
    32 < e.twpWrLen ∨
    (e.twpRdLen ≠ 0 ∧ e.buf = 0) ∨
    (d.fld Fld.TWP_TGT_CFG_TGT_EN = 1 ∧ e.twpAddr = d.fld Fld.TWP_TGT_CFG_ADDR ∧ e.twpA10 = d.flag Fld.TWP_TGT_CFG_A10) := by
  have hwide : e.twpAddr / 2 ^ 7 ≠ 0 ↔ 2 ^ 7 ≤ e.twpAddr := by omega
  have hlow : e.twpAddr ≤ 0x07 ↔ e.twpAddr < 8 := by omega
  have hhigh : e.twpAddr ≤ 0x7F ↔ e.twpAddr < 0x80 := by omega
  have hen : d.fld Fld.TWP_TGT_CFG_TGT_EN = 1 ↔ d.flag Fld.TWP_TGT_CFG_TGT_EN = true := beq_iff_eq.symm
  rw [hwide, hlow, hhigh, hen, and_comm (a := 2 ^ 7 ≤ e.twpAddr)]
  simp only [Dev.twpXferBad, Bool.or_eq_true, Bool.and_eq_true, Bool.not_eq_true', decide_eq_true_eq, bne_iff_ne, beq_iff_eq,
    or_assoc, and_assoc]

/-! ## The command -/

theorem exec_twpXfer (s : State) (tag t : Nat) : exec (.twpXfer tag t) s = .next { s with dev := doTwpXfer tag t s.dev } := rfl

/-- The port takes a bad TWP_XFER and ends it at once, whatever the port's own state (log entry 55). -/
theorem doTwpXfer_of_bad {d : Dev} {tag : Nat} {o : FOp} (t : Nat) (hfresh : d.freshOp tag opTWP_XFER = some o)
    (hbad : d.twpXferBad o.desc = true) :
    doTwpXfer tag t d = ((d.at t).setFop tag (some { o with begun := true })).endF tag stBAD_DESC 0 := by
  simp only [doTwpXfer, Dev.freshOp_at, hfresh, Dev.twpXferBad_setFop_at, hbad, if_true]

/-- Settles O28: the cases of R211 are those in which the port finds the transfer bad, and a bad transfer ends BAD_DESC. -/
theorem twoWireTransferBadDescriptor : Obligations.TwoWireTransferBadDescriptor := by
  unfold Obligations.TwoWireTransferBadDescriptor
  intro s tag t o hfresh hop hcases
  have hbad : s.dev.twpXferBad o.desc = true := (s.dev.twpXferBad_iff o.desc).mpr hcases
  obtain ⟨-, hlive, -⟩ := Dev.freshOp_spec hfresh
  obtain ⟨hended, hothers, htwp, hregs, hops⟩ :=
    ((s.dev.at t).setFop tag (some { o with begun := true })).endF_frame tag stBAD_DESC 0 (Dev.fop_setFop_same ..) hlive hop
  rw [← doTwpXfer_of_bad t hfresh hbad] at hended hothers htwp hregs hops
  refine ⟨_, exec_twpXfer s tag t, congrArg (Option.bind · (·.ended)) hended, fun g hg => ?_, htwp, hregs, hops, rfl, rfl⟩
  exact (hothers g hg).trans (Dev.fop_setFop_ne _ _ hg)

end Sys2Proof.Machine
end

section
/-!
PROOF. What every command keeps of the queue and of the nonvolatile contents: fuses change one way only, and the tables stay canonical.
-/

namespace Sys2Proof.Machine

/-! ## The nonvolatile contents -/

/-- From one nonvolatile contents to later ones: the fuses have changed one way only, and the tables are as canonical as before. -/
structure NonVol.Keeps (v w : NonVol) : Prop where
  lifecycle : v.lifecycle.code ≤ w.lifecycle.code
  svnMin : v.svnMin ≤ w.svnMin
  serial : w.serial = v.serial
  stepping : w.stepping = v.stepping
  dikPub : w.dikPub = v.dikPub
  canonical : v.canonical = true → w.canonical = true

theorem NonVol.Keeps.refl (v : NonVol) : v.Keeps v := ⟨le_rfl, le_rfl, rfl, rfl, rfl, id⟩

theorem NonVol.Keeps.trans {u v w : NonVol} (h : u.Keeps v) (k : v.Keeps w) : u.Keeps w :=
  ⟨h.lifecycle.trans k.lifecycle, h.svnMin.trans k.svnMin, k.serial.trans h.serial, k.stepping.trans h.stepping,
    k.dikPub.trans h.dikPub, k.canonical ∘ h.canonical⟩

theorem NonVol.canonical_iff (v : NonVol) :
    v.canonical = true ↔ Tab.wf (fun _ => 0) v.wear = true ∧ Tab.wf (fun _ => []) v.img = true := by
  simp only [NonVol.canonical, Bool.and_eq_true]

/-- Flash changes: records and erased sectors as they like, and the two tables as canonical as before. -/
theorem NonVol.keeps_flash (v : NonVol) {recs : List Rec} {wear : Tab Nat} {dirty : List Nat} {img : Tab (List Word)}
    (hwear : Tab.wf (fun _ => 0) v.wear = true → Tab.wf (fun _ => 0) wear = true)
    (himg : Tab.wf (fun _ => []) v.img = true → Tab.wf (fun _ => []) img = true) :
    v.Keeps { v with recs := recs, wear := wear, dirty := dirty, img := img } :=
  ⟨le_rfl, le_rfl, rfl, rfl, rfl, fun h =>
    have ⟨hw, hi⟩ := v.canonical_iff.mp h
    (NonVol.canonical_iff _).mpr ⟨hwear hw, himg hi⟩⟩

theorem NonVol.keeps_recs (v : NonVol) (recs : List Rec) (dirty : List Nat) : v.Keeps { v with recs := recs, dirty := dirty } :=
  v.keeps_flash id id

theorem NonVol.wears_keeps (v : NonVol) (k : Nat) : v.Keeps (v.wears k) := by
  unfold NonVol.wears
  exact v.keeps_flash (fun h => Tab.wf_upd _ h k _) id

theorem NonVol.worn_keeps (v : NonVol) (k : Nat) : v.Keeps (v.worn k) :=
  (v.wears_keeps k).trans (NonVol.keeps_recs _ _ _)

/-- A flash operation that verifies. -/
theorem NonVol.apply_keeps (v : NonVol) (st : FlashStep) : v.Keeps (v.apply st) := by
  cases st with
  | retire a q => exact v.keeps_recs _ _
  | erase a k => exact (v.keeps_recs _ _).trans (NonVol.worn_keeps _ _)
  | page r k => exact v.keeps_recs _ _
  | commit a q => exact v.keeps_recs _ _
  | eraseImage slot k => exact (v.worn_keeps _).trans (NonVol.keeps_flash _ id (fun h => Tab.wf_set _ h _ _))
  | pageImage slot p data => exact v.keeps_flash id (fun h => Tab.wf_upd _ h _ _)

theorem NonVol.fails_keeps (v : NonVol) (st : FlashStep) : v.Keeps (v.fails st) := by
  cases st with
  | erase a k => exact v.wears_keeps _
  | eraseImage slot k => exact v.wears_keeps _
  | _ => exact .refl v

theorem NonVol.cutShort_keeps (v : NonVol) (w : FlashWord) (st : FlashStep) : v.Keeps (v.cutShort w st) := by
  cases st with
  | page r k => exact v.apply_keeps (.page r k)
  | eraseImage slot k => exact v.keeps_flash id (fun h => Tab.wf_del _ _ h)
  | pageImage slot p data => exact v.keeps_flash id (fun h => Tab.wf_del _ _ h)
  | _ => exact v.keeps_recs _ _

theorem NonVol.foldl_keeps {α : Type} (g : NonVol → α → NonVol) (h : ∀ (v : NonVol) (a : α), v.Keeps (g v a)) :
    ∀ (l : List α) (v : NonVol), v.Keeps (l.foldl g v)
  | [], v => .refl v
  | a :: l, v => (h v a).trans (NonVol.foldl_keeps g h l (g v a))

/-! ## The block -/

/-- From one state of the block to a later one: the commands that wait stay, and the nonvolatile contents are kept. -/
structure State.Keeps (s u : State) : Prop where
  pending : u.pending = s.pending
  nv : s.nv.Keeps u.nv

theorem State.Keeps.refl (s : State) : s.Keeps s := ⟨rfl, .refl _⟩

theorem State.Keeps.trans {s u w : State} (h : s.Keeps u) (k : u.Keeps w) : s.Keeps w :=
  ⟨k.pending.trans h.pending, h.nv.trans k.nv⟩

/-- A change of the device alone. -/
theorem State.keeps_dev (s : State) (d : Dev) : s.Keeps { s with dev := d } := ⟨rfl, .refl _⟩

theorem State.keeps_nv (s : State) (d : Dev) {v : NonVol} (h : s.nv.Keeps v) : s.Keeps { s with dev := d, nv := v } := ⟨rfl, h⟩

theorem State.mapDev_keeps (s : State) (g : Dev → Dev) : s.Keeps (s.mapDev g) := s.keeps_dev _

theorem State.Keeps.mapDev {s u : State} (h : s.Keeps u) (g : Dev → Dev) : s.Keeps (u.mapDev g) := h.trans (u.mapDev_keeps g)

theorem State.foldl_keeps {α : Type} (g : State → α → State) (h : ∀ (s : State) (a : α), s.Keeps (g s a)) :
    ∀ (l : List α) (s : State), s.Keeps (l.foldl g s)
  | [], s => .refl s
  | a :: l, s => (h s a).trans (State.foldl_keeps g h l (g s a))

theorem State.hostDo_keeps (s : State) (fn : Func) (off : Nat) (g : State → State) (h : ∀ s : State, s.Keeps (g s)) :
    s.Keeps (s.hostDo fn off g) := by
  unfold State.hostDo; dsimp only
  split
  · exact (s.mapDev_keeps _).trans (h _)
  · exact s.mapDev_keeps _

/-! ## Storage and firmware -/

theorem State.wearCheck_keeps (s : State) : s.Keeps s.wearCheck := by
  unfold State.wearCheck; split
  · exact s.mapDev_keeps _
  · exact .refl s

theorem startJob_keeps (t : Nat) (s : State) : s.Keeps (startJob t s) := by
  unfold startJob; dsimp only
  repeat' split
  all_goals exact s.keeps_dev _

theorem State.bodyCommand_keeps (s : State) (cal : Bool) (tag : Nat) (o : Op) (body : List Quad) :
    s.Keeps (s.bodyCommand cal tag o body) := by
  unfold State.bodyCommand; dsimp only
  split <;> exact s.keeps_dev _

theorem State.stageOpen_keeps (s : State) (data : Word) : s.Keeps (s.stageOpen data) := by
  unfold State.stageOpen; dsimp only
  repeat' split
  · exact s.keeps_dev _
  · exact s.keeps_dev _
  · exact (s.keeps_nv _ ((s.nv.keeps_recs _ _).trans
      (NonVol.foldl_keeps _ (fun v _ => v.worn_keeps _) _ _))).trans (State.wearCheck_keeps _)

theorem State.install_keeps (s : State) (tag : Nat) (e : Desc) (c : SlotCheck) : s.Keeps (s.install tag e c) := by
  unfold State.install; dsimp only
  split
  · exact s.keeps_dev _
  · exact s.mapDev_keeps _

theorem State.committed_keeps (s : State) (j : Job) (a : Area) (q : Nat) : s.Keeps (s.committed j a q) := by
  unfold State.committed
  repeat' split
  · exact s.keeps_dev _
  · exact s.mapDev_keeps _
  · exact .refl s

theorem State.jobRunsOut_keeps (s : State) (j : Job) : s.Keeps (s.jobRunsOut j) := by
  unfold State.jobRunsOut; dsimp only
  repeat' split
  all_goals exact s.keeps_dev _

/-- One flash operation verifies, fails for the first time, or fails again. -/
theorem State.flashDone_keeps (s : State) (ok : Bool) : s.Keeps (s.flashDone ok) := by
  have happly (st : FlashStep) : s.Keeps (State.wearCheck { s with nv := s.nv.apply st }) :=
    (s.keeps_nv _ (s.nv.apply_keeps st)).trans (State.wearCheck_keeps _)
  have hfails (st : FlashStep) (d : Dev) : s.Keeps (State.wearCheck { s with dev := d, nv := s.nv.fails st }) :=
    (s.keeps_nv _ (s.nv.fails_keeps st)).trans (State.wearCheck_keeps _)
  unfold State.flashDone
  cases hjob : s.dev.h.job with
  | none => exact .refl s
  | some j =>
    dsimp only
    cases hsteps : j.steps with
    | nil => exact .refl s
    | cons st rest =>
      dsimp only
      split
      case isTrue =>
        have hmade (a : Area) (q : Nat) : s.Keeps (if j.abandoned then State.wearCheck { s with nv := s.nv.apply (.commit a q) }
            else (State.wearCheck { s with nv := s.nv.apply (.commit a q) }).committed j a q) := by
          split
          · exact happly _
          · exact (happly _).trans (State.committed_keeps ..)
        split
        · cases st with
          | commit a q => exact (hmade a q).trans (State.jobRunsOut_keeps _ _)
          | _ => exact (happly _).trans (State.jobRunsOut_keeps _ _)
        · cases st with
          | commit a q => exact (hmade a q).trans (State.keeps_dev _ _)
          | _ => exact (happly _).trans (State.keeps_dev _ _)
      case isFalse =>
        split
        · exact hfails st _
        · split
          all_goals exact ((hfails _ s.dev).mapDev _).trans (State.keeps_dev _ _)

theorem State.fwWrite_keeps (s : State) (fn : Func) (off : Nat) (data : Word) : s.Keeps (s.fwWrite fn off data) := by
  unfold State.fwWrite; dsimp only
  repeat' split
  all_goals first
    | exact s.mapDev_keeps _
    | exact .refl s
    | exact s.stageOpen_keeps data
    | exact (s.stageOpen_keeps data).mapDev _

/-! ## Security -/

theorem State.lcAdv_keeps (s : State) (fn : Func) (data : Word) : s.Keeps (s.lcAdv fn data) := by
  unfold State.lcAdv; dsimp only
  repeat' split
  all_goals exact s.keeps_dev _

theorem State.svnAdv_keeps (s : State) (fn : Func) (data : Word) : s.Keeps (s.svnAdv fn data) := by
  unfold State.svnAdv; dsimp only
  split_ifs
  · exact s.keeps_dev _
  · exact s.keeps_dev _

theorem State.enrol_keeps (s : State) (tag : Nat) (o : Op) (b : List Quad) (c : OwnerCheck) : s.Keeps (s.enrol tag o b c) := by
  unfold State.enrol; dsimp only
  repeat' split
  all_goals exact s.keeps_dev _

theorem State.rekeyCmd_keeps (s : State) (tag : Nat) (o : Op) (b : List Quad) (c : OwnerCheck) :
    s.Keeps (s.rekeyCmd tag o b c) := by
  unfold State.rekeyCmd; dsimp only
  repeat' split
  all_goals exact s.keeps_dev _

theorem State.secWrite_keeps (s : State) (fn : Func) (off : Nat) (data : Word) : s.Keeps (s.secWrite fn off data) := by
  unfold State.secWrite; dsimp only
  split
  · exact s.lcAdv_keeps fn data
  split
  · exact s.svnAdv_keeps fn data
  repeat' split
  all_goals exact s.keeps_dev _

/-! ## Host accesses -/

theorem State.blockWrite_keeps (s : State) (fn : Func) (off : Nat) (data : Word) : s.Keeps (s.blockWrite fn off data) := by
  unfold State.blockWrite; dsimp only
  repeat' split
  all_goals first
    | exact s.fwWrite_keeps fn off data
    | exact s.secWrite_keeps fn off data
    | exact s.mapDev_keeps _

theorem State.lockBit_keeps (s : State) (fn : Func) (b : Nat) : s.Keeps (s.lockBit fn b) := by
  unfold State.lockBit; dsimp only
  repeat' split
  all_goals first
    | exact .refl s
    | exact s.keeps_dev _
    | exact s.blockWrite_keeps ..
    | exact (s.blockWrite_keeps ..).mapDev _

theorem State.lockSet_keeps (s : State) (fn : Func) (data : Word) : s.Keeps (s.lockSet fn data) := by
  unfold State.lockSet
  refine State.foldl_keeps _ (fun s b => ?_) _ _
  split
  · exact s.lockBit_keeps fn b
  · exact .refl s

theorem State.regWrite_keeps (s : State) (fn : Func) (off : Nat) (data : Word) : s.Keeps (s.regWrite fn off data) := by
  unfold State.regWrite
  repeat' split
  all_goals first
    | exact .refl s
    | exact s.mapDev_keeps _
    | exact s.lockSet_keeps fn data
    | exact s.blockWrite_keeps fn off data

theorem State.reach_keeps (s : State) (fn : Func) (off : Nat) (data : Word) : s.Keeps (s.reach fn off data) := by
  unfold State.reach
  split
  · exact s.mapDev_keeps _
  · exact s.hostDo_keeps _ _ _ (fun s => s.regWrite_keeps fn off data)

theorem State.cfgAccess_keeps (s : State) (fn : Func) (a : CfgAccess) : s.Keeps (s.cfgAccess fn a) := by
  unfold State.cfgAccess; dsimp only
  repeat' split
  all_goals first
    | exact .refl s
    | exact s.keeps_dev _

/-! ## The boot -/

theorem State.write_keeps (s : State) (l : List FlashStep) : s.Keeps (s.write l) :=
  (s.keeps_nv _ (NonVol.foldl_keeps _ (fun v st => v.apply_keeps st) l s.nv)).trans (State.wearCheck_keeps _)

theorem State.tally_keeps (s : State) (slot done : Bool) : s.Keeps (s.tally slot done) := by
  unfold State.tally
  repeat' split
  · exact .refl s
  · exact s.keeps_nv _ (s.nv.keeps_recs _ _)
  · exact .refl s

theorem State.keyLoad_keeps (s : State) : s.Keeps s.keyLoad := s.keeps_dev _

theorem State.bootP1_keeps (s : State) (env : BootEnv) : s.Keeps (s.bootP1 env) := by
  unfold State.bootP1; dsimp only
  split
  · exact (s.mapDev_keeps _).mapDev _
  · exact (((s.mapDev_keeps _).mapDev _).trans (State.keyLoad_keeps _)).mapDev _

theorem State.bootP2_keeps (s : State) : s.Keeps s.bootP2 := by
  unfold State.bootP2
  exact s.mapDev_keeps _

theorem State.rekeyFinish_keeps : ∀ (n : Nat) (s : State), s.Keeps (State.rekeyFinish n s)
  | 0, s => .refl s
  | n + 1, s => by
    unfold State.rekeyFinish
    split
    · exact .refl s
    · exact ((s.write_keeps _).trans (State.keeps_dev _ _)).trans (State.rekeyFinish_keeps n _)

theorem State.copyWeak_keeps (s : State) (weak : List (Nat × Nat)) (a : Area) : s.Keeps (s.copyWeak weak a) := by
  unfold State.copyWeak; dsimp only
  repeat' split
  · exact .refl s
  · exact s.write_keeps _
  · exact .refl s

theorem State.bootP3_keeps (s : State) (env : BootEnv) : s.Keeps (s.bootP3 env) := by
  have hcopied (s1 : State) : s1.Keeps ([Area.slotA, .slotB, .settings, .calibration, .keyIndex, .snapshot].foldl
      (fun s a => s.copyWeak env.weak a) (State.rekeyFinish 8 s1)) :=
    (State.rekeyFinish_keeps 8 s1).trans (State.foldl_keeps _ (fun s a => s.copyWeak_keeps env.weak a) _ _)
  unfold State.bootP3; dsimp only
  split
  · exact (((s.mapDev_keeps _).mapDev _).trans (hcopied _)).trans (State.write_keeps _ _)
  · exact ((s.mapDev_keeps _).mapDev _).trans (hcopied _)

theorem State.autoFallback_keeps (s : State) (other : Bool) : s.Keeps (s.autoFallback other) := by
  unfold State.autoFallback; dsimp only
  repeat' split
  · exact s.mapDev_keeps _
  · exact (s.write_keeps _).mapDev _
  · exact s.mapDev_keeps _

theorem State.chooseSlot_keeps {s u : State} {env : BootEnv} {slot : Bool} (h : s.chooseSlot env = some (slot, u)) :
    s.Keeps u := by
  unfold State.chooseSlot at h
  split at h
  · cases h
  · dsimp only at h
    split_ifs at h
    · cases h
      exact .refl s
    · cases h
      exact s.autoFallback_keeps _

theorem State.completeBoot_keeps (s : State) : s.Keeps s.completeBoot := by
  unfold State.completeBoot; dsimp only
  repeat' split
  · exact (s.tally_keeps _ _).trans (State.write_keeps _ _)
  · exact s.tally_keeps _ _
  · exact s.tally_keeps _ _

theorem State.applyEntry_keeps (s : State) (fOnly warm : Bool) (sda : SdaCheck) (e : Nat × Func × Word) :
    s.Keeps (s.applyEntry fOnly warm sda e) := by
  unfold State.applyEntry; dsimp only
  refine State.Keeps.mapDev ?_ _
  repeat' split
  all_goals first
    | exact .refl s
    | exact s.keeps_dev _
    | exact s.regWrite_keeps ..

theorem State.bootB7_keeps (s : State) (fOnly : Bool) (env : BootEnv) : s.Keeps (s.bootB7 fOnly env) := by
  have hentries := fun (s1 : State) (warm : Bool) => State.foldl_keeps (fun s e => s.applyEntry fOnly warm env.sda e)
    (fun s e => s.applyEntry_keeps fOnly warm env.sda e) s1.entries s1
  have hstep (u : State) (c : Bool) (g : Dev → Dev) : u.Keeps (if c = true then u else u.mapDev g) := by
    split
    · exact .refl u
    · exact u.mapDev_keeps g
  unfold State.bootB7; dsimp only
  split
  · exact (hstep s _ _).trans (hstep _ _ _)
  · exact ((hstep s _ _).trans (hstep _ _ _)).trans (hentries _ _)

theorem State.loadSnapshot_keeps (s : State) : s.Keeps s.loadSnapshot := by
  unfold State.loadSnapshot
  split
  · exact s.mapDev_keeps _
  · exact .refl s

theorem State.bootB8_keeps (s : State) (resumed : Bool) (env : BootEnv) : s.Keeps (s.bootB8 resumed env) := by
  have hrole (g h : Dev → Dev) := (s.mapDev_keeps g).mapDev h
  unfold State.bootB8; dsimp only
  refine State.Keeps.mapDev ?_ _
  repeat' split
  · exact (hrole _ _).trans (State.loadSnapshot_keeps _)
  · exact hrole _ _
  · exact ((hrole _ _).trans (State.loadSnapshot_keeps _)).trans (State.completeBoot_keeps _)
  · exact (hrole _ _).trans (State.completeBoot_keeps _)

theorem State.bootB5_keeps (s : State) : s.Keeps s.bootB5 := by
  unfold State.bootB5
  exact s.mapDev_keeps _

theorem State.holdSettings_keeps (s : State) (env : BootEnv) : s.Keeps (s.holdSettings env) := by
  unfold State.holdSettings
  exact s.completeBoot_keeps.mapDev _

theorem State.bootRest_keeps (s : State) (resumed : Bool) (env : BootEnv) : s.Keeps (s.bootRest resumed env).2 := by
  have htrained := s.bootB5_keeps.mapDev (fun d => (d.bootStep 9).trained env.fwd env.ret)
  unfold State.bootRest; dsimp only
  split
  · exact htrained
  · exact ((htrained.trans (State.bootB7_keeps _ _ _)).mapDev _).trans (State.bootB8_keeps _ _ _)

theorem State.bootTail_keeps (s : State) (env : BootEnv) : s.Keeps (s.bootTail env).2 := by
  unfold State.bootTail; dsimp only
  repeat' split
  · exact (s.mapDev_keeps _).trans (State.bootRest_keeps _ _ _)
  · exact (s.mapDev_keeps _).trans (State.holdSettings_keeps _ _)
  · exact s.bootRest_keeps _ _

theorem State.bootLoad_keeps (s : State) (env : BootEnv) : s.Keeps (s.bootLoad env).2 := by
  unfold State.bootLoad; dsimp only
  split
  · exact (s.keeps_dev _).trans (State.bootTail_keeps _ _)
  · exact s.keeps_dev _

theorem State.bootB3_keeps (s : State) (first : Bool) (env : BootEnv) : s.Keeps (s.bootB3 first env).2 := by
  have hlink (g h : Dev → Dev) := (s.mapDev_keeps g).mapDev h
  unfold State.bootB3; dsimp only
  split
  · exact (hlink _ _).trans (State.bootLoad_keeps _ _)
  · exact (hlink _ _).trans (State.keeps_dev _ _)

theorem State.bootFrom_keeps (env : BootEnv) : ∀ (n : Nat) (first : Bool) (s : State), s.Keeps (State.bootFrom env n first s)
  | 0, _, s => .refl s
  | n + 1, first, s => by
    unfold State.bootFrom; dsimp only
    split
    case h_1 => exact (s.mapDev_keeps _).mapDev _
    case h_2 slot s1 hslot =>
      have hchosen := (((s.mapDev_keeps _).trans (State.chooseSlot_keeps hslot)).trans (s1.tally_keeps slot false)).mapDev
        (·.bootStep 5)
      have hloaded := ((hchosen.mapDev (·.setFld Fld.FW_STATUS_RUN_SLOT (b2n slot))).mapDev
        (·.setFld (Fld.SYS_ID_WORD 1) (mfVersion (((s1.tally slot false).mapDev (·.bootStep 5)).mapDev
          (·.setFld Fld.FW_STATUS_RUN_SLOT (b2n slot))).manifest))).trans (State.bootB3_keeps _ first env)
      repeat' split
      · exact hchosen.trans (State.bootFrom_keeps env n false _)
      · exact hloaded
      · exact hloaded.trans (State.bootFrom_keeps env n false _)

/-- The flash operation cut short and the records damaged, as a boot meets them. -/
theorem State.boot_keeps (s : State) (cause : Nat) (env : BootEnv) : s.Keeps (s.boot cause env) := by
  have hmet : s.nv.Keeps (match s.dev.h.boot.cut with | some x => s.nv.cutShort env.cut x | none => s.nv) := by
    split
    · exact s.nv.cutShort_keeps _ _
    · exact .refl _
  have hbegun (d : Dev) := s.keeps_nv d (hmet.trans (NonVol.keeps_recs _ _ _ : NonVol.Keeps _ (NonVol.spoil _ env.bad)))
  unfold State.boot; dsimp only
  refine State.Keeps.trans ?_ (State.bootFrom_keeps env 8 true _)
  refine State.Keeps.mapDev ?_ _
  refine State.Keeps.trans ?_ (State.bootP3_keeps _ env)
  refine State.Keeps.trans ?_ (State.bootP2_keeps _)
  exact (hbegun _).trans (State.bootP1_keeps _ env)

theorem State.restartBoth_keeps (s : State) (cause : Nat) (env : BootEnv) : s.Keeps (s.restartBoth cause env) :=
  (s.mapDev_keeps _).trans (State.boot_keeps _ cause env)

theorem State.restart_keeps (s : State) (env : BootEnv) : s.Keeps (s.restart env) := s.restartBoth_keeps 2 env

theorem State.bootGoOn_keeps (s : State) : s.Keeps s.bootGoOn := by
  unfold State.bootGoOn; dsimp only
  repeat' split
  · exact (s.keeps_dev _).trans (State.bootLoad_keeps _ _)
  · exact ((s.keeps_dev _).trans (State.bootLoad_keeps _ _)).trans (State.bootFrom_keeps _ 8 false _)
  · exact .refl s
  · exact .refl s

/-! ## Every command -/

/-- A command answers a next state that keeps what this file speaks of. -/
def State.Answers (s : State) (o : Out) : Prop := ∃ u : State, o = .next u ∧ s.Keeps u

theorem State.Keeps.answers {s u : State} (h : s.Keeps u) : s.Answers (.next u) := ⟨u, rfl, h⟩

/-- The lifecycle advances only upward, and the minimum security version is the larger of the two. -/
theorem execFuseProgramComplete_answers (lifecycle ok : Bool) (t : Nat) (s : State) :
    s.Answers (execFuseProgramComplete lifecycle ok t s) := by
  unfold execFuseProgramComplete; dsimp only
  split
  · split
    · split
      · rename_i l _ hup
        exact (s.keeps_nv _ (v := { s.nv with lifecycle := l }) ⟨hup.2.le, le_rfl, rfl, rfl, rfl, id⟩).answers
      · exact (s.keeps_dev _).answers
    · exact (s.keeps_dev _).answers
  · split
    · rename_i n _
      have hmax : s.nv.svnMin ≤ if ok = true then max s.nv.svnMin n else s.nv.svnMin := by split <;> omega
      exact (s.keeps_nv _ (v := { s.nv with svnMin := if ok then max s.nv.svnMin n else s.nv.svnMin })
        ⟨le_rfl, hmax, rfl, rfl, rfl, id⟩).answers
    · exact (s.keeps_dev _).answers

theorem execFlashOpComplete_answers (ok : Bool) (t : Nat) (s : State) : s.Answers (execFlashOpComplete ok t s) := by
  have hdone := (s.mapDev_keeps (·.at t)).trans (State.flashDone_keeps _ ok)
  unfold execFlashOpComplete; dsimp only
  split
  · split_ifs
    · exact ((hdone.mapDev _).trans (State.bootRest_keeps _ _ _)).answers
    · exact (((hdone.mapDev _).trans (State.bootRest_keeps _ _ _)).trans (State.restartBoth_keeps _ _ _)).answers
    · exact hdone.answers
  · exact hdone.answers

theorem execFwFallback_answers (tag : Nat) (chk : SlotCheck) (t : Nat) (s : State) : s.Answers (execFwFallback tag chk t s) := by
  unfold execFwFallback; dsimp only
  repeat' split
  · exact (s.mapDev_keeps _).answers
  all_goals exact (((s.mapDev_keeps _).mapDev _).mapDev _).answers

theorem execRomInstall_answers (fn : Func) (data : Word) (chk : SlotCheck) (t : Nat) (s : State) :
    s.Answers (execRomInstall fn data chk t s) := by
  refine ((s.mapDev_keeps (·.at t)).trans (State.hostDo_keeps _ _ _ _ fun s => ?_)).answers
  dsimp only
  repeat' split
  all_goals exact s.keeps_dev _

theorem execRegisterWrite_answers (fn : Func) (bar : Bar) (off size : Nat) (data : Quad) (ecrc : Bool) (t : Nat) (s : State) :
    s.Answers (execRegisterWrite fn bar off size data ecrc t s) := by
  have hawake := (s.mapDev_keeps (·.at t)).mapDev (·.wake .h 1)
  unfold execRegisterWrite; dsimp only
  repeat' split
  all_goals first
    | exact (s.mapDev_keeps _).answers
    | exact hawake.answers
    | exact (hawake.mapDev _).answers
    | exact (hawake.trans (State.regWrite_keeps ..)).answers

theorem execCounterClear_answers (fn : Func) (off : Nat) (data : Word) (hits : Nat) (s : State) :
    s.Answers (execCounterClear fn off data hits s) := by
  unfold execCounterClear
  repeat' split
  · exact ((s.reach_keeps fn off data).mapDev _).answers
  · exact (State.Keeps.refl s).answers
  · exact ((s.reach_keeps fn off data).mapDev _).answers

theorem execConfigRequest_answers (fn : Func) (a : CfgAccess) (ecrc : Bool) (s : State) :
    s.Answers (execConfigRequest fn a ecrc s) := by
  unfold execConfigRequest
  repeat' split
  · exact (State.Keeps.refl s).answers
  · exact (s.mapDev_keeps _).answers
  · exact (s.mapDev_keeps _).answers
  · exact ((s.mapDev_keeps _).trans (State.cfgAccess_keeps ..)).answers

theorem execFieldWindowRead_answers (fn : Func) (bar : Bar) (off size : Nat) (ecrc : Bool) (t : Nat) (s : State) :
    s.Answers (execFieldWindowRead fn bar off size ecrc t s) := by
  unfold execFieldWindowRead; dsimp only
  repeat' split
  all_goals first
    | exact (s.mapDev_keeps _).answers
    | exact (((s.mapDev_keeps _).mapDev _).mapDev _).answers

theorem execPerstDeassert_answers (env : BootEnv) (t : Nat) (s : State) : s.Answers (execPerstDeassert env t s) := by
  unfold execPerstDeassert; dsimp only
  split
  · exact (s.mapDev_keeps _).answers
  · exact (((s.mapDev_keeps _).trans (State.keeps_dev _ _)).trans (State.boot_keeps _ _ _)).answers

theorem execBootTimeout_answers (env : BootEnv) (t : Nat) (s : State) : s.Answers (execBootTimeout env t s) := by
  unfold execBootTimeout; dsimp only
  repeat' split
  · exact (s.mapDev_keeps _).answers
  · exact (((s.mapDev_keeps _).trans (State.keeps_dev _ _)).trans (State.bootFrom_keeps _ _ _ _)).answers
  · exact (s.mapDev_keeps _).answers

theorem execFirmwareRestart_answers (env : BootEnv) (t : Nat) (s : State) : s.Answers (execFirmwareRestart env t s) := by
  unfold execFirmwareRestart; dsimp only
  split
  · exact ((s.mapDev_keeps _).trans (State.restart_keeps _ _)).answers
  · exact (s.mapDev_keeps _).answers

theorem execTrainingComplete_answers (fwd ret t : Nat) (s : State) : s.Answers (execTrainingComplete fwd ret t s) := by
  unfold execTrainingComplete; dsimp only
  split
  · exact (s.keeps_dev _).answers
  · exact ((s.keeps_dev _).trans (State.bootGoOn_keeps _)).answers

theorem execFSideColdReturn_answers (env : BootEnv) (t : Nat) (s : State) : s.Answers (execFSideColdReturn env t s) := by
  unfold execFSideColdReturn; dsimp only
  repeat' split
  · exact (s.mapDev_keeps _).answers
  · exact (((s.mapDev_keeps _).mapDev _).trans (State.bootGoOn_keeps _)).answers
  · exact (s.mapDev_keeps _).answers
  · exact ((s.mapDev_keeps _).trans (State.keeps_dev _ _)).answers
  · exact ((s.mapDev_keeps _).trans (State.restart_keeps _ _)).answers

theorem execFSideResetReapply_answers (env : BootEnv) (t : Nat) (s : State) : s.Answers (execFSideResetReapply env t s) := by
  unfold execFSideResetReapply; dsimp only
  repeat' split
  · exact (s.mapDev_keeps _).answers
  · exact ((s.mapDev_keeps _).trans (State.keeps_dev _ _)).answers
  · exact ((s.mapDev_keeps _).trans (State.keeps_dev _ _)).answers
  · exact ((((s.mapDev_keeps _).trans (State.keeps_dev _ _)).trans (State.bootB7_keeps _ _ _)).mapDev _).answers

theorem mirSessionStart_keeps (t : Nat) (s : State) : s.Keeps (mirSessionStart t s) := by
  unfold mirSessionStart; dsimp only
  split <;> exact s.keeps_dev _

/-- A storage, firmware or owner command takes its operation, if that is there, and then acts. -/
theorem State.taken_answers (s : State) (t tag : Nat) {g : State → State} (h : ∀ u : State, u.Keeps (g u)) :
    s.Answers (.next (g ((s.mapDev (·.at t)).mapDev (·.taken tag)))) :=
  (((s.mapDev_keeps _).mapDev _).trans (h _)).answers

theorem execSettingsCommit_answers (tag t : Nat) (s : State) : s.Answers (execSettingsCommit tag t s) := by
  unfold execSettingsCommit; dsimp only
  split
  · exact s.taken_answers t tag (fun u => u.bodyCommand_keeps ..)
  · exact (s.mapDev_keeps _).answers

theorem execCalWrite_answers (tag t : Nat) (s : State) : s.Answers (execCalWrite tag t s) := by
  unfold execCalWrite; dsimp only
  split
  · exact s.taken_answers t tag (fun u => u.bodyCommand_keeps ..)
  · exact (s.mapDev_keeps _).answers

theorem execFwInstall_answers (tag : Nat) (chk : SlotCheck) (t : Nat) (s : State) : s.Answers (execFwInstall tag chk t s) := by
  unfold execFwInstall; dsimp only
  split
  · exact s.taken_answers t tag (fun u => u.install_keeps ..)
  · exact (s.mapDev_keeps _).answers

theorem execOwnerEnrol_answers (tag : Nat) (chk : OwnerCheck) (t : Nat) (s : State) : s.Answers (execOwnerEnrol tag chk t s) := by
  unfold execOwnerEnrol; dsimp only
  split
  · exact s.taken_answers t tag (fun u => u.enrol_keeps ..)
  · exact (s.mapDev_keeps _).answers

theorem execRekey_answers (tag : Nat) (chk : OwnerCheck) (t : Nat) (s : State) : s.Answers (execRekey tag chk t s) := by
  unfold execRekey; dsimp only
  split
  · exact s.taken_answers t tag (fun u => u.rekeyCmd_keeps ..)
  · exact (s.mapDev_keeps _).answers

/-- A host's write to an H-side register. -/
theorem State.hostDo_answers (s : State) (t : Nat) (fn : Func) (off : Nat) {g : State → State} (h : ∀ u : State, u.Keeps (g u)) :
    s.Answers (.next ((s.mapDev (·.at t)).hostDo fn off g)) :=
  ((s.mapDev_keeps _).trans (State.hostDo_keeps _ _ _ _ h)).answers

theorem execFwStageOpen_answers (fn : Func) (data : Word) (t : Nat) (s : State) : s.Answers (execFwStageOpen fn data t s) := by
  refine s.hostDo_answers t fn _ (fun u => ?_)
  split
  · exact u.mapDev_keeps _
  · exact u.stageOpen_keeps data

/-- Every command: those that reach past the device by their own lemmas, the others as commands on the device alone. -/
theorem exec_answers (c : Instr) (s : State) : s.Answers (exec c s) := by
  cases c with
  | recordWriteStart t => exact (startJob_keeps t s).answers
  | settingsCommit tag t => exact execSettingsCommit_answers tag t s
  | calWrite tag t => exact execCalWrite_answers tag t s
  | fwStageOpen fn data t => exact execFwStageOpen_answers fn data t s
  | fwInstall tag chk t => exact execFwInstall_answers tag chk t s
  | fwFallback tag chk t => exact execFwFallback_answers tag chk t s
  | romInstall fn data chk t => exact execRomInstall_answers fn data chk t s
  | mirSessionStart t => exact (mirSessionStart_keeps t s).answers
  | secLcAdv fn data t => exact s.hostDo_answers t fn _ (fun u => u.lcAdv_keeps fn data)
  | secSvnAdv fn data t => exact s.hostDo_answers t fn _ (fun u => u.svnAdv_keeps fn data)
  | fuseProgramComplete lifecycle ok t => exact execFuseProgramComplete_answers lifecycle ok t s
  | ownerEnrol tag chk t => exact execOwnerEnrol_answers tag chk t s
  | rekey tag chk t => exact execRekey_answers tag chk t s
  | registerWrite fn bar off size data ecrc t => exact execRegisterWrite_answers fn bar off size data ecrc t s
  | sysLockSetWrite fn data t => exact s.hostDo_answers t fn _ (fun u => u.lockSet_keeps fn data)
  | counterClear fn off data hits => exact execCounterClear_answers fn off data hits s
  | configRequest fn a ecrc => exact execConfigRequest_answers fn a ecrc s
  | fieldWindowRead fn bar off size ecrc t => exact execFieldWindowRead_answers fn bar off size ecrc t s
  | perstDeassert env t => exact execPerstDeassert_answers env t s
  | bootTimeout env t => exact execBootTimeout_answers env t s
  | firmwareRestart env t => exact execFirmwareRestart_answers env t s
  | trainingComplete fwd ret t => exact execTrainingComplete_answers fwd ret t s
  | fSideColdReturn env t => exact execFSideColdReturn_answers env t s
  | fSideResetReapply env t => exact execFSideResetReapply_answers env t s
  | flashOpComplete ok t => exact execFlashOpComplete_answers ok t s
  | _ => exact (s.keeps_dev _).answers

/-- Settles O58: what every command keeps, fuses among it. -/
theorem fusesChangeOneWay : Obligations.FusesChangeOneWay := by
  unfold Obligations.FusesChangeOneWay
  intro c s
  obtain ⟨u, hnext, hpending, hnv⟩ := exec_answers c s
  exact ⟨u, hnext, hpending, hnv.lifecycle, hnv.svnMin, hnv.serial, hnv.stepping, hnv.dikPub⟩

/-- Settles O59: the command in front keeps the tables canonical, and an idle cycle does not touch them. -/
theorem nonVolatileStaysCanonical : Obligations.NonVolatileStaysCanonical := by
  unfold Obligations.NonVolatileStaysCanonical
  intro s u hcanonical hstep
  unfold step at hstep
  split at hstep
  · cases hstep
    exact hcanonical
  · rename_i c rest _
    obtain ⟨w, hnext, -, hnv⟩ := exec_answers c { s with pending := rest }
    cases hstep.symm.trans hnext
    exact hnv.canonical hcanonical

/-- Settles O57: the two arms of a step. -/
theorem stepTakesFront : Obligations.StepTakesFront := by
  unfold Obligations.StepTakesFront
  intro c s
  refine ⟨rfl, ?_⟩
  show Host.Outcome.next (State.idle _) = _
  simp only [State.idle, Dev.at, Nat.max_eq_right (Nat.le_succ s.dev.now)]

end Sys2Proof.Machine
end

section
/-!
PROOF. The block after reset: the values of the two dies as they stand, and the registers by the index.
-/

namespace Sys2Proof.Machine

/-- No register has been written: each reads its reset value. -/
theorem State.rd_reset (k : Nat) : State.reset.dev.rd k = resetWord k := by
  simp only [Dev.rd, State.reset, HDie.reset, FDie.power, ite_self, Tab.get_nil]

/-- Settles O60: the dies' values, and each register by its row of the index. -/
theorem stateAtReset : Obligations.StateAtReset := by
  unfold Obligations.StateAtReset
  simp only [State.rd_reset]
  refine ⟨by decide, rfl, rfl, rfl, rfl, rfl, rfl, rfl, rfl, rfl, ?registers⟩
  case registers => decide

end Sys2Proof.Machine
end

section
/-!
PROOF. What a report of the Safety Net does not touch, stated once for every part of the device that is blind to reports; and the
sources themselves: what a source holds after it has been raised, and after its condition has ended.
-/

namespace Sys2Proof.Machine

/-! ## Parts of the device that are blind to reports -/

/-- A part of the device that stands the same in both branches. -/
theorem Dev.ite_kept {α : Type} {π : Dev → α} {x : α} {p : Prop} [Decidable p] {a b : Dev} (ha : π a = x) (hb : π b = x) :
    π (if p then a else b) = x := by
  split
  · exact ha
  · exact hb

/-- The registers that the device state's reactions write: interrupt causes, and the counts of dropped completion entries. -/
def haltReg (k : Nat) : Bool :=
  k == Reg.PCI_INT_CAUSE || k == Reg.PCI_INT_CAUSE + copyB || k == Reg.PCI_DROP_CNT || k == Reg.PCI_DROP_CNT + copyB
    || k == Reg.PCI_CNT_SAT || k == Reg.PCI_CNT_SAT + copyB

theorem reactReg_of_haltReg {k : Nat} (hk : haltReg k = true) : reactReg k = true := by
  simp only [haltReg, Bool.or_eq_true, beq_iff_eq] at hk
  rcases hk with ((((rfl | rfl) | rfl) | rfl) | rfl) | rfl <;> decide

/-- A part of the device that what is put out does not reach. -/
structure Dev.OutBlind {α : Type} (π : Dev → α) : Prop where
  emit : ∀ (d : Dev) (e : Emit), π (d.emit e) = π d

/-- A part that what is sent does not reach: what is put out, an end of the bulk stream, and the field-window reads, whose sending is
timed. -/
structure Dev.StreamBlind {α : Type} (π : Dev → α) : Prop extends Dev.OutBlind π where
  bulk : ∀ (d : Dev) (x : Die) (b : BulkEnd), π (d.setBulk x b) = π d
  reads : ∀ (d : Dev) (r : List FwRead), π { d with h.fwReads := r } = π d

/-- A part that interrupts do not reach: not by the registers above, or a function's PCI state. -/
structure Dev.IrqBlind {α : Type} (π : Dev → α) : Prop extends Dev.OutBlind π where
  wrHalt : ∀ (d : Dev) (k : Nat) (v : Word), haltReg k = true → π (d.wr k v) = π d
  pci : ∀ (d : Dev) (fn : Func) (p : PciFn), π (d.setPci fn p) = π d
  irqRest : ∀ (d : Dev) (l : List (Func × Nat)), π { d with h.irqRest := l } = π d

/-- A part that completion entries and the end of a Rest entry do not reach either: not operations and rings, the Rest entry or the
Barker's idle time. -/
structure Dev.QuietBlind {α : Type} (π : Dev → α) : Prop extends Dev.IrqBlind π where
  op : ∀ (d : Dev) (g : Nat) (o : Option Op), π (d.setOp g o) = π d
  ring : ∀ (d : Dev) (n : Nat) (r : Ring), π (d.setRing n r) = π d
  restEntry : ∀ (d : Dev) (e : Option RestEntry), π { d with h.restEntry := e } = π d
  brk : ∀ (d : Dev) (b : Brk), π { d with f.brk := b } = π d

/-- The states among which the device state follows the reactions in force (R2). -/
def DevState.reacts : DevState → Bool
  | .run | .safe | .halt => true
  | _ => false

/-- A part that the device state does not reach either as it follows the reactions, but perhaps by what a HALT had held back. -/
structure Dev.CalmBlind {α : Type} (π : Dev → α) : Prop extends Dev.QuietBlind π where
  state : ∀ (d : Dev) (st : DevState) (b c : Bool), d.h.dev.reacts = true → st.reacts = true →
    π { d with h.dev := st, h.ranOnce := b, f.ranOnce := c } = π d

/-- A part that neither interrupts nor the device state reach. -/
structure Dev.StateBlind {α : Type} (π : Dev → α) : Prop extends Dev.StreamBlind π, Dev.CalmBlind π

/-- A part that a reaction's registers and FAULT pulses do not reach. -/
structure Dev.RegBlind {α : Type} (π : Dev → α) : Prop extends Dev.IrqBlind π where
  wr : ∀ (d : Dev) (k : Nat) (v : Word), reactReg k = true → π (d.wr k v) = π d
  ackCopy : ∀ (d : Dev) (fn : Func) (v : Word), π (d.setShadow (keyOf fn Reg.SN_ACK) v) = π d
  pulseH : ∀ (d : Dev) (p : Option Nat), π { d with h.pulse := p } = π d
  pulseF : ∀ (d : Dev) (p : Option Nat), π { d with f.pulse := p } = π d

/-- A part that the beginning of a wake does not reach either. -/
structure Dev.WakeBlind {α : Type} (π : Dev → α) : Prop extends Dev.RegBlind π where
  brk : ∀ (d : Dev) (b : Brk), π { d with f.brk := b } = π d
  pm : ∀ (d : Dev) (m : LinkPm), π { d with h.pm := m } = π d
  training : ∀ (d : Dev) (b : Bool), π { d with h.link.training := b } = π d

/-- A part that the H-side's record of an activation does not reach. -/
structure Dev.ReactBlind {α : Type} (π : Dev → α) : Prop extends Dev.StateBlind π, Dev.RegBlind π

/-- A part of the device that no report reaches. -/
structure Dev.Blind {α : Type} (π : Dev → α) : Prop extends Dev.ReactBlind π, Dev.WakeBlind π

/-! ## What is put out and sent -/

namespace Dev.OutBlind

variable {α : Type} {π : Dev → α} (h : Dev.OutBlind π) (d : Dev)
include h

theorem tlp (fn : Func) (p : Tlp) : π (d.tlp fn p) = π d := h.emit d _

theorem message (fn : Func) (vec : Nat) : π (d.message fn vec) = π d := h.emit d _

end Dev.OutBlind

namespace Dev.StreamBlind

variable {α : Type} {π : Dev → α} (h : Dev.StreamBlind π) (d : Dev)
include h

theorem drainBulk (x : Die) (n : Nat) : π (d.drainBulk x n) = π d := by
  have hout : ∀ (l : List Emit) (e : Dev), π { e with out := l ++ e.out } = π e := by
    intro l
    induction l with
    | nil => intro e; rfl
    | cons a l ih => intro e; exact (h.emit { e with out := l ++ e.out } a).trans (ih e)
  obtain ⟨b, l, r, -, hshape⟩ := Dev.drainBulk_shape x n d
  obtain ⟨m, hm⟩ := Dev.drainBulk_out x n d
  rw [hshape] at hm ⊢
  rw [Dev.setBulk_out] at hm
  cases hm
  rw [h.bulk]
  exact (hout m { d with h.fwReads := r }).trans (h.reads d r)

theorem sendBulk (x : Die) (c : Cell) : π (d.sendBulk x c) = π d := (h.drainBulk _ x 16).trans (h.bulk d x _)

theorem sendEvent (x : Die) (i sev : Nat) (active a b : Bool) : π (d.sendEvent x i sev active a b) = π d := by
  unfold Dev.sendEvent; dsimp only
  split
  · exact ((h.emit _ _).trans (h.emit _ _)).trans (h.bulk d x _)
  · exact h.bulk d x _

omit h in
theorem foldl {β : Type} (f : Dev → β → Dev) (hf : ∀ (d : Dev) (b : β), π (f d b) = π d) :
    ∀ (l : List β) (d : Dev), π (l.foldl f d) = π d
  | [], _ => rfl
  | b :: l, d => (foldl f hf l (f d b)).trans (hf d b)

end Dev.StreamBlind

/-! ## Interrupts and the device state -/

namespace Dev.IrqBlind

variable {α : Type} {π : Dev → α} (h : Dev.IrqBlind π) (d : Dev)
include h

theorem setFldHalt (F : Fld) (v : Nat) (hF : haltReg F.off = true) : π (d.setFld F v) = π d := h.wrHalt d F.off _ hF

theorem intx (fn : Func) : π (d.intx fn) = π d := by
  unfold Dev.intx; dsimp only
  split
  · rfl
  · rw [h.tlp, h.pci]

theorem irq (fn : Func) (vec : Nat) : π (d.irq fn vec) = π d := by
  unfold Dev.irq; dsimp only
  split
  · exact h.irqRest d _
  split
  · split
    · exact h.pci d fn _
    · exact h.message d fn vec
  · rw [h.intx, h.setFldHalt _ _ _ (by cases fn <;> rfl)]

theorem irqBoth (vec : Nat) : π (d.irqBoth vec) = π d := (h.irq _ true vec).trans (h.irq d false vec)

theorem v3 : π d.v3 = π d := h.irqBoth d 3

theorem bump (c s : Fld) (hc : haltReg c.off = true) (hs : haltReg s.off = true) : π (d.bump c s) = π d := by
  unfold Dev.bump; dsimp only
  repeat' split
  · rfl
  · rw [h.setFldHalt _ s _ hs, h.setFldHalt _ c _ hc]
  · exact h.setFldHalt d c _ hc

end Dev.IrqBlind

namespace Dev.QuietBlind

variable {α : Type} {π : Dev → α} (h : Dev.QuietBlind π) (d : Dev)
include h

/-- A completion entry. -/
theorem complete (g : Nat) (o : Op) (st : Nat) (r : Quad) : π (d.complete g o st r) = π d := by
  unfold Dev.complete; dsimp only
  split
  · exact h.op d g none
  split
  · rw [h.bump _ _ _ (by cases o.fn <;> rfl) (by cases o.fn <;> rfl), h.op]
  · rw [h.ring, h.tlp, h.op]

theorem finish (g st : Nat) (r : Quad) : π (d.finish g st r) = π d := by
  unfold Dev.finish
  repeat' split
  · exact h.complete d ..
  · exact h.op d g _
  · exact h.complete d ..
  · rfl

theorem haltBegin : π d.haltBegin = π d := by
  refine StreamBlind.foldl (π := π) _ (fun e p => ?_) _ _
  dsimp only
  split
  · exact h.complete e ..
  · exact h.op e ..

theorem haltEntries : π d.haltEntries = π d := by
  refine StreamBlind.foldl (π := π) _ (fun e p => ?_) _ _
  split
  · exact h.complete e ..
  · rfl

theorem idleReset : π d.idleReset = π d := h.brk d _

theorem restAbort : π d.restAbort = π d := by
  unfold Dev.restAbort
  split
  · have hgone : π { d.idleReset with h.restEntry := none } = π d := (h.restEntry _ none).trans (h.idleReset d)
    dsimp only
    split
    · exact (h.finish _ _ _ _).trans hgone
    · exact hgone
  · rfl

end Dev.QuietBlind

/-- A completion entry and the end of a Rest entry leave the device state to what follows. -/
theorem Dev.quietBlind_dev : Dev.QuietBlind (fun d => d.h.dev) where
  emit _ _ := rfl
  wrHalt d k v _ := by simp
  pci d fn p := by cases fn <;> rfl
  irqRest _ _ := rfl
  op _ _ _ := rfl
  ring _ _ _ := rfl
  restEntry _ _ := rfl
  brk _ _ := rfl

theorem Dev.reactState_reacts (d : Dev) : d.reactState.reacts = true := by
  unfold Dev.reactState
  split_ifs <;> rfl

namespace Dev.CalmBlind

variable {α : Type} {π : Dev → α} (h : Dev.CalmBlind π) (d : Dev)
include h

/-- The state entered, after the Rest entry that it overtakes has ended. -/
theorem entered (hdev : d.h.dev.reacts = true) {st : DevState} (hst : st.reacts = true) (b c : Bool) :
    π { (if d.reactState = .run then d else d.restAbort) with h.dev := st, h.ranOnce := b, f.ranOnce := c } = π d := by
  have hkept : (if d.reactState = .run then d else d.restAbort).h.dev = d.h.dev :=
    Dev.ite_kept (π := fun d => d.h.dev) rfl (Dev.quietBlind_dev.restAbort d)
  exact (h.state _ st b c (by rw [hkept]; exact hdev) hst).trans (Dev.ite_kept rfl (h.restAbort d))

/-- The device state followed from outside HALT, where nothing has been held back. -/
theorem followReactions_of_calm (hdev : d.h.dev ≠ .halt) : π d.followReactions = π d := by
  unfold Dev.followReactions
  simp only [hdev, if_false]
  split
  case h_4 => rfl
  all_goals
    rename_i hst
    have hentered := h.entered d (by rw [hst]; rfl) d.reactState_reacts
    exact Dev.ite_kept ((h.haltBegin _).trans (hentered _ _)) (hentered _ _)

/-- The device state followed, to a part blind to what has been held back too. -/
theorem followReactions_of_drained (hdrain : ∀ (d : Dev) (x : Die) (n : Nat), π (d.drainBulk x n) = π d) : π d.followReactions = π d := by
  unfold Dev.followReactions
  split
  case h_4 => rfl
  all_goals
    rename_i hst
    have hentered := h.entered d (by rw [hst]; rfl) d.reactState_reacts
    dsimp only
    refine Dev.ite_kept (Dev.ite_kept (hentered _ _) ((h.haltBegin _).trans (hentered _ _))) (Dev.ite_kept ?_ (hentered _ _))
    exact (((hdrain _ _ _).trans (hdrain _ _ _)).trans (h.haltEntries _)).trans (hentered _ _)

end Dev.CalmBlind

/-- The device state follows the reactions. -/
theorem Dev.StateBlind.followReactions {α : Type} {π : Dev → α} (h : Dev.StateBlind π) (d : Dev) : π d.followReactions = π d :=
  h.followReactions_of_drained d h.drainBulk

/-! ## Reports -/

/-- The latch bits of an activation with their messages, and the note of the last one (R272). -/
def Dev.latched (d : Dev) (i sev : Nat) : Dev :=
  let one := fun (d : Dev) (fn : Func) =>
    if d.flag (latchFld fn i) then d else (d.setFld (latchFld fn i) 1).irq fn 2
  ((one (one d false) true).setFld Fld.SN_STATUS_LAST i).setFld Fld.SN_STATUS_LAST_SEV sev

theorem Dev.record_eq (d : Dev) (i sev : Nat) : d.record i sev = (d.latched i sev).followReactions := rfl

namespace Dev.RegBlind

variable {α : Type} {π : Dev → α} (h : Dev.RegBlind π) (d : Dev)
include h

theorem setFld (F : Fld) (v : Nat) (hF : reactReg F.off = true) : π (d.setFld F v) = π d := h.wr d F.off _ hF

/-- The latch bits of an activation and their messages, and the note of the last one. -/
theorem latched {i : Nat} (sev : Nat) (hi : i < 96) : π (d.latched i sev) = π d := by
  have hlatch (e : Dev) (fn : Func) :
      π (if e.flag (latchFld fn i) then e else (e.setFld (latchFld fn i) 1).irq fn 2) = π e := by
    split
    · rfl
    · exact (h.irq _ _ _).trans (h.setFld e _ _ (reactReg_latch fn hi))
  exact (h.setFld _ _ _ rfl).trans ((h.setFld _ _ _ rfl).trans ((hlatch _ true).trans (hlatch d false)))

/-- A pulse of a FAULT pin. -/
theorem pulse (x : Die) : π (d.pulse x) = π d := by
  cases x with
  | h =>
    have hmode (e : Dev) (fn : Func) :
        π (if e.fld (Fld.SN_ACK_H_MODE.of fn) = 2 then e.setFld (Fld.SN_ACK_H_MODE.of fn) 0 else e) = π e := by
      split
      · exact h.setFld e _ _ (by cases fn <;> rfl)
      · rfl
    exact ((hmode _ true).trans (hmode _ false)).trans (h.pulseH d _)
  | f =>
    have hmode (e : Dev) (fn : Func) : π (if bitsOf (e.shadow (keyOf fn Reg.SN_ACK)).toNat 2 2 = 2
        then e.setShadow (keyOf fn Reg.SN_ACK) (setBits (e.shadow (keyOf fn Reg.SN_ACK)) 2 2 0) else e) = π e := by
      split
      · exact h.ackCopy e fn _
      · rfl
    exact ((hmode _ true).trans (hmode _ false)).trans (h.pulseF d _)

theorem learnPulseF : π d.learnPulseF = π d := by
  have hmode (e : Dev) (fn : Func) :
      π (if e.fld (Fld.SN_ACK_F_MODE.of fn) = 2 then e.setFld (Fld.SN_ACK_F_MODE.of fn) 0 else e) = π e := by
    split
    · exact h.setFld e _ _ (by cases fn <;> rfl)
    · rfl
  exact (hmode _ true).trans (hmode d false)

end Dev.RegBlind

namespace Dev.WakeBlind

variable {α : Type} {π : Dev → α} (h : Dev.WakeBlind π) (d : Dev)
include h

theorem wakeTrain : π d.wakeTrain = π d := by
  unfold Dev.wakeTrain
  split
  · exact h.training d true
  · rfl

/-- A wake event, and the waking of the die that recognises it. -/
theorem wake (x : Die) (src : Nat) : π (d.wake x src) = π d := by
  have hsrc : π (if bitOf (d.fld Fld.BRK_WAKE_SRC) src then d
      else d.setFld Fld.BRK_WAKE_SRC (d.fld Fld.BRK_WAKE_SRC + 2 ^ src)) = π d := by
    split
    · rfl
    · exact h.setFld d _ _ rfl
  have hat (e : Dev) : π (if e.f.brk.wakeAt.isSome then e else { e with f.brk.wakeAt := some d.now }) = π e := by
    split
    · rfl
    · exact h.brk e _
  have hawake (e : Dev) : π { e with f.brk.awakeH := true, h.pm := .l0 } = π e :=
    (h.pm { e with f.brk.awakeH := true } .l0).trans (h.brk e _)
  have hH (e : Dev) (host : Bool) : π (e.wakeH host) = π e := by
    unfold Dev.wakeH; dsimp only
    split
    · rfl
    split
    · exact (h.wakeTrain _).trans (hawake e)
    · exact ((h.wakeTrain _).trans (hawake _)).trans (h.emit e _)
  have hF (e : Dev) : π e.wakeF = π e := (h.wakeTrain _).trans (h.brk e _)
  unfold Dev.wake; dsimp only
  split
  · rfl
  · cases x with
    | h => exact (((hH _ _).trans (h.emit _ _)).trans (hat _)).trans hsrc
    | f => exact (((hF _).trans (h.emit _ _)).trans (hat _)).trans hsrc

theorem startPulse (x : Die) (on : Bool) : π (d.startPulse x on) = π d := by
  unfold Dev.startPulse
  split
  · exact (h.wake _ x 3).trans (h.pulse d x)
  · rfl

end Dev.WakeBlind

/-- The H-side's record of an activation. -/
theorem Dev.ReactBlind.record {α : Type} {π : Dev → α} (h : Dev.ReactBlind π) (d : Dev) {i : Nat} (sev : Nat) (hi : i < 96) :
    π (d.record i sev) = π d := (h.followReactions _).trans (h.latched d sev hi)

/-- The device without the parts that a report may reach. -/
def Dev.core (d : Dev) : Dev :=
  { d with
    out := []
    h := { d.h with
      regs := [], dev := .off, ranOnce := false, pulse := none, pciA := PciFn.reset, pciB := PciFn.reset, rings := [], ops := [],
      bulk := BulkEnd.idle, fwReads := [], irqRest := [], restEntry := none, pm := .l0, link.training := false }
    f := { d.f with regs := [], ranOnce := false, pulse := none, bulk := BulkEnd.idle, brk := Brk.reset } }

theorem Dev.stateBlind_core : Dev.StateBlind Dev.core where
  emit _ _ := rfl
  wrHalt d k v _ := by simp [Dev.core]
  bulk d x b := by cases x <;> rfl
  reads _ _ := rfl
  pci d fn p := by cases fn <;> rfl
  op _ _ _ := rfl
  ring _ _ _ := rfl
  state _ _ _ _ _ _ := rfl
  irqRest _ _ := rfl
  restEntry _ _ := rfl
  brk _ _ := rfl

theorem Dev.blind_core : Dev.Blind Dev.core where
  toStateBlind := Dev.stateBlind_core
  wr d k v _ := by simp [Dev.core]
  ackCopy _ _ _ := rfl
  pm _ _ := rfl
  training _ _ := rfl
  pulseH _ _ := rfl
  pulseF _ _ := rfl

/-- What can be read off a part that is blind to the device state is blind to it. -/
theorem Dev.StateBlind.comp {α β : Type} {ρ : Dev → β} (hρ : Dev.StateBlind ρ) {π : Dev → α} (h : ∀ {d e : Dev}, ρ e = ρ d → π e = π d) :
    Dev.StateBlind π where
  emit d e := h (hρ.emit d e)
  wrHalt d k v hk := h (hρ.wrHalt d k v hk)
  bulk d x b := h (hρ.bulk d x b)
  reads d r := h (hρ.reads d r)
  pci d fn p := h (hρ.pci d fn p)
  op d g o := h (hρ.op d g o)
  ring d n r := h (hρ.ring d n r)
  state d st b c hd hst := h (hρ.state d st b c hd hst)
  irqRest d l := h (hρ.irqRest d l)
  restEntry d e := h (hρ.restEntry d e)
  brk d b := h (hρ.brk d b)

/-- What can be read off the core is blind to reports. -/
theorem Dev.Blind.of_core {α : Type} {π : Dev → α} (h : ∀ d : Dev, π d.core = π d) : Dev.Blind π := by
  have hπ {d e : Dev} (hcore : e.core = d.core) : π e = π d := by rw [← h e, hcore, h d]
  exact {
    Dev.stateBlind_core.comp hπ with
    wr := fun d k v hk => hπ (Dev.blind_core.wr d k v hk)
    ackCopy := fun d fn v => hπ (Dev.blind_core.ackCopy d fn v)
    pm := fun d m => hπ (Dev.blind_core.pm d m)
    training := fun d b => hπ (Dev.blind_core.training d b)
    pulseH := fun d p => hπ (Dev.blind_core.pulseH d p)
    pulseF := fun d p => hπ (Dev.blind_core.pulseF d p) }

theorem Dev.streamBlind_rd (k : Nat) : Dev.StreamBlind (fun d => d.rd k) where
  emit _ _ := rfl
  bulk d x b := by cases x <;> rfl
  reads _ _ := rfl

/-- A register that is neither an interrupt cause nor a count of dropped entries. -/
theorem Dev.stateBlind_rd {k : Nat} (hk : haltReg k = false) : Dev.StateBlind (fun d => d.rd k) where
  toStreamBlind := Dev.streamBlind_rd k
  wrHalt d j v hj := Dev.rd_wr_ne d v (fun h => by simp [h, hj] at hk)
  pci d fn p := by cases fn <;> rfl
  op _ _ _ := rfl
  ring _ _ _ := rfl
  state _ _ _ _ _ _ := rfl
  irqRest _ _ := rfl
  restEntry _ _ := rfl
  brk _ _ := rfl

theorem Dev.stateBlind_fld {F : Fld} (hF : haltReg F.off = false) : Dev.StateBlind (fun d => d.fld F) :=
  (Dev.stateBlind_rd hF).comp (fun {d e} (h : e.rd F.off = d.rd F.off) => by simp only [Dev.fld, h])

theorem Dev.blind_src (x : Die) (i : Nat) : Dev.Blind (fun d => d.src x i) := .of_core fun _ => rfl
theorem Dev.blind_srcFAtH (i : Nat) : Dev.Blind (fun d => d.srcFAtH i) := .of_core fun _ => rfl
theorem Dev.blind_srcHAtF (i : Nat) : Dev.Blind (fun d => d.srcHAtF i) := .of_core fun _ => rfl
theorem Dev.blind_now : Dev.Blind (fun d => d.now) := .of_core fun _ => rfl
theorem Dev.blind_ch : Dev.Blind (fun d => d.f.ch) := .of_core fun _ => rfl

/-- A command that acts on the device. -/
theorem State.onDev_of (s : State) {g : Dev → Dev} {e : Dev} (h : g s.dev = e) : s.onDev g = .next { s with dev := e } := by
  rw [State.onDev_eq, h]

/-! ## A source after its replacement -/

@[simp] theorem Dev.src_setSrc_same (d : Dev) (x : Die) (i : Nat) (s : Src) : (d.setSrc x i s).src x i = s := by
  cases x <;> simp [Dev.src, Dev.setSrc]

theorem Dev.src_setSrc_ne (d : Dev) (x : Die) {i j : Nat} (s : Src) (h : j ≠ i) : (d.setSrc x i s).src x j = d.src x j := by
  cases x <;> simp [Dev.src, Dev.setSrc, Tab.get_set_ne _ _ _ h]

theorem Dev.src_setSrc_die (d : Dev) {x y : Die} (i j : Nat) (s : Src) (h : y ≠ x) : (d.setSrc x i s).src y j = d.src y j := by
  cases x <;> cases y <;> first | rfl | contradiction

@[simp] theorem Dev.setSrc_now (d : Dev) (x : Die) (i : Nat) (s : Src) : (d.setSrc x i s).now = d.now := by cases x <;> rfl

/-! ## The end of a condition -/

/-- The condition of an active source ends now; the other source fields stay. -/
theorem Dev.src_condEnd_same (d : Dev) (x : Die) (i : Nat) (h : (d.src x i).active = true) :
    (d.condEnd x i).src x i = { d.src x i with active := false, last := d.now } := by
  unfold Dev.condEnd
  rw [if_neg (by simp [h])]
  dsimp only
  split
  · rw [(Dev.blind_src x i).sendEvent, Dev.src_setSrc_same]
  · rw [Dev.src_setSrc_same]

theorem Dev.condEnd_of_inactive (d : Dev) (x : Die) (i : Nat) (h : (d.src x i).active = false) : d.condEnd x i = d := by
  unfold Dev.condEnd
  rw [if_pos (by simp [h])]

theorem Dev.src_condEnd_ne (d : Dev) (x : Die) {i j : Nat} (hj : j ≠ i) : (d.condEnd x i).src x j = d.src x j := by
  by_cases h : (d.src x i).active = true
  · unfold Dev.condEnd
    rw [if_neg (by simp [h])]
    dsimp only
    split
    · rw [(Dev.blind_src x j).sendEvent, Dev.src_setSrc_ne _ _ _ hj]
    · rw [Dev.src_setSrc_ne _ _ _ hj]
  · rw [d.condEnd_of_inactive x i (by simpa using h)]

theorem Dev.condEnd_inactive (d : Dev) (x : Die) (i : Nat) : ((d.condEnd x i).src x i).active = false := by
  by_cases h : (d.src x i).active = true
  · rw [d.src_condEnd_same x i h]
  · rw [d.condEnd_of_inactive x i (by simpa using h)]
    simpa using h

/-- A part blind to what is sent and to a source does not see the end of the source's condition. -/
theorem Dev.StreamBlind.condEnd {α : Type} {π : Dev → α} (h : Dev.StreamBlind π) {x : Die} {i : Nat}
    (hsrc : ∀ (d : Dev) (s : Src), π (d.setSrc x i s) = π d) (d : Dev) : π (d.condEnd x i) = π d := by
  unfold Dev.condEnd; dsimp only
  repeat' split
  · rfl
  · exact (h.sendEvent _ _ _ _ _ _ _).trans (hsrc d _)
  · exact hsrc d _

/-! ## The commanded levels taken anew -/

/-- The channels without what is taken anew with the levels. -/
def Chans.unpinned (c : Chans) : Chans :=
  { c with held := 0, cmd := 0, cmdOn := 0, lastDrv := 0, driven := 0, cmdAt := [], cmp := 0, due := [], mismCnt := [] }

section
variable {α : Type} {π : Dev → α} (h : Dev.StreamBlind π)
  (hch : ∀ (d : Dev) (c : Chans), c.unpinned = d.f.ch.unpinned → π { d with f.ch := c } = π d)
  (hmism : ∀ (d : Dev) (v : Word), π (d.wr Reg.CH_PIN_MISM_LO v) = π d ∧ π (d.wr Reg.CH_PIN_MISM_HI v) = π d)
include hch

/-- Comparison samples that fall due are part of what is taken anew. -/
theorem Dev.addDue_of_unpinned (d : Dev) (m : W48) : π (d.addDue m) = π d := by
  refine Dev.StreamBlind.foldl _ (fun e b => ?_) _ _
  split
  · rfl
  · exact hch e _ rfl

include hmism

/-- To a part blind to what is sent and to what is taken anew the levels taken anew are at most the end of CHK_PIN's condition. -/
theorem Dev.pins_cases (d : Dev) {P : Dev → Prop} (stays : ∀ e, π e = π d → P e)
    (ends : ∀ e, π e = π d → P (e.condEnd .f Sn.CHK_PIN)) : P d.pins := by
  have hdueIf (c : Chans) (hc : c.unpinned = d.f.ch.unpinned) (m : W48) (p : Prop) [Decidable p] :
      π (if p then { d with f.ch := c } else ({ d with f.ch := c }).addDue m) = π d := by
    split
    · exact hch d c hc
    · exact (Dev.addDue_of_unpinned hch _ m).trans (hch d c hc)
  have hmask (e : Dev) (m : W48) (q : Tab Nat) :
      π { e.setMask48 Reg.CH_PIN_MISM_LO Reg.CH_PIN_MISM_HI m with f.ch.mismCnt := q } = π e := by
    refine (hch _ _ ?_).trans ((hmism _ _).2.trans (hmism e _).1)
    rfl
  have hgone (e : Dev) (he : π e = π d) (m : W48) (p : Nat × Nat → Bool) :
      P (if m = 0
        then ({ e.setMask48 Reg.CH_PIN_MISM_LO Reg.CH_PIN_MISM_HI m with
          f.ch.mismCnt := (e.setMask48 Reg.CH_PIN_MISM_LO Reg.CH_PIN_MISM_HI m).f.ch.mismCnt.filter p }).condEnd .f Sn.CHK_PIN
        else { e.setMask48 Reg.CH_PIN_MISM_LO Reg.CH_PIN_MISM_HI m with
          f.ch.mismCnt := (e.setMask48 Reg.CH_PIN_MISM_LO Reg.CH_PIN_MISM_HI m).f.ch.mismCnt.filter p }) := by
    split
    · exact ends _ ((hmask e m _).trans he)
    · exact stays _ ((hmask e m _).trans he)
  unfold Dev.pins; dsimp only
  split
  · refine stays _ (hdueIf _ ?_ _ _)
    rfl
  · refine hgone _ (hdueIf _ ?_ _ _) _ _
    rfl

include h

/-- A part that is blind to CHK_PIN too does not see the levels taken anew. -/
theorem Dev.StreamBlind.pins (hsrc : ∀ (d : Dev) (s : Src), π (d.setSrc .f Sn.CHK_PIN s) = π d) (d : Dev) : π d.pins = π d :=
  Dev.pins_cases hch hmism d (P := fun e => π e = π d) (fun _ he => he) (fun e he => (h.condEnd hsrc e).trans he)

end

/-- The mismatch bits are registers of a reaction. -/
theorem Dev.Blind.mism {α : Type} {π : Dev → α} (h : Dev.Blind π) (d : Dev) (v : Word) :
    π (d.wr Reg.CH_PIN_MISM_LO v) = π d ∧ π (d.wr Reg.CH_PIN_MISM_HI v) = π d := ⟨h.wr d _ v rfl, h.wr d _ v rfl⟩

/-- Of the sources only CHK_PIN on the F-side may end its condition. -/
theorem Dev.src_pins_ne (d : Dev) (x : Die) {i : Nat} (h : x = .h ∨ i ≠ Sn.CHK_PIN) : d.pins.src x i = d.src x i := by
  refine Dev.pins_cases (π := fun d => d.src x i) (fun _ _ _ => by cases x <;> rfl) (Dev.blind_src x i).mism d
    (P := fun e => e.src x i = d.src x i) (fun _ he => he) (fun e he => Eq.trans ?_ he)
  rcases h with rfl | hne
  · exact (Dev.blind_src .h i).condEnd (fun d s => rfl) e
  · cases x with
    | h => exact (Dev.blind_src .h i).condEnd (fun d s => rfl) e
    | f => exact e.src_condEnd_ne .f hne

/-- CHK_PIN after the levels are taken anew: as it was, or its condition has ended now. -/
theorem Dev.src_pins_chkPin (d : Dev) : d.pins.src .f Sn.CHK_PIN = d.src .f Sn.CHK_PIN ∨
    d.pins.src .f Sn.CHK_PIN = { d.src .f Sn.CHK_PIN with active := false, last := d.now } := by
  have hblind : Dev.Blind (fun d : Dev => (d.src .f Sn.CHK_PIN, d.now)) := .of_core fun _ => rfl
  refine Dev.pins_cases (π := fun d => (d.src .f Sn.CHK_PIN, d.now)) (fun _ _ _ => rfl) hblind.mism d (P := fun e => e.src .f Sn.CHK_PIN = d.src .f Sn.CHK_PIN ∨
    e.src .f Sn.CHK_PIN = { d.src .f Sn.CHK_PIN with active := false, last := d.now }) (fun e he => ?stays) (fun e he => ?ends)
  all_goals obtain ⟨hsrc, hnow⟩ := Prod.mk.inj he
  case stays => exact .inl hsrc
  case ends =>
    by_cases hact : (e.src .f Sn.CHK_PIN).active = true
    · exact .inr (by rw [e.src_condEnd_same _ _ hact, hsrc, hnow])
    · exact .inl (by rw [e.condEnd_of_inactive _ _ (by simpa using hact), hsrc])

/-- A source that the levels taken anew may have ended: all but `active` and `last` stay, and those are as they were unless the
source is CHK_PIN, whose condition has then ended now. -/
theorem Dev.src_pins (d : Dev) (x : Die) (i : Nat) : ∃ act last, d.pins.src x i = { d.src x i with active := act, last := last } ∧
    (x = .h ∨ i ≠ Sn.CHK_PIN → act = (d.src x i).active) ∧ (last = (d.src x i).last ∨ last = d.now) := by
  by_cases h : x = .h ∨ i ≠ Sn.CHK_PIN
  · exact ⟨_, _, d.src_pins_ne x h, fun _ => rfl, .inl rfl⟩
  · obtain ⟨hx, hi⟩ := not_or.mp h
    cases x with
    | h => exact absurd rfl hx
    | f =>
      cases not_not.mp hi
      rcases d.src_pins_chkPin with heq | heq
      · exact ⟨_, _, heq, fun _ => rfl, .inl rfl⟩
      · exact ⟨_, _, heq, fun hor => absurd hor h, .inr rfl⟩

/-! ## A source that is raised -/

/-- At INFO without a reaction the source is active if it lasts, from now, and gets no reaction. -/
theorem Dev.src_raiseInfo (d : Dev) (x : Die) {i : Nat} (a b : Bool) (hi : i < 96) : ∃ scA scB infoAt,
    (d.raiseInfo x i a b).src x i = { d.src x i with
      active := (srcRow i).lasting, last := d.now, scA := scA, scB := scB, infoAt := infoAt } := by
  unfold Dev.raiseInfo; dsimp only
  split
  · exact ⟨_, _, _, Dev.src_setSrc_same ..⟩
  · cases x with
    | h => exact ⟨_, _, _, (((Dev.blind_src .h i).record _ 0 hi).trans ((Dev.blind_src .h i).sendEvent ..)).trans
        (Dev.src_setSrc_same ..)⟩
    | f => exact ⟨_, _, _, ((Dev.blind_src .f i).sendEvent ..).trans (Dev.src_setSrc_same ..)⟩

/-- Under a severity or a reaction in force the higher of the two is in force, over the widened scope, from now. -/
theorem Dev.src_raiseForce (d : Dev) (x : Die) {i : Nat} (sev : Nat) (a b : Bool) (hi : i < 96) : ∃ act,
    (d.raiseForce x i sev a b).src x i = { d.src x i with
      active := act, last := d.now, force := max (d.src x i).force sev
      scA := ((d.src x i).widen a b).1, scB := ((d.src x i).widen a b).2 } ∧
    (x = .h ∨ i ≠ Sn.CHK_PIN → act = (srcRow i).lasting) := by
  unfold Dev.raiseForce; dsimp only
  split
  · unfold Dev.announce
    cases x with
    | h =>
      refine ⟨_, ((Dev.blind_src .h i).record _ _ hi).trans ?_, fun _ => rfl⟩
      rw [(Dev.blind_src .h i).sendEvent, (Dev.blind_src .h i).startPulse, Dev.src_setSrc_same]
    | f =>
      obtain ⟨act, last, hsrc, hact, hlast⟩ := Dev.src_pins (Dev.sendEvent (Dev.startPulse (d.setSrc .f i
        { d.src .f i with active := (srcRow i).lasting, last := d.now, force := max (d.src .f i).force sev
                          scA := ((d.src .f i).widen a b).1, scB := ((d.src .f i).widen a b).2 }) .f
        (decide ((d.src .f i).force < max (d.src .f i).force sev) && decide (2 ≤ max (d.src .f i).force sev))) .f i
        (max (d.src .f i).force sev) true ((d.src .f i).widen a b).1 ((d.src .f i).widen a b).2) .f i
      rw [(Dev.blind_src .f i).sendEvent, (Dev.blind_src .f i).startPulse, Dev.src_setSrc_same] at hsrc hact hlast
      rw [Dev.blind_now.sendEvent, Dev.blind_now.startPulse, Dev.setSrc_now] at hlast
      obtain rfl : last = d.now := hlast.elim id id
      exact ⟨act, hsrc, hact⟩
  · exact ⟨_, Dev.src_setSrc_same .., fun _ => rfl⟩

/-- A source raised is active from now, whatever its severity. -/
theorem Dev.last_raise (d : Dev) (x : Die) {i : Nat} (a b : Bool) (hi : i < 96) : ((d.raise x i a b).src x i).last = d.now := by
  unfold Dev.raise
  split
  · obtain ⟨_, _, _, hsrc⟩ := d.src_raiseInfo x a b hi
    rw [hsrc]
  · obtain ⟨_, hsrc, -⟩ := d.src_raiseForce x (d.sevOf x i) a b hi
    rw [hsrc]

theorem Dev.last_raiseCode (d : Dev) (x : Die) {i : Nat} (c : Nat) (hi : i < 96) :
    ((d.raiseCode x i c).src x i).last = d.now := by
  unfold Dev.raiseCode
  repeat' split
  all_goals exact d.last_raise x _ _ hi

/-- A lasting source raised is active. -/
theorem Dev.active_raise (d : Dev) (x : Die) {i : Nat} (a b : Bool) (hi : i < 96) (h : x = .h ∨ i ≠ Sn.CHK_PIN) :
    ((d.raise x i a b).src x i).active = (srcRow i).lasting := by
  unfold Dev.raise
  split
  · obtain ⟨_, _, _, hsrc⟩ := d.src_raiseInfo x a b hi
    rw [hsrc]
  · obtain ⟨act, hsrc, hact⟩ := d.src_raiseForce x (d.sevOf x i) a b hi
    rw [hsrc, hact h]

end Sys2Proof.Machine
end

section
/-!
PROOF. Conditions of the Safety Net (chapter 12): a detector finds its source active, a condition ends, and the reaction ends and is counted
as a recovery.
-/

namespace Sys2Proof.Machine

/-! ## A detector finds its source active -/

/-- A command of a detector: its source becomes active on its die, with both functions in scope. -/
def Detects (c : Instr) (x : Die) (i t : Nat) : Prop :=
  (c = .snSourceActive x i true true t ∧ raisedOn x i = true) ∨
    (c = .faultPinMismatch x true t ∧ i = (match x with | .h => Sn.SN_FAULT_PIN_H | .f => Sn.SN_FAULT_PIN_F)) ∨
    (c = .supplyOutOfRange i t ∧ supplyDie i = some x) ∨
    (c = .temperatureThreshold x true true t ∧ i = (match x with | .h => Sn.SYS_TEMP_H_CRIT | .f => Sn.SYS_TEMP_F_CRIT)) ∨
    (c = .temperatureThreshold x false true t ∧ i = (match x with | .h => Sn.SYS_TEMP_H_HIGH | .f => Sn.SYS_TEMP_F_HIGH)) ∨
    (c = .clockLoss i t ∧ clockDie i = some x) ∨
    (c = .lfOscillatorFault true t ∧ x = .f ∧ i = Sn.SYS_LF_OSC) ∨
    (c = .sequencerTrap x t ∧ i = (match x with | .h => Sn.SYS_SEQ_H | .f => Sn.SYS_SEQ_F)) ∨
    (c = .eccError x true t ∧ i = (match x with | .h => Sn.SYS_ECC_H_UNCORR | .f => Sn.SYS_ECC_F_UNCORR)) ∨
    (c = .eccError x false t ∧ i = (match x with | .h => Sn.SYS_ECC_H_CORR | .f => Sn.SYS_ECC_F_CORR))

/-- A supply is watched by the die that Table SN-1 names. -/
theorem raisedOn_of_supplyDie {i : Nat} {x : Die} (h : supplyDie i = some x) : raisedOn x i = true := by
  unfold supplyDie at h
  split at h
  · cases h
    obtain rfl | rfl | rfl | rfl : i = 46 ∨ i = 47 ∨ i = 48 ∨ i = 49 := by omega
    all_goals decide
  · split at h
    · cases h
      obtain rfl | rfl : i = 50 ∨ i = 51 := by assumption
      all_goals decide
    · cases h

/-- A clock is watched by the die that Table SN-1 names. -/
theorem raisedOn_of_clockDie {i : Nat} {x : Die} (h : clockDie i = some x) : raisedOn x i = true := by
  unfold clockDie at h
  split at h
  · cases h
    obtain rfl | rfl : i = 52 ∨ i = 53 := by assumption
    all_goals decide
  · split at h
    · cases h
      obtain rfl | rfl : i = 54 ∨ i = 55 := by assumption
      all_goals decide
    · cases h

/-- A detector outside REST raises its source. -/
theorem Dev.detect_of_awake {d : Dev} {x : Die} {i : Nat} (hon : raisedOn x i = true) (hrest : d.f.ch.rest = none) (a b : Bool) :
    d.detect x i a b = d.raise x i a b := by
  simp [Dev.detect, hon, hrest]

/-- Every detector's command raises its source on its die. -/
theorem exec_of_detects {c : Instr} {x : Die} {i t : Nat} (h : Detects c x i t) {s : State} (hrest : s.dev.f.ch.rest = none) :
    exec c s = .next { s with dev := (s.dev.at t).raiseBoth x i } := by
  have hdetect (hon : raisedOn x i = true) : (s.dev.at t).detect x i true true = (s.dev.at t).raiseBoth x i :=
    Dev.detect_of_awake (d := s.dev.at t) hon hrest true true
  have hexec {e : Dev} (hon : raisedOn x i = true) (he : exec c s = .next { s with dev := e })
      (hd : e = (s.dev.at t).detect x i true true) : exec c s = .next { s with dev := (s.dev.at t).raiseBoth x i } := by
    rw [he, hd, hdetect hon]
  rcases h with ⟨rfl, hon⟩ | ⟨rfl, rfl⟩ | ⟨rfl, hdie⟩ | ⟨rfl, rfl⟩ | ⟨rfl, rfl⟩ | ⟨rfl, hdie⟩ | ⟨rfl, rfl, rfl⟩ | ⟨rfl, rfl⟩ |
    ⟨rfl, rfl⟩ | ⟨rfl, rfl⟩
  · exact hexec hon rfl rfl
  · exact hexec (by cases x <;> decide) rfl (by cases x <;> rfl)
  · exact hexec (e := doSupplyOutOfRange i t s.dev) (raisedOn_of_supplyDie hdie) rfl
      (by simp [doSupplyOutOfRange, hdie, Dev.condition])
  · exact hexec (by cases x <;> decide) rfl (by cases x <;> rfl)
  · exact hexec (by cases x <;> decide) rfl (by cases x <;> rfl)
  · exact hexec (e := doClockLoss i t s.dev) (raisedOn_of_clockDie hdie) rfl (by simp [doClockLoss, hdie, Dev.condition])
  · exact hexec (by decide) rfl rfl
  · exact hexec (by cases x <;> decide) rfl (by cases x <;> rfl)
  · exact hexec (by cases x <;> decide) rfl (by cases x <;> rfl)
  · exact hexec (by cases x <;> decide) rfl (by cases x <;> rfl)

/-- Settles O36: a source raised under a severity has the higher severity in force; at INFO without a reaction it gets none. -/
theorem safetyNetConditionBegins : Obligations.SafetyNetConditionBegins := by
  unfold Obligations.SafetyNetConditionBegins
  intro s c x i t hc hi hrest
  have hexec := exec_of_detects hc hrest
  have hsame : (s.dev.at t).SameApart ((s.dev.at t).raiseBoth x i) := Dev.raiseBoth_apart _ x hi
  constructor
  case left =>
    intro hsev
    have hraise : (s.dev.at t).raiseBoth x i = (s.dev.at t).raiseForce x i ((s.dev.at t).sevOf x i) true true := by
      unfold Dev.raiseBoth Dev.raise
      rw [if_neg (fun h => Nat.ne_of_gt hsev h.1)]
    obtain ⟨act, hsrc, hact⟩ := (s.dev.at t).src_raiseForce x ((s.dev.at t).sevOf x i) true true hi
    rw [hraise] at hexec hsame
    have hwiden : ((s.dev.at t).src x i).widen true true = (true, true) := by
      unfold Src.widen; split <;> simp
    refine ⟨_, hexec, ?_, ?_, ?_, ?_, fun hne => ?_, hsame, rfl, rfl⟩
    all_goals rw [hsrc]
    · rfl
    · rw [hwiden]
    · rw [hwiden]
    · rfl
    · exact hact (.inr hne)
  case right =>
    intro hsev hforce
    have hraise : (s.dev.at t).raiseBoth x i = (s.dev.at t).raiseInfo x i true true := by
      unfold Dev.raiseBoth Dev.raise
      rw [if_pos ⟨hsev, hforce⟩]
    obtain ⟨scA, scB, infoAt, hsrc⟩ := (s.dev.at t).src_raiseInfo x true true hi
    rw [hraise] at hexec hsame
    refine ⟨_, hexec, ?_, ?_, ?_, hsame, rfl, rfl⟩
    all_goals rw [hsrc]
    · exact hforce
    · rfl

/-! ## A condition ends, and the reaction after it -/

/-- A command at which the condition of a source ends on its die. -/
def Ends (s : State) (c : Instr) (x : Die) (i t : Nat) : Prop :=
  (c = .faultPinMismatch x false t ∧ i = (match x with | .h => Sn.SN_FAULT_PIN_H | .f => Sn.SN_FAULT_PIN_F)) ∨
    (c = .supplyReturnInRange i t ∧ supplyDie i = some x ∧ s.dev.h.powered = true ∧ s.dev.f.powered = true) ∨
    (c = .temperatureThreshold x true false t ∧ i = (match x with | .h => Sn.SYS_TEMP_H_CRIT | .f => Sn.SYS_TEMP_F_CRIT)) ∨
    (c = .clockReturn i t ∧ clockDie i = some x) ∨
    (c = .lfOscillatorFault false t ∧ x = .f ∧ i = Sn.SYS_LF_OSC)

theorem Dev.powerBack_of_powered {d : Dev} (i : Nat) (hh : d.h.powered = true) (hf : d.f.powered = true) : d.powerBack i = d := by
  unfold Dev.powerBack
  split
  · rw [← hh]
  · split
    · have hpor : (d.f.porHeld || !d.f.powered) = d.f.porHeld := by simp [hf]
      rw [hpor]
    · rfl

theorem exec_supplyReturn {i : Nat} {x : Die} (h : supplyDie i = some x) (s : State) (t : Nat) :
    exec (.supplyReturnInRange i t) s = .next { s with dev := ((s.dev.at t).powerBack i).condEnd x i } := by
  show s.onDev (doSupplyReturnInRange i t) = _
  simp [State.onDev, doSupplyReturnInRange, h, Dev.condition]

theorem exec_of_ends {s : State} {c : Instr} {x : Die} {i t : Nat} (h : Ends s c x i t) :
    exec c s = .next { s with dev := (s.dev.at t).condEnd x i } := by
  rcases h with ⟨rfl, rfl⟩ | ⟨rfl, hdie, hh, hf⟩ | ⟨rfl, rfl⟩ | ⟨rfl, hdie⟩ | ⟨rfl, rfl, rfl⟩
  · cases x <;> rfl
  · rw [exec_supplyReturn hdie, Dev.powerBack_of_powered i (d := s.dev.at t) hh hf]
  · cases x <;> rfl
  · show s.onDev (doClockReturn i t) = _
    simp [State.onDev, doClockReturn, hdie, Dev.condition]
  · rfl

/-- A rail that returns: the H-side's core powers its die again, the F-side's supply starts its power-on reset. -/
theorem Dev.powerBack_spec (d : Dev) (i : Nat) :
    (d.powerBack i).h.powered = (d.h.powered || i == Sn.SYS_VCORE_H) ∧
    (d.powerBack i).f.porHeld = (d.f.porHeld || (i == Sn.SYS_VDD_F && !d.f.powered)) ∧
    (d.powerBack i).f.powered = d.f.powered := by
  unfold Dev.powerBack
  split
  case isTrue h => subst h; simp [Sn.SYS_VCORE_H, Sn.SYS_VDD_F]
  case isFalse h =>
    split
    case isTrue h' => subst h'; simp [Sn.SYS_VCORE_H, Sn.SYS_VDD_F]
    case isFalse h' => simp [h, h']

/-! ## What a raised source leaves of another -/

/-- A part blind to reports and to a source of the H-side does not see its reaction start or rise. -/
theorem Dev.Blind.raiseForceH {α : Type} {π : Dev → α} (h : Dev.Blind π) {i : Nat} (hsrc : ∀ (d : Dev) (s : Src), π (d.setSrc .h i s) = π d)
    (hi : i < 96) (d : Dev) (sev : Nat) (a b : Bool) : π (d.raiseForce .h i sev a b) = π d := by
  unfold Dev.raiseForce Dev.announce; dsimp only
  split
  · exact (((h.record _ _ hi).trans (h.sendEvent ..)).trans (h.startPulse ..)).trans (hsrc d _)
  · exact hsrc d _

/-- Nor does it see the source raised. -/
theorem Dev.Blind.raiseH {α : Type} {π : Dev → α} (h : Dev.Blind π) {i : Nat} (hsrc : ∀ (d : Dev) (s : Src), π (d.setSrc .h i s) = π d)
    (hi : i < 96) (d : Dev) (a b : Bool) : π (d.raise .h i a b) = π d := by
  unfold Dev.raise
  split
  · unfold Dev.raiseInfo; dsimp only
    split
    · exact hsrc d _
    · exact ((h.record _ 0 hi).trans (h.sendEvent ..)).trans (hsrc d _)
  · exact h.raiseForceH hsrc hi d _ a b

theorem Dev.Blind.raiseBothH {α : Type} {π : Dev → α} (h : Dev.Blind π) {i : Nat}
    (hsrc : ∀ (d : Dev) (s : Src), π (d.setSrc .h i s) = π d) (hi : i < 96) (d : Dev) : π (d.raiseBoth .h i) = π d :=
  h.raiseH hsrc hi d true true

/-! ## A recovery -/

/-- A part blind to reports, to SN_REC_SAT and to the note of the last recovery does not see one. -/
theorem Dev.Blind.recover {α : Type} {π : Dev → α} (h : Dev.Blind π) (hsat : ∀ (d : Dev) (s : Src), π (d.setSrc .h Sn.SN_REC_SAT s) = π d)
    (hrec : ∀ (d : Dev) (t : Tab Nat), π { d with h.recAt := t } = π d) (d : Dev) {i : Nat} (hi : i < 96) : π (d.recover i) = π d := by
  have hcount (v : Nat) : π (d.setFld (Fld.SN_REC_COUNT (i / 2) (i % 2)) v) = π d := h.setFld _ _ _ (reactReg_rec hi)
  unfold Dev.recover; dsimp only
  rw [h.followReactions, h.irqBoth, hrec]
  repeat' split
  · rfl
  · rw [h.raiseBothH hsat (by decide), h.setFld _ ⟨Reg.SN_REC_SAT (i / 32), i % 32, 1⟩ 1 (reactReg_recSat hi), hcount]
  · exact hcount _

/-- Of the H-side's sources a recovery may raise SN_REC_SAT alone. -/
theorem Dev.src_recover (d : Dev) {i : Nat} (hi : i < 96) (hne : i ≠ Sn.SN_REC_SAT) : (d.recover i).src .h i = d.src .h i :=
  (Dev.blind_src .h i).recover (fun d _ => d.src_setSrc_ne .h _ hne) (fun _ _ => rfl) d hi

/-- The recovery counters are neither interrupt causes nor counts of dropped entries. -/
theorem haltReg_rec (i : Nat) (hi : i < 96) : haltReg (Fld.SN_REC_COUNT (i / 2) (i % 2)).off = false := by
  show haltReg (0x1100 + 4 * (i / 2)) = false
  unfold haltReg Reg.PCI_INT_CAUSE Reg.PCI_DROP_CNT Reg.PCI_CNT_SAT copyB; simp; omega

/-- A recovery counts one while the counter stays below its end. -/
theorem Dev.recCount_recover (d : Dev) {i : Nat} (hi : i < 96) (hlow : d.fld (Fld.SN_REC_COUNT (i / 2) (i % 2)) + 1 < 0xFFFF) :
    (d.recover i).fld (Fld.SN_REC_COUNT (i / 2) (i % 2)) = d.fld (Fld.SN_REC_COUNT (i / 2) (i % 2)) + 1 := by
  have hblind := Dev.stateBlind_fld (haltReg_rec i hi)
  unfold Dev.recover; dsimp only
  rw [if_neg (Nat.ne_of_lt (by omega)), if_neg (Nat.ne_of_lt hlow), hblind.followReactions, hblind.irqBoth]
  show (d.setFld _ _).fld _ = _
  rw [Dev.fld_setFld_same _ _ _ (by show 16 * (i % 2) + 16 ≤ 32; omega)]
  exact Nat.mod_eq_of_lt (by show _ < 2 ^ 16; omega)

/-! ## The end of a reaction -/

theorem Dev.srcFAtH_setSrc (d : Dev) (x : Die) (i j : Nat) (s : Src) : (d.setSrc x i s).srcFAtH j = d.srcFAtH j := by cases x <;> rfl

theorem Dev.fld_setSrc (d : Dev) (x : Die) (i : Nat) (s : Src) (F : Fld) : (d.setSrc x i s).fld F = d.fld F := by cases x <;> rfl

/-- The source whose reaction ends has none in force. -/
theorem Dev.src_endReaction (d : Dev) (x : Die) {i : Nat} (hi : i < 96) (hne : i ≠ Sn.SN_REC_SAT) :
    ((d.endReaction x i).src x i).force = 0 := by
  have hblind := Dev.blind_src x i
  cases x with
  | h =>
    unfold Dev.endReaction; dsimp only
    split
    · rw [Dev.src_recover _ hi hne, hblind.idleReset, hblind.sendEvent, Dev.src_setSrc_same]
    · rw [hblind.followReactions, hblind.idleReset, hblind.sendEvent, Dev.src_setSrc_same]
  | f =>
    unfold Dev.endReaction; dsimp only
    rw [hblind.idleReset, hblind.sendEvent, Dev.src_setSrc_same]

/-- With no reaction of the F-side left the end of the H-side's counts a recovery. -/
theorem Dev.recCount_endReaction (d : Dev) {i : Nat} (hi : i < 96) (hF : (d.srcFAtH i).force = 0)
    (hlow : d.fld (Fld.SN_REC_COUNT (i / 2) (i % 2)) + 1 < 0xFFFF) :
    (d.endReaction .h i).fld (Fld.SN_REC_COUNT (i / 2) (i % 2)) = d.fld (Fld.SN_REC_COUNT (i / 2) (i % 2)) + 1 := by
  have hsrc := Dev.blind_srcFAtH i
  have hfld := Dev.stateBlind_fld (haltReg_rec i hi)
  unfold Dev.endReaction; dsimp only
  rw [hsrc.idleReset, hsrc.sendEvent, Dev.srcFAtH_setSrc, if_pos hF]
  have hkept (s : Src) (a b : Bool) : ((d.setSrc .h i s).sendEvent .h i 0 false a b).idleReset.fld
      (Fld.SN_REC_COUNT (i / 2) (i % 2)) = d.fld (Fld.SN_REC_COUNT (i / 2) (i % 2)) := by
    rw [hfld.idleReset, hfld.sendEvent, Dev.fld_setSrc]
  rw [Dev.recCount_recover _ hi (by rw [hkept]; exact hlow), hkept]

/-- Settles O37: the condition's end keeps the reaction, whose end after the quiet period is counted. -/
theorem safetyNetConditionEnds : Obligations.SafetyNetConditionEnds := by
  unfold Obligations.SafetyNetConditionEnds
  intro s x i t hi
  refine ⟨fun c hc hact => ?ends, fun hdie => ?supply, fun hforce hact hne hquiet => ?expires⟩
  case ends => exact ⟨_, exec_of_ends hc, (s.dev.at t).src_condEnd_same x i hact, Dev.condEnd_apart _ x i, rfl, rfl⟩
  case supply =>
    have hsame := ((s.dev.at t).powerBack i).condEnd_apart x i
    obtain ⟨hpow, hpor, hfpow⟩ := (s.dev.at t).powerBack_spec i
    exact ⟨_, exec_supplyReturn hdie s t, hsame.hPowered.trans hpow, hsame.porHeld.trans hpor, hsame.powered.trans hfpow, rfl, rfl⟩
  case expires =>
    have hexec : exec (.snQuietExpire x i t) s = .next { s with dev := (s.dev.at t).endReaction x i } := by
      show s.onDev (doSnQuietExpire x i t) = _
      have hpass : (((s.dev.at t).src x i).force = 0 || ((s.dev.at t).src x i).active || i == Sn.SEC_ERASED ||
          decide ((s.dev.at t).quietNow ≤ ((s.dev.at t).src x i).last + (s.dev.at t).quietOf x i)) = false := by
        simp only [Bool.or_eq_false_iff, decide_eq_false_iff_not, beq_eq_false_iff_ne, Nat.not_le]
        exact ⟨⟨⟨hforce, hact⟩, hne⟩, hquiet⟩
      simp only [State.onDev_eq, doSnQuietExpire, hpass, Bool.false_eq_true, if_false]
    refine ⟨_, hexec, Dev.src_endReaction _ x hi, fun hx hF hlow => ?_, Dev.endReaction_apart _ x hi, rfl, rfl⟩
    cases hx
    exact (s.dev.at t).recCount_endReaction hi hF hlow

end Sys2Proof.Machine
end

section
/-!
PROOF. Events received and set-up writes of the Safety Net (chapter 12).
-/

namespace Sys2Proof.Machine

/-! ## A received event -/

theorem Dev.putF_apart (d : Dev) (i : Nat) (s : Src) : d.SameApart { d with h.snF := d.h.snF.set (fun _ => Src.idle) i s } := by
  constructor <;> first | (intros; rfl) | exact ⟨[], rfl⟩

theorem Dev.putH_apart (d : Dev) (i : Nat) (s : Src) : d.SameApart { d with f.snH := d.f.snH.set (fun _ => Src.idle) i s } := by
  constructor <;> first | (intros; rfl) | exact ⟨[], rfl⟩

theorem Dev.eventAtH_apart (d : Dev) {i : Nat} (sev : Nat) (active a b : Bool) (hi : i < 96) :
    d.SameApart (d.eventAtH i sev active a b) := by
  have hlearn (e : Dev) (p : Prop) [Decidable p] : e.SameApart (if p then e.learnPulseF else e) := by
    split
    · exact e.learnPulseF_apart
    · exact .refl e
  unfold Dev.eventAtH; dsimp only
  split
  · exact ((d.putF_apart i _).trans (hlearn _ _)).trans (Dev.record_apart _ sev hi)
  · split
    · exact (d.putF_apart i _).trans (Dev.recover_apart _ hi)
    · exact (d.putF_apart i _).trans (Dev.followReactions_apart _)

theorem Dev.eventAtF_apart (d : Dev) (i sev : Nat) (active a b : Bool) : d.SameApart (d.eventAtF i sev active a b) :=
  ((d.putH_apart i _).trans (Dev.pins_apart _)).trans (Dev.drainBulk_apart .f 16 _)

/-- The H-side holds the F-side's source as an event that begins or rises says, until one that ends. -/
theorem Dev.srcFAtH_eventAtH (d : Dev) {i : Nat} (sev : Nat) (active a b : Bool) (hi : i < 96) :
    (active = true → ((d.eventAtH i sev active a b).srcFAtH i).force = max (d.srcFAtH i).force sev ∧
      ((d.eventAtH i sev active a b).srcFAtH i).scA = a ∧ ((d.eventAtH i sev active a b).srcFAtH i).scB = b) ∧
    (active = false → ((d.eventAtH i sev active a b).srcFAtH i).force = 0) := by
  have hblind := Dev.blind_srcFAtH i
  have hput (s : Src) : Dev.srcFAtH { d with h.snF := d.h.snF.set (fun _ => Src.idle) i s } i = s := Tab.get_set_same ..
  constructor
  · rintro rfl
    have hsrc : (d.eventAtH i sev true a b).srcFAtH i = { d.srcFAtH i with
        active := (srcRow i).lasting, force := max (d.srcFAtH i).force sev, scA := a, scB := b, last := d.now } := by
      unfold Dev.eventAtH; dsimp only
      rw [if_pos rfl, hblind.record _ sev hi]
      split
      · rw [hblind.learnPulseF, hput]
      · rw [hput]
    rw [hsrc]
    exact ⟨rfl, rfl, rfl⟩
  · rintro rfl
    have hsrc : (d.eventAtH i sev false a b).srcFAtH i =
        { d.srcFAtH i with active := false, force := 0, scA := false, scB := false } := by
      unfold Dev.eventAtH; dsimp only
      rw [if_neg Bool.false_ne_true]
      split
      · rw [hblind.recover (fun _ _ => rfl) (fun _ _ => rfl) _ hi, hput]
      · rw [hblind.followReactions, hput]
    rw [hsrc]

/-- The shadow holds the H-side's source as an event that begins or rises says, until one that ends. -/
theorem Dev.srcHAtF_eventAtF (d : Dev) (i sev : Nat) (active a b : Bool) :
    (active = true → ((d.eventAtF i sev active a b).srcHAtF i).force = max (d.srcHAtF i).force sev ∧
      ((d.eventAtF i sev active a b).srcHAtF i).scA = a ∧ ((d.eventAtF i sev active a b).srcHAtF i).scB = b) ∧
    (active = false → ((d.eventAtF i sev active a b).srcHAtF i).force = 0) := by
  have hblind := Dev.blind_srcHAtF i
  have hput (s : Src) : Dev.srcHAtF { d with f.snH := d.f.snH.set (fun _ => Src.idle) i s } i = s := Tab.get_set_same ..
  have hpins (e : Dev) : e.pins.srcHAtF i = e.srcHAtF i := hblind.pins (fun _ _ _ => rfl) hblind.mism (fun _ _ => rfl) e
  constructor
  all_goals
    rintro rfl
    unfold Dev.eventAtF; dsimp only
    rw [hblind.drainBulk, hpins, hput]
    simp

/-! ## A write that the device takes -/

theorem Dev.hostDo_of_open (d : Dev) {fn : Func} (off : Nat) (g : Dev → Dev) (h : d.hostOpen fn = true) : d.hostDo fn off g = g d := by
  obtain ⟨hbar, hboot, hrest⟩ := (d.hostOpen_iff fn).mp h
  unfold Dev.hostDo
  rw [Dev.hostAccess_of_awake _ hrest]
  simp [hbar, hboot, Dev.bootAllows]

/-- A part blind to what is sent and to the outstanding copies does not see a copy sent to the shadow. -/
theorem Dev.StreamBlind.shadowSend {α : Type} {π : Dev → α} (h : Dev.StreamBlind π)
    (hq : ∀ (d : Dev) (b : Bool) (q : List FwWrite), π { d with h.syncPend := b, h.shadowQ := q } = π d)
    (d : Dev) (fn : Func) (off : Nat) (data : Word) : π (d.shadowSend fn off data) = π d := by
  unfold Dev.shadowSend; dsimp only
  split
  · exact (h.sendBulk _ _ _).trans (hq d true _)
  · exact hq d true _

theorem Dev.syncPend_shadowSend (d : Dev) (fn : Func) (off : Nat) (data : Word) : (d.shadowSend fn off data).h.syncPend = true := by
  unfold Dev.shadowSend; dsimp only
  split
  · rw [(Dev.Blind.of_core (π := fun d => d.h.syncPend) fun _ => rfl).sendBulk]
  · rfl

theorem Dev.rd_shadowSend (d : Dev) (fn : Func) (off : Nat) (data : Word) (k : Nat) :
    (d.shadowSend fn off data).rd k = d.rd k :=
  (Dev.streamBlind_rd k).shadowSend (fun _ _ _ => rfl) d fn off data

/-! ## The word of before in the cycle of a write -/

/-- In the cycle of a note the word noted applies. -/
theorem Dev.snWord_of_noted {d : Dev} {off : Nat} {w : Word} (h : Tab.get (fun _ => none) d.h.snWas off = some (d.now, w)) :
    d.snWord .h off = w := by
  simp [Dev.snWord, h]

@[simp] theorem Dev.snNote_now (d : Dev) (off : Nat) : (d.snNote .h off).now = d.now := rfl

@[simp] theorem Dev.snWas_snNote (d : Dev) (off : Nat) :
    Tab.get (fun _ => none) (d.snNote .h off).h.snWas off = some (d.now, d.snWord .h off) := by
  simp [Dev.snNote]

/-- A part that does not see copies sent, nor the H-side's notes of words. -/
theorem Dev.snWord_kept {d e : Dev} {off : Nat} (h : (e.h.snWas, e.now) = ((d.snNote .h off).h.snWas, d.now)) :
    e.snWord .h off = d.snWord .h off := by
  obtain ⟨hwas, hnow⟩ := Prod.mk.inj h
  exact Dev.snWord_of_noted (by rw [hwas, hnow, Dev.snWas_snNote])

theorem Dev.blind_rd {k : Nat} (hk : reactReg k = false) : Dev.Blind (fun d => d.rd k) where
  toStateBlind := Dev.stateBlind_rd (by
    cases hhalt : haltReg k with
    | false => rfl
    | true => rw [reactReg_of_haltReg hhalt] at hk; cases hk)
  wr d j v hj := Dev.rd_wr_ne d v (fun h => by simp [h, hj] at hk)
  ackCopy d fn v := (d.setShadow_apart _ v (by cases fn <;> rfl)).regs k hk
  pm d m := rfl
  training d b := rfl
  pulseH d p := rfl
  pulseF d p := rfl

/-- Raised severities act on sources of the H-side alone. -/
theorem Dev.Blind.sevRaisedH {α : Type} {π : Dev → α} (h : Dev.Blind π) (hsrc : ∀ (d : Dev) (j : Nat) (s : Src), π (d.setSrc .h j s) = π d)
    (d : Dev) {i : Nat} (hi : i < 6) : π (d.sevRaised .h i) = π d := by
  unfold Dev.sevRaised
  refine List.foldlRecOn _ _ (motive := fun e => π e = π d) rfl (fun e he k hk => ?_)
  have hj : 16 * i + k < 96 := by have := List.mem_range.mp hk; omega
  dsimp only
  split
  · exact (h.raiseForceH (hsrc · _ ·) hj e _ _ _).trans he
  · exact he

theorem reactReg_sev {i : Nat} (hi : i < 6) : reactReg (Reg.SN_SEV i) = false := by
  show reactReg (0x1010 + 4 * i) = false
  simp [reactReg, Reg.SN_STATUS, Reg.SN_ACK, Reg.PCI_INT_CAUSE, Reg.PCI_DROP_CNT, Reg.PCI_CNT_SAT, Reg.CH_PIN_MISM_LO, Reg.CH_PIN_MISM_HI,
    Reg.BRK_WAKE, copyB]
  omega

/-- A write of SN_SEV takes its word, which applies from the next cycle. -/
theorem Dev.sevWrite_spec (d : Dev) {i : Nat} {data : Word} (hi : i < 6) (hlock : d.flag Fld.SN_CTRL_LOCK = false)
    (hgood : sevBad i data = false) :
    (d.sevWrite false i data).rd (Reg.SN_SEV i) = data ∧ (d.sevWrite false i data).snWord .h (Reg.SN_SEV i) = d.snWord .h (Reg.SN_SEV i) ∧
    (d.sevWrite false i data).h.syncPend = true := by
  have hwrite : d.sevWrite false i data = ((((d.snNote .h (Reg.SN_SEV i)).wr (Reg.SN_SEV i) data).sevRaised .h i).shadowSend false
      (Reg.SN_SEV i) data) := by
    unfold Dev.sevWrite
    rw [if_neg (by simp [hlock, hgood])]
  have hnote : Dev.Blind (fun d => (d.h.snWas, d.now)) := .of_core fun _ => rfl
  rw [hwrite]
  refine ⟨?_, Dev.snWord_kept ?_, Dev.syncPend_shadowSend ..⟩
  · have hrd := Dev.blind_rd (reactReg_sev hi)
    rw [hrd.shadowSend (fun _ _ _ => rfl), hrd.sevRaisedH (fun _ _ _ => rfl) _ hi, Dev.rd_wr_same]
  · rw [hnote.shadowSend (fun _ _ _ => rfl), hnote.sevRaisedH (fun _ _ _ => rfl) _ hi]
    simp

theorem onFSide_quiet {i : Nat} (hi : i < 12) : onFSide (baseOff (Reg.SN_QUIET i)) = false := by
  have hall : ∀ i : Fin 12, onFSide (baseOff (Reg.SN_QUIET i)) = false := by decide
  exact hall ⟨i, hi⟩

/-- A write of an H-side register leaves the F-side. -/
theorem Dev.wr_f_of_h (d : Dev) {k : Nat} (v : Word) (hk : onFSide (baseOff k) = false) : (d.wr k v).f = d.f := by
  simp [Dev.wrF, hk]

/-- A write of SN_QUIET takes its word, which applies from the next cycle, and nothing else of the registers and sources. -/
theorem Dev.quietWrite_spec (d : Dev) {i : Nat} {data : Word} (hi : i < 12) (hlock : d.flag Fld.SN_CTRL_LOCK = false)
    (hgood : quietBad data = false) :
    (d.quietWrite false i data).rd (Reg.SN_QUIET i) = data ∧
    (d.quietWrite false i data).snWord .h (Reg.SN_QUIET i) = d.snWord .h (Reg.SN_QUIET i) ∧
    (d.quietWrite false i data).h.syncPend = true ∧
    (∀ k, k ≠ Reg.SN_QUIET i → (d.quietWrite false i data).rd k = d.rd k) ∧
    (d.quietWrite false i data).f.sn = d.f.sn ∧ (d.quietWrite false i data).h.sn = d.h.sn := by
  have hwrite : d.quietWrite false i data =
      ((d.snNote .h (Reg.SN_QUIET i)).wr (Reg.SN_QUIET i) data).shadowSend false (Reg.SN_QUIET i) data := by
    unfold Dev.quietWrite
    rw [if_neg (by simp [hlock, hgood])]
  have hnote : Dev.Blind (fun d => (d.h.snWas, d.now)) := .of_core fun _ => rfl
  have hsn : Dev.Blind (fun d => (d.f.sn, d.h.sn)) := .of_core fun _ => rfl
  have hsent := Prod.mk.inj (hsn.shadowSend (fun _ _ _ => rfl) ((d.snNote .h (Reg.SN_QUIET i)).wr (Reg.SN_QUIET i) data) false
    (Reg.SN_QUIET i) data)
  rw [hwrite]
  refine ⟨?_, Dev.snWord_kept ?_, Dev.syncPend_shadowSend .., fun k hk => ?_, hsent.1.trans ?_, hsent.2.trans ?_⟩
  · rw [Dev.rd_shadowSend, Dev.rd_wr_same]
  · rw [hnote.shadowSend (fun _ _ _ => rfl)]
    simp
  · rw [Dev.rd_shadowSend, Dev.rd_wr_ne _ _ hk]
    rfl
  · rw [Dev.wr_f_of_h _ _ (onFSide_quiet hi)]
    rfl
  · simp [Dev.snNote]

/-! ## A clear of a recovery counter, and SN_ACK -/

theorem onFSide_rec {i : Nat} (hi : i < 96) : onFSide (baseOff (Reg.SN_REC (i / 2))) = false := by
  have hall : ∀ i : Fin 48, onFSide (baseOff (Reg.SN_REC i)) = false := by decide
  exact hall ⟨i / 2, by omega⟩

theorem onFSide_recSat {i : Nat} (hi : i < 96) : onFSide (baseOff (Reg.SN_REC_SAT (i / 32))) = false := by
  have hall : ∀ i : Fin 3, onFSide (baseOff (Reg.SN_REC_SAT i)) = false := by decide
  exact hall ⟨i / 32, by omega⟩

theorem rec_ne_recSat (i : Nat) : Reg.SN_REC (i / 2) ≠ Reg.SN_REC_SAT (i / 32) := by
  show 0x1100 + 4 * (i / 2) ≠ 0x10C0 + 4 * (i / 32)
  omega

/-- A clear of one recovery counter by Function A: the counter and its SAT alone. -/
theorem Dev.recClrWrite_one (d : Dev) {i : Nat} {data : Word} (hi : i < 96) (hall : bitOf data.toNat 7 = false)
    (hdata : bitsOf data.toNat 0 7 = i) :
    d.recClrWrite false data = (d.setFld (Fld.SN_REC_COUNT (i / 2) (i % 2))
      (b2n (Tab.get (fun _ => 0) d.h.recAt i == d.now + 1))).setFld ⟨Reg.SN_REC_SAT (i / 32), i % 32, 1⟩ 0 := by
  unfold Dev.recClrWrite
  simp [hall, hdata, Nat.not_le.mpr hi]

theorem Dev.recClrWrite_spec (d : Dev) {i : Nat} {data : Word} (hi : i < 96) (hall : bitOf data.toNat 7 = false)
    (hdata : bitsOf data.toNat 0 7 = i) :
    (d.recClrWrite false data).fld (Fld.SN_REC_COUNT (i / 2) (i % 2)) =
      (if Tab.get (fun _ => 0) d.h.recAt i = d.now + 1 then 1 else 0) ∧
    (d.recClrWrite false data).fld ⟨Reg.SN_REC_SAT (i / 32), i % 32, 1⟩ = 0 ∧
    (∀ k, k ≠ Reg.SN_REC (i / 2) → k ≠ Reg.SN_REC_SAT (i / 32) → (d.recClrWrite false data).rd k = d.rd k) ∧
    (d.recClrWrite false data).f.sn = d.f.sn ∧ (d.recClrWrite false data).h.sn = d.h.sn := by
  rw [d.recClrWrite_one hi hall hdata]
  refine ⟨?count, ?sat, fun k hrec hsat => ?regs, ?fsn, ?hsn⟩
  case count =>
    rw [Dev.fld_setFld_off _ _ _ _ (rec_ne_recSat i), Dev.fld_setFld_same _ _ _ (by show 16 * (i % 2) + 16 ≤ 32; omega)]
    by_cases h : Tab.get (fun _ => 0) d.h.recAt i = d.now + 1 <;> simp [h, b2n, Fld.SN_REC_COUNT]
  case sat => rw [Dev.fld_setFld_same _ _ _ (by show i % 32 + 1 ≤ 32; omega), Nat.zero_mod]
  case regs => rw [Dev.rd_setFld_ne _ _ _ hsat, Dev.rd_setFld_ne _ _ _ hrec]
  case fsn => simp
  case hsn => simp

/-- A write of SN_ACK: each mode takes its field, 3 leaving it, and no other register changes. -/
theorem Dev.ackWrite_spec (d : Dev) (fn : Func) (data : Word) :
    (d.ackWrite fn data).fld (Fld.SN_ACK_H_MODE.of fn) = ackField (d.rd (keyOf fn Reg.SN_ACK)).toNat data.toNat 0 ∧
    (d.ackWrite fn data).fld (Fld.SN_ACK_F_MODE.of fn) = ackField (d.rd (keyOf fn Reg.SN_ACK)).toNat data.toNat 2 ∧
    (∀ k, k ≠ keyOf fn Reg.SN_ACK → (d.ackWrite fn data).rd k = d.rd k) := by
  have hfield (old new lo : Nat) : ackField old new lo < 4 := by
    unfold ackField bitsOf; split <;> exact Nat.mod_lt _ (by decide)
  have h0 := hfield (d.rd (keyOf fn Reg.SN_ACK)).toNat data.toNat 0
  have h2 := hfield (d.rd (keyOf fn Reg.SN_ACK)).toNat data.toNat 2
  refine ⟨?hMode, ?fMode, fun k hk => ?regs⟩
  case regs =>
    unfold Dev.ackWrite
    rw [Dev.rd_shadowSend, Dev.rd_wr_ne _ _ hk]
  all_goals
    unfold Dev.fld Dev.ackWrite
    rw [Dev.rd_shadowSend]
    show bitsOf ((d.wr (keyOf fn Reg.SN_ACK) _).rd (keyOf fn Reg.SN_ACK)).toNat _ 2 = _
    rw [Dev.rd_wr_same, BitVec.toNat_ofNat, Nat.mod_eq_of_lt (by omega)]
  case hMode =>
    show bitsOf _ 0 2 = _
    unfold bitsOf; omega
  case fMode =>
    show bitsOf _ 2 2 = _
    unfold bitsOf; omega

/-! ## The FAULT pulse's end, and the comparison with the shadow -/

theorem doFaultPulseEnd_h {d : Dev} {t p : Nat} (hpulse : d.h.pulse = some p) (hover : p + 8000 ≤ max d.now t) :
    doFaultPulseEnd .h t d = { d.at t with h.pulse := none } := by
  have hp : (d.at t).h.pulse = some p := hpulse
  have hnow : p + 10 * usCycles ≤ (d.at t).now := hover
  simp only [doFaultPulseEnd, hp, if_pos hnow]

theorem doFaultPulseEnd_f {d : Dev} {t p : Nat} (hpulse : d.f.pulse = some p) (hover : p + 8000 ≤ max d.now t) :
    doFaultPulseEnd .f t d = { d.at t with f.pulse := none } := by
  have hp : (d.at t).f.pulse = some p := hpulse
  have hnow : p + 10 * usCycles ≤ (d.at t).now := hover
  simp only [doFaultPulseEnd, hp, if_pos hnow]

theorem doShadowCompare_of_due (d : Dev) {t : Nat} (hdue : d.h.cmpAt < (d.at t).comparePoint) :
    doShadowCompare t d =
      if d.h.dev == .boot || d.h.dev == .off || !d.h.link.up || d.h.syncPend || d.h.fReset || d.shadowSame then
        { d.at t with h.cmpAt := (d.at t).comparePoint }
      else ({ d.at t with h.cmpAt := (d.at t).comparePoint }).raiseBoth .h Sn.SN_SHADOW := by
  have hmax : max (d.at t).h.cmpAt (d.at t).comparePoint = (d.at t).comparePoint := Nat.max_eq_right (Nat.le_of_lt hdue)
  have hnow : decide ((d.at t).h.cmpAt < (d.at t).comparePoint) = true := decide_eq_true hdue
  unfold doShadowCompare; dsimp only
  rw [hmax, hnow]
  rfl

theorem doShadowCompare_of_served (d : Dev) {t : Nat} (hserved : (d.at t).comparePoint ≤ d.h.cmpAt) :
    doShadowCompare t d = d.at t := by
  have hmax : max (d.at t).h.cmpAt (d.at t).comparePoint = (d.at t).h.cmpAt := Nat.max_eq_left hserved
  have hnow : decide ((d.at t).h.cmpAt < (d.at t).comparePoint) = false := decide_eq_false (Nat.not_lt.mpr hserved)
  unfold doShadowCompare; dsimp only
  rw [hmax, hnow]
  rfl

/-- Settles O39: what a first good copy of an event leaves, and each set-up write that the device takes. -/
theorem safetyNetEventsAndSetUp : Obligations.SafetyNetEventsAndSetUp := by
  unfold Obligations.SafetyNetEventsAndSetUp
  constructor
  case left =>
    rintro s x i t c hup hgood rfl hnew
    obtain ⟨-, -, -, hsrc⟩ := goodEvent_spec hgood
    have hexec : exec (.snEvent x c t) s = .next { s with dev := ((s.dev.at t).setBulk x
        { s.dev.bulk x with seen := (s.dev.bulk x).seen + 1, evSeen := some (c.seq, c.bits 16 40) }).eventAt x c } := by
      rw [exec_snEvent, doSnEvent_of_good x t hup hgood, if_neg hnew]
    have hbulk := fun b => (s.dev.at t).setBulk_apart x b
    refine ⟨_, hexec, fun hact => ⟨?beginsH, ?beginsF⟩, fun hact => ⟨?endsH, ?endsF⟩, ?apart, rfl, rfl⟩
    case beginsH => rintro rfl; exact (Dev.srcFAtH_eventAtH _ _ _ _ _ hsrc).1 (by simp [hact])
    case beginsF => rintro rfl; exact (Dev.srcHAtF_eventAtF _ _ _ _ _ _).1 (by simp [hact])
    case endsH => rintro rfl; exact (Dev.srcFAtH_eventAtH _ _ _ _ _ hsrc).2 (by simp [hact])
    case endsF => rintro rfl; exact (Dev.srcHAtF_eventAtF _ _ _ _ _ _).2 (by simp [hact])
    case apart =>
      cases x with
      | h => exact (hbulk _).trans (Dev.eventAtH_apart _ _ _ _ _ hsrc)
      | f => exact (hbulk _).trans (Dev.eventAtF_apart _ _ _ _ _ _)
  case right =>
    intro s fn x i t p data
    have hopenAt (g : Func) (h : s.dev.hostOpen g = true) : (s.dev.at t).hostOpen g = true := h
    refine ⟨fun hlock hopen => ⟨fun hi hbad => ?sev, fun hi hbad => ?quiet⟩, fun hi hall hdata hopen => ?clr, fun hopen => ?ack,
      fun hpulse hover => ?pulse, fun hdue => ⟨fun hboot hoff hup hsync hreset hdiff => ?differs, fun hsame => ?agrees⟩,
      fun hserved => ?served⟩
    case sev =>
      have hexec : exec (.snSevWrite false i data t) s = .next { s with dev := (s.dev.at t).sevWrite false i data } := by
        show s.onDev (doSnSevWrite false i data t) = _
        rw [State.onDev_eq, doSnSevWrite, if_pos hi, Dev.hostDo_of_open _ _ _ (hopenAt _ hopen)]
      obtain ⟨hrd, hword, hpend⟩ := (s.dev.at t).sevWrite_spec hi hlock hbad
      exact ⟨_, hexec, hrd, hword, hpend, rfl, rfl⟩
    case quiet =>
      have hexec : exec (.snQuietWrite false i data t) s = .next { s with dev := (s.dev.at t).quietWrite false i data } := by
        show s.onDev (doSnQuietWrite false i data t) = _
        rw [State.onDev_eq, doSnQuietWrite, if_pos hi, Dev.hostDo_of_open _ _ _ (hopenAt _ hopen)]
      obtain ⟨hrd, hword, hpend, hregs, hfsn, hhsn⟩ := (s.dev.at t).quietWrite_spec hi hlock hbad
      exact ⟨_, hexec, hrd, hword, hpend, hregs, hfsn, hhsn, rfl, rfl⟩
    case clr =>
      have hexec : exec (.snRecClr false data t) s = .next { s with dev := (s.dev.at t).recClrWrite false data } := by
        show s.onDev (doSnRecClr false data t) = _
        rw [State.onDev_eq, doSnRecClr, Dev.hostDo_of_open _ _ _ (hopenAt _ hopen)]
      obtain ⟨hcount, hsat, hregs, hfsn, hhsn⟩ := (s.dev.at t).recClrWrite_spec hi hall hdata
      exact ⟨_, hexec, hcount, hsat, hregs, hfsn, hhsn, rfl, rfl⟩
    case ack =>
      have hexec : exec (.snAckWrite fn data t) s = .next { s with dev := (s.dev.at t).ackWrite fn data } := by
        show s.onDev (doSnAckWrite fn data t) = _
        rw [State.onDev_eq, doSnAckWrite, Dev.hostDo_of_open _ _ _ (hopenAt _ hopen)]
      obtain ⟨hH, hF, hregs⟩ := (s.dev.at t).ackWrite_spec fn data
      refine ⟨_, hexec, fun hne => hH.trans (if_neg hne), fun heq => hH.trans (if_pos heq), fun hne => hF.trans (if_neg hne), hregs, rfl, rfl⟩
    case pulse =>
      cases x with
      | h => exact s.onDev_of (g := doFaultPulseEnd _ t) (doFaultPulseEnd_h hpulse hover)
      | f => exact s.onDev_of (g := doFaultPulseEnd _ t) (doFaultPulseEnd_f hpulse hover)
    case differs =>
      show s.onDev (doShadowCompare t) = _
      rw [State.onDev_eq, doShadowCompare_of_due _ hdue, if_neg (by simp [hboot, hoff, hup, hsync, hreset, hdiff])]
    case agrees =>
      show s.onDev (doShadowCompare t) = _
      rw [State.onDev_eq, doShadowCompare_of_due _ hdue, if_pos (by simp [hsame])]
    case served =>
      show s.onDev (doShadowCompare t) = _
      rw [State.onDev_eq, doShadowCompare_of_served _ hserved]

end Sys2Proof.Machine
end

section
/-!
PROOF. What is sent, ends of operations and received data, to a part of the device that they do not reach; registers written, to a part
that reads none.
-/

namespace Sys2Proof.Machine

/-! ## What is sent -/

/-- The device without what is sent. -/
def Dev.unsent (d : Dev) : Dev := { d with out := [], h.bulk := BulkEnd.idle, h.fwReads := [], f.bulk := BulkEnd.idle }

/-- What can be read off the device without what is sent is blind to sending. -/
theorem Dev.StreamBlind.of_unsent {α : Type} {π : Dev → α} (h : ∀ d : Dev, π d.unsent = π d) : Dev.StreamBlind π := by
  have hπ {d e : Dev} (heq : e.unsent = d.unsent) : π e = π d := by rw [← h e, heq, h d]
  exact { emit := fun d e => hπ rfl, bulk := fun d x b => hπ (by cases x <;> rfl), reads := fun d r => hπ rfl }

theorem Dev.streamBlind_fop (g : Nat) : Dev.StreamBlind (fun d => d.fop g) := .of_unsent fun _ => rfl
theorem Dev.streamBlind_fld (F : Fld) : Dev.StreamBlind (fun d => d.fld F) := .of_unsent fun _ => rfl

/-- An item that the H-side sends leaves the F-side. -/
@[simp] theorem Dev.sendBulk_h_f (d : Dev) (c : Cell) : (d.sendBulk .h c).f = d.f := by
  obtain ⟨b, l, r, -, hshape⟩ := d.sendBulk_shape .h c
  rw [hshape]
  rfl

theorem Dev.fop_setFop (d : Dev) (tag g : Nat) (o : Option FOp) : (d.setFop tag o).fop g = if g = tag then o else d.fop g := by
  split
  case isTrue h => subst h; exact d.fop_setFop_same g o
  case isFalse h => exact d.fop_setFop_ne o h

/-! ## Operations on the F-side -/

section
variable {α : Type} {π : Dev → α} (h : Dev.StreamBlind π) (hfop : ∀ (d : Dev) (g : Nat) (o : Option FOp), π (d.setFop g o) = π d)
include h hfop

/-- The end of an operation on the F-side does not reach a part blind to sending and to contexts. -/
theorem Dev.StreamBlind.endF (d : Dev) (tag status : Nat) (r : Quad) : π (d.endF tag status r) = π d := by
  unfold Dev.endF
  repeat' split
  · rfl
  · exact hfop d tag none
  · exact (h.sendBulk _ _ _).trans (hfop d tag _)
  · rfl

/-- Nor do received data. -/
theorem Dev.StreamBlind.receive (d : Dev) (tag : Nat) (w : W48) : π (d.receive tag w) = π d := by
  unfold Dev.receive
  split
  · exact (h.sendBulk _ _ _).trans (hfop d tag _)
  · rfl

end

/-- Data received for an operation join what it has got. -/
theorem Dev.fop_receive_same {d : Dev} {tag : Nat} {o : FOp} (h : d.fop tag = some o) (w : W48) :
    (d.receive tag w).fop tag = some { o with got := o.got ++ [Container.make w o.fn o.ring o.desc.dest] } := by
  unfold Dev.receive
  rw [h]
  dsimp only
  rw [(Dev.streamBlind_fop tag).sendBulk, Dev.fop_setFop_same]

theorem Dev.fop_receive_ne (d : Dev) {tag g : Nat} (w : W48) (hg : g ≠ tag) : (d.receive tag w).fop g = d.fop g := by
  unfold Dev.receive
  split
  · exact ((Dev.streamBlind_fop g).sendBulk _ _ _).trans (d.fop_setFop_ne _ hg)
  · rfl

/-- The end of an operation leaves every other context. -/
theorem Dev.fop_endF_ne (d : Dev) {tag g : Nat} (st : Nat) (r : Quad) (hg : g ≠ tag) : (d.endF tag st r).fop g = d.fop g := by
  unfold Dev.endF
  repeat' split
  · rfl
  · exact d.fop_setFop_ne _ hg
  · exact ((Dev.streamBlind_fop g).sendBulk _ _ _).trans (d.fop_setFop_ne _ hg)
  · rfl

/-- An operation that had not ended keeps its status and RESULT. -/
theorem Dev.fop_endF_same {d : Dev} {tag : Nat} {o : FOp} (st : Nat) (r : Quad) (h : d.fop tag = some o) (hlive : o.ended = none)
    (hop : (d.op tag).isSome = true) : (d.endF tag st r).fop tag = some { o with ended := some (st, r) } :=
  (d.endF_frame tag st r h hlive hop).1

/-- The device without what is sent and without the contexts of the F-side. -/
def Dev.noOps (d : Dev) : Dev := { d.unsent with f.ops := [] }

/-- The end of an operation changes its context and what is sent alone. -/
theorem Dev.noOps_endF (d : Dev) (tag st : Nat) (r : Quad) : (d.endF tag st r).noOps = d.noOps :=
  (Dev.StreamBlind.of_unsent (π := Dev.noOps) fun _ => rfl).endF (fun _ _ _ => rfl) d tag st r

/-- So do data received. -/
theorem Dev.noOps_receive (d : Dev) (tag : Nat) (w : W48) : (d.receive tag w).noOps = d.noOps :=
  (Dev.StreamBlind.of_unsent (π := Dev.noOps) fun _ => rfl).receive (fun _ _ _ => rfl) d tag w

/-- An operation taken that ends at once keeps its status and RESULT, and every other context stays. -/
theorem Dev.fop_endF_of_fresh {d : Dev} {tag opc : Nat} {o : FOp} (h : d.freshOp tag opc = some o) (hop : (d.op tag).isSome = true)
    (t st : Nat) (r : Quad) {e : Dev} (he : e = ((d.at t).setFop tag (some { o with begun := true })).endF tag st r) :
    e.fop tag = some { o with begun := true, ended := some (st, r) } ∧ (∀ g, g ≠ tag → e.fop g = d.fop g) := by
  obtain ⟨-, hlive, -, -, -⟩ := Dev.freshOp_spec h
  subst he
  exact ⟨Dev.fop_endF_same (d := (d.at t).setFop tag (some { o with begun := true })) (o := { o with begun := true }) st r
    (Dev.fop_setFop_same ..) hlive hop, fun g hg => (Dev.fop_endF_ne _ _ _ hg).trans (Dev.fop_setFop_ne _ _ hg)⟩

/-! ## Registers written, to a part that reads none -/

section
variable {α : Type} {π : Dev → α} (h : ∀ (d : Dev) (k : Nat) (v : Word), π (d.wr k v) = π d)
include h

theorem Dev.bump_of_wr (d : Dev) (c s : Fld) : π (d.bump c s) = π d := by
  unfold Dev.bump; dsimp only
  repeat' split
  · rfl
  · exact (h _ _ _).trans (h d _ _)
  · exact h d _ _

theorem Dev.setMask48_of_wr (d : Dev) (lo hi : Nat) (m : W48) : π (d.setMask48 lo hi m) = π d := (h _ _ _).trans (h d _ _)

theorem Dev.wrAccess_of_wr (d : Dev) (k : Nat) (v : Word) : π (d.wrAccess k v) = π d := by
  unfold Dev.wrAccess
  split
  · exact h d k _
  · rfl

theorem Dev.clearCnt_of_wr (d : Dev) (c s : Fld) : π (d.clearCnt c s) = π d := (h _ _ _).trans (h d _ _)

end

/-- A count leaves every field apart from the counter and its SAT. -/
theorem Dev.fld_bump_ne (d : Dev) {c s G : Fld} (hw : G.lo + G.w ≤ 32)
    (hc : G.off ≠ c.off ∨ G.lo + G.w ≤ c.lo ∨ c.lo + c.w ≤ G.lo) (hs : G.off ≠ s.off ∨ G.lo + G.w ≤ s.lo ∨ s.lo + s.w ≤ G.lo) :
    (d.bump c s).fld G = d.fld G := by
  unfold Dev.bump; dsimp only
  repeat' split
  · rfl
  · rw [Dev.fld_setFld_ne _ _ _ _ hw hs, Dev.fld_setFld_ne _ _ _ _ hw hc]
  · rw [Dev.fld_setFld_ne _ _ _ _ hw hc]

end Sys2Proof.Machine
end

section
/-!
PROOF. The output image stage (R139).
-/

namespace Sys2Proof.Machine

/-- An OUT_WRITE in its turn outside REST is merged where its checks hold, and refused where they do not. -/
theorem doOutWrite_of_turn {d : Dev} {tag : Nat} {o : Op} (agree : Bool) (t : Nat) (hop : d.openedOp tag opOUT_WRITE = some o)
    (hturn : d.mergeTurn o = true) (hrest : d.h.dev ≠ .rest) :
    doOutWrite tag agree t d =
      if o.desc.value.good o.fn o.ring 0x100 && agree then
        if o.desc.update = 1 then
          (((((d.at t).setImg o.fn ((d.img o.fn).merge o.fn o.desc.value.word o.desc.outMask tag)).setOp tag
            (some { o with stage := .closing })).sendBulk .h (.opOpen o.desc.unit o.fn o.ring tag o.desc.dest)).sendBulk .h
              (.data o.desc.unit tag o.desc.value))
        else ((d.at t).setImg o.fn ((d.img o.fn).merge o.fn o.desc.value.word o.desc.outMask tag)).setOp tag
          (some { o with stage := .closing })
      else ((((d.at t).setFop tag none).finish tag stCHK_PATH 0).chkFail Fld.RM_CHK_STATUS_MERGE_FAIL o.ring).raiseFn .h
        Sn.CHK_PATH o.fn := by
  have hopen : (if (d.at t).h.dev = .rest then none else (d.at t).openedOp tag opOUT_WRITE) = some o := by
    exact (if_neg hrest).trans hop
  have hmerge : (!(d.at t).mergeTurn o) = false := by
    show (!d.mergeTurn o) = false
    rw [hturn]; rfl
  unfold doOutWrite
  simp only [hopen, hmerge, Bool.false_eq_true, if_false]
  rfl

/-- A merge of an OUT_WRITE that is not IMMEDIATE, or with the items that carry an IMMEDIATE one: what either leaves. -/
theorem Dev.outMerge_spec (d : Dev) (tag t : Nat) (o : Op) (i : Image) {e : Dev}
    (he : e = (((d.at t).setImg o.fn i).setOp tag (some { o with stage := .closing })) ∨
      e = (((((d.at t).setImg o.fn i).setOp tag (some { o with stage := .closing })).sendBulk .h
        (.opOpen o.desc.unit o.fn o.ring tag o.desc.dest)).sendBulk .h (.data o.desc.unit tag o.desc.value))) :
    e.img o.fn = i ∧ e.img (!o.fn) = d.img (!o.fn) ∧ e.op tag = some { o with stage := .closing } ∧
    (∀ g, g ≠ tag → e.op g = d.op g) ∧ (∀ k, e.rd k = d.rd k) ∧ e.f = d.f := by
  have hmerged : let m := ((d.at t).setImg o.fn i).setOp tag (some { o with stage := .closing })
      m.img o.fn = i ∧ m.img (!o.fn) = d.img (!o.fn) ∧ m.op tag = some { o with stage := .closing } ∧
      (∀ g, g ≠ tag → m.op g = d.op g) ∧ (∀ k, m.rd k = d.rd k) ∧ m.f = d.f := by
    refine ⟨?_, ?_, Dev.op_setOp_same .., fun g hg => ?_, fun k => ?_, ?_⟩
    · exact Dev.img_setImg_same ..
    · exact Dev.img_setImg_other ..
    · rw [Dev.op_setOp_ne _ _ hg]; cases o.fn <;> rfl
    · simp
    · simp
  rcases he with rfl | rfl
  · exact hmerged
  · obtain ⟨himg, hother, hop, hops, hrd, hf⟩ := hmerged
    have hsend {α : Type} {π : Dev → α} (h : Dev.StreamBlind π) (m : Dev) (c c' : Cell) :
        π ((m.sendBulk .h c).sendBulk .h c') = π m := (h.sendBulk _ _ _).trans (h.sendBulk _ _ _)
    refine ⟨?_, ?_, ?_, fun g hg => ?_, fun k => ?_, ?_⟩
    · exact (hsend (.of_unsent (π := fun d => d.img o.fn) fun _ => rfl) _ _ _).trans himg
    · exact (hsend (.of_unsent (π := fun d => d.img !o.fn) fun _ => rfl) _ _ _).trans hother
    · exact (hsend (.of_unsent (π := fun d => d.op tag) fun _ => rfl) _ _ _).trans hop
    · exact (hsend (.of_unsent (π := fun d => d.op g) fun _ => rfl) _ _ _).trans (hops g hg)
    · exact (hsend (Dev.streamBlind_rd k) _ _ _).trans (hrd k)
    · rw [Dev.sendBulk_h_f, Dev.sendBulk_h_f, hf]

/-- A refused merge leaves both images, reports CHK_PATH, and the F-side has no context of the operation. -/
theorem Dev.outRefused_spec (d : Dev) (tag : Nat) (o : Op) :
    let e := (((d.setFop tag none).finish tag stCHK_PATH 0).chkFail Fld.RM_CHK_STATUS_MERGE_FAIL o.ring).raiseFn .h Sn.CHK_PATH o.fn
    (∀ fn, e.img fn = d.img fn) ∧ (e.src .h Sn.CHK_PATH).last = d.now ∧ e.fld Fld.RM_CHK_STATUS_MERGE_FAIL = 1 ∧
    e.fop tag = none := by
  have hsees {α : Type} {π : Dev → α} (hcore : ∀ d : Dev, π d.core = π d) :
      π (((d.setFop tag none).finish tag stCHK_PATH 0).chkFail Fld.RM_CHK_STATUS_MERGE_FAIL o.ring) = π (d.setFop tag none) := by
    have hblind := Dev.Blind.of_core hcore
    have hwr (d : Dev) (k : Nat) (v : Word) : π (d.wr k v) = π d := by
      rw [← hcore (d.wr k v), ← hcore d]
      simp [Dev.core]
    exact (((Dev.bump_of_wr hwr _ _ _).trans (hwr _ _ _)).trans (hwr _ _ _)).trans (hblind.finish _ _ _ _)
  have hraise {α : Type} {π : Dev → α} (h : Dev.Blind π) (hsrc : ∀ (d : Dev) (s : Src), π (d.setSrc .h Sn.CHK_PATH s) = π d) (d : Dev) :
      π (d.raiseFn .h Sn.CHK_PATH o.fn) = π d := h.raiseH hsrc (by decide) d _ _
  refine ⟨fun fn => ?_, ?_, ?_, ?_⟩
  · have hcore : ∀ d : Dev, d.core.img fn = d.img fn := fun _ => rfl
    exact (hraise (π := fun d => d.img fn) (.of_core hcore) (fun _ _ => rfl) _).trans (hsees (π := fun d => d.img fn) hcore)
  · exact (Dev.last_raise _ .h _ _ (by decide)).trans (hsees (π := fun d => d.now) fun _ => rfl)
  · have hrd : Dev.Blind (fun d => d.rd Fld.RM_CHK_STATUS_MERGE_FAIL.off) := Dev.blind_rd (by decide)
    unfold Dev.fld
    rw [hraise hrd (fun _ _ => rfl)]
    show Dev.fld (Dev.chkFail _ _ _) Fld.RM_CHK_STATUS_MERGE_FAIL = 1
    unfold Dev.chkFail
    rw [Dev.fld_bump_ne _ (by decide) (by decide) (by decide), Dev.fld_setFld_ne _ _ _ _ (by decide) (by decide),
      Dev.fld_setFld_same _ _ _ (by decide)]
    rfl
  · have hcore : ∀ d : Dev, d.core.fop tag = d.fop tag := fun _ => rfl
    exact ((hraise (π := fun d => d.fop tag) (.of_core hcore) (fun _ _ => rfl) _).trans (hsees (π := fun d => d.fop tag) hcore)).trans
      (Dev.fop_setFop_same ..)

/-- Settles O22: a good OUT_WRITE is merged, a bad one changes no image and is reported. -/
theorem outWriteMergesIntoImage : Obligations.OutWriteMergesIntoImage := by
  unfold Obligations.OutWriteMergesIntoImage
  intro s tag t agree o hop hturn hrest
  have hdo := doOutWrite_of_turn agree t hop hturn hrest
  refine ⟨fun hgood hagree => ?merged, fun hbad => ?refused⟩
  case merged =>
    rw [if_pos (by rw [hgood, hagree]; rfl)] at hdo
    obtain ⟨himg, hother, hopNow, hops, hrd, hf⟩ := s.dev.outMerge_spec tag t o
      ((s.dev.img o.fn).merge o.fn o.desc.value.word o.desc.outMask tag) (e := doOutWrite tag agree t s.dev) (by
        rw [hdo]
        split
        · exact .inr rfl
        · exact .inl rfl)
    refine ⟨_, s.onDev_of rfl, ?_, ?_, ?_, hother, hopNow, hops, hrd, hf, fun hne => ?_, rfl, rfl⟩
    · rw [himg]; rfl
    · rw [himg]; rfl
    · rw [himg]; rfl
    · rw [hdo, if_neg hne]; cases o.fn <;> rfl
  case refused =>
    rw [hbad, if_neg Bool.false_ne_true] at hdo
    obtain ⟨himg, hlast, hfail, hfop⟩ := (s.dev.at t).outRefused_spec tag o
    exact ⟨_, s.onDev_of hdo, himg _, himg _, hlast, hfail, hfop, rfl, rfl⟩

end Sys2Proof.Machine
end

section
/-!
PROOF. Samples and captures of the channels (R162 to R167).
-/

namespace Sys2Proof.Machine

theorem Dev.cap_of_noOps {d e : Dev} (h : e.noOps = d.noOps) (fn : Func) : e.cap fn = d.cap fn := congrArg (fun d => d.cap fn) h

/-! ## Records handed over -/

/-- A record handed over: the capture counts it, and its two containers join what the operation has got. -/
theorem Dev.capSendOne_spec {d : Dev} {fn : Func} {c : Cap} {o : FOp} {r : CapRec} {rest : List CapRec} (hcap : d.cap fn = some c)
    (hfop : d.fop c.tag = some o) (hr : c.unsent = r :: rest) :
    (d.capSendOne fn).noOps = (d.setCap fn (some { c with unsent := rest, sent := c.sent + 1 })).noOps ∧
    (d.capSendOne fn).fop c.tag = some { o with got := o.got ++
      [Container.make r.q0.word o.fn o.ring o.desc.dest, Container.make r.q1.word o.fn o.ring o.desc.dest] } ∧
    (∀ g, g ≠ c.tag → (d.capSendOne fn).fop g = d.fop g) := by
  have hset (g : Nat) : (d.setCap fn (some { c with unsent := rest, sent := c.sent + 1 })).fop g = d.fop g := by cases fn <;> rfl
  have hsend : d.capSendOne fn =
      ((d.setCap fn (some { c with unsent := rest, sent := c.sent + 1 })).receive c.tag r.q0.word).receive c.tag r.q1.word := by
    unfold Dev.capSendOne
    simp only [hcap, hr]
  rw [hsend]
  refine ⟨(Dev.noOps_receive ..).trans (Dev.noOps_receive ..), ?_, fun g hg => ?_⟩
  · rw [Dev.fop_receive_same (Dev.fop_receive_same ((hset c.tag).trans hfop) _)]
    simp
  · rw [Dev.fop_receive_ne _ _ hg, Dev.fop_receive_ne _ _ hg, hset]

theorem Dev.capSendOne_of_sent {d : Dev} {fn : Func} {c : Cap} (hcap : d.cap fn = some c) (hnone : c.unsent = []) :
    d.capSendOne fn = d := by
  unfold Dev.capSendOne
  simp only [hcap, hnone]

theorem Dev.capFlushLost_of_none {d : Dev} {fn : Func} {c : Cap} (hcap : d.cap fn = some c) (hlost : c.lost = 0) :
    d.capFlushLost fn = d := by
  unfold Dev.capFlushLost
  simp [hcap, hlost]

theorem Dev.capCheck_of_more {d : Dev} {fn : Func} {c : Cap} (hcap : d.cap fn = some c) (hmore : c.sent < c.count) :
    d.capCheck fn = d := by
  unfold Dev.capCheck
  simp [hcap, Nat.not_le.mpr hmore]

/-- With every record handed over a capture ends with its status and the records sent. -/
theorem Dev.capEnd_of_sent {d : Dev} {fn : Func} {c : Cap} (hcap : d.cap fn = some c) (hnone : c.unsent = []) (hlost : c.lost = 0)
    (st : Nat) : d.capEnd fn st = (d.setCap fn none).endF c.tag st (BitVec.ofNat 64 c.sent) := by
  have hone : d.capSendOne fn = d := Dev.capSendOne_of_sent hcap hnone
  have hall : (List.range 64).foldl (fun d _ => d.capSendOne fn) d = d :=
    List.foldlRecOn _ _ (motive := fun e => e = d) rfl (fun e he _ _ => by rw [he, hone])
  unfold Dev.capEnd
  simp only [hcap, hall, Dev.capFlushLost_of_none hcap hlost, hone]

/-- Settles O23: a sample, the opening of a capture, a record of it, and its end at TIMEOUT. -/
theorem channelSamplesAndCaptures : Obligations.ChannelSamplesAndCaptures := by
  unfold Obligations.ChannelSamplesAndCaptures
  intro s fn tag e t o c r rest
  have hlive {opc : Nat} (hfresh : s.dev.freshOp tag opc = some o) (hrest : s.dev.f.ch.rest = none) :
      (if (s.dev.at t).f.ch.rest.isSome then none else (s.dev.at t).freshOp tag opc) = some o := by
    rw [Dev.at_f, hrest]
    exact hfresh
  refine ⟨fun hfresh hrest hop => ?sample, fun hfresh hcap hentry hrest => ?capture, fun hcap hfop hlost =>
    ⟨fun hr hcount => ?record, fun hnone hend hdue hlive hop => ?timeout⟩⟩
  case sample =>
    have hdo : doChSample tag t s.dev = ((s.dev.at t).setFop tag (some { o with begun := true })).endF tag stOK
        (o.result (s.dev.levels &&& o.desc.chMask)) := by
      unfold doChSample
      simp only [hlive hfresh hrest]
      rfl
    obtain ⟨hend, hothers⟩ := Dev.fop_endF_of_fresh hfresh hop t _ _ hdo
    have hsame : (doChSample tag t s.dev).noOps = (s.dev.at t).noOps := by rw [hdo]; exact Dev.noOps_endF ..
    exact ⟨_, s.onDev_of rfl, congrArg (Option.bind · FOp.ended) hend, hothers, congrArg (fun d => d.f.ch) hsame,
      congrArg (fun d => d.f.car) hsame, fun k => congrArg (fun d => d.rd k) hsame, congrArg (fun d => d.h.ops) hsame, rfl, rfl⟩
  case capture =>
    refine s.onDev_of (g := doChCapture tag t) ?_
    have hno : (((s.dev.at t).setFop tag (some { o with begun := true })).cap o.fn).isSome = false := by
      show (s.dev.cap o.fn).isSome = false
      rw [hcap]; rfl
    have hstay : ((s.dev.at t).setFop tag (some { o with begun := true })).h.restEntry.isSome = false := by
      show s.dev.h.restEntry.isSome = false
      rw [hentry]; rfl
    unfold doChCapture
    simp only [hlive hfresh hrest, hno, hstay, Bool.false_eq_true, if_false]
    rfl
  case record =>
    obtain ⟨hsame, hgot, hothers⟩ := Dev.capSendOne_spec (d := s.dev.at t) hcap hfop hr
    have hcapNow := (Dev.cap_of_noOps hsame fn).trans (Dev.cap_setCap_same ..)
    have hdo : doCaptureRecordSend fn t s.dev = (s.dev.at t).capSendOne fn := by
      unfold doCaptureRecordSend
      rw [Dev.capFlushLost_of_none hcapNow hlost, Dev.capCheck_of_more hcapNow hcount]
    refine ⟨_, s.onDev_of hdo, hcapNow, (Dev.cap_of_noOps hsame _).trans (Dev.cap_setCap_other ..), hgot, hothers, fun k => ?_, ?_, rfl, rfl⟩
    · exact (congrArg (fun d => d.rd k) hsame).trans (by cases fn <;> rfl)
    · exact (congrArg (fun d => d.h.ops) hsame).trans (by cases fn <;> rfl)
  case timeout =>
    have hdo : doCaptureTimeout fn t s.dev = ((s.dev.at t).setCap fn none).endF c.tag stTIMEOUT (BitVec.ofNat 64 c.sent) := by
      have hcapNow : (s.dev.at t).cap fn = some c := hcap
      have hover : e ≤ (s.dev.at t).now := hdue
      unfold doCaptureTimeout
      simp only [hcapNow, hend, if_pos hover, Dev.capEnd_of_sent hcapNow hnone hlost]
    have hset (g : Nat) : ((s.dev.at t).setCap fn none).fop g = s.dev.fop g := by cases fn <;> rfl
    have hopSet : (((s.dev.at t).setCap fn none).op c.tag).isSome = true := by cases fn <;> exact hop
    have hsame := ((s.dev.at t).setCap fn none).noOps_endF c.tag stTIMEOUT (BitVec.ofNat 64 c.sent)
    refine ⟨_, s.onDev_of hdo, ?_, ?_, ?_, fun g hg => ?_, fun k => ?_, ?_, rfl, rfl⟩
    · exact (Dev.cap_of_noOps hsame fn).trans (Dev.cap_setCap_same ..)
    · exact (Dev.cap_of_noOps hsame _).trans (Dev.cap_setCap_other ..)
    · rw [Dev.fop_endF_same _ _ ((hset _).trans hfop) hlive hopSet]
      rfl
    · rw [Dev.fop_endF_ne _ _ _ hg, hset]
    · exact (congrArg (fun d => d.rd k) hsame).trans (by cases fn <;> rfl)
    · exact (congrArg (fun d => d.h.ops) hsame).trans (by cases fn <;> rfl)

end Sys2Proof.Machine
end

section
/-!
PROOF. The levels taken anew and sources raised on the F-side, to a part of the device that they do not reach; accepted edges of a channel,
which make records and timer events (R163, R231).
-/

namespace Sys2Proof.Machine

/-! ## The levels taken anew -/

/-- The device without what is taken anew with the levels: the channels' levels, the mismatch bits, CHK_PIN's condition, what is sent. -/
def Dev.unpinned (d : Dev) : Dev := { d.unsent with f.ch := d.f.ch.unpinned, f.sn := [], f.regs := [] }

/-- A write of an F-side register is not seen without the F-side's registers. -/
theorem Dev.unpinned_wr (d : Dev) {k : Nat} (v : Word) (hk : onFSide (baseOff k) = true) : (d.wr k v).unpinned = d.unpinned := by
  unfold Dev.wr
  rw [if_pos hk]
  rfl

theorem Dev.unpinned_ch (d : Dev) (c : Chans) (hc : c.unpinned = d.f.ch.unpinned) : Dev.unpinned { d with f.ch := c } = d.unpinned := by
  unfold Dev.unpinned
  rw [← hc]
  rfl

theorem Dev.unpinned_pins (d : Dev) : d.pins.unpinned = d.unpinned :=
  (Dev.StreamBlind.of_unsent (π := Dev.unpinned) fun _ => rfl).pins Dev.unpinned_ch
    (fun d v => ⟨d.unpinned_wr v rfl, d.unpinned_wr v rfl⟩) (fun _ _ => rfl) d

/-- Of the registers the levels taken anew may change the mismatch bits alone. -/
theorem Dev.rd_pins (d : Dev) {k : Nat} (hlo : k ≠ Reg.CH_PIN_MISM_LO) (hhi : k ≠ Reg.CH_PIN_MISM_HI) : d.pins.rd k = d.rd k :=
  (Dev.streamBlind_rd k).pins (fun _ _ _ => rfl) (fun d v => ⟨d.rd_wr_ne v hlo, d.rd_wr_ne v hhi⟩) (fun _ _ => rfl) d

/-! ## A source raised on the F-side -/

section
variable {α : Type} {π : Dev → α} (h : Dev.Blind π) (hpins : ∀ d : Dev, π d.pins = π d) {i : Nat}
  (hsrc : ∀ (d : Dev) (s : Src), π (d.setSrc .f i s) = π d) (hi : i < 96)
include h hpins hsrc

/-- A part blind to reports, to the levels taken anew and to a source of the F-side does not see the source raised. -/
theorem Dev.Blind.raiseF (d : Dev) (a b : Bool) : π (d.raise .f i a b) = π d := by
  unfold Dev.raise
  split
  · unfold Dev.raiseInfo; dsimp only
    split
    · exact hsrc d _
    · exact (h.sendEvent _ _ _ _ _ _ _).trans (hsrc d _)
  · unfold Dev.raiseForce Dev.announce; dsimp only
    split
    · exact (((hpins _).trans (h.sendEvent _ _ _ _ _ _ _)).trans (h.startPulse _ _ _)).trans (hsrc d _)
    · exact hsrc d _

theorem Dev.Blind.raiseFnF (d : Dev) (fn : Func) : π (d.raiseFn .f i fn) = π d := h.raiseF hpins hsrc d _ _

theorem Dev.Blind.raiseCodeF (d : Dev) (c : Nat) : π (d.raiseCode .f i c) = π d := by
  unfold Dev.raiseCode
  repeat' split
  all_goals exact h.raiseF hpins hsrc d _ _

end

/-! ## Accepted edges -/

/-- A part of the device that an accepted edge of a channel does not reach: blind to reports, registers but the turn counter's, timers,
captures and contexts. -/
structure Dev.EdgeBlind {α : Type} (π : Dev → α) : Prop extends Dev.Blind π where
  wrAny : ∀ (d : Dev) (k : Nat) (v : Word), k ≠ Reg.CAR_TURN → π (d.wr k v) = π d
  tm : ∀ (d : Dev) (k : Nat) (x : Timer), π (d.setTm k x) = π d
  fop : ∀ (d : Dev) (g : Nat) (o : Option FOp), π (d.setFop g o) = π d
  srcF : ∀ (d : Dev) (i : Nat) (s : Src), π (d.setSrc .f i s) = π d
  pins : ∀ d : Dev, π d.pins = π d
  cap : ∀ (d : Dev) (fn : Func) (c : Option Cap), π (d.setCap fn c) = π d

namespace Dev.EdgeBlind

variable {α : Type} {π : Dev → α} (h : Dev.EdgeBlind π) (d : Dev)
include h

theorem setFld (F : Fld) (v : Nat) (hF : F.off ≠ Reg.CAR_TURN) : π (d.setFld F v) = π d := h.wrAny d _ _ hF

theorem bump (c s : Fld) (hc : c.off ≠ Reg.CAR_TURN) (hs : s.off ≠ Reg.CAR_TURN) : π (d.bump c s) = π d := by
  unfold Dev.bump; dsimp only
  repeat' split
  · rfl
  · exact (h.setFld _ s _ hs).trans (h.setFld d c _ hc)
  · exact h.setFld d c _ hc

theorem v1 (c : Nat) : π (d.v1 c) = π d := by
  unfold Dev.v1
  repeat' split
  · exact h.irq d _ _
  · exact h.irq d _ _
  · rfl

theorem tmWrapped (k : Nat) : π (d.tmWrapped k) = π d := by
  unfold Dev.tmWrapped; dsimp only
  repeat' split
  · exact h.v1 d _
  · exact (h.v1 _ _).trans (h.setFld d _ _ (by decide))
  · rfl
  · exact h.setFld d _ _ (by decide)

theorem tmSync (k : Nat) : π (d.tmSync k) = π d := by
  unfold Dev.tmSync Dev.tmTake; dsimp only
  split
  · exact h.tm d _ _
  split
  · exact h.tm d _ _
  · exact (h.tmWrapped _ _).trans (h.tm d _ _)

/-- A capture value stored. -/
theorem tmStore (k v : Nat) : π (d.tmStore k v) = π d := by
  have hraise (e : Dev) (F : Fld) : π (e.raiseOwner Sn.FT_OVERRUN F) = π e := h.raiseCodeF h.pins (h.srcF · _ ·) e _
  have hregs (v : Nat) (x : Timer) : π ((d.setFld Fld.FT_STATUS_VALID v).setTm k x) = π d := (h.tm _ k x).trans (h.setFld d _ v (by decide))
  unfold Dev.tmStore; dsimp only
  split
  · exact (h.endF h.fop _ _ _ _).trans (h.tm d _ _)
  · refine Dev.ite_kept ((h.v1 _ _).trans ?_) ?_
    all_goals refine Dev.ite_kept (Dev.ite_kept ((h.v1 _ _).trans ?_) ?_) ((h.setFld _ _ _ (by decide)).trans (hregs _ _))
    all_goals exact (hraise _ _).trans (Dev.ite_kept (hregs _ _) ((h.setFld _ _ _ (by decide)).trans (hregs _ _)))

theorem tmEvent (k raw : Nat) : π (d.tmEvent k raw) = π d := by
  have hpick (p : Bool) (x : Timer) (v : Nat) :
      π (if p then d.tmSync k else ((d.tmSync k).setTm k x).tmStore k v) = π d := by
    split
    · exact h.tmSync d k
    · exact ((h.tmStore _ _ _).trans (h.tm _ _ _)).trans (h.tmSync d k)
  exact hpick _ _ _

theorem tmTick (k : Nat) : π (d.tmTick k) = π d := by
  unfold Dev.tmTick; dsimp only
  split
  · exact (h.tmWrapped _ _).trans (h.tm d _ _)
  · exact h.tm d _ _

/-- The timers that count the edge or capture on it. -/
theorem tmChannelEdge (ch : Nat) (rising : Bool) (raw : Nat) : π (d.tmChannelEdge ch rising raw) = π d := by
  have htick (e : Dev) (p : Bool) (k : Nat) : π (if p then e.tmTick k else e) = π e := by
    split
    · exact h.tmTick e k
    · rfl
  refine Dev.StreamBlind.foldl _ (fun e k => ?_) _ _
  dsimp only
  split
  · exact (h.tmEvent _ _ _).trans (htick e _ k)
  · exact htick e _ k

theorem capDiscard : π d.capDiscard = π d := h.bump d _ _ (by decide) (by decide)

theorem capLost (fn : Func) : π (d.capLost fn) = π d := (h.raiseFnF h.pins (h.srcF · _ ·) _ fn).trans (h.setFld d _ _ (by decide))

theorem capRecord (fn : Func) (edge : Option (Nat × Nat)) (pos q1 first : W48) : π (d.capRecord fn edge pos q1 first) = π d := by
  unfold Dev.capRecord
  split
  · rfl
  split
  · exact (h.capLost _ _).trans (h.capDiscard d)
  split
  · split
    · exact h.cap d _ _
    · rfl
  · exact (h.cap _ _ _).trans (h.capDiscard d)

/-- The records of the edge in the open captures. -/
theorem edgeRecord (ch : Nat) (level : Bool) (raw : Nat) : π (d.edgeRecord ch level raw) = π d := by
  unfold Dev.edgeRecord
  extract_lets ps one
  have hone (e : Dev) (fn : Func) : π (one e fn) = π e := by
    dsimp only [one]
    split
    · exact Dev.ite_kept (h.capRecord e ..) rfl
    · rfl
  exact (hone _ _).trans (hone _ _)

end Dev.EdgeBlind

end Sys2Proof.Machine
end

section
/-!
PROOF. Words and levels at the channels (R143 to R155).
-/

namespace Sys2Proof.Machine

/-! ## Channels of a mask -/

theorem getLsbD_chBit (n i : Nat) : (chBit n).getLsbD i = (decide (i < 48) && decide (n = i)) := by
  rw [chBit, BitVec.getLsbD_ofNat, Nat.testBit_two_pow]

theorem getLsbD_bankMask (bank i : Nat) :
    (bankMask bank).getLsbD i = (decide (i < 48) && (decide (8 * bank ≤ i) && decide (i < 8 * bank + 8))) := by
  rw [bankMask, BitVec.getLsbD_ofNat]
  exact congrArg _ (testBit_fieldMask 8 (8 * bank) i)

/-- A channel is in a mask, or its bit meets the mask nowhere. -/
theorem chBit_and_eq_zero {m : W48} {n : Nat} (h : m.getLsbD n = false) : chBit n &&& m = 0 := by
  refine BitVec.eq_of_getLsbD_eq fun i hi => ?_
  rw [BitVec.getLsbD_and, getLsbD_chBit]
  by_cases hn : n = i
  · subst hn; simp [h]
  · simp [hn]

theorem getLsbD_of_and_chBit {m : W48} {n : Nat} (h : m &&& chBit n ≠ 0) : m.getLsbD n = true := by
  by_contra hm
  exact h (by rw [BitVec.and_comm]; exact chBit_and_eq_zero (by simpa using hm))

/-- The channels of a bank that a comparison sample takes: none of them is wrong where no compared channel of the bank is. -/
theorem sampled_and_eq_zero {cmp wrong : W48} {bank : Nat} (old : Nat → Bool) (h : cmp &&& bankMask bank &&& wrong = 0)
    (hbank : bank < 6) :
    ((List.range 8).map (fun k => 8 * bank + k)).foldl (fun m n => if cmp &&& chBit n != 0 && old n then m ||| chBit n else m) 0
      &&& wrong = 0 := by
  refine List.foldlRecOn _ _ (motive := fun m => m &&& wrong = 0) (by simp) (fun m hm n hn => ?_)
  obtain ⟨k, hk, rfl⟩ := List.mem_map.mp hn
  have hk8 : k < 8 := List.mem_range.mp hk
  split
  case isFalse => exact hm
  case isTrue hc =>
    have hcmp : cmp.getLsbD (8 * bank + k) = true := getLsbD_of_and_chBit (by simpa using (Bool.and_eq_true_iff.mp hc).1)
    have hin : (bankMask bank).getLsbD (8 * bank + k) = true := by rw [getLsbD_bankMask]; simp; omega
    have hout : wrong.getLsbD (8 * bank + k) = false := by
      have := congrArg (·.getLsbD (8 * bank + k)) h
      simpa [BitVec.getLsbD_and, hcmp, hin] using this
    rw [BitVec.and_or_distrib_right, hm, chBit_and_eq_zero hout]
    rfl

/-! ## A comparison sample that agrees -/

/-- The steps of a sample over channels none of which is wrong, with no mismatch bit set, change the counts of mismatches alone. -/
theorem Dev.sampleBank_of_agree (d : Dev) {bank : Nat} {rb pull : W48} {w : OutWait} (hbank : bank < 6)
    (hagree : d.f.ch.compared &&& bankMask bank &&& (((d.f.ch.cmd ^^^ rb) &&& ~~~(d.f.ch.maskOf (fun c => cfgMode c == 3) &&& d.f.ch.cmd)) |||
      (pull &&& (d.f.ch.maskOf (fun c => cfgMode c == 3) &&& d.f.ch.cmd))) = 0)
    (hclear : d.mask48 Reg.CH_PIN_MISM_LO Reg.CH_PIN_MISM_HI = 0) (hout : d.f.ch.outw = [w])
    (hsettled : w.since + d.settle bank ≤ d.now) (hlast : w.left &&& ~~~bankMask bank = 0) :
    ∃ cnt : Tab Nat, d.sampleBank bank rb pull = ({ d with f.ch.outw := [], f.ch.mismCnt := cnt }).endF w.tag
      w.status (d.outResult w.tag rb) := by
  unfold Dev.sampleBank
  extract_lets +onlyGivenNames c settle old chs sampled released wrong pinN d1 due done
  have hwrong : wrong = 0 := sampled_and_eq_zero old hagree hbank
  have hcnt : ∃ cnt : Tab Nat, d1 = { d with f.ch.mismCnt := cnt } := by
    refine List.foldlRecOn _ _ (motive := fun e => ∃ cnt : Tab Nat, e = { d with f.ch.mismCnt := cnt }) ⟨d.f.ch.mismCnt, rfl⟩ ?_
    rintro e ⟨cnt, rfl⟩ n -
    dsimp only
    split
    · exact ⟨cnt, rfl⟩
    · rw [if_pos (by rw [hwrong]; simp), if_pos]
      · exact ⟨_, rfl⟩
      · show d.mask48 _ _ &&& _ = 0
        rw [hclear]; simp
  obtain ⟨cnt, hd1⟩ := hcnt
  have hdue : due = [{ w with left := 0 }] := by
    simp only [due, settle, hout, List.map_cons, List.map_nil, if_pos hsettled, hlast, hwrong]
    simp
  refine ⟨cnt, ?_⟩
  have hdone : done = [{ w with left := 0 }] := by simp [done, hdue]
  have hleft : due.filter (fun w => w.left != 0) = [] := by simp [hdue]
  rw [hdone, hleft, hd1]
  rfl

/-- The device after a bank's sample: what is left due in the bank, no OUT_WRITE waiting, and the counts of mismatches. -/
def Dev.sampledAll (d : Dev) (bank : Nat) (rest : List Nat) (cnt : Tab Nat) : Dev :=
  { d with f.ch.due := d.f.ch.due.set (fun _ => []) bank rest, f.ch.outw := [], f.ch.mismCnt := cnt }

theorem doReadbackSample_of_agree {d : Dev} {bank e t : Nat} {rest : List Nat} {rb pull : W48} {w : OutWait} {o : FOp}
    (hdue : Tab.get (fun _ => []) d.f.ch.due bank = e :: rest) (hover : e ≤ max d.now t) (hbank : bank < 6)
    (hagree : d.f.ch.compared &&& bankMask bank &&& (((d.f.ch.cmd ^^^ rb) &&& ~~~(d.f.ch.maskOf (fun c => cfgMode c == 3) &&& d.f.ch.cmd)) |||
      (pull &&& (d.f.ch.maskOf (fun c => cfgMode c == 3) &&& d.f.ch.cmd))) = 0)
    (hclear : d.mask48 Reg.CH_PIN_MISM_LO Reg.CH_PIN_MISM_HI = 0) (hout : d.f.ch.outw = [w])
    (hsettled : w.since + d.settle bank ≤ max d.now t) (hlast : w.left &&& ~~~bankMask bank = 0) (hfop : d.fop w.tag = some o) :
    ∃ cnt, doReadbackSample bank rb pull t d = ((d.at t).sampledAll bank rest cnt).endF w.tag w.status
      (o.result (rb &&& d.f.ch.ownMask o.fn)) := by
  obtain ⟨cnt, hsample⟩ := Dev.sampleBank_of_agree (d := { d.at t with f.ch.due := d.f.ch.due.set (fun _ => []) bank rest })
    hbank hagree hclear hout hsettled hlast
  have hdueAt : Tab.get (fun _ => []) (d.at t).f.ch.due bank = e :: rest := hdue
  have hlate : ¬ (d.at t).now < e := Nat.not_lt.mpr hover
  have hresult : Dev.outResult { d.at t with f.ch.due := d.f.ch.due.set (fun _ => []) bank rest } w.tag rb =
      o.result (rb &&& d.f.ch.ownMask o.fn) := by
    have hfopAt : Dev.fop { d.at t with f.ch.due := d.f.ch.due.set (fun _ => []) bank rest } w.tag = some o := hfop
    simp only [Dev.outResult, hfopAt]
    rfl
  refine ⟨cnt, ?_⟩
  unfold doReadbackSample
  simp only [hdueAt, if_neg hlate]
  rw [← hresult]
  exact hsample

/-- A waiting OUT_WRITE whose samples agreed and whose channels were not held completes OK. -/
theorem OutWait.status_ok {w : OutWait} (hgood : w.bad = false) (hheld : w.held = false) : w.status = stOK := by
  simp [OutWait.status, hgood, hheld]

/-! ## An IMMEDIATE write -/

/-- A part blind to what is sent, to what is taken anew, and to the OUT_WRITEs that wait, after an OUT_WRITE is judged. -/
theorem Dev.judge_of_unpinned {α : Type} {π : Dev → α}
    (hch : ∀ (d : Dev) (c : Chans), c.unpinned = d.f.ch.unpinned → π { d with f.ch := c } = π d)
    (hout : ∀ (d : Dev) (l : List OutWait), π { d with f.ch.outw := l } = π d) (d : Dev) (tag : Nat) (fn : Func) (m : W48) :
    π (d.judge tag fn m) = π d := (Dev.addDue_of_unpinned hch _ _).trans (hout d _)

@[simp] theorem Chans.word_setWord_same (c : Chans) (fn : Func) (w : W48) : (c.setWord fn w).word fn = w := by cases fn <;> rfl
@[simp] theorem Chans.word_setWord_other (c : Chans) (fn : Func) (w : W48) : (c.setWord fn w).word (!fn) = c.word (!fn) := by
  cases fn <;> rfl

/-- The device at which the word of an IMMEDIATE write stands before the levels are taken anew. -/
def Dev.immediateSet (d : Dev) (tag : Nat) (o : FOp) (v : Container) (m : W48) : Dev :=
  { ({ d with f.ch := d.f.ch.noteImm d.now m }).setFop tag (some { o with begun := true }) with
    f.ch := (d.f.ch.noteImm d.now m).setWord o.fn (((d.f.ch.noteImm d.now m).word o.fn &&& ~~~m) ||| (v.word &&& m)) }

theorem doImmediateWriteApply_of_good {d : Dev} {tag : Nat} {o : FOp} {x : Op} {v : Container} {m : W48} {t : Nat}
    (hfresh : d.freshOp tag opOUT_WRITE = some o) (hupd : o.desc.update = 1) (hop : d.op tag = some x) (hstage : x.stage = .closing)
    (hgood : v.good o.fn o.ring 0x100 = true) (hm : m = o.desc.outMask &&& ~~~d.f.ch.slotNow (max d.now t) 0) :
    doImmediateWriteApply tag v t d =
      (((d.at t).immediateSet tag o v m).pins.addDue ((d.at t).immediateSet tag o v m).pins.f.ch.compared).judge tag o.fn
        o.desc.outMask := by
  subst hm
  have hfreshAt : (d.at t).freshOp tag opOUT_WRITE = some o := hfresh
  have hopAt : (d.at t).op tag = some x := hop
  unfold doImmediateWriteApply
  simp [hfreshAt, hopAt, hupd, hstage, hgood]
  rfl

/-- To a part blind to what is sent, to what is taken anew and to the OUT_WRITEs that wait an IMMEDIATE write is what it sets. -/
theorem Dev.immediate_kept {α : Type} {π : Dev → α} (h : Dev.StreamBlind π)
    (hch : ∀ (d : Dev) (c : Chans), c.unpinned = d.f.ch.unpinned → π { d with f.ch := c } = π d)
    (hmism : ∀ (d : Dev) (v : Word), π (d.wr Reg.CH_PIN_MISM_LO v) = π d ∧ π (d.wr Reg.CH_PIN_MISM_HI v) = π d)
    (hsrc : ∀ (d : Dev) (s : Src), π (d.setSrc .f Sn.CHK_PIN s) = π d)
    (hout : ∀ (d : Dev) (l : List OutWait), π { d with f.ch.outw := l } = π d) (d : Dev) (m : W48) (tag : Nat) (fn : Func) (n : W48) :
    π ((d.pins.addDue m).judge tag fn n) = π d :=
  (Dev.judge_of_unpinned hch hout _ _ _ _).trans ((Dev.addDue_of_unpinned hch _ _).trans (h.pins hch hmism hsrc d))

/-! ## A filtered level -/

/-- What an accepted edge leaves: the filtered levels taken, both words, the configuration, the Carousel and the FSP. -/
def Dev.behindEdge (d : Dev) : W48 × W48 × W48 × Tab Word × Carousel × Fsp :=
  (d.f.ch.level, d.f.ch.wordA, d.f.ch.wordB, d.f.ch.cfg, d.f.car, d.f.fsp)

theorem Dev.edgeBlind_behindEdge : Dev.EdgeBlind Dev.behindEdge where
  toBlind := .of_core fun _ => rfl
  wrAny d k v := by simp [Dev.behindEdge]
  tm _ _ _ := rfl
  fop _ _ _ := rfl
  srcF _ _ _ := rfl
  pins d := show d.pins.unpinned.behindEdge = d.unpinned.behindEdge from congrArg _ d.unpinned_pins
  cap d fn c := by cases fn <;> rfl

theorem doFilterAccept_of_change {d : Dev} {ch raw t : Nat} {level : Bool} (hch : ch < 48)
    (hchange : (d.f.ch.level &&& chBit ch != 0) = !level) (hen : d.f.ch.enabled = true) (hrest : d.f.ch.rest = none)
    (hheld : raw + 8 * cfgFilt (d.f.ch.cfgAt ch) ≤ max d.now t) :
    (doFilterAccept ch level raw t d).behindEdge = Dev.behindEdge { d.at t with
      f.ch.level := if level then d.f.ch.level ||| chBit ch else d.f.ch.level &&& ~~~chBit ch } := by
  have hskip : ¬ (48 ≤ ch || (d.f.ch.level &&& chBit ch != 0) == level || !d.f.ch.enabled || d.f.ch.rest.isSome) = true := by
    rw [hchange, hen, hrest]; simp [hch]
  have hlong : ¬ (d.at t).now < raw + 8 * cfgFilt (d.f.ch.cfgAt ch) := Nat.not_lt.mpr hheld
  have hedge := Dev.edgeBlind_behindEdge
  refine (congrArg Dev.behindEdge ((if_neg hskip).trans (if_neg hlong))).trans ?_
  exact Dev.ite_kept rfl ((hedge.tmChannelEdge _ _ _ _).trans (hedge.edgeRecord _ _ _ _))

/-- Settles O24: an IMMEDIATE write, a sample that agrees, and a filter's new level. -/
theorem channelWordsAndLevels : Obligations.ChannelWordsAndLevels := by
  unfold Obligations.ChannelWordsAndLevels
  intro s tag bank e ch raw t rest o x v rb pull rel m level w
  refine ⟨fun hfresh hupd hop hstage hgood hm => ?immediate, fun hdue hover hbank hrel hagree hclear hout hsettled hlast hgood hheld hfop
    hlive hop => ?sample, fun hch hchange hen hrest hheld => ?filter⟩
  case immediate =>
    have hdo := doImmediateWriteApply_of_good hfresh hupd hop hstage hgood hm
    have hkept {α : Type} {π : Dev → α} (h : Dev.StreamBlind π)
        (hch : ∀ (d : Dev) (c : Chans), c.unpinned = d.f.ch.unpinned → π { d with f.ch := c } = π d)
        (hmism : ∀ (d : Dev) (v : Word), π (d.wr Reg.CH_PIN_MISM_LO v) = π d ∧ π (d.wr Reg.CH_PIN_MISM_HI v) = π d)
        (hsrc : ∀ (d : Dev) (s : Src), π (d.setSrc .f Sn.CHK_PIN s) = π d)
        (hout : ∀ (d : Dev) (l : List OutWait), π { d with f.ch.outw := l } = π d) :
        π (doImmediateWriteApply tag v t s.dev) = π ((s.dev.at t).immediateSet tag o v m) := by
      rw [hdo]
      exact Dev.immediate_kept h hch hmism hsrc hout _ _ _ _ _
    have hword (fn : Func) := hkept (π := fun d => d.f.ch.word fn) (.of_unsent fun _ => rfl)
      (fun d c hc => show c.unpinned.word fn = d.f.ch.unpinned.word fn by rw [hc]) (fun d v => by simp) (fun _ _ => rfl) (fun _ _ => rfl)
    refine ⟨_, s.onDev_of rfl, (hword _).trans ?_, (hword _).trans ?_, ?_, ?_, fun k hlo hhi => ?_, ?_, rfl, rfl⟩
    · exact (Chans.word_setWord_same ..).trans (by cases o.fn <;> rfl)
    · exact (Chans.word_setWord_other ..).trans (by cases o.fn <;> rfl)
    · exact hkept (π := fun d => d.h.imgA) (.of_unsent fun _ => rfl) (fun _ _ _ => rfl) (fun d v => by simp) (fun _ _ => rfl)
        (fun _ _ => rfl)
    · exact hkept (π := fun d => d.h.imgB) (.of_unsent fun _ => rfl) (fun _ _ _ => rfl) (fun d v => by simp) (fun _ _ => rfl)
        (fun _ _ => rfl)
    · exact hkept (Dev.streamBlind_rd k) (fun _ _ _ => rfl) (fun d v => ⟨d.rd_wr_ne v hlo, d.rd_wr_ne v hhi⟩) (fun _ _ => rfl)
        (fun _ _ => rfl)
    · exact hkept (π := fun d => d.f.car) (.of_unsent fun _ => rfl) (fun _ _ _ => rfl) (fun d v => by simp) (fun _ _ => rfl)
        (fun _ _ => rfl)
  case sample =>
    subst hrel
    obtain ⟨cnt, hdo⟩ := doReadbackSample_of_agree hdue hover hbank hagree hclear hout hsettled hlast hfop
    rw [OutWait.status_ok hgood hheld] at hdo
    have hsame := ((s.dev.at t).sampledAll bank rest cnt).noOps_endF w.tag stOK (o.result (rb &&& s.dev.f.ch.ownMask o.fn))
    have hend := Dev.fop_endF_same (d := (s.dev.at t).sampledAll bank rest cnt) stOK (o.result (rb &&& s.dev.f.ch.ownMask o.fn)) hfop
      hlive hop
    exact ⟨_, s.onDev_of hdo, congrArg (Option.bind · FOp.ended) hend, congrArg (fun d => d.f.ch.outw) hsame,
      (congrArg (fun d => Tab.get (fun _ => []) d.f.ch.due bank) hsame).trans (Tab.get_set_same ..), fun g hg => Dev.fop_endF_ne _ _ _ hg,
      fun k => congrArg (fun d => d.rd k) hsame, congrArg (fun d => d.h.ops) hsame, rfl, rfl⟩
  case filter =>
    have hkept := doFilterAccept_of_change (t := t) hch hchange hen hrest hheld
    exact ⟨_, s.onDev_of rfl, congrArg (·.1) hkept, congrArg (·.2.1) hkept, congrArg (·.2.2.1) hkept, congrArg (·.2.2.2.1) hkept,
      congrArg (·.2.2.2.2.1) hkept, congrArg (·.2.2.2.2.2) hkept, rfl, rfl⟩

end Sys2Proof.Machine
end

section
/-!
PROOF. Bank supplies, overload and configuration of the channels (R150, R161, R168).
-/

namespace Sys2Proof.Machine

/-! ## Registers under a report -/

/-- A register that is no reaction's stays when a source of the F-side is raised. -/
theorem Dev.rd_raiseF (d : Dev) {k i : Nat} (hk : reactReg k = false) (a b : Bool) : (d.raise .f i a b).rd k = d.rd k := by
  have hne {j : Nat} (hj : reactReg j = true) : k ≠ j := by
    rintro rfl
    rw [hj] at hk
    cases hk
  exact (Dev.blind_rd hk).raiseF (fun d => d.rd_pins (hne rfl) (hne rfl)) (fun _ _ => rfl) d a b

theorem Dev.rd_raiseCodeF (d : Dev) {k i : Nat} (hk : reactReg k = false) (c : Nat) : (d.raiseCode .f i c).rd k = d.rd k := by
  unfold Dev.raiseCode
  repeat' split
  all_goals exact d.rd_raiseF hk _ _

/-- The end of a condition changes no register. -/
theorem Dev.rd_condEnd (d : Dev) (x : Die) (i k : Nat) : (d.condEnd x i).rd k = d.rd k :=
  (Dev.streamBlind_rd k).condEnd (fun _ _ => by cases x <;> rfl) d

/-! ## Masks of channels in registers -/

theorem Dev.mask48_setMask48 (d : Dev) {lo hi : Nat} (h : lo ≠ hi) (m : W48) : (d.setMask48 lo hi m).mask48 lo hi = m := by
  unfold Dev.mask48 Dev.setMask48
  rw [Dev.rd_wr_same, Dev.rd_wr_ne _ _ h, Dev.rd_wr_same]
  apply BitVec.eq_of_toNat_eq
  have hm := m.isLt
  simp only [loWord, hiWord, BitVec.toNat_ofNat]
  omega

theorem or_chBit_and_ne_zero (m : W48) {n : Nat} (hn : n < 48) : (m ||| chBit n) &&& chBit n ≠ 0 := by
  have hbit : ((m ||| chBit n) &&& chBit n).getLsbD n = true := by
    rw [BitVec.getLsbD_and, BitVec.getLsbD_or, getLsbD_chBit]
    simp [hn]
  intro h
  rw [h] at hbit
  simp at hbit

/-- A channel turned off by an overload drives nothing. -/
theorem Dev.drive_of_overload {d : Dev} {n : Nat} (h : d.mask48 Reg.CH_OVL_LO Reg.CH_OVL_HI &&& chBit n ≠ 0) : d.drive n = none := by
  unfold Dev.drive; dsimp only
  exact if_pos (Bool.or_eq_true_iff.mpr (.inr (bne_iff_ne.mpr h)))

/-- A bank that was not low joins the low ones within the field. -/
theorem vioLow_add_lt {v bank : Nat} (hv : v < 64) (hbank : bank < 6) (h : bitOf v bank = false) : v + 2 ^ bank < 64 := by
  have hall : ∀ v : Fin 64, ∀ bank : Fin 6, bitOf v bank = false → v.val + 2 ^ bank.val < 64 := by decide
  exact hall ⟨v, hv⟩ ⟨bank, hbank⟩ h

theorem bitOf_two_pow (n : Nat) : bitOf (2 ^ n) n = true := by rw [bitOf_eq_testBit]; simp

/-! ## Configuration writes -/

theorem writeBits_of_no_w1c {r : RegSpec} (h : r.w1c = 0#32) (old data : Word) :
    writeBits r old data = (old &&& ~~~r.rw) ||| (data &&& r.rw) := by
  rw [writeBits, h, BitVec.zero_and, BitVec.not_zero, BitVec.and_allOnes]

theorem writeBits_of_all_w1c {r : RegSpec} (hrw : r.rw = 0#32) (h : r.w1c = BitVec.allOnes 32) (old data : Word) :
    writeBits r old data = old &&& ~~~data := by
  rw [writeBits, hrw, h, BitVec.allOnes_and, BitVec.not_zero, BitVec.and_allOnes, BitVec.and_zero, BitVec.or_zero]

/-- The writable bits of every CH_CFG (Table CH-9). -/
theorem specOf_chCfg {ch : Nat} (h : ch < 48) : ∃ r, specOf (baseOff (Reg.CH_CFG ch)) = some r ∧ r.rw = 0xFFFF ∧ r.w1c = 0 := by
  have hall : ∀ ch : Fin 48, (specOf (baseOff (Reg.CH_CFG ch))).any (fun r => r.rw == 0xFFFF && r.w1c == 0) = true := by decide
  obtain ⟨r, hr, hbits⟩ := (Option.any_eq_true _ _).mp (hall ⟨ch, h⟩)
  exact ⟨r, hr, by simpa using hbits⟩

/-- An accepted CH_CFG write takes the low half of its data, at the pins at once. -/
theorem Dev.setChCfg_spec (d : Dev) {n : Nat} (data : Word) (hn : n < 48) (hen : d.f.ch.enabled = true) :
    (d.setChCfg n data).rd (Reg.CH_CFG n) = (d.rd (Reg.CH_CFG n) &&& ~~~0xFFFF) ||| (data &&& 0xFFFF) ∧
    (d.setChCfg n data).f.ch.cfgAt n = (d.setChCfg n data).rd (Reg.CH_CFG n) ∧
    (∀ k, k ≠ n → (d.setChCfg n data).f.ch.cfgAt k = d.f.ch.cfgAt k) ∧
    (∀ k, k ≠ Reg.CH_CFG n → k ≠ Reg.CH_PIN_MISM_LO → k ≠ Reg.CH_PIN_MISM_HI → (d.setChCfg n data).rd k = d.rd k) ∧
    (d.setChCfg n data).f.car = d.f.car ∧ (d.setChCfg n data).h.ops = d.h.ops := by
  obtain ⟨r, hr, hrw, hw1c⟩ := specOf_chCfg hn
  have hwrite : d.wrAccess (Reg.CH_CFG n) data =
      d.wr (Reg.CH_CFG n) ((d.rd (Reg.CH_CFG n) &&& ~~~0xFFFF) ||| (data &&& 0xFFFF)) := by
    simp only [Dev.wrAccess, hr, writeBits_of_no_w1c hw1c, hrw]
  have hset : d.setChCfg n data = Dev.pins { d.wrAccess (Reg.CH_CFG n) data with
      f.ch.cfg := (d.wrAccess (Reg.CH_CFG n) data).f.ch.cfg.set (fun _ => 0) n ((d.wrAccess (Reg.CH_CFG n) data).rd (Reg.CH_CFG n)) } := by
    have henNow : (d.wrAccess (Reg.CH_CFG n) data).f.ch.enabled = true := by
      rw [hwrite]; simpa using hen
    unfold Dev.setChCfg
    simp only [henNow, if_true]
  have hmism : Reg.CH_CFG n ≠ Reg.CH_PIN_MISM_LO ∧ Reg.CH_CFG n ≠ Reg.CH_PIN_MISM_HI := by
    unfold Reg.CH_CFG Reg.CH_PIN_MISM_LO Reg.CH_PIN_MISM_HI
    omega
  have hcfg := congrArg (fun d : Dev => d.f.ch.cfg) (Dev.unpinned_pins { d.wrAccess (Reg.CH_CFG n) data with
      f.ch.cfg := (d.wrAccess (Reg.CH_CFG n) data).f.ch.cfg.set (fun _ => 0) n ((d.wrAccess (Reg.CH_CFG n) data).rd (Reg.CH_CFG n)) })
  have hrd : (d.setChCfg n data).rd (Reg.CH_CFG n) = (d.wrAccess (Reg.CH_CFG n) data).rd (Reg.CH_CFG n) := by
    rw [hset, Dev.rd_pins _ hmism.1 hmism.2]; rfl
  have hat (k : Nat) : (d.setChCfg n data).f.ch.cfgAt k = Tab.get (fun _ => 0)
      ((d.wrAccess (Reg.CH_CFG n) data).f.ch.cfg.set (fun _ => 0) n ((d.wrAccess (Reg.CH_CFG n) data).rd (Reg.CH_CFG n))) k := by
    rw [hset]; exact congrArg (fun c => Tab.get (fun _ => 0) c k) hcfg
  refine ⟨?_, ?_, fun k hk => ?_, fun k hk hlo hhi => ?_, ?_, ?_⟩
  · rw [hrd, hwrite, Dev.rd_wr_same]
  · rw [hat, hrd, Tab.get_set_same]
  · rw [hat, Tab.get_set_ne _ _ _ hk, hwrite]
    rw [Dev.wr_f]
    rfl
  · rw [hset, Dev.rd_pins _ hlo hhi]
    show (d.wrAccess (Reg.CH_CFG n) data).rd k = _
    rw [hwrite, Dev.rd_wr_ne _ _ hk]
  · rw [hset]
    exact (congrArg (fun d : Dev => d.f.car) (Dev.unpinned_pins _)).trans (by
      dsimp only [Dev.unpinned, Dev.unsent]
      rw [hwrite, Dev.wr_f])
  · rw [hset]
    exact (congrArg (fun d : Dev => d.h.ops) (Dev.unpinned_pins _)).trans (by
      dsimp only [Dev.unpinned, Dev.unsent]
      rw [hwrite, Dev.wr_h])

/-! ## The overload bits -/

/-- A write of CH_OVL_LO by a function that may write every channel it names clears the bits named. -/
theorem Dev.chOvlWrite_lo (d : Dev) {fn : Func} {data : Word}
    (hmay : ∀ k, k < 32 → bitOf data.toNat k = true → d.mayConfigure fn k = true) :
    ∃ e, d.chOvlWrite fn Reg.CH_OVL_LO data = .ok e ∧ e.rd Reg.CH_OVL_LO = d.rd Reg.CH_OVL_LO &&& ~~~data ∧
      (∀ k, k ≠ Reg.CH_OVL_LO → e.rd k = d.rd k) ∧ e.f.ch = d.f.ch := by
  have hspec : ∃ r, specOf (baseOff Reg.CH_OVL_LO) = some r ∧ r.rw = 0 ∧ r.w1c = 0xFFFFFFFF := ⟨_, rfl, rfl, rfl⟩
  obtain ⟨r, hr, hrw, hw1c⟩ := hspec
  have hwrite : d.wrAccess Reg.CH_OVL_LO data = d.wr Reg.CH_OVL_LO (d.rd Reg.CH_OVL_LO &&& ~~~data) := by
    simp only [Dev.wrAccess, hr, writeBits_of_all_w1c hrw (hw1c.trans (by decide : (0xFFFFFFFF : Word) = BitVec.allOnes 32))]
  have hnone : ¬ (List.range 32).any (fun k => bitOf data.toNat k && !d.mayConfigure fn (0 + k)) = true := by
    simp only [List.any_eq_true, List.mem_range, Bool.and_eq_true, Bool.not_eq_true', not_exists, not_and, Nat.zero_add]
    intro k hk hbit
    rw [hmay k hk hbit]
    exact Bool.noConfusion
  have hrdEnd (e : Dev) (p : Prop) [Decidable p] (k : Nat) :
      (if p then e.condEnd .f Sn.CH_OVERLOAD else e).rd k = e.rd k :=
    Dev.ite_kept (π := fun d => d.rd k) (e.rd_condEnd _ _ k) rfl
  have hchEnd (e : Dev) (p : Prop) [Decidable p] : (if p then e.condEnd .f Sn.CH_OVERLOAD else e).f.ch = e.f.ch :=
    Dev.ite_kept (π := fun d => d.f.ch) ((Dev.StreamBlind.of_unsent (π := fun d => d.f.ch) fun _ => rfl).condEnd (fun _ _ => rfl) e) rfl
  refine ⟨_, if_neg hnone, ?_, fun k hk => ?_, ?_⟩
  · rw [hrdEnd, hwrite, Dev.rd_wr_same]
  · rw [hrdEnd, hwrite, Dev.rd_wr_ne _ _ hk]
  · rw [hchEnd, hwrite]
    simp

/-- Settles O25: a bank's supply low and back, an overload, its clear, and a configuration write. -/
theorem channelSuppliesAndSetUp : Obligations.ChannelSuppliesAndSetUp := by
  unfold Obligations.ChannelSuppliesAndSetUp
  intro s fn bank ch t data
  refine ⟨fun hbank hlow => ?low, fun hbank hlow => ?back, fun hch hout => ?overload, fun hmay => ?clear,
    fun hch hmay hlock hen => ?config⟩
  case low =>
    have hpass : ¬ (6 ≤ bank || bitOf ((s.dev.at t).fld Fld.CH_STATUS_VIO_LOW) bank) = true := by
      rw [Dev.fld_at, hlow]; simp [hbank]
    refine ⟨_, s.onDev_of (g := doVioLowDetect bank t) (if_neg hpass), ?_, Dev.last_raise _ .f _ _ (by decide),
      Dev.raise_apart _ .f _ _ (by decide), rfl, rfl⟩
    have hlt : s.dev.fld Fld.CH_STATUS_VIO_LOW + 2 ^ bank < 64 := vioLow_add_lt (bitsOf_lt _ _ 6) hbank hlow
    unfold Dev.fld
    rw [Dev.rd_raiseF _ (by decide)]
    exact (Dev.fld_setFld_same _ Fld.CH_STATUS_VIO_LOW _ (by decide)).trans (Nat.mod_eq_of_lt hlt)
  case back =>
    have hpass : ¬ (!bitOf ((s.dev.at t).fld Fld.CH_STATUS_VIO_LOW) bank) = true := by
      rw [Dev.fld_at, hlow, bitOf_two_pow]; simp
    have hzero : (s.dev.at t).fld Fld.CH_STATUS_VIO_LOW - 2 ^ bank = 0 := by rw [Dev.fld_at, hlow, Nat.sub_self]
    have hdo : doVioLowClear bank t s.dev = ((s.dev.at t).setFld Fld.CH_STATUS_VIO_LOW 0).condEnd .f Sn.CH_VIO_LOW := by
      refine (if_neg hpass).trans ((if_pos hzero).trans ?_)
      rw [hzero]
    refine ⟨_, s.onDev_of hdo, ?_, Dev.condEnd_inactive .., Dev.condEnd_apart .., rfl, rfl⟩
    unfold Dev.fld
    rw [Dev.rd_condEnd]
    exact Dev.fld_setFld_same _ Fld.CH_STATUS_VIO_LOW _ (by decide)
  case overload =>
    have hmask (k : Nat) (hk : reactReg k = false) (e : Dev) (c : Nat) : (e.raiseCode .f Sn.CH_OVERLOAD c).rd k = e.rd k :=
      e.rd_raiseCodeF hk c
    have hovl : ((((s.dev.at t).setMask48 Reg.CH_OVL_LO Reg.CH_OVL_HI (s.dev.mask48 Reg.CH_OVL_LO Reg.CH_OVL_HI ||| chBit ch)).raiseCode .f
        Sn.CH_OVERLOAD (s.dev.ownCode ch))).mask48 Reg.CH_OVL_LO Reg.CH_OVL_HI = s.dev.mask48 Reg.CH_OVL_LO Reg.CH_OVL_HI ||| chBit ch := by
      unfold Dev.mask48
      rw [hmask _ (by decide), hmask _ (by decide)]
      exact Dev.mask48_setMask48 _ (by decide) _
    refine ⟨_, s.onDev_of (g := doOverloadTrip ch t) (if_neg hout), hovl, ?_, Dev.last_raiseCode _ .f _ (by decide),
      Dev.raiseCode_apart _ .f _ (by decide), rfl, rfl⟩
    exact Dev.drive_of_overload fun h => or_chBit_and_ne_zero _ hch ((congrArg (· &&& chBit ch) hovl).symm.trans h)
  case clear =>
    obtain ⟨e, hwrite, hlo, hregs, hch⟩ := (s.dev.at t).chOvlWrite_lo hmay
    refine ⟨_, s.onDev_of (g := doChOvlClear fn Reg.CH_OVL_LO data t) (e := e) ?_, hlo, hregs, hch, rfl, rfl⟩
    show FwOut.orSame ((s.dev.at t).chOvlWrite fn Reg.CH_OVL_LO data) _ = e
    rw [hwrite]
    rfl
  case config =>
    have hdo : doChCfgWrite fn ch data t s.dev = (s.dev.at t).setChCfg ch data := by
      have hown : ¬ (!(s.dev.at t).mayConfigure fn ch) = true := by
        show ¬ (!s.dev.mayConfigure fn ch) = true
        rw [hmay]; simp
      have hfree : ¬ (bitOf ((s.dev.at t).fld Fld.CH_LOCK_LOCK) (ch / 8) && changes ((s.dev.at t).rd (Reg.CH_CFG ch)) data 0xFFFF) = true := by
        rw [Dev.fld_at, hlock]; simp
      refine (if_pos hch).trans ?_
      exact congrArg (fun r : FwOut => r.orSame (s.dev.at t)) ((if_neg hown).trans (if_neg hfree))
    obtain ⟨hrd, hcfg, hothers, hregs, hcar, hops⟩ := (s.dev.at t).setChCfg_spec data hch hen
    exact ⟨_, s.onDev_of hdo, hrd, hcfg, hothers, hregs, hcar, hops, rfl, rfl⟩

end Sys2Proof.Machine
end

section
/-!
PROOF. Starts, stops and wraps of one field timer (R228 to R230).
-/

namespace Sys2Proof.Machine

/-! ## Bits of a status field -/

/-- A bit that was 0 is set by adding its power. -/
theorem bitOf_add_two_pow {v k : Nat} (h : bitOf v k = false) : bitOf (v + 2 ^ k) k = true := by
  rw [bitOf_eq_testBit] at *
  rw [Nat.add_comm, Nat.testBit_two_pow_add_eq, h]
  rfl

theorem bitOf_mod_two_pow {v k w : Nat} (h : k < w) : bitOf (v % 2 ^ w) k = bitOf v k := by
  simp [bitOf_eq_testBit, Nat.testBit_mod_two_pow, h]

/-- A V1 report leaves the registers of the F-side. -/
theorem Dev.rd_v1_f (d : Dev) (c : Nat) {k : Nat} (hk : onFSide (baseOff k) = true) : (d.v1 c).rd k = d.rd k :=
  Dev.rd_of_f hk (Dev.v1_f d c)

/-- A wrap sets the timer's WRAP bit. -/
theorem Dev.wrap_tmWrapped (d : Dev) {k : Nat} (hk : k < 8) : bitOf ((d.tmWrapped k).fld Fld.FT_STATUS_WRAP) k = true := by
  have hset : bitOf ((if bitOf (d.fld Fld.FT_STATUS_WRAP) k then d
      else d.setFld Fld.FT_STATUS_WRAP (d.fld Fld.FT_STATUS_WRAP + 2 ^ k)).fld Fld.FT_STATUS_WRAP) k = true := by
    split
    case isTrue h => exact h
    case isFalse h =>
      rw [Dev.fld_setFld_same _ _ _ (by decide)]
      exact (bitOf_mod_two_pow hk).trans (bitOf_add_two_pow (by simpa using h))
  unfold Dev.tmWrapped; dsimp only
  split
  · unfold Dev.fld at hset ⊢
    rw [Dev.rd_v1_f _ _ (by decide)]
    exact hset
  · exact hset

/-- A count that passes its end while it is taken down sets WRAP. -/
theorem Dev.wrap_tmSync (d : Dev) {k : Nat} (hk : k < 8) (hpast : 2 ^ 48 ≤ (d.tm k).base + d.tmAdvance k d.now) :
    bitOf ((d.tmSync k).fld Fld.FT_STATUS_WRAP) k = true := by
  unfold Dev.tmSync Dev.tmTake; dsimp only
  rw [if_neg (Nat.not_lt.mpr hpast), if_neg (by simp)]
  exact Dev.wrap_tmWrapped _ hk

@[simp] theorem Dev.tm_setFld (d : Dev) (F : Fld) (v j : Nat) : (d.setFld F v).tm j = d.tm j := Dev.tm_congr (by simp) j

theorem Dev.tm_tmUnwrap (d : Dev) (k j : Nat) : (d.tmUnwrap k).tm j = d.tm j := by
  unfold Dev.tmUnwrap; dsimp only
  split
  · exact Dev.tm_setFld ..
  · rfl

/-- A start leaves every other timer. -/
theorem Dev.tm_tmStart_ne (d : Dev) {k j : Nat} (h : j ≠ k) : (d.tmStart k).tm j = d.tm j := by
  have hunwrap (p : Prop) [Decidable p] : (if p then (d.tmTake k (d.flag (Fld.FT_CFG_ZERO k))).tmUnwrap k
      else d.tmTake k (d.flag (Fld.FT_CFG_ZERO k))).tm j = d.tm j :=
    Dev.ite_kept (π := fun e => e.tm j) ((Dev.tm_tmUnwrap _ _ _).trans (Dev.tm_tmTake_ne _ _ h)) (Dev.tm_tmTake_ne _ _ h)
  unfold Dev.tmStart; dsimp only
  rw [Dev.tm_tmNote_ne _ h, Dev.tm_setTm_ne _ _ h]
  exact Dev.ite_kept (π := fun e => e.tm j) ((Dev.tm_setFld ..).trans (hunwrap _)) (hunwrap _)

/-! ## The commands -/

theorem two_pow_mod_256 {k : Nat} (hk : k < 8) : 2 ^ k % 256 = 2 ^ k := Nat.mod_eq_of_lt (Nat.pow_lt_pow_right (by decide) hk)

theorem doFtStart_one {d : Dev} {fn : Func} {k : Nat} (t : Nat) (hk : k < 8) (hmay : d.tmMay fn k = true) :
    doFtStart fn (2 ^ k) t d = (d.at t).tmStart k := by
  have hmayAt : (!(d.at t).tmMay fn k) = false := by
    show (!d.tmMay fn k) = false
    rw [hmay]; rfl
  unfold doFtStart Dev.ftStartWrite
  rw [two_pow_mod_256 hk, any_mask_single _ hk, hmayAt]
  exact foldl_mask_single _ _ hk

theorem doFtStop_one {d : Dev} {fn : Func} {k : Nat} (t : Nat) (hk : k < 8) (hmay : d.tmMay fn k = true) (hstop : 4 ≤ k) :
    doFtStop fn (2 ^ k) t d = (d.at t).tmStop k := by
  have hmayAt : (!(d.at t).tmMay fn k) = false := by
    show (!d.tmMay fn k) = false
    rw [hmay]; rfl
  have hlow : 2 ^ k % 16 = 0 := Nat.mod_eq_zero_of_dvd (pow_dvd_pow 2 hstop)
  unfold doFtStop Dev.ftStopWrite
  rw [two_pow_mod_256 hk, any_mask_single _ hk, hmayAt, hlow]
  exact foldl_mask_single _ _ hk

/-- Settles O32: a start, a stop and a wrap of one timer. -/
theorem fieldTimerStartsAndStops : Obligations.FieldTimerStartsAndStops := by
  unfold Obligations.FieldTimerStartsAndStops
  intro s fn k t hk
  refine ⟨fun hmay => ?start, fun hmay hstop => ?stop, ?wrap⟩
  case start =>
    obtain ⟨w, l, st, htm⟩ := (s.dev.at t).tm_tmStart_same k
    exact ⟨_, w, l, st, s.onDev_of (doFtStart_one t hk hmay), htm, fun j hj => Dev.tm_tmStart_ne _ hj, rfl, rfl⟩
  case stop =>
    obtain ⟨w, l, htm⟩ := (s.dev.at t).tm_tmStop_same k
    exact ⟨_, w, l, s.onDev_of (doFtStop_one t hk hmay hstop), htm, fun j hj => Dev.tm_tmStop_ne _ hj, rfl, rfl⟩
  case wrap =>
    obtain ⟨w, htm⟩ := (s.dev.at t).tm_tmSync_same k
    exact ⟨_, w, s.onDev_of (if_pos hk), htm, fun hpast => Dev.wrap_tmSync _ hk hpast, fun j hj => Dev.tm_tmSync_ne _ hj, rfl, rfl⟩

end Sys2Proof.Machine
end

section
/-!
PROOF. The field timers' counts taken down and kept: the low-frequency path and the debugger (R237, R238).
-/

namespace Sys2Proof.Machine

/-! ## A count taken down -/

@[simp] theorem Dev.tm_at (d : Dev) (t k : Nat) : (d.at t).tm k = d.tm k := rfl

theorem paceUnits_self (k : Nat) (p : TmPace) (a : Nat) : paceUnits k p a a = 0 := by
  cases p <;> simp [paceUnits]

/-- A count that has just been taken down, or that stands still, is its base. -/
theorem Dev.tmCount_of_taken {d : Dev} {k : Nat} (h : (d.tm k).since = d.now ∨ d.tmPace k = .still) :
    d.tmCount k = (d.tm k).base % 2 ^ 48 := by
  have hnone : d.tmAdvance k d.now = 0 := by
    unfold Dev.tmAdvance
    rcases h with h | h
    · rw [h, paceUnits_self]
    · rw [h]; rfl
  rw [Dev.tmCount, hnone, Nat.add_zero]

theorem onFSide_ftCfg {k : Nat} (hk : k < 8) : onFSide (baseOff (Reg.FT_CFG k)) = true ∧ Reg.FT_CFG k ≠ Reg.FT_STATUS := by
  have hall : ∀ k : Fin 8, onFSide (baseOff (Reg.FT_CFG k)) = true ∧ Reg.FT_CFG k ≠ Reg.FT_STATUS := by decide
  exact hall ⟨k, hk⟩

/-- A timer's pace is a matter of its run, of the path and the debugger, and of its configuration. -/
theorem Dev.tmPace_congr {d e : Dev} {k : Nat} (hrun : (e.tm k).run = (d.tm k).run) (hlf : e.f.ft.lf = d.f.ft.lf)
    (hhalt : e.f.ft.halted = d.f.ft.halted) (hcfg : e.rd (Reg.FT_CFG k) = d.rd (Reg.FT_CFG k)) : e.tmPace k = d.tmPace k := by
  have hsrc : e.flag (Fld.FT_CFG_SRC k) = d.flag (Fld.FT_CFG_SRC k) := by
    unfold Dev.flag Dev.fld
    rw [show (Fld.FT_CFG_SRC k).off = Reg.FT_CFG k from rfl, hcfg]
  simp only [Dev.tmPace, hrun, hlf, hhalt, hsrc]

/-- Taking one count down changes no count, and no timer's run. -/
theorem Dev.tmSync_counts (d : Dev) (i : Nat) {j : Nat} (hj : j < 8) :
    (d.tmSync i).tmCount j = d.tmCount j ∧ ((d.tmSync i).tm j).run = (d.tm j).run ∧
    (i = j ∨ (d.tm j).since = d.now → ((d.tmSync i).tm j).since = d.now) := by
  by_cases h : i = j
  · subst h
    obtain ⟨w, hw⟩ := d.tm_tmSync_same i
    have hsince : ((d.tmSync i).tm i).since = (d.tmSync i).now := by rw [hw, Dev.tmSync_now]
    refine ⟨?_, by rw [hw], fun _ => by rw [hw]⟩
    rw [Dev.tmCount_of_taken (.inl hsince), hw]
    exact Nat.mod_eq_of_lt (Nat.mod_lt _ (by decide))
  · have htm : (d.tmSync i).tm j = d.tm j := Dev.tm_tmSync_ne _ (Ne.symm h)
    have hpace : (d.tmSync i).tmPace j = d.tmPace j := Dev.tmPace_congr (by rw [htm]) (Dev.tmSync_lf ..) (Dev.tmSync_halted ..)
      (Dev.rd_tmSync_f _ _ (onFSide_ftCfg hj).1 (onFSide_ftCfg hj).2)
    refine ⟨?_, by rw [htm], fun hor => by rw [htm]; exact hor.resolve_left h⟩
    simp only [Dev.tmCount, Dev.tmAdvance, hpace, htm, Dev.tmSync_now]

/-- All counts taken down: each stands as it was, from now. -/
theorem Dev.tmSyncs_counts {j : Nat} (hj : j < 8) : ∀ (l : List Nat) (d : Dev),
    (l.foldl (fun d k => d.tmSync k) d).tmCount j = d.tmCount j ∧ ((l.foldl (fun d k => d.tmSync k) d).tm j).run = (d.tm j).run ∧
    (l.foldl (fun d k => d.tmSync k) d).now = d.now ∧
    (j ∈ l ∨ (d.tm j).since = d.now → ((l.foldl (fun d k => d.tmSync k) d).tm j).since = d.now)
  | [], d => ⟨rfl, rfl, rfl, fun h => h.resolve_left List.not_mem_nil⟩
  | i :: l, d => by
    obtain ⟨hcount, hrun, hnow, hsince⟩ := Dev.tmSyncs_counts hj l (d.tmSync i)
    obtain ⟨hcount1, hrun1, hsince1⟩ := d.tmSync_counts i hj
    refine ⟨hcount.trans hcount1, hrun.trans hrun1, hnow.trans (Dev.tmSync_now ..), fun h => ?_⟩
    rw [Dev.tmSync_now] at hsince
    refine hsince ?_
    rcases h with hmem | hold
    · rcases List.mem_cons.mp hmem with heq | hin
      · exact .inr (hsince1 (.inl heq.symm))
      · exact .inl hin
    · exact .inr (hsince1 (.inr hold))

@[simp] theorem Dev.tmSyncAll_now (d : Dev) : d.tmSyncAll.now = d.now := (Dev.tmSyncs_counts (j := 0) (by decide) _ d).2.2.1

theorem Dev.tmSyncAll_counts (d : Dev) {j : Nat} (hj : j < 8) :
    d.tmSyncAll.tmCount j = d.tmCount j ∧ (d.tmSyncAll.tm j).run = (d.tm j).run ∧ (d.tmSyncAll.tm j).since = d.now := by
  obtain ⟨hcount, hrun, -, hsince⟩ := Dev.tmSyncs_counts hj (List.range 8) d
  exact ⟨hcount, hrun, hsince (.inl (List.mem_range.mpr hj))⟩

/-- The base of each count taken down. -/
theorem Dev.base_tmSyncAll (d : Dev) {j : Nat} (hj : j < 8) : (d.tmSyncAll.tm j).base % 2 ^ 48 = d.tmCount j := by
  obtain ⟨hcount, -, hsince⟩ := d.tmSyncAll_counts hj
  rw [← hcount, Dev.tmCount_of_taken (.inl (by rw [hsince, Dev.tmSyncAll_now]))]

/-! ## Paces noted -/

/-- A note of the paces leaves time, registers, the path and the debugger, and of each timer all but its paces. -/
theorem Dev.tmNoteAll_spec (d : Dev) : (∀ j, ∃ l, d.tmNoteAll.tm j = { d.tm j with legs := l }) ∧ d.tmNoteAll.now = d.now ∧
    (∀ r, d.tmNoteAll.rd r = d.rd r) ∧ d.tmNoteAll.f.ft.lf = d.f.ft.lf ∧ d.tmNoteAll.f.ft.halted = d.f.ft.halted := by
  unfold Dev.tmNoteAll
  refine List.foldlRecOn _ _ (motive := fun e : Dev => (∀ j, ∃ l, e.tm j = { d.tm j with legs := l }) ∧ e.now = d.now ∧
    (∀ r, e.rd r = d.rd r) ∧ e.f.ft.lf = d.f.ft.lf ∧ e.f.ft.halted = d.f.ft.halted)
    ⟨fun j => ⟨_, rfl⟩, rfl, fun _ => rfl, rfl, rfl⟩ ?_
  rintro e ⟨htm, hnow, hrd, hlf, hhalt⟩ k -
  refine ⟨fun j => ?_, (Dev.tmNote_now ..).trans hnow, fun r => (Dev.rd_tmNote ..).trans (hrd r), ?_, ?_⟩
  · obtain ⟨l, hl⟩ := htm j
    by_cases hj : j = k
    · subst hj
      obtain ⟨l', hl'⟩ := e.tm_tmNote_same j
      exact ⟨l', by rw [hl', hl]⟩
    · exact ⟨l, by rw [Dev.tm_tmNote_ne _ hj, hl]⟩
  · refine Eq.trans ?_ hlf
    unfold Dev.tmNote; dsimp only
    exact Dev.ite_kept (π := fun e => e.f.ft.lf) rfl rfl
  · refine Eq.trans ?_ hhalt
    unfold Dev.tmNote; dsimp only
    exact Dev.ite_kept (π := fun e => e.f.ft.halted) rfl rfl

@[simp] theorem Dev.tmNoteAll_lf (d : Dev) : d.tmNoteAll.f.ft.lf = d.f.ft.lf := d.tmNoteAll_spec.2.2.2.1
@[simp] theorem Dev.tmNoteAll_halted (d : Dev) : d.tmNoteAll.f.ft.halted = d.f.ft.halted := d.tmNoteAll_spec.2.2.2.2

/-- Counts taken down stand, whatever path and pace they take from now. -/
theorem Dev.tmCount_after_switch (d e : Dev) {k : Nat} (hk : k < 8) (htm : e.tm k = d.tmSyncAll.tm k)
    (h : e.now = d.now ∨ e.tmNoteAll.tmPace k = .still) : e.tmNoteAll.tmCount k = d.tmCount k := by
  obtain ⟨hnote, hnow, -, -, -⟩ := e.tmNoteAll_spec
  obtain ⟨l, hl⟩ := hnote k
  obtain ⟨-, -, hsince⟩ := d.tmSyncAll_counts hk
  rw [Dev.tmCount_of_taken, hl, htm, d.base_tmSyncAll hk]
  rcases h with hnowE | hstill
  · exact .inl (by rw [hl, htm, hnow, hnowE, hsince])
  · exact .inr hstill

/-! ## The switch to the low-frequency path and back -/

/-- The LF_UNIT bits of the timers that run are set, and those that were set stay. -/
theorem lfUnits_bit (p : Nat → Bool) {a j : Nat} (ha : a < 16) (hj : j < 4) :
    let v := (List.range 4).foldl (fun a k => if p k && !bitOf a k then a + 2 ^ k else a) a
    v < 16 ∧ (p j = true → bitOf v j = true) := by
  have hall : ∀ (a : Fin 16) (b : Fin 4 → Bool) (j : Fin 4),
      let v := [(0, b 0), (1, b 1), (2, b 2), (3, b 3)].foldl (fun a x => if x.2 && !bitOf a x.1 then a + 2 ^ x.1 else a) a.val
      v < 16 ∧ (b j = true → bitOf v j = true) := by decide
  exact hall ⟨a, ha⟩ (fun j => p j) ⟨j, hj⟩

/-- The timers on a path, and under a debugger or free of it. -/
def Dev.onPath (d : Dev) (l : Option Nat) : Dev := { d with f.ft.lf := l }
def Dev.debugged (d : Dev) (b : Bool) : Dev := { d with f.ft.halted := b }

@[simp] theorem Dev.onPath_lf (d : Dev) (l : Option Nat) : (d.onPath l).f.ft.lf = l := rfl
@[simp] theorem Dev.onPath_now (d : Dev) (l : Option Nat) : (d.onPath l).now = d.now := rfl
@[simp] theorem Dev.tm_onPath (d : Dev) (l : Option Nat) (k : Nat) : (d.onPath l).tm k = d.tm k := rfl
@[simp] theorem Dev.rd_onPath (d : Dev) (l : Option Nat) (k : Nat) : (d.onPath l).rd k = d.rd k := rfl
@[simp] theorem Dev.debugged_halted (d : Dev) (b : Bool) : (d.debugged b).f.ft.halted = b := rfl
@[simp] theorem Dev.debugged_now (d : Dev) (b : Bool) : (d.debugged b).now = d.now := rfl
@[simp] theorem Dev.tm_debugged (d : Dev) (b : Bool) (k : Nat) : (d.debugged b).tm k = d.tm k := rfl

/-- The LF_UNIT bits once the running ones of FT[4..7] have moved to the path. -/
def Dev.lfUnits (d : Dev) : Nat :=
  (List.range 4).foldl (fun a k => if (d.tm (4 + k)).run && !bitOf a k then a + 2 ^ k else a) (d.fld Fld.FT_FLAGS_LF_UNIT)

theorem doLowFrequencyPathSwitch_in {d : Dev} {t : Nat} (hlf : d.f.ft.lf = none) (hrest : d.f.ch.rest.isSome = true)
    (hasleep : d.f.brk.awakeF = false) : doLowFrequencyPathSwitch true t d =
      (((d.at t).tmSyncAll.setFld Fld.FT_FLAGS_LF_UNIT (d.at t).tmSyncAll.lfUnits).onPath (some (d.at t).tmSyncAll.now)).tmNoteAll := by
  have hpass : ((d.at t).f.ft.lf.isSome || (d.at t).f.ch.rest.isNone || (d.at t).f.brk.awakeF) = false := by
    rw [Dev.at_f, hlf, hasleep, ← Option.not_isSome, hrest]
    rfl
  unfold doLowFrequencyPathSwitch
  simp only [hpass, Bool.false_eq_true, if_false, if_true, Dev.at_now, Dev.tmSyncAll_now]
  rfl

theorem doLowFrequencyPathSwitch_out {d : Dev} {t : Nat} (hlf : d.f.ft.lf.isSome = true)
    (hawake : d.f.ch.rest = none ∨ d.f.brk.awakeF = true) :
    doLowFrequencyPathSwitch false t d = ((d.at t).tmSyncAll.onPath none).tmNoteAll := by
  have hpass : ((d.at t).f.ft.lf.isNone || ((d.at t).f.ch.rest.isSome && !(d.at t).f.brk.awakeF)) = false := by
    rw [Dev.at_f, ← Option.not_isSome, hlf]
    rcases hawake with h | h <;> simp [h]
  unfold doLowFrequencyPathSwitch
  simp only [hpass, Bool.false_eq_true, if_false]
  rfl

/-- Each running timer of FT[4..7] has its LF_UNIT bit after the switch. -/
theorem Dev.bit_lfUnits (d : Dev) {j : Nat} (hj : j < 4) (hrun : (d.tm (4 + j)).run = true) :
    bitOf (((d.setFld Fld.FT_FLAGS_LF_UNIT d.lfUnits).onPath (some d.now)).tmNoteAll.fld Fld.FT_FLAGS_LF_UNIT) j = true := by
  obtain ⟨-, -, hrd, -, -⟩ := ((d.setFld Fld.FT_FLAGS_LF_UNIT d.lfUnits).onPath (some d.now)).tmNoteAll_spec
  obtain ⟨hlt, hbit⟩ := lfUnits_bit (fun k => (d.tm (4 + k)).run) (bitsOf_lt (d.rd Fld.FT_FLAGS_LF_UNIT.off).toNat
    Fld.FT_FLAGS_LF_UNIT.lo 4) hj
  have hfld : ((d.setFld Fld.FT_FLAGS_LF_UNIT d.lfUnits).onPath (some d.now)).tmNoteAll.fld Fld.FT_FLAGS_LF_UNIT =
      (d.setFld Fld.FT_FLAGS_LF_UNIT d.lfUnits).fld Fld.FT_FLAGS_LF_UNIT := by
    unfold Dev.fld
    rw [hrd, Dev.rd_onPath]
  rw [hfld, Dev.fld_setFld_same _ _ _ (by decide)]
  exact (bitOf_mod_two_pow hj).trans (hbit hrun)

/-! ## The debugger -/

@[simp] theorem Dev.tm_wdSync (d : Dev) (k j : Nat) : (d.wdSync k).tm j = d.tm j :=
  Dev.tm_congr (by unfold Dev.wdSync Dev.setWd; split_ifs <;> rfl) j

theorem Dev.debugHalt_of_early {d : Dev} (hdue : d.wdDue 2 = false) :
    d.debugHalt = ((d.tmSyncAll.wdSync 2).debugged true).tmNoteAll := by
  unfold Dev.debugHalt
  simp only [hdue, Bool.false_eq_true, if_false]
  rfl

/-- While a debugger holds the sequencer FT[4..7] stand. -/
theorem Dev.tmCount_debugHalt {d : Dev} (hdue : d.wdDue 2 = false) {k : Nat} (hlo : 4 ≤ k) (hk : k < 8) (t : Nat) :
    (d.debugHalt.at t).tmCount k = d.tmCount k := by
  rw [Dev.debugHalt_of_early hdue]
  obtain ⟨hnote, -, -, -, hhalt⟩ := ((d.tmSyncAll.wdSync 2).debugged true).tmNoteAll_spec
  obtain ⟨l, hl⟩ := hnote k
  have hstill : (((d.tmSyncAll.wdSync 2).debugged true).tmNoteAll.at t).tmPace k = .still := by
    unfold Dev.tmPace
    rw [if_pos]
    rw [Dev.at_f, hhalt]
    simp [hlo]
  rw [Dev.tmCount_of_taken (.inr hstill), Dev.tm_at, hl, ← d.base_tmSyncAll hk]
  simp

theorem Dev.debugFree_of_halted {d : Dev} (h : d.f.ft.halted = true) :
    d.debugFree = ((d.tmSyncAll.wdSync 2).debugged false).tmNoteAll := by
  unfold Dev.debugFree
  rw [if_pos h]
  rfl

@[simp] theorem Dev.wdSync_now (d : Dev) (k : Nat) : (d.wdSync k).now = d.now := Dev.setWd_now ..

theorem Dev.tmCount_into (d : Dev) (v : Nat) {k : Nat} (hk : k < 8) :
    (((d.tmSyncAll.setFld Fld.FT_FLAGS_LF_UNIT v).onPath (some d.tmSyncAll.now)).tmNoteAll).tmCount k = d.tmCount k :=
  Dev.tmCount_after_switch d _ hk (by rw [Dev.tm_onPath, Dev.tm_setFld]) (.inl (by rw [Dev.onPath_now, Dev.setFld_now, Dev.tmSyncAll_now]))

theorem Dev.tmCount_back (d : Dev) {k : Nat} (hk : k < 8) : ((d.tmSyncAll.onPath none).tmNoteAll).tmCount k = d.tmCount k :=
  Dev.tmCount_after_switch d _ hk (by rw [Dev.tm_onPath]) (.inl (by rw [Dev.onPath_now, Dev.tmSyncAll_now]))

theorem Dev.tmCount_freed (d : Dev) {k : Nat} (hk : k < 8) :
    (((d.tmSyncAll.wdSync 2).debugged false).tmNoteAll).tmCount k = d.tmCount k :=
  Dev.tmCount_after_switch d _ hk (by rw [Dev.tm_debugged, Dev.tm_wdSync])
    (.inl (by rw [Dev.debugged_now, Dev.wdSync_now, Dev.tmSyncAll_now]))

/-- The clauses of the low-frequency path and of the debugger. -/
theorem fieldTimers_clocks (s : State) (t : Nat) :
    (s.dev.f.ft.lf = none → s.dev.f.ch.rest.isSome = true → s.dev.f.brk.awakeF = false →
      ∃ u : State, exec (.lowFrequencyPathSwitch true t) s = .next u ∧ u.dev.f.ft.lf = some (max s.dev.now t) ∧
        (∀ k, k < 8 → u.dev.tmCount k = (s.dev.at t).tmCount k) ∧
        (∀ j, j < 4 → (s.dev.tm (4 + j)).run = true → bitOf (u.dev.fld Fld.FT_FLAGS_LF_UNIT) j = true) ∧
        u.nv = s.nv ∧ u.pending = s.pending) ∧
    (s.dev.f.ft.lf.isSome = true → (s.dev.f.ch.rest = none ∨ s.dev.f.brk.awakeF = true) →
      ∃ u : State, exec (.lowFrequencyPathSwitch false t) s = .next u ∧ u.dev.f.ft.lf = none ∧
        (∀ k, k < 8 → u.dev.tmCount k = (s.dev.at t).tmCount k) ∧ u.nv = s.nv ∧ u.pending = s.pending) ∧
    (debugOpen s.nv.lifecycle s.dev = true → (s.dev.at t).wdDue 2 = false →
      ∃ u : State, exec (.fSeqDebugHalt t) s = .next u ∧ u.dev.f.ft.halted = true ∧
        (∀ k, 4 ≤ k → k < 8 → ∀ t', (u.dev.at t').tmCount k = (s.dev.at t).tmCount k) ∧ u.nv = s.nv ∧ u.pending = s.pending) ∧
    (s.dev.f.ft.halted = true →
      ∃ u : State, exec (.fSeqDebugRelease t) s = .next u ∧ u.dev.f.ft.halted = false ∧
        (∀ k, k < 8 → u.dev.tmCount k = (s.dev.at t).tmCount k) ∧ u.nv = s.nv ∧ u.pending = s.pending) := by
  refine ⟨fun hlf hrest hasleep => ?into, fun hlf hawake => ?back, fun hopen hdue => ?halt, fun hhalt => ?release⟩
  case into =>
    refine ⟨_, s.onDev_of (doLowFrequencyPathSwitch_in hlf hrest hasleep), ?_, fun k hk => ?_, fun j hj hrun => ?_, rfl, rfl⟩
    all_goals dsimp only
    · rw [Dev.tmNoteAll_lf, Dev.onPath_lf, Dev.tmSyncAll_now, Dev.at_now]
    · exact Dev.tmCount_into _ _ hk
    · exact Dev.bit_lfUnits _ hj (((s.dev.at t).tmSyncAll_counts (by omega : 4 + j < 8)).2.1.trans hrun)
  case back =>
    refine ⟨_, s.onDev_of (doLowFrequencyPathSwitch_out hlf hawake), ?_, fun k hk => ?_, rfl, rfl⟩
    all_goals dsimp only
    · rw [Dev.tmNoteAll_lf, Dev.onPath_lf]
    · exact Dev.tmCount_back _ hk
  case halt =>
    have hexec : exec (.fSeqDebugHalt t) s = .next { s with dev := (s.dev.at t).debugHalt } :=
      s.onDev_of (g := fun d => if debugOpen s.nv.lifecycle d then (d.at t).debugHalt else d.at t) (if_pos hopen)
    refine ⟨_, hexec, ?_, fun k hlo hk t' => ?_, rfl, rfl⟩
    all_goals dsimp only
    · rw [Dev.debugHalt_of_early hdue, Dev.tmNoteAll_halted, Dev.debugged_halted]
    · exact Dev.tmCount_debugHalt hdue hlo hk t'
  case release =>
    have hexec : exec (.fSeqDebugRelease t) s = .next { s with dev := (((s.dev.at t).tmSyncAll.wdSync 2).debugged false).tmNoteAll } :=
      s.onDev_of (g := fun d => (d.at t).debugFree) (Dev.debugFree_of_halted (d := s.dev.at t) hhalt)
    refine ⟨_, hexec, ?_, fun k hk => ?_, rfl, rfl⟩
    all_goals dsimp only
    · rw [Dev.tmNoteAll_halted, Dev.debugged_halted]
    · exact Dev.tmCount_freed _ hk

end Sys2Proof.Machine
end

section
/-!
PROOF. Captures of the field timers and their latching reads (R231 to R234).
-/

namespace Sys2Proof.Machine

/-! ## Status bits of a timer -/

/-- A status field with one timer's bit put. -/
def putBit (w k : Nat) (b : Bool) : Nat := if bitOf w k == b then w else if b then w + 2 ^ k else w - 2 ^ k

theorem bitOf_sub_two_pow {v k : Nat} (h : bitOf v k = true) : bitOf (v - 2 ^ k) k = false := by
  rw [bitOf_eq_testBit] at *
  have hle : 2 ^ k ≤ v := Nat.ge_two_pow_of_testBit h
  rw [← Nat.add_sub_cancel' hle, Nat.testBit_two_pow_add_eq] at h
  simpa using h

theorem bitOf_putBit (w k : Nat) (b : Bool) : bitOf (putBit w k b) k = b := by
  unfold putBit
  split
  case isTrue h => exact beq_iff_eq.mp h
  case isFalse h =>
    cases b with
    | true => exact bitOf_add_two_pow (by simpa using h)
    | false => exact bitOf_sub_two_pow (by simpa using h)

/-! ## The capture register read -/

theorem Dev.tmReg_eq (d : Dev) (k cap : Nat) (valid overrun : Bool) : d.tmReg k cap valid overrun =
    ((d.setTm k { d.tm k with cap := cap, capAt := none }).setFld Fld.FT_STATUS_VALID
      (putBit (d.fld Fld.FT_STATUS_VALID) k valid)).setFld Fld.FT_STATUS_OVERRUN (putBit (d.fld Fld.FT_STATUS_OVERRUN) k overrun) := rfl

theorem Dev.tm_tmReg_same (d : Dev) (k cap : Nat) (valid overrun : Bool) :
    (d.tmReg k cap valid overrun).tm k = { d.tm k with cap := cap, capAt := none } := by
  rw [Dev.tmReg_eq, Dev.tm_setFld, Dev.tm_setFld, Dev.tm_setTm_same]

theorem Dev.tm_tmReg_ne (d : Dev) {k j : Nat} (cap : Nat) (valid overrun : Bool) (h : j ≠ k) :
    (d.tmReg k cap valid overrun).tm j = d.tm j := by
  rw [Dev.tmReg_eq, Dev.tm_setFld, Dev.tm_setFld, Dev.tm_setTm_ne _ _ h]

theorem Dev.valid_tmReg (d : Dev) (k cap : Nat) (valid overrun : Bool) :
    (d.tmReg k cap valid overrun).fld Fld.FT_STATUS_VALID = putBit (d.fld Fld.FT_STATUS_VALID) k valid % 2 ^ 8 := by
  rw [Dev.tmReg_eq, Dev.fld_setFld_ne _ _ _ _ (by decide) (by decide), Dev.fld_setFld_same _ _ _ (by decide)]
  rfl

theorem Dev.overrun_tmReg (d : Dev) (k cap : Nat) (valid overrun : Bool) :
    (d.tmReg k cap valid overrun).fld Fld.FT_STATUS_OVERRUN = putBit (d.fld Fld.FT_STATUS_OVERRUN) k overrun % 2 ^ 8 := by
  rw [Dev.tmReg_eq, Dev.fld_setFld_same _ _ _ (by decide)]
  rfl

theorem Dev.fop_tmReg (d : Dev) (k cap : Nat) (valid overrun : Bool) (g : Nat) : (d.tmReg k cap valid overrun).fop g = d.fop g := by
  rw [Dev.tmReg_eq]; simp [Dev.fop, Dev.setTm]

theorem Dev.op_tmReg (d : Dev) (k cap : Nat) (valid overrun : Bool) (g : Nat) : (d.tmReg k cap valid overrun).op g = d.op g := by
  rw [Dev.tmReg_eq]; simp [Dev.op]

/-! ## FT_CAPTURE -/

/-- The device at which a FT_CAPTURE is taken. -/
def Dev.begun (d : Dev) (t tag : Nat) (o : FOp) : Dev := (d.at t).setFop tag (some { o with begun := true })

/-- A capture register that answers a FT_CAPTURE: what it answers with, and what it leaves. -/
def Dev.captured (d : Dev) (tag k : Nat) (o : FOp) (cap : Nat) (valid overrun : Bool) (value : Nat) (lost : Bool) : Dev :=
  (d.tmReg k cap valid overrun).endF tag (if lost then stOVERRUN else stOK) (o.result (BitVec.ofNat 48 value))

theorem Dev.captured_spec (d : Dev) {tag k : Nat} {o : FOp} (cap : Nat) (valid overrun : Bool) (value : Nat) (lost : Bool)
    (hk : k < 8) (hfop : d.fop tag = some o) (hlive : o.ended = none) (hop : (d.op tag).isSome = true) (p : FOp) :
    ((d.captured tag k p cap valid overrun value lost).fop tag).bind (·.ended) =
      some (if lost then stOVERRUN else stOK, p.result (BitVec.ofNat 48 value)) ∧
    (d.captured tag k p cap valid overrun value lost).tm k = { d.tm k with cap := cap, capAt := none } ∧
    (∀ j, j ≠ k → (d.captured tag k p cap valid overrun value lost).tm j = d.tm j) ∧
    (d.captured tag k p cap valid overrun value lost).fld Fld.FT_STATUS_VALID = putBit (d.fld Fld.FT_STATUS_VALID) k valid % 2 ^ 8 ∧
    bitOf ((d.captured tag k p cap valid overrun value lost).fld Fld.FT_STATUS_OVERRUN) k = overrun := by
  have hsame := (d.tmReg k cap valid overrun).noOps_endF tag (if lost then stOVERRUN else stOK) (p.result (BitVec.ofNat 48 value))
  have htm (j : Nat) : (d.captured tag k p cap valid overrun value lost).tm j = (d.tmReg k cap valid overrun).tm j :=
    congrArg (fun d => d.tm j) hsame
  have hfld (F : Fld) : (d.captured tag k p cap valid overrun value lost).fld F = (d.tmReg k cap valid overrun).fld F :=
    congrArg (fun d => d.fld F) hsame
  refine ⟨?_, (htm k).trans (Dev.tm_tmReg_same ..), fun j hj => (htm j).trans (Dev.tm_tmReg_ne _ _ _ _ hj),
    (hfld _).trans (Dev.valid_tmReg ..), ?_⟩
  · exact congrArg (Option.bind · FOp.ended) (Dev.fop_endF_same _ _ ((Dev.fop_tmReg ..).trans hfop) hlive
      ((congrArg Option.isSome (Dev.op_tmReg ..)).trans hop))
  · rw [hfld, Dev.overrun_tmReg]
    exact (bitOf_mod_two_pow hk).trans (bitOf_putBit _ _ _)

section
variable {d : Dev} {t tag k : Nat} {o : FOp} (hfresh : d.freshOp tag opFT_CAPTURE = some o) (hdest : o.desc.dest = 0x128 + k)
  (hsrc : d.fld (Fld.FT_CFG_CAP_SRC k) ≠ 0) (hfree : (d.tm k).opened = none)
include hfresh hdest hsrc hfree

/-- With no capture of its own cycle a FT_CAPTURE takes the one that the register holds, or waits. -/
theorem doFtCapture_of_stale (hstale : ∀ c, (d.tm k).capAt = some c → c.1 ≠ max d.now t) :
    doFtCapture tag t d = if bitOf (d.fld Fld.FT_STATUS_VALID) k then
        (d.begun t tag o).captured tag k o (d.tm k).cap false false (d.tm k).cap (bitOf (d.fld Fld.FT_STATUS_OVERRUN) k)
      else (d.begun t tag o).setTm k { d.tm k with opened := some tag } := by
  have hfreshAt : (d.at t).freshOp tag opFT_CAPTURE = some o := hfresh
  have hk : o.desc.dest - 0x128 = k := by omega
  have hopened : ¬ (((d.at t).setFop tag (some { o with begun := true })).tm k).opened.isSome = true := by
    show ¬ (d.tm k).opened.isSome = true
    rw [hfree]; exact Bool.false_ne_true
  unfold doFtCapture
  simp only [hfreshAt, hk]
  refine (if_neg hsrc).trans ((if_neg hopened).trans ?_)
  have htm : ((d.at t).setFop tag (some { o with begun := true })).tm k = d.tm k := rfl
  rw [htm]
  rcases hcap : (d.tm k).capAt with _ | ⟨at_, cap0, valid0, ov0⟩
  · rfl
  · exact if_neg (hstale _ hcap)

/-- With a capture of its own cycle it takes that one, unless the register held one before. -/
theorem doFtCapture_of_now {cap0 : Nat} {valid0 lost0 : Bool} (hnow : (d.tm k).capAt = some (max d.now t, cap0, valid0, lost0)) :
    doFtCapture tag t d = if valid0 then (d.begun t tag o).captured tag k o (d.tm k).cap true false cap0 lost0
      else (d.begun t tag o).captured tag k o cap0 false lost0 (d.tm k).cap false := by
  have hfreshAt : (d.at t).freshOp tag opFT_CAPTURE = some o := hfresh
  have hk : o.desc.dest - 0x128 = k := by omega
  have hopened : ¬ (((d.at t).setFop tag (some { o with begun := true })).tm k).opened.isSome = true := by
    show ¬ (d.tm k).opened.isSome = true
    rw [hfree]; exact Bool.false_ne_true
  unfold doFtCapture
  simp only [hfreshAt, hk]
  refine (if_neg hsrc).trans ((if_neg hopened).trans ?_)
  have htm : ((d.at t).setFop tag (some { o with begun := true })).tm k = d.tm k := rfl
  rw [htm, hnow]
  exact if_pos rfl

end

/-- The clauses of FT_CAPTURE. -/
theorem ftCapture_takes (s : State) {tag k cap0 t : Nat} {valid0 lost0 : Bool} {o : FOp} (hk : k < 8)
    (hfresh : s.dev.freshOp tag opFT_CAPTURE = some o) (hdest : o.desc.dest = 0x128 + k)
    (hsrc : s.dev.fld (Fld.FT_CFG_CAP_SRC k) ≠ 0) (hfree : (s.dev.tm k).opened = none) :
    ((∀ c, (s.dev.tm k).capAt = some c → c.1 ≠ max s.dev.now t) →
      (bitOf (s.dev.fld Fld.FT_STATUS_VALID) k = false →
        exec (.ftCapture tag t) s = .next { s with dev :=
          (((s.dev.at t).setFop tag (some { o with begun := true })).setTm k { s.dev.tm k with opened := some tag }) }) ∧
      (bitOf (s.dev.fld Fld.FT_STATUS_VALID) k = true → (s.dev.op tag).isSome = true →
        ∃ u : State, exec (.ftCapture tag t) s = .next u ∧
          (u.dev.fop tag).bind (·.ended) =
            some (if bitOf (s.dev.fld Fld.FT_STATUS_OVERRUN) k then stOVERRUN else stOK,
              o.result (BitVec.ofNat 48 (s.dev.tm k).cap)) ∧
          u.dev.fld Fld.FT_STATUS_VALID = s.dev.fld Fld.FT_STATUS_VALID - 2 ^ k ∧
          bitOf (u.dev.fld Fld.FT_STATUS_OVERRUN) k = false ∧ u.dev.tm k = { s.dev.tm k with capAt := none } ∧
          (∀ j, j ≠ k → u.dev.tm j = s.dev.tm j) ∧ u.nv = s.nv ∧ u.pending = s.pending)) ∧
    ((s.dev.tm k).capAt = some (max s.dev.now t, cap0, valid0, lost0) → (s.dev.op tag).isSome = true →
      ∃ u : State, exec (.ftCapture tag t) s = .next u ∧
        (u.dev.fop tag).bind (·.ended) =
          some (if valid0 && lost0 then stOVERRUN else stOK,
            o.result (BitVec.ofNat 48 (if valid0 then cap0 else (s.dev.tm k).cap))) ∧
        (u.dev.tm k).cap = (if valid0 then (s.dev.tm k).cap else cap0) ∧
        bitOf (u.dev.fld Fld.FT_STATUS_VALID) k = valid0 ∧
        (∀ j, j ≠ k → u.dev.tm j = s.dev.tm j) ∧ u.nv = s.nv ∧ u.pending = s.pending) := by
  obtain ⟨-, hlive, -, -, -⟩ := Dev.freshOp_spec hfresh
  have hspec (hop : (s.dev.op tag).isSome = true) := fun cap valid overrun value lost => (s.dev.begun t tag o).captured_spec
    (o := { o with begun := true }) cap valid overrun value lost hk (Dev.fop_setFop_same ..) hlive hop o
  refine ⟨fun hstale => ⟨fun hvalid => ?waits, fun hvalid hop => ?holds⟩, fun hnow hop => ?now⟩
  case waits =>
    refine s.onDev_of (g := doFtCapture tag t) ((doFtCapture_of_stale hfresh hdest hsrc hfree hstale).trans ?_)
    rw [hvalid, if_neg Bool.false_ne_true]
    rfl
  case holds =>
    have hdo := doFtCapture_of_stale hfresh hdest hsrc hfree hstale
    rw [hvalid, if_pos rfl] at hdo
    obtain ⟨hended, htm, hothers, hvld, hovr⟩ := hspec hop (s.dev.tm k).cap false false (s.dev.tm k).cap
      (bitOf (s.dev.fld Fld.FT_STATUS_OVERRUN) k)
    refine ⟨_, s.onDev_of hdo, hended, hvld.trans ?_, hovr, htm, hothers, rfl, rfl⟩
    have hput : putBit (s.dev.fld Fld.FT_STATUS_VALID) k false = s.dev.fld Fld.FT_STATUS_VALID - 2 ^ k := by
      simp [putBit, hvalid]
    have hlt : s.dev.fld Fld.FT_STATUS_VALID < 2 ^ 8 := bitsOf_lt _ _ 8
    show putBit (s.dev.fld Fld.FT_STATUS_VALID) k false % 2 ^ 8 = _
    rw [hput, Nat.mod_eq_of_lt (Nat.lt_of_le_of_lt (Nat.sub_le _ _) hlt)]
  case now =>
    have hdo := doFtCapture_of_now hfresh hdest hsrc hfree hnow
    cases valid0 with
    | true =>
      rw [if_pos rfl] at hdo
      obtain ⟨hended, htm, hothers, hvld, -⟩ := hspec hop (s.dev.tm k).cap true false cap0 lost0
      refine ⟨_, s.onDev_of hdo, hended, (congrArg Timer.cap htm).trans (if_pos rfl).symm, ?_, hothers, rfl, rfl⟩
      exact (congrArg (bitOf · k) hvld).trans ((bitOf_mod_two_pow hk).trans (bitOf_putBit _ _ _))
    | false =>
      rw [if_neg Bool.false_ne_true] at hdo
      obtain ⟨hended, htm, hothers, hvld, -⟩ := hspec hop cap0 false lost0 (s.dev.tm k).cap false
      refine ⟨_, s.onDev_of hdo, hended, (congrArg Timer.cap htm).trans (if_neg Bool.false_ne_true).symm, ?_, hothers, rfl, rfl⟩
      exact (congrArg (bitOf · k) hvld).trans ((bitOf_mod_two_pow hk).trans (bitOf_putBit _ _ _))

/-! ## A capture event -/

/-- A step over a list that acts on one member alone, which its own action leaves the only one. -/
theorem foldl_of_single {α : Type} (p : Dev → α → Prop) [∀ d a, Decidable (p d a)] (g : Dev → α → Dev) {k : α} :
    ∀ (l : List α) (d : Dev), l.Nodup → k ∈ l → (∀ j ∈ l, p d j ↔ j = k) → (∀ j ∈ l, p (g d k) j ↔ p d j) →
      l.foldl (fun d j => if p d j then g d j else d) d = g d k
  | [], _, _, hk, _, _ => absurd hk List.not_mem_nil
  | a :: l, d, hnodup, hk, hp, hkeep => by
    obtain ⟨hal, hl⟩ := List.nodup_cons.mp hnodup
    by_cases ha : a = k
    · subst ha
      have hrest : l.foldl (fun d j => if p d j then g d j else d) (g d a) = g d a := by
        refine List.foldlRecOn _ _ (motive := fun e => e = g d a) rfl ?_
        rintro e rfl j hj
        have hne : j ≠ a := fun h => hal (h ▸ hj)
        rw [if_neg fun h => hne ((hp j (List.mem_cons_of_mem _ hj)).mp ((hkeep j (List.mem_cons_of_mem _ hj)).mp h))]
      rw [List.foldl_cons, if_pos ((hp a List.mem_cons_self).mpr rfl), hrest]
    · rw [List.foldl_cons, if_neg fun h => ha ((hp a List.mem_cons_self).mp h)]
      exact foldl_of_single p g l d hl ((List.mem_cons.mp hk).resolve_left (Ne.symm ha))
        (fun j hj => hp j (List.mem_cons_of_mem _ hj)) fun j hj => hkeep j (List.mem_cons_of_mem _ hj)

/-- A wrap leaves every field of FT_STATUS but WRAP. -/
theorem Dev.fld_tmSync (d : Dev) (k : Nat) {F : Fld} (hF : onFSide (baseOff F.off) = true) (hw : F.lo + F.w ≤ 32)
    (hne : F.off ≠ Reg.FT_STATUS ∨ F.lo + F.w ≤ 16 ∨ 24 ≤ F.lo) : (d.tmSync k).fld F = d.fld F := by
  have hset (e : Dev) (v : Nat) : (e.setFld Fld.FT_STATUS_WRAP v).fld F = e.fld F := Dev.fld_setFld_ne _ _ _ _ hw hne
  have hv1 (e : Dev) (c : Nat) : (e.v1 c).fld F = e.fld F := by
    unfold Dev.fld
    rw [Dev.rd_v1_f _ _ hF]
  have hwrap (e : Dev) : (e.tmWrapped k).fld F = e.fld F := by
    unfold Dev.tmWrapped; dsimp only
    refine Dev.ite_kept (π := fun d => d.fld F) ((hv1 _ _).trans ?_) ?_
    all_goals exact Dev.ite_kept (π := fun d => d.fld F) rfl (hset _ _)
  unfold Dev.tmSync Dev.tmTake; dsimp only
  exact Dev.ite_kept (π := fun d => d.fld F) rfl (Dev.ite_kept (π := fun d => d.fld F) rfl (hwrap _))

section
variable {d : Dev} {k : Nat} (v : Nat) (hfree : (d.tm k).opened = none) (hvalid : bitOf (d.fld Fld.FT_STATUS_VALID) k = false)
  (hclr : (d.tm k).clrAt ≠ some d.now)
include hfree hvalid hclr

/-- A value stored in a free capture register that held none: VALID is set, and reported where the timer asks for it. -/
theorem Dev.tmStore_of_free : ∃ e : Dev, d.tmStore k v = (if d.flag (Fld.FT_CFG_CAP_IRQ k) then e.v1 (d.tmCode k) else e) ∧
    e = ((d.setFld Fld.FT_STATUS_VALID (d.fld Fld.FT_STATUS_VALID)).setTm k { d.tm k with
      cap := v
      freshA := false
      freshB := false
      capAt := some (d.now, (d.tm k).cap, false, bitOf (d.fld Fld.FT_STATUS_OVERRUN) k) }).setFld Fld.FT_STATUS_VALID
        (d.fld Fld.FT_STATUS_VALID + 2 ^ k) := by
  refine ⟨_, ?_, rfl⟩
  have hold : (decide ((d.tm k).clrAt = some d.now) && !false) = false := by simp [hclr]
  unfold Dev.tmStore
  simp only [hfree, hvalid, hold, Bool.false_eq_true, if_false]

theorem Dev.tmStore_of_free_spec (hk : k < 8) :
    (d.tmStore k v).tm k = { d.tm k with
      cap := v
      freshA := false
      freshB := false
      capAt := some (d.now, (d.tm k).cap, false, bitOf (d.fld Fld.FT_STATUS_OVERRUN) k) } ∧
    bitOf ((d.tmStore k v).fld Fld.FT_STATUS_VALID) k = true ∧ (∀ j, j ≠ k → (d.tmStore k v).tm j = d.tm j) ∧
    (∀ r, onFSide (baseOff r) = true → r ≠ Reg.FT_STATUS → (d.tmStore k v).rd r = d.rd r) := by
  obtain ⟨e, hstore, he⟩ := Dev.tmStore_of_free v hfree hvalid hclr
  have hf : (d.tmStore k v).f = e.f := by
    rw [hstore]
    exact Dev.ite_kept (π := fun d => d.f) (Dev.v1_f _ _) rfl
  have htm (j : Nat) : (d.tmStore k v).tm j = e.tm j := Dev.tm_congr (congrArg (·.ft) hf) j
  refine ⟨?_, ?_, fun j hj => ?_, fun r hr hne => ?_⟩
  · rw [htm, he, Dev.tm_setFld, Dev.tm_setTm_same]
  · unfold Dev.fld
    rw [Dev.rd_of_f (by decide) hf]
    show bitOf (e.fld Fld.FT_STATUS_VALID) k = true
    rw [he, Dev.fld_setFld_same _ _ _ (by decide)]
    exact (bitOf_mod_two_pow hk).trans (bitOf_add_two_pow hvalid)
  · rw [htm, he, Dev.tm_setFld, Dev.tm_setTm_ne _ _ hj, Dev.tm_setFld]
  · rw [Dev.rd_of_f hr hf, he, Dev.rd_setFld_ne _ _ _ hne, Dev.rd_setTm, Dev.rd_setFld_ne _ _ _ hne]

end

/-- What a capture event of an armed timer, whose register is free and empty, leaves (R231, R232). -/
theorem Dev.tmEvent_of_armed {d : Dev} {k : Nat} (raw : Nat) (hk : k < 8)
    (harmed : d.flag (Fld.FT_CFG_CAP_ARM k) = true → (d.tm k).armed = true) (hfree : (d.tm k).opened = none)
    (hvalid : bitOf (d.fld Fld.FT_STATUS_VALID) k = false) (hclr : (d.tm k).clrAt ≠ some d.now)
    (hstart : ∀ e, (d.tm k).startAt = some e → e.1 ≠ d.now) :
    (∃ w, (d.tmEvent k raw).tm k = { d.tm k with
      base := d.tmCount k
      since := d.now
      armed := false
      freshA := false
      freshB := false
      wrapAt := w
      cap := (d.tmCount k + 2 ^ 48 - (if d.flag (Fld.FT_CFG_SRC k) then 0 else legUnits k raw (d.tm k).legs d.now) % 2 ^ 48) % 2 ^ 48
      capAt := some (d.now, (d.tm k).cap, false, bitOf (d.fld Fld.FT_STATUS_OVERRUN) k) }) ∧
    bitOf ((d.tmEvent k raw).fld Fld.FT_STATUS_VALID) k = true ∧ (∀ j, j ≠ k → (d.tmEvent k raw).tm j = d.tm j) ∧
    (∀ r, onFSide (baseOff r) = true → r ≠ Reg.FT_STATUS → (d.tmEvent k raw).rd r = d.rd r) := by
  obtain ⟨w, hw⟩ := d.tm_tmSync_same k
  have harm : ¬ (d.flag (Fld.FT_CFG_CAP_ARM k) && !(d.tm k).armed) = true := by
    cases h : d.flag (Fld.FT_CFG_CAP_ARM k) <;> simp_all
  set x := { (d.tmSync k).tm k with armed := false } with hx
  have hevent : d.tmEvent k raw = ((d.tmSync k).setTm k x).tmStore k
      ((d.tmCount k + 2 ^ 48 - (if d.flag (Fld.FT_CFG_SRC k) then 0 else legUnits k raw (d.tm k).legs d.now) % 2 ^ 48) % 2 ^ 48) := by
    have hx' : x = { (d.tmSync k).tm k with armed := false, startAt := ((d.tmSync k).tm k).startAt } := rfl
    unfold Dev.tmEvent; dsimp only
    rw [hx', hw]
    rcases hs : (d.tm k).startAt with _ | e
    · simp only [Bool.false_eq_true, if_false]
      exact if_neg harm
    · simp only [beq_eq_false_iff_ne.mpr (hstart e hs), if_neg (hstart e hs), Bool.false_eq_true, if_false]
      exact if_neg harm
  have hfld {F : Fld} (hF : onFSide (baseOff F.off) = true) (hw : F.lo + F.w ≤ 32) (hne : F.lo + F.w ≤ 16 ∨ 24 ≤ F.lo) :
      ((d.tmSync k).setTm k x).fld F = d.fld F := Dev.fld_tmSync d k hF hw (.inr hne)
  obtain ⟨htm, hset, hne, hrd⟩ := Dev.tmStore_of_free_spec (d := (d.tmSync k).setTm k x) (k := k)
    ((d.tmCount k + 2 ^ 48 - (if d.flag (Fld.FT_CFG_SRC k) then 0 else legUnits k raw (d.tm k).legs d.now) % 2 ^ 48) % 2 ^ 48)
    (by rw [Dev.tm_setTm_same, hx, hw]; exact hfree)
    (by rw [hfld (F := Fld.FT_STATUS_VALID) (by decide) (by decide) (by decide)]; exact hvalid)
    (by rw [Dev.tm_setTm_same, Dev.setTm_now, Dev.tmSync_now, hx, hw]; exact hclr) hk
  rw [← hevent] at htm hset hne hrd
  refine ⟨⟨w, htm.trans ?_⟩, hset, fun j hj => ?_, fun r hr hne' => ?_⟩
  · rw [hfld (F := Fld.FT_STATUS_OVERRUN) (by decide) (by decide) (by decide), Dev.tm_setTm_same, Dev.setTm_now, Dev.tmSync_now, hx, hw]
  · rw [hne j hj, Dev.tm_setTm_ne _ _ hj, Dev.tm_tmSync_ne _ hj]
  · rw [hrd r hr hne', Dev.rd_setTm, Dev.rd_tmSync_f _ _ hr hne']

/-- An edge that one timer alone takes is that timer's event. -/
theorem Dev.tmEdge_of_one {d : Dev} {k src : Nat} {rising : Bool} (raw : Nat) (hk : k < 8) (hrest : d.f.ch.rest = none)
    (hone : ∀ j, j < 8 → (d.fld (Fld.FT_CFG_CAP_SRC j) = src ↔ j = k)) (hedge : edgeTaken (d.fld (Fld.FT_CFG_CAP_EDGE k)) rising = true)
    (hcfg : ∀ r, onFSide (baseOff r) = true → r ≠ Reg.FT_STATUS → (d.tmEvent k raw).rd r = d.rd r) :
    d.tmEdge src rising raw = d.tmEvent k raw := by
  unfold Dev.tmEdge
  rw [hrest]
  refine foldl_of_single (fun d k => d.fld (Fld.FT_CFG_CAP_SRC k) = src ∧ edgeTaken (d.fld (Fld.FT_CFG_CAP_EDGE k)) rising = true)
    (fun d j => d.tmEvent j raw) (List.range 8) d List.nodup_range (List.mem_range.mpr hk) (fun j hj => ?_) (fun j hj => ?_)
  · rw [hone j (List.mem_range.mp hj)]
    exact ⟨And.left, fun h => ⟨h, h ▸ hedge⟩⟩
  · have hrd : (d.tmEvent k raw).rd (Reg.FT_CFG j) = d.rd (Reg.FT_CFG j) :=
      hcfg _ (onFSide_ftCfg (List.mem_range.mp hj)).1 (onFSide_ftCfg (List.mem_range.mp hj)).2
    have hfld (F : Fld) (hF : F.off = Reg.FT_CFG j) : (d.tmEvent k raw).fld F = d.fld F := by
      unfold Dev.fld
      rw [hF, hrd]
    rw [hfld (Fld.FT_CFG_CAP_SRC j) rfl, hfld (Fld.FT_CFG_CAP_EDGE j) rfl]

/-- Settles O33: captures are read and made at the timers' registers, and a change of path or of the debugger's hold takes every
count down first. -/
theorem fieldTimerCapturesAndClocks : Obligations.FieldTimerCapturesAndClocks := by
  refine ⟨fun s fn tag k raw cap0 t valid0 lost0 rising o hk => ⟨?capture, ?edge, ?capLo, ?capHi, ?capHiStale, ?markLo⟩,
    fieldTimers_clocks⟩
  case capture => exact fun hfresh hdest hsrc hfree => ftCapture_takes s hk hfresh hdest hsrc hfree
  case edge =>
    intro hrest hone hedge harmed hfree hvalid hclr hstart
    obtain ⟨⟨w, hw⟩, hset, hothers, hrd⟩ := Dev.tmEvent_of_armed (d := s.dev.at t) raw hk harmed hfree hvalid hclr hstart
    exact ⟨_, w, s.onDev_of (g := doEncZEdge rising raw t) (Dev.tmEdge_of_one raw hk hrest hone hedge hrd), hw, hset, hothers, rfl, rfl⟩
  case capLo => exact s.onDev_of (g := doFtCapLoRead fn k t) (if_neg (by omega))
  case capHi =>
    intro hread hvalid
    refine s.onDev_of (g := doFtCapHiRead fn k t) (if_pos ?_)
    show (decide (k < 8) && (if fn then (s.dev.tm k).freshB else (s.dev.tm k).freshA) && bitOf (s.dev.fld Fld.FT_STATUS_VALID) k) = true
    rw [hread, hvalid, decide_eq_true hk]; rfl
  case capHiStale =>
    intro hread
    refine s.onDev_of (g := doFtCapHiRead fn k t) (if_neg ?_)
    show ¬ (decide (k < 8) && (if fn then (s.dev.tm k).freshB else (s.dev.tm k).freshA) && bitOf (s.dev.fld Fld.FT_STATUS_VALID) k) = true
    rw [hread, Bool.and_false, Bool.false_and]; exact Bool.false_ne_true
  case markLo => exact s.onDev_of (g := doFtMarkLoRead fn k t) (if_neg (by omega))

end Sys2Proof.Machine
end

section
/-!
PROOF. Watchdog service, keys and enabling (R246, R252).
-/

namespace Sys2Proof.Machine

section
variable {d : Dev} {k : Nat} (t : Nat) (data : Word) (hk : k ≤ 2)
include hk

/-- The master's word reaches the watchdog. -/
theorem doWdService_of_open (hopen : k = 2 ∨ d.hostOpen (k == 1) = true) : doWdService k data t d = (d.at t).wdServe k data := by
  refine (if_neg (by omega)).trans ?_
  by_cases h2 : k = 2
  · exact if_pos h2
  · exact (if_neg h2).trans (Dev.hostDo_of_open (d.at t) _ _ (hopen.resolve_left h2))

theorem doWdKey_of_open {fn : Func} (hfn : fn = wdWriter k) (hopen : k = 2 ∨ d.hostOpen fn = true) (hdue : (d.at t).wdDue k = false) :
    doWdKey fn k data t d = (d.at t).wdKeyWrite k data := by
  have hwrite : (d.at t).wdWrite false fn k 0x10 data = (d.at t).wdKeyWrite k data := by
    simp [Dev.wdWrite, hfn, hdue]
  by_cases h2 : k = 2
  · exact (if_pos h2).trans hwrite
  · exact (if_neg h2).trans ((if_pos (by omega)).trans ((Dev.hostDo_of_open (d.at t) _ _ (hopen.resolve_left h2)).trans hwrite))

theorem doWdEnable_of_open {fn : Func} (dev : Bool) (hfn : fn = wdWriter k) (hopen : k = 2 ∨ d.hostOpen fn = true)
    (hdue : (d.at t).wdDue k = false) : doWdEnable dev fn k data t d = (d.at t).wdCtrlWrite dev k (data ||| 1) := by
  have hwrite : (d.at t).wdWrite dev fn k 0 (data ||| 1) = (d.at t).wdCtrlWrite dev k (data ||| 1) := by
    simp [Dev.wdWrite, hfn, hdue]
  by_cases h2 : k = 2
  · exact (if_pos h2).trans hwrite
  · exact (if_neg h2).trans ((if_pos (by omega)).trans ((Dev.hostDo_of_open (d.at t) _ _ (hopen.resolve_left h2)).trans hwrite))

end

section
variable {d : Dev} {k : Nat} (hen : (d.wd k).en = true) (hheld : (d.wd k).held = false) (hdue : d.wdDue k = false)
include hen hheld hdue

theorem Dev.wdServe_of_running (data : Word) : d.wdServe k data =
    if data = 0x0000C1A0 ∧ !(d.wd k).armed then d.setWd k { d.wd k with armed := true }
    else if data = 0x00003E5F ∧ (d.wd k).armed ∧ d.wdOpen k ≤ d.wdCount k then d.wdServed k
    else d.wdReact k := by
  unfold Dev.wdServe
  simp [hen, hheld, hdue]

/-- A word that is not the next one of the sequence, or that comes before the window, is a violation (Table WD-3). -/
theorem Dev.wdServe_of_wrong {data : Word}
    (hwrong : if (d.wd k).armed then data ≠ 0x00003E5F ∨ d.wdCount k < d.wdOpen k else data ≠ 0x0000C1A0) :
    d.wdServe k data = d.wdReact k := by
  rw [Dev.wdServe_of_running hen hheld hdue]
  cases harmed : (d.wd k).armed with
  | false =>
    rw [harmed, if_neg Bool.false_ne_true] at hwrong
    rw [if_neg fun h => hwrong h.1, if_neg fun h => Bool.false_ne_true h.2.1]
  | true =>
    rw [harmed, if_pos rfl] at hwrong
    rw [if_neg fun h => Bool.false_ne_true h.2, if_neg]
    rintro ⟨hdata, -, hopen⟩
    exact hwrong.elim (· hdata) fun h => absurd hopen (Nat.not_le.mpr h)

end

/-- A watchdog replaced leaves those of the other functions. -/
theorem Dev.setWd_others (d : Dev) (k : Nat) (w : Wd) : (d.setWd k w).h.wdA = (if k = 0 then w else d.h.wdA) ∧
    (d.setWd k w).h.wdB = (if k = 1 then w else d.h.wdB) := by
  unfold Dev.setWd
  split_ifs <;> simp_all

theorem bitOf_or_one (data : Word) (i : Nat) : bitOf (data ||| 1).toNat i = (bitOf data.toNat i || decide (i = 0)) := by
  rw [bitOf_eq_testBit, bitOf_eq_testBit, BitVec.toNat_or, Nat.testBit_or]
  congr 1
  exact Bool.eq_iff_iff.mpr (Nat.testBit_one_eq_true_iff_self_eq_zero.trans decide_eq_true_iff.symm)

/-- A watchdog enabled: it runs from 0 in its normal window, and waits in a boot or in a reset of its domain. -/
def Wd.enabled (w : Wd) (now : Nat) (waits : Bool) : Wd :=
  { w with en := true, first := false, armed := false, base := 0, since := now, held := w.held && waits }

/-- EN_SET alone on a disabled watchdog enables it (R252). -/
theorem Dev.wdCtrlWrite_enSet {d : Dev} {k : Nat} (dev : Bool) {data : Word} (hk : k ≤ 2) (hen : (d.wd k).en = false)
    (h1 : bitOf data.toNat 1 = false) (h2 : bitOf data.toNat 2 = false) :
    (d.wdCtrlWrite dev k (data ||| 1)).wd k = (d.wd k).enabled d.now (d.h.dev == .boot || d.h.fReset) ∧
    (d.wdCtrlWrite dev k (data ||| 1)).h.wdA = (if k = 0 then (d.wd k).enabled d.now (d.h.dev == .boot || d.h.fReset) else d.h.wdA) ∧
    (d.wdCtrlWrite dev k (data ||| 1)).h.wdB = (if k = 1 then (d.wd k).enabled d.now (d.h.dev == .boot || d.h.fReset) else d.h.wdB) := by
  set e := d.setWd k ((d.wd k).enabled d.now (d.h.dev == .boot || d.h.fReset)) with he
  have hwrite : d.wdCtrlWrite dev k (data ||| 1) =
      if k = 2 then (e.wdSync 2).setFld (Fld.WD_CTRL_DBG_FREEZE 2) (b2n (false && dev)) else e := by
    unfold Dev.wdCtrlWrite; dsimp only
    simp only [bitOf_or_one, h1, h2, hen, Bool.false_or, Bool.or_true, Bool.not_false, Bool.and_true, Bool.false_and, decide_true, Nat.reduceEqDiff,
      decide_false, Bool.false_eq_true, false_and, and_false, or_false, if_false, if_true]
    rfl
  obtain ⟨hA, hB⟩ := d.setWd_others k ((d.wd k).enabled d.now (d.h.dev == .boot || d.h.fReset))
  rw [hwrite]
  by_cases h : k = 2
  · subst h
    rw [if_pos rfl]
    have hcycles : e.wdCycles 2 = 0 := by
      unfold Dev.wdCycles
      rw [he, Dev.wd_setWd_same, Dev.setWd_now]
      exact ite_eq_right_iff.mpr fun _ => by simp [Wd.enabled]
    have hsync : (e.wdSync 2).wd 2 = (d.wd 2).enabled d.now (d.h.dev == .boot || d.h.fReset) := by
      rw [Dev.wdSync, Dev.wd_setWd_same, hcycles, he, Dev.wd_setWd_same, Dev.setWd_now]
      rfl
    refine ⟨?_, ?_, ?_⟩
    · simpa [Dev.wd] using hsync
    · rw [Dev.setFld_h]
      exact hA
    · rw [Dev.setFld_h]
      exact hB
  · rw [if_neg h]
    exact ⟨Dev.wd_setWd_same .., hA, hB⟩

/-- Settles O34: a service word, a key word and EN_SET reach the watchdog from its master, and each then does what Table WD-3 says. -/
theorem watchdogServiceAndKeys : Obligations.WatchdogServiceAndKeys := by
  intro s fn k t data hk
  refine ⟨fun hen hheld hdue hopen => ?service, fun hfn hopen hdue hlock => ?keys⟩
  case service =>
    have hrun := Dev.wdServe_of_running (d := s.dev.at t) hen hheld hdue
    refine ⟨fun harmed => ?_, fun harmed hwindow => ?_, fun hwrong => ?_⟩
    all_goals refine s.onDev_of (g := doWdService k _ t) ((doWdService_of_open t _ hk hopen).trans ?_)
    · exact (hrun _).trans (if_pos ⟨rfl, by rw [Bool.not_eq_true']; exact harmed⟩)
    · exact (hrun _).trans ((if_neg fun h => absurd h.1 (by decide)).trans (if_pos ⟨rfl, harmed, hwindow⟩))
    · exact Dev.wdServe_of_wrong (d := s.dev.at t) hen hheld hdue hwrong
  case keys =>
    have hfree : ¬ (s.dev.at t).flag (Fld.WD_CTRL_LOCK k) = true := Bool.eq_false_iff.mp hlock
    refine ⟨?_, fun harmed => ?_, fun hen h1 h2 => ?_⟩
    · refine s.onDev_of (g := doWdKey fn k _ t) ((doWdKey_of_open t _ hk hfn hopen hdue).trans ?_)
      exact (if_neg hfree).trans (if_pos rfl)
    · refine s.onDev_of (g := doWdKey fn k _ t) ((doWdKey_of_open t _ hk hfn hopen hdue).trans ?_)
      exact (if_neg hfree).trans ((if_neg (by decide)).trans (if_pos ⟨rfl, harmed⟩))
    · obtain ⟨hwd, hA, hB⟩ := (s.dev.at t).wdCtrlWrite_enSet (s.nv.lifecycle == .development) hk hen h1 h2
      refine ⟨_, s.onDev_of (g := doWdEnable _ fn k data t) (doWdEnable_of_open t data hk _ hfn hopen hdue), hwd, hA.trans ?_,
        hB.trans ?_, rfl, rfl⟩
      · split
        case isTrue h => rw [← hwd, h]
        case isFalse => rfl
      · split
        case isTrue h => rw [← hwd, h]
        case isFalse => rfl

end Sys2Proof.Machine
end

section
/-!
PROOF. What a function reset leaves and what it resets (Table PCI-7).
-/

namespace Sys2Proof.Machine

/-! ## Tables -/

/-- A table without some of its keys. -/
theorem Tab.get_filter_key {α : Type} (d : Nat → α) (p : Nat → Bool) (k : Nat) : ∀ m : Tab α,
    Tab.get d (m.filter fun e => p e.1) k = if p k then Tab.get d m k else d k
  | [] => by simp
  | (j, v) :: m => by
    have ih := Tab.get_filter_key d p k m
    by_cases hk : k = j
    · subst hk
      cases hp : p k <;> simp_all [Tab.get_cons]
    · cases hp : p j <;> simp_all [Tab.get_cons]

/-- The keys of a table in canonical form rise. -/
theorem Tab.pairwise_of_wf {α : Type} [DecidableEq α] (d : Nat → α) : ∀ {m : Tab α}, Tab.wf d m = true →
    List.Pairwise (fun a b : Nat × α => a.1 < b.1) m
  | [], _ => .nil
  | (j, v) :: m, h => by
    simp only [Tab.wf_cons, Bool.and_eq_true] at h
    obtain ⟨⟨-, habove⟩, hm⟩ := h
    refine .cons (fun p hp => ?_) (Tab.pairwise_of_wf d hm)
    simpa using List.all_eq_true.mp habove p hp

/-- What a table in canonical form lists is what it reads other than its default. -/
theorem Tab.mem_iff_of_wf {α : Type} [DecidableEq α] (d : Nat → α) {k : Nat} {v : α} (hv : v ≠ d k) : ∀ {m : Tab α},
    Tab.wf d m = true → ((k, v) ∈ m ↔ Tab.get d m k = v)
  | [], _ => by simp [hv.symm]
  | (j, u) :: m, h => by
    have hall := h
    simp only [Tab.wf_cons, Bool.and_eq_true] at h
    obtain ⟨⟨-, habove⟩, hm⟩ := h
    rw [List.mem_cons, Tab.get_cons, Tab.mem_iff_of_wf d hv hm, Prod.mk.injEq]
    by_cases hk : k = j
    · subst hk
      rw [if_pos rfl, Tab.get_of_above d habove]
      exact ⟨fun h => h.elim (fun h => h.2.symm) fun h => absurd h.symm hv, fun h => .inl ⟨rfl, h.symm⟩⟩
    · rw [if_neg hk]
      exact ⟨fun h => h.resolve_left fun h => hk h.1, .inr⟩

/-! ## The operations of the device -/

theorem Dev.mem_opsList {d : Dev} (hwf : Tab.wf (fun _ => none) d.h.ops = true) (tag : Nat) (o : Op) :
    (tag, o) ∈ d.opsList ↔ d.op tag = some o := by
  unfold Dev.op
  rw [← Tab.mem_iff_of_wf _ (Option.some_ne_none o) hwf, Dev.opsList, List.mem_filterMap]
  constructor
  · rintro ⟨⟨j, v⟩, hmem, hp⟩
    obtain ⟨x, rfl, heq⟩ := Option.map_eq_some_iff.mp hp
    obtain ⟨rfl, rfl⟩ := Prod.mk.inj heq
    exact hmem
  · exact fun hmem => ⟨(tag, some o), hmem, rfl⟩

theorem Dev.nodup_opsList {d : Dev} (hwf : Tab.wf (fun _ => none) d.h.ops = true) : (d.opsList.map Prod.fst).Nodup := by
  refine List.pairwise_map.mpr (List.Pairwise.filterMap _ ?_ (Tab.pairwise_of_wf _ hwf))
  rintro ⟨a, x⟩ ⟨b, y⟩ hlt p hp q hq
  obtain ⟨-, -, rfl⟩ := Option.map_eq_some_iff.mp hp
  obtain ⟨-, -, rfl⟩ := Option.map_eq_some_iff.mp hq
  exact Nat.ne_of_lt hlt

theorem Dev.op_setOp (d : Dev) (tag g : Nat) (o : Option Op) : (d.setOp tag o).op g = if g = tag then o else d.op g := by
  simp [Dev.op, Dev.setOp, Tab.get_set]

/-! ## Operations and slots taken back -/

/-- The device without its operations and what the F-side's blocks keep for them. -/
def Dev.opsLeft (d : Dev) : Dev :=
  { d with
    h := { d.h with ops := [] }
    f := { d.f with
      ops := []
      ch := { d.f.ch with capA := none, capB := none }
      fsp := Fsp.reset
      twp := Twp.reset
      ft := { d.f.ft with tm := [] }
      car := { d.f.car with slots := [] } } }

theorem Dev.opsLeft_fspCount (d : Dev) (e : Nat) : (d.fspCount e).opsLeft = d.opsLeft ∧ (d.fspCount e).h = d.h := by
  unfold Dev.fspCount; dsimp only
  split
  · exact ⟨rfl, rfl⟩
  · exact ⟨rfl, rfl⟩

/-- A part blind to the blocks' traces of operations and to their tags does not see a waiting operation dropped. -/
theorem Dev.dropWaiting_blind {α : Type} {π : Dev → α} (tag : Nat) (h : ∀ d e : Dev, e.opsLeft = d.opsLeft → e.h = d.h → π e = π d)
    (hop : ∀ d : Dev, π (d.setOp tag none) = π d) (d : Dev) (o : Op) : π (d.dropWaiting tag o) = π d := by
  have hcount (b : Bool) (e : Nat) : π (if b then d.fspCount e else d) = π d :=
    Dev.ite_kept (π := π) (h _ _ (d.opsLeft_fspCount e).1 (d.opsLeft_fspCount e).2) rfl
  unfold Dev.dropWaiting; extract_lets fresh e gone f0 ch fsp twp f d1
  refine (hop _).trans ((Dev.StreamBlind.foldl (π := π) _ (fun e k => ?_) _ _).trans ((h e d1 rfl rfl).trans (hcount _ _)))
  split
  · exact h _ _ rfl rfl
  · rfl

theorem Dev.opsLeft_dropWaiting (d : Dev) (tag : Nat) (o : Op) : (d.dropWaiting tag o).opsLeft = d.opsLeft :=
  Dev.dropWaiting_blind (π := Dev.opsLeft) tag (fun _ _ h _ => h) (fun _ => rfl) d o

theorem Dev.op_dropWaiting (d : Dev) (tag : Nat) (o : Op) (g : Nat) :
    (d.dropWaiting tag o).op g = if g = tag then none else d.op g := by
  split
  case isTrue h =>
    subst h
    unfold Dev.dropWaiting
    rw [Dev.op_setOp, if_pos rfl]
  case isFalse h =>
    refine Dev.dropWaiting_blind (π := fun d => d.op g) tag (fun d e _ hh => ?_) (fun d => ?_) d o
    · unfold Dev.op; rw [hh]
    · rw [Dev.op_setOp, if_neg h]

/-- One operation at its function's reset. -/
def Dev.opReset (d : Dev) (fn : Func) (p : Nat × Op) : Dev :=
  if p.2.fn != fn then d
  else if p.2.stage == .admitted then d.setOp p.1 none
  else if d.waitsField p.1 p.2 || d.outLost p.1 p.2 then d.dropWaiting p.1 p.2
  else d.setOp p.1 (some { p.2 with drop := true })

/-- An operation of another function stays; one of the function is no longer there, or is to be discarded. -/
theorem Dev.op_opReset (d : Dev) (fn : Func) (p : Nat × Op) : (p.2.fn ≠ fn → d.opReset fn p = d) ∧
    (∀ g, g ≠ p.1 → (d.opReset fn p).op g = d.op g) ∧ (p.2.fn = fn → ∀ o, (d.opReset fn p).op p.1 = some o → o.drop = true) := by
  unfold Dev.opReset
  refine ⟨fun h => if_pos (bne_iff_ne.mpr h), fun g hg => ?_, fun h o => ?_⟩
  · split_ifs
    · rfl
    · rw [Dev.op_setOp, if_neg hg]
    · rw [Dev.op_dropWaiting, if_neg hg]
    · rw [Dev.op_setOp, if_neg hg]
  · rw [if_neg (by simp [h])]
    split_ifs
    · rw [Dev.op_setOp, if_pos rfl]
      exact fun h => absurd h.symm (Option.some_ne_none o)
    · rw [Dev.op_dropWaiting, if_pos rfl]
      exact fun h => absurd h.symm (Option.some_ne_none o)
    · rw [Dev.op_setOp, if_pos rfl]
      rintro ⟨rfl⟩
      rfl

theorem Dev.opsLeft_opReset (d : Dev) (fn : Func) (p : Nat × Op) : (d.opReset fn p).opsLeft = d.opsLeft := by
  unfold Dev.opReset
  split_ifs
  · rfl
  · rfl
  · exact d.opsLeft_dropWaiting _ _
  · rfl

/-- What a list of operations, each of its own tag, leaves of a tag at their function's reset. -/
theorem Dev.op_opResets (fn : Func) (g : Nat) : ∀ (l : List (Nat × Op)) (d : Dev), (l.map Prod.fst).Nodup →
    ((∀ o, (g, o) ∈ l → o.fn ≠ fn) → (l.foldl (fun d p => d.opReset fn p) d).op g = d.op g) ∧
    ((∃ o, (g, o) ∈ l ∧ o.fn = fn) → ∀ o, (l.foldl (fun d p => d.opReset fn p) d).op g = some o → o.drop = true)
  | [], _, _ => ⟨fun _ => rfl, fun ⟨_, h, _⟩ => absurd h List.not_mem_nil⟩
  | (j, x) :: l, d, hnodup => by
    obtain ⟨hj, hl⟩ := List.nodup_cons.mp hnodup
    obtain ⟨hother, hmine⟩ := Dev.op_opResets fn g l (d.opReset fn (j, x)) hl
    obtain ⟨hkept, hne, hdrop⟩ := d.op_opReset fn (j, x)
    have hnot (h : g = j) (o : Op) : (g, o) ∉ l := fun hmem => hj (List.mem_map.mpr ⟨_, hmem, h⟩)
    refine ⟨fun h => ?_, ?_⟩
    · refine (hother fun o ho => h o (List.mem_cons_of_mem _ ho)).trans ?_
      by_cases hg : g = j
      · rw [hkept (h x (hg ▸ List.mem_cons_self))]
      · exact hne g hg
    · rintro ⟨o, hmem, hfn⟩
      rcases List.mem_cons.mp hmem with heq | hin
      · obtain ⟨rfl, rfl⟩ := Prod.mk.inj heq
        rw [List.foldl_cons, hother fun o ho => absurd ho (hnot rfl o)]
        exact hdrop hfn
      · exact hmine ⟨o, hin, hfn⟩

/-- A function's reset leaves the operations of the other one, and of its own those to be discarded. -/
theorem Dev.op_opsReset {d : Dev} (hwf : Tab.wf (fun _ => none) d.h.ops = true) (fn : Func) (g : Nat) :
    (∀ o, (d.opsReset fn).op g = some o → o.fn = fn → o.drop = true) ∧
    (∀ o, d.op g = some o → o.fn ≠ fn → (d.opsReset fn).op g = some o) := by
  obtain ⟨hother, hmine⟩ := Dev.op_opResets fn g d.opsList d (Dev.nodup_opsList hwf)
  by_cases h : ∃ o, (g, o) ∈ d.opsList ∧ o.fn = fn
  · obtain ⟨x, hx, hfn⟩ := h
    refine ⟨fun o ho _ => hmine ⟨x, hx, hfn⟩ o ho, fun o ho hne => absurd ?_ hne⟩
    rw [Dev.mem_opsList hwf, ho] at hx
    rw [Option.some.inj hx]; exact hfn
  · have hall : ∀ o, (g, o) ∈ d.opsList → o.fn ≠ fn := fun o ho hfn => h ⟨o, ho, hfn⟩
    refine ⟨fun o ho hfn => absurd hfn (hall o ((Dev.mem_opsList hwf g o).mpr ?_)), fun o ho _ => (hother hall).trans ho⟩
    exact (hother hall).symm.trans ho

theorem Dev.opsLeft_opsReset (d : Dev) (fn : Func) : (d.opsReset fn).opsLeft = d.opsLeft :=
  Dev.StreamBlind.foldl (π := Dev.opsLeft) _ (fun d p => d.opsLeft_opReset fn p) _ _

theorem Dev.slotsReset_kept {α : Type} {π : Dev → α} (h : ∀ (d : Dev) (n : Nat) (x : Slot), π (d.setSlot n x) = π d) (d : Dev) (fn : Func) :
    π (d.slotsReset fn) = π d :=
  Dev.StreamBlind.foldl (π := π) _ (fun d n => Dev.ite_kept (π := π) (h d n _) rfl) _ _

/-! ## Registers and rings reset -/

theorem Dev.rd_resetRegs (d : Dev) (p : Nat → Bool) {k : Nat} (hk : onFSide (baseOff k) = false) :
    (d.resetRegs p).rd k = if p k then resetWord k else d.rd k := by
  simp only [Dev.rd, hk, Bool.false_eq_true, if_false]
  refine (Tab.get_filter_key resetWord (fun k => !p k) k d.h.regs).trans ?_
  cases p k <;> rfl

/-- The rings of a function. -/
def Dev.ringsOf (d : Dev) (fn : Func) : List Nat := (List.range 64).filter fun n => d.ringOwner n == fn

theorem Dev.mem_ringsOf (d : Dev) (fn : Func) (n : Nat) : n ∈ d.ringsOf fn ↔ n < 64 ∧ d.ringOwner n = fn := by
  simp [Dev.ringsOf]

theorem onFSide_ringCfg {n : Nat} (hn : n < 64) : onFSide (baseOff (Reg.RM_RING_CFG n)) = false ∧ resetWord (Reg.RM_RING_CFG n) = 0x28#32 := by
  have hall : ∀ n : Fin 64, onFSide (baseOff (Reg.RM_RING_CFG n)) = false ∧ resetWord (Reg.RM_RING_CFG n) = 0x28#32 := by decide
  exact hall ⟨n, hn⟩

/-- A ring's configuration is among the registers of that ring alone. -/
theorem ringCfg_mem_ringRegs {n : Nat} {l : List Nat} (hl : ∀ m ∈ l, m < 64) :
    (l.any fun m => ringReg m (Reg.RM_RING_CFG n) || Reg.RM_RING_CFG n == Reg.RM_BACKLOG m) = decide (n ∈ l) := by
  rw [Bool.eq_iff_iff, List.any_eq_true, decide_eq_true_iff]
  constructor
  · rintro ⟨m, hm, h⟩
    have hm64 := hl m hm
    have hnm : n = m := by
      rcases Bool.or_eq_true _ _ ▸ h with hring | hlog
      · obtain ⟨hlo, hhi⟩ := (Bool.and_eq_true _ _).mp hring
        have hlo : 0x0800 + 32 * m ≤ 0x0810 + 32 * n := of_decide_eq_true hlo
        have hhi : 0x0810 + 32 * n < 0x0820 + 32 * m := of_decide_eq_true hhi
        omega
      · have hlog : 0x0810 + 32 * n = 0x0700 + 4 * m := beq_iff_eq.mp hlog
        omega
    exact hnm ▸ hm
  · refine fun hn => ⟨n, hn, ?_⟩
    simp [ringReg, Reg.RM_RING_CFG]

theorem Dev.ring_ringsReset (d : Dev) (fn : Func) (n : Nat) :
    (d.ringsReset fn).ring n = if n ∈ d.ringsOf fn then Ring.idle else d.ring n := by
  refine (Tab.get_filter_key (fun _ => Ring.idle) (fun k => !(d.ringsOf fn).contains k) n d.h.rings).trans ?_
  by_cases h : n ∈ d.ringsOf fn
  · rw [if_pos h, if_neg (by simp [h])]
  · rw [if_neg h, if_pos (by simp [h])]
    rfl

theorem Dev.ringCfg_ringsReset (d : Dev) (fn : Func) {n : Nat} (hn : n < 64) :
    (d.ringsReset fn).rd (Reg.RM_RING_CFG n) = if n ∈ d.ringsOf fn then 0x28#32 else d.rd (Reg.RM_RING_CFG n) := by
  obtain ⟨hside, hreset⟩ := onFSide_ringCfg hn
  refine (d.rd_resetRegs (fun k => (d.ringsOf fn).any fun m => ringReg m k || k == Reg.RM_BACKLOG m) hside).trans ?_
  rw [ringCfg_mem_ringRegs (l := d.ringsOf fn) fun m hm => ((d.mem_ringsOf fn m).mp hm).1, hreset]
  simp only [decide_eq_true_eq]

/-- The registers of a function that its reset puts back beside those of its rings. -/
def fnRegs (fn : Func) (flr : Bool) (k : Nat) : Bool :=
  (k == keyOf fn Reg.PCI_LINK_STATUS || k == keyOf fn Reg.PCI_INT_CAUSE || k == keyOf fn Reg.PCI_DROP_CNT
    || k == keyOf fn Reg.PCI_CNT_SAT)
    || (flr && decide (keyOf fn 0x20000 ≤ k) && decide (k < keyOf fn 0x20040))
    || (flr && decide (cfgKey fn 0 ≤ k) && decide (k < cfgKey fn 0x1000) && k != cfgKey fn 0x2C)

theorem fnRegs_ringCfg (fn : Func) (flr : Bool) {n : Nat} (hn : n < 64) : fnRegs fn flr (Reg.RM_RING_CFG n) = false := by
  have hall : ∀ (fn flr : Bool) (n : Fin 64), fnRegs fn flr (Reg.RM_RING_CFG n) = false := by decide
  exact hall fn flr ⟨n, hn⟩

/-- A function's operations, slots, rings and registers reset. -/
def Dev.fnCleared (d : Dev) (fn : Func) (flr : Bool) : Dev :=
  (((d.opsReset fn).slotsReset fn).ringsReset fn).resetRegs (fnRegs fn flr)

/-- A function's PCI state as its reset leaves it. -/
def PciFn.inReset (p : PciFn) (flr : Bool) (now : Nat) : PciFn :=
  if flr then { PciFn.reset with resetAt := some now, intx := p.intx } else { p with pba := 0, resetAt := some now }

/-- Function A's staging interface closed with its reset. -/
def Dev.stageClosed (d : Dev) (fn : Func) : Dev := if fn then d else d.setFld Fld.FW_STATUS_STAGE_OPEN 0

/-- A function's image, sweep, reads of the field window and watchdog as its reset leaves them. -/
def Dev.fnFresh (d : Dev) (fn : Func) : Dev :=
  let sw := d.sweep fn
  let d4 := (d.setImg fn (Image.fresh fn)).setSweep fn { Sweep.idle with credits := sw.credits, lastRing := sw.lastRing }
  let d5 := { d4 with h.fwReads := d4.h.fwReads.filter (fun r => r.fn != fn) }
  d5.setWd fn.idx (d5.wd fn.idx).inReset

/-- What remains of a function's reset once its registers are reset: its PCI state, what `fnFresh` says, its modes of SN_ACK, and its
channels. -/
def Dev.fnHeld (d : Dev) (fn : Func) (p : PciFn) : Dev :=
  (((((d.setPci fn p).intx fn).stageClosed fn).fnFresh fn).ackReset fn).holdFn fn

theorem Dev.functionReset_of_alone {d : Dev} (fn : Func) (flr : Bool) (h : d.broaderReset = false) :
    d.functionReset fn flr = (d.fnCleared fn flr).fnHeld fn ((d.pci fn).inReset flr d.now) := by
  unfold Dev.functionReset
  rw [h, if_neg Bool.false_ne_true]
  cases flr <;> rfl

/-! ## What remains of a reset -/

/-- The device without registers, and without what is sent, copied to the shadow, or taken anew with the levels. -/
def Dev.ackLeft (d : Dev) : Dev :=
  { d.unpinned with
    h.regs := []
    h.syncPend := false
    h.shadowQ := []
    f.ch.waitA := false
    f.ch.waitB := false }

theorem Dev.streamBlind_ackLeft : Dev.StreamBlind Dev.ackLeft := .of_unsent fun _ => rfl

theorem Dev.ackLeft_wr (d : Dev) (k : Nat) (v : Word) : (d.wr k v).ackLeft = d.ackLeft := by
  unfold Dev.wr
  split
  · rfl
  · rfl

theorem Dev.ackLeft_pins (d : Dev) : d.pins.ackLeft = d.ackLeft :=
  Dev.streamBlind_ackLeft.pins (fun d c hc => by
    unfold Dev.ackLeft
    rw [d.unpinned_ch c hc]) (fun d v => ⟨d.ackLeft_wr _ v, d.ackLeft_wr _ v⟩) (fun _ _ => rfl) d

theorem Dev.ackLeft_holdFn (d : Dev) (fn : Func) : (d.holdFn fn).ackLeft = d.ackLeft := by
  refine (Dev.ackLeft_pins _).trans ?_
  cases fn <;> rfl

theorem Dev.ackLeft_ackReset (d : Dev) (fn : Func) : (d.ackReset fn).ackLeft = d.ackLeft :=
  (Dev.streamBlind_ackLeft.shadowSend (fun _ _ _ => rfl) _ _ _ _).trans (d.ackLeft_wr _ _)

theorem Dev.ackLeft_ackHold (d : Dev) (fn : Func) : ((d.ackReset fn).holdFn fn).ackLeft = d.ackLeft :=
  (Dev.ackLeft_holdFn _ fn).trans (d.ackLeft_ackReset fn)

/-- It also without a function's PCI state, image, sweep and watchdog. -/
def Dev.fnLeft (d : Dev) (fn : Func) : Dev :=
  (((d.ackLeft.setPci fn PciFn.reset).setImg fn (Image.fresh fn)).setSweep fn Sweep.idle).setWd fn.idx Wd.off

theorem Dev.streamBlind_fnLeft (fn : Func) : Dev.StreamBlind (fun d => d.fnLeft fn) := .of_unsent fun _ => rfl

theorem Dev.fnLeft_of_ackLeft {d e : Dev} (h : e.ackLeft = d.ackLeft) (fn : Func) : e.fnLeft fn = d.fnLeft fn := by
  unfold Dev.fnLeft
  rw [h]

theorem Dev.fnLeft_setPci (d : Dev) (fn : Func) (p : PciFn) : (d.setPci fn p).fnLeft fn = d.fnLeft fn := by
  cases fn <;> rfl

theorem Dev.fnLeft_intx (d : Dev) (fn : Func) : (d.intx fn).fnLeft fn = d.fnLeft fn :=
  Dev.ite_kept (π := fun d => d.fnLeft fn) rfl (((Dev.streamBlind_fnLeft fn).tlp _ _ _).trans (d.fnLeft_setPci fn _))

theorem Dev.fnLeft_stageClosed (d : Dev) (fn : Func) : (d.stageClosed fn).fnLeft fn = d.fnLeft fn :=
  Dev.ite_kept (π := fun e => e.fnLeft fn) rfl (Dev.fnLeft_of_ackLeft (Dev.ackLeft_wr _ _ _) fn)

theorem Dev.fnLeft_setImg (d : Dev) (fn : Func) (i : Image) : (d.setImg fn i).fnLeft fn = d.fnLeft fn := by
  cases fn <;> rfl

theorem Dev.fnLeft_setSweep (d : Dev) (fn : Func) (s : Sweep) : (d.setSweep fn s).fnLeft fn = d.fnLeft fn := by
  cases fn <;> rfl

theorem Dev.fnLeft_setWd (d : Dev) (fn : Func) (w : Wd) : (d.setWd fn.idx w).fnLeft fn = d.fnLeft fn := by
  cases fn <;> rfl

theorem Dev.fnLeft_fnFresh (d : Dev) (fn : Func) : (d.fnFresh fn).fnLeft fn = d.fnLeft fn :=
  (Dev.fnLeft_setWd _ fn _).trans <| ((Dev.streamBlind_fnLeft fn).reads _ _).trans <|
    (Dev.fnLeft_setSweep _ fn _).trans (d.fnLeft_setImg fn _)

theorem Dev.fnLeft_fnHeld (d : Dev) (fn : Func) (p : PciFn) : (d.fnHeld fn p).fnLeft fn = d.fnLeft fn :=
  (Dev.fnLeft_of_ackLeft (Dev.ackLeft_ackHold _ fn) fn).trans <| (Dev.fnLeft_fnFresh _ fn).trans <|
    (Dev.fnLeft_stageClosed _ fn).trans <| (Dev.fnLeft_intx _ fn).trans (d.fnLeft_setPci fn p)

theorem Dev.pci_setPci (d : Dev) (fn : Func) (p : PciFn) : (d.setPci fn p).pci fn = p := by cases fn <;> rfl

theorem Dev.pci_intx (d : Dev) (fn : Func) : ∃ b, (d.intx fn).pci fn = { d.pci fn with intx := b } := by
  unfold Dev.intx; dsimp only
  split
  · exact ⟨(d.pci fn).intx, rfl⟩
  · refine ⟨!(d.pci fn).msixEn && !(d.pci fn).intDis && !(d.pci fn).d3 && d.fld (Fld.PCI_INT_CAUSE_CAUSE.of fn) != 0, ?_⟩
    exact Dev.pci_setPci d fn _

theorem Dev.wd_intx (d : Dev) (fn : Func) (k : Nat) : (d.intx fn).wd k = d.wd k :=
  Dev.ite_kept (π := fun d => d.wd k) rfl (by cases fn <;> rfl)

theorem Dev.stageClosed_kept (d : Dev) (fn : Func) : (d.stageClosed fn).pci fn = d.pci fn ∧ (d.stageClosed fn).wd fn.idx = d.wd fn.idx := by
  refine ⟨Dev.ite_kept (π := fun e => e.pci fn) rfl ?_, Dev.ite_kept (π := fun e => e.wd fn.idx) rfl ?_⟩
  · unfold Dev.pci; rw [Dev.setFld_h]
  · unfold Dev.wd; rw [Dev.setFld_h, Dev.setFld_f]

theorem Dev.fnFresh_same (d : Dev) (fn : Func) : (d.fnFresh fn).pci fn = d.pci fn ∧ (d.fnFresh fn).img fn = Image.fresh fn ∧
    (d.fnFresh fn).wd fn.idx = (d.wd fn.idx).inReset := by
  cases fn
  · exact ⟨rfl, rfl, rfl⟩
  · exact ⟨rfl, rfl, rfl⟩

/-- What the reset leaves of the function itself. -/
theorem Dev.fnHeld_same (d : Dev) (fn : Func) (p : PciFn) : (∃ b, (d.fnHeld fn p).pci fn = { p with intx := b }) ∧
    (d.fnHeld fn p).img fn = Image.fresh fn ∧ (d.fnHeld fn p).wd fn.idx = (d.wd fn.idx).inReset := by
  have hleft := ((((d.setPci fn p).intx fn).stageClosed fn).fnFresh fn).ackLeft_ackHold fn
  obtain ⟨hpci, himg, hwd⟩ := (((d.setPci fn p).intx fn).stageClosed fn).fnFresh_same fn
  obtain ⟨hpciStage, hwdStage⟩ := ((d.setPci fn p).intx fn).stageClosed_kept fn
  obtain ⟨b, hb⟩ := (d.setPci fn p).pci_intx fn
  rw [Dev.pci_setPci] at hb
  have hwdPci : (d.setPci fn p).wd fn.idx = d.wd fn.idx := by cases fn <;> rfl
  refine ⟨⟨b, ?_⟩, ?_, ?_⟩
  · exact (congrArg (fun d : Dev => d.pci fn) hleft).trans (hpci.trans (hpciStage.trans hb))
  · exact (congrArg (fun d : Dev => d.img fn) hleft).trans himg
  · refine (congrArg (fun d : Dev => d.wd fn.idx) hleft).trans (hwd.trans ?_)
    rw [hwdStage, Dev.wd_intx, hwdPci]

/-- No register of a ring is among those that the reset of a function writes at its end. -/
theorem Dev.ringCfg_fnHeld (d : Dev) (fn : Func) (p : PciFn) {n : Nat} (hn : n < 64) :
    (d.fnHeld fn p).rd (Reg.RM_RING_CFG n) = d.rd (Reg.RM_RING_CFG n) := by
  have hne : ∀ n : Fin 64, Reg.RM_RING_CFG n ≠ Reg.CH_PIN_MISM_LO ∧ Reg.RM_RING_CFG n ≠ Reg.CH_PIN_MISM_HI ∧
      Reg.RM_RING_CFG n ≠ Fld.FW_STATUS_STAGE_OPEN.off ∧ ∀ fn, Reg.RM_RING_CFG n ≠ keyOf fn Reg.SN_ACK := by decide
  obtain ⟨hlo, hhi, hstage, hack⟩ := hne ⟨n, hn⟩
  have hintx (e : Dev) : (e.intx fn).rd (Reg.RM_RING_CFG n) = e.rd (Reg.RM_RING_CFG n) :=
    Dev.ite_kept (π := fun e => e.rd (Reg.RM_RING_CFG n)) rfl (by cases fn <;> rfl)
  have hclosed (e : Dev) : (e.stageClosed fn).rd (Reg.RM_RING_CFG n) = e.rd (Reg.RM_RING_CFG n) :=
    Dev.ite_kept (π := fun e => e.rd (Reg.RM_RING_CFG n)) rfl (e.rd_setFld_ne _ _ hstage)
  have hfresh (e : Dev) : (e.fnFresh fn).rd (Reg.RM_RING_CFG n) = e.rd (Reg.RM_RING_CFG n) := by cases fn <;> rfl
  have hackReset (e : Dev) : (e.ackReset fn).rd (Reg.RM_RING_CFG n) = e.rd (Reg.RM_RING_CFG n) :=
    (Dev.rd_shadowSend ..).trans (e.rd_wr_ne _ (hack fn))
  have hhold (e : Dev) : (e.holdFn fn).rd (Reg.RM_RING_CFG n) = e.rd (Reg.RM_RING_CFG n) := by
    refine (Dev.rd_pins _ hlo hhi).trans ?_
    cases fn <;> rfl
  have hpci : (d.setPci fn p).rd (Reg.RM_RING_CFG n) = d.rd (Reg.RM_RING_CFG n) := by cases fn <;> rfl
  exact (hhold _).trans <| (hackReset _).trans <| (hfresh _).trans <| (hclosed _).trans <| (hintx _).trans hpci

/-! ## Channels held -/

theorem Dev.held_addDue (d : Dev) (m : W48) : (d.addDue m).f.ch.held = d.f.ch.held := by
  unfold Dev.addDue
  refine Dev.StreamBlind.foldl (π := fun d => d.f.ch.held) _ (fun d b => ?_) _ _
  split
  · rfl
  · rfl

/-- The channels that the levels taken anew hold. -/
theorem Dev.held_pins (d : Dev) : d.pins.f.ch.held = d.f.ch.held ||| d.holdMask := by
  have hblind : Dev.StreamBlind (fun d => d.f.ch.held) := .of_unsent fun _ => rfl
  have hwr (e : Dev) (m : W48) : (e.setMask48 Reg.CH_PIN_MISM_LO Reg.CH_PIN_MISM_HI m).f.ch.held = e.f.ch.held := by
    unfold Dev.setMask48
    rw [Dev.wr_f, Dev.wr_f]
  have hcnt (e : Dev) (q : Tab Nat) : ({ e with f.ch.mismCnt := q } : Dev).f.ch.held = e.f.ch.held := rfl
  have hgone (e : Dev) (m : W48) (q : Tab Nat) :
      (if m = 0 then ({ e.setMask48 Reg.CH_PIN_MISM_LO Reg.CH_PIN_MISM_HI m with f.ch.mismCnt := q }).condEnd .f Sn.CHK_PIN
        else { e.setMask48 Reg.CH_PIN_MISM_LO Reg.CH_PIN_MISM_HI m with f.ch.mismCnt := q }).f.ch.held = e.f.ch.held := by
    split
    · exact (hblind.condEnd (fun _ _ => rfl) _).trans ((hcnt _ q).trans (hwr e m))
    · exact (hcnt _ q).trans (hwr e m)
  have hif (c : Chans) (m : W48) (p : Prop) [Decidable p] :
      (if p then { d with f.ch := c } else ({ d with f.ch := c }).addDue m).f.ch.held = c.held := by
    split
    · rfl
    · exact Dev.held_addDue _ m
  unfold Dev.pins; dsimp only
  split
  · exact hif _ _ _
  · exact (hgone _ _ _).trans (hif _ _ _)

/-- A function that waits for its first OUT_WRITE has every channel of its own among those to hold. -/
theorem Dev.own_holdMask {d : Dev} {fn : Func} (h : (if fn then d.f.ch.waitB else d.f.ch.waitA) = true) (held : W48) :
    d.f.ch.ownMask fn &&& ~~~(held ||| d.holdMask) = 0 := by
  unfold Dev.holdMask
  cases fn
  · have hwait : d.f.ch.waitA = true := h
    ext i hi
    simp +contextual [hwait]
  · have hwait : d.f.ch.waitB = true := h
    ext i hi
    simp +contextual [hwait]

theorem Dev.held_holdFn (d : Dev) (fn : Func) : (d.holdFn fn).f.ch.ownMask fn &&& ~~~(d.holdFn fn).f.ch.held = 0 := by
  have hpins (e : Dev) (h : (if fn then e.f.ch.waitB else e.f.ch.waitA) = true) :
      e.pins.f.ch.ownMask fn &&& ~~~e.pins.f.ch.held = 0 := by
    have hown : e.pins.unpinned.f.ch.ownMask fn = e.unpinned.f.ch.ownMask fn := by rw [e.unpinned_pins]
    rw [Dev.held_pins]
    exact (congrArg (· &&& ~~~(e.f.ch.held ||| e.holdMask)) hown).trans (Dev.own_holdMask h _)
  cases fn
  · exact hpins _ rfl
  · exact hpins _ rfl

/-! ## The reset of a function -/

/-- The device without operations, their traces, slots, rings and the H-side's registers. -/
def Dev.clearedLeft (d : Dev) : Dev := { d.opsLeft with h.regs := [], h.rings := [] }

theorem Dev.opsLeft_slotsReset (d : Dev) (fn : Func) : ((d.opsReset fn).slotsReset fn).opsLeft = d.opsLeft :=
  (Dev.slotsReset_kept (π := Dev.opsLeft) (fun _ _ _ => rfl) _ fn).trans (d.opsLeft_opsReset fn)

theorem Dev.clearedLeft_fnCleared (d : Dev) (fn : Func) (flr : Bool) : (d.fnCleared fn flr).clearedLeft = d.clearedLeft := by
  have hrings (e : Dev) (g : Func) : (e.ringsReset g).clearedLeft = e.clearedLeft := rfl
  have hregs (e : Dev) (p : Nat → Bool) : (e.resetRegs p).clearedLeft = e.clearedLeft := rfl
  refine (hregs _ _).trans ((hrings _ fn).trans ?_)
  unfold Dev.clearedLeft
  rw [d.opsLeft_slotsReset fn]

/-- The rings and their configuration after a function's reset. -/
theorem Dev.rings_fnCleared (d : Dev) (fn : Func) (flr : Bool) {n : Nat} (hn : n < 64) :
    (d.ringOwner n = fn → (d.fnCleared fn flr).ring n = Ring.idle ∧ (d.fnCleared fn flr).rd (Reg.RM_RING_CFG n) = 0x28#32) ∧
    (d.ringOwner n ≠ fn →
      (d.fnCleared fn flr).ring n = d.ring n ∧ (d.fnCleared fn flr).rd (Reg.RM_RING_CFG n) = d.rd (Reg.RM_RING_CFG n)) := by
  set e := (d.opsReset fn).slotsReset fn
  have hleft : e.opsLeft = d.opsLeft := d.opsLeft_slotsReset fn
  have hring : e.ring n = d.ring n := (congrArg (fun d : Dev => d.ring n) hleft :)
  have hrd : e.rd (Reg.RM_RING_CFG n) = d.rd (Reg.RM_RING_CFG n) := (congrArg (fun d : Dev => d.rd (Reg.RM_RING_CFG n)) hleft :)
  have howner : e.ringOwner n = d.ringOwner n := (congrArg (fun d : Dev => d.ringOwner n) hleft :)
  have hcfg : (d.fnCleared fn flr).rd (Reg.RM_RING_CFG n) = (e.ringsReset fn).rd (Reg.RM_RING_CFG n) := by
    refine ((e.ringsReset fn).rd_resetRegs _ (onFSide_ringCfg hn).1).trans ?_
    rw [fnRegs_ringCfg fn flr hn, if_neg Bool.false_ne_true]
  have hsame : (d.fnCleared fn flr).ring n = (e.ringsReset fn).ring n := rfl
  have hmem : n ∈ e.ringsOf fn ↔ d.ringOwner n = fn := by
    rw [Dev.mem_ringsOf, howner]
    exact ⟨And.right, fun h => ⟨hn, h⟩⟩
  rw [hsame, hcfg, Dev.ring_ringsReset, Dev.ringCfg_ringsReset e fn hn]
  refine ⟨fun h => ?_, fun h => ?_⟩
  · rw [if_pos (hmem.mpr h), if_pos (hmem.mpr h)]
    exact ⟨rfl, rfl⟩
  · rw [if_neg (mt hmem.mp h), if_neg (mt hmem.mp h)]
    exact ⟨hring, hrd⟩

/-- The operations after a function's reset. -/
theorem Dev.op_fnCleared (d : Dev) (fn : Func) (flr : Bool) (g : Nat) : (d.fnCleared fn flr).op g = (d.opsReset fn).op g :=
  Dev.slotsReset_kept (π := fun d => d.op g) (fun _ _ _ => rfl) _ fn

/-- What a function's reset leaves to the other function and to the device. -/
theorem Dev.functionReset_others {d : Dev} (fn : Func) (flr : Bool) (h : d.broaderReset = false) :
    (d.functionReset fn flr).pci (!fn) = d.pci (!fn) ∧ (d.functionReset fn flr).img (!fn) = d.img (!fn) ∧
    (d.functionReset fn flr).wd (1 - fn.idx) = d.wd (1 - fn.idx) ∧ (d.functionReset fn flr).h.pulse = d.h.pulse ∧
    (d.functionReset fn flr).f.ch.wordA = d.f.ch.wordA ∧ (d.functionReset fn flr).f.ch.wordB = d.f.ch.wordB ∧
    (d.functionReset fn flr).f.car.pos = d.f.car.pos := by
  rw [Dev.functionReset_of_alone fn flr h]
  have hheld := (d.fnCleared fn flr).fnLeft_fnHeld fn ((d.pci fn).inReset flr d.now)
  have hclear := d.clearedLeft_fnCleared fn flr
  have hlift {α : Type} (π : Dev → α) (hfn : ∀ d : Dev, π (d.fnLeft fn) = π d) (hcl : ∀ d : Dev, π d.clearedLeft = π d) :
      π ((d.fnCleared fn flr).fnHeld fn ((d.pci fn).inReset flr d.now)) = π d := by
    rw [← hfn, hheld, hfn, ← hcl, hclear, hcl]
  refine ⟨hlift (fun d => d.pci (!fn)) ?_ fun _ => rfl, hlift (fun d => d.img (!fn)) ?_ fun _ => rfl,
    hlift (fun d => d.wd (1 - fn.idx)) ?_ fun _ => rfl, hlift (fun d => d.h.pulse) ?_ fun _ => rfl,
    hlift (fun d => d.f.ch.wordA) ?_ fun _ => rfl, hlift (fun d => d.f.ch.wordB) ?_ fun _ => rfl,
    hlift (fun d => d.f.car.pos) ?_ fun _ => rfl⟩
  all_goals
    intro d
    cases fn <;> rfl

/-- What a function's reset leaves of the function itself. -/
theorem Dev.functionReset_same {d : Dev} (fn : Func) (flr : Bool) (h : d.broaderReset = false) :
    (∃ b, (d.functionReset fn flr).pci fn = { (d.pci fn).inReset flr d.now with intx := b }) ∧
    (d.functionReset fn flr).img fn = Image.fresh fn ∧ (d.functionReset fn flr).wd fn.idx = (d.wd fn.idx).inReset ∧
    (d.functionReset fn flr).f.ch.ownMask fn &&& ~~~(d.functionReset fn flr).f.ch.held = 0 := by
  rw [Dev.functionReset_of_alone fn flr h]
  obtain ⟨hpci, himg, hwd⟩ := (d.fnCleared fn flr).fnHeld_same fn ((d.pci fn).inReset flr d.now)
  have hclear : (d.fnCleared fn flr).wd fn.idx = d.wd fn.idx := (congrArg (fun d : Dev => d.wd fn.idx) (d.clearedLeft_fnCleared fn flr) :)
  exact ⟨hpci, himg, hwd.trans (congrArg Wd.inReset hclear), Dev.held_holdFn _ fn⟩

/-- The rings and operations after a function's reset. -/
theorem Dev.functionReset_rings {d : Dev} (fn : Func) (flr : Bool) (h : d.broaderReset = false) :
    (∀ n, (d.functionReset fn flr).ring n = (d.fnCleared fn flr).ring n) ∧
    (∀ n, n < 64 → (d.functionReset fn flr).rd (Reg.RM_RING_CFG n) = (d.fnCleared fn flr).rd (Reg.RM_RING_CFG n)) ∧
    (∀ g, (d.functionReset fn flr).op g = (d.opsReset fn).op g) := by
  rw [Dev.functionReset_of_alone fn flr h]
  have hheld := (d.fnCleared fn flr).fnLeft_fnHeld fn ((d.pci fn).inReset flr d.now)
  have hlift {α : Type} (π : Dev → α) (hfn : ∀ d : Dev, π (d.fnLeft fn) = π d) :
      π ((d.fnCleared fn flr).fnHeld fn ((d.pci fn).inReset flr d.now)) = π (d.fnCleared fn flr) := by
    rw [← hfn, hheld, hfn]
  refine ⟨fun n => hlift (fun d => d.ring n) ?_, fun n hn => Dev.ringCfg_fnHeld _ fn _ hn,
    fun g => (hlift (fun d => d.op g) ?_).trans (d.op_fnCleared fn flr g)⟩
  all_goals
    intro d
    cases fn <;> rfl

/-- Settles O16: a function's reset goes through its own operations, rings, registers and image, and holds its channels; the rest of the
device it does not reach. -/
theorem functionResetsAlone : Obligations.FunctionResetsAlone := by
  refine fun s fn t => ⟨fun hopen hbroad hrest hops _ => ?flr, fun hreset => ?ends⟩
  case flr =>
    have hbroadAt : (s.dev.at t).broaderReset = false := hbroad
    have hdo : doFlr fn t s.dev = (s.dev.at t).functionReset fn true := by
      have hwake : (s.dev.at t).wake .h 1 = s.dev.at t := if_pos (by rw [Dev.at_f, hrest]; rfl)
      have hopenAt : (s.dev.at t).cfgOpen = true := hopen
      unfold doFlr
      simp only [hopenAt, hwake, Bool.not_true, Bool.false_eq_true, if_false]
    obtain ⟨⟨b, hpci⟩, himg, hwd, hheld⟩ := Dev.functionReset_same fn true hbroadAt
    obtain ⟨hpciB, himgB, hwdB, -, hwordA, hwordB, hpos⟩ := Dev.functionReset_others fn true hbroadAt
    obtain ⟨hring, hcfg, hop⟩ := Dev.functionReset_rings fn true hbroadAt
    have hrings (n : Nat) (hn : n < 64) := (s.dev.at t).rings_fnCleared fn true hn
    obtain hopSpec := fun g => Dev.op_opsReset (d := s.dev.at t) hops fn g
    refine ⟨_, s.onDev_of hdo, ?_, ?_, ?_, fun n hn how => ?_, fun n hn how => ?_, himg, himgB, fun tag o ho => ?_, fun tag o ho hne => ?_,
      hwd, hwdB, hpciB, hheld, hwordA, hwordB, hpos, rfl, rfl⟩
    · exact congrArg PciFn.resetAt hpci
    · exact congrArg PciFn.bme hpci
    · exact congrArg PciFn.msixEn hpci
    · exact ⟨(hring n).trans ((hrings n hn).1 how).1, (hcfg n hn).trans ((hrings n hn).1 how).2⟩
    · exact ⟨(hring n).trans ((hrings n hn).2 how).1, (hcfg n hn).trans ((hrings n hn).2 how).2⟩
    · exact (hopSpec tag).1 o ((hop tag).symm.trans ho)
    · exact (hop tag).trans ((hopSpec tag).2 o ho hne)
  case ends =>
    refine s.onDev_of (g := doFunctionResetComplete fn t) ?_
    have hsome : ¬ ((s.dev.at t).pci fn).resetAt.isNone = true := by
      rw [show (s.dev.at t).pci fn = s.dev.pci fn from rfl]
      simpa using Option.isSome_iff_ne_none.mp hreset
    refine (if_neg hsome).trans ?_
    cases fn <;> rfl

end Sys2Proof.Machine
end

section
/-!
PROOF. The reset of the F-side and the watchdogs' reactions (R249, R375).
-/

namespace Sys2Proof.Machine

/-! ## The pulse of FAULT_F_N under a report of the H-side -/

theorem Dev.stateBlind_pulseF : Dev.StateBlind (fun d => d.f.pulse) where
  emit _ _ := rfl
  wrHalt d k v _ := by simp
  bulk d x b := by cases x <;> rfl
  reads _ _ := rfl
  pci d fn p := by cases fn <;> rfl
  op _ _ _ := rfl
  ring _ _ _ := rfl
  state _ _ _ _ _ _ := rfl
  irqRest _ _ := rfl
  restEntry _ _ := rfl
  brk _ _ := rfl

theorem Dev.pulseF_setFld (d : Dev) (F : Fld) (v : Nat) : (d.setFld F v).f.pulse = d.f.pulse := by simp

theorem Dev.pulseF_record (d : Dev) (i sev : Nat) : (d.record i sev).f.pulse = d.f.pulse := by
  have hlatch (e : Dev) (fn : Func) :
      (if e.flag (latchFld fn i) then e else (e.setFld (latchFld fn i) 1).irq fn 2).f.pulse = e.f.pulse :=
    Dev.ite_kept (π := fun d => d.f.pulse) rfl ((Dev.stateBlind_pulseF.irq _ _ _).trans (Dev.pulseF_setFld ..))
  exact (Dev.stateBlind_pulseF.followReactions _).trans <| (Dev.pulseF_setFld ..).trans <| (Dev.pulseF_setFld ..).trans <|
    (hlatch _ true).trans (hlatch d false)

/-- The H-side's pin has a pulse of its own; only registers change with it. -/
theorem Dev.pulse_h (d : Dev) : ∃ r r', (d.pulse .h).h = { d.h with regs := r, pulse := some d.now } ∧
    (d.pulse .h).f = { d.f with regs := r' } ∧ (d.pulse .h).now = d.now := by
  have hmode (e : Dev) (fn : Func) : ∃ r r',
      (if e.fld (Fld.SN_ACK_H_MODE.of fn) = 2 then e.setFld (Fld.SN_ACK_H_MODE.of fn) 0 else e).h = { e.h with regs := r } ∧
      (if e.fld (Fld.SN_ACK_H_MODE.of fn) = 2 then e.setFld (Fld.SN_ACK_H_MODE.of fn) 0 else e).f = { e.f with regs := r' } ∧
      (if e.fld (Fld.SN_ACK_H_MODE.of fn) = 2 then e.setFld (Fld.SN_ACK_H_MODE.of fn) 0 else e).now = e.now := by
    split
    · exact ⟨_, _, Dev.setFld_h .., Dev.setFld_f .., Dev.setFld_now ..⟩
    · exact ⟨_, _, rfl, rfl, rfl⟩
  obtain ⟨r1, s1, hr1, hs1, hn1⟩ := hmode { d with h.pulse := some d.now } false
  obtain ⟨r2, s2, hr2, hs2, hn2⟩ := hmode _ true
  rw [hr1] at hr2
  rw [hs1] at hs2
  exact ⟨r2, s2, hr2, hs2, hn2.trans hn1⟩

/-- A source of the H-side raised while the device is not in REST. -/
theorem Dev.pulseF_raiseH (d : Dev) (i : Nat) (a b : Bool) (hrest : d.f.ch.rest = none) :
    (d.raise .h i a b).f.pulse = d.f.pulse := by
  have hsend := Dev.stateBlind_pulseF.sendEvent
  unfold Dev.raise
  split
  · unfold Dev.raiseInfo; dsimp only
    split
    · rfl
    · exact (Dev.pulseF_record ..).trans ((hsend ..).trans rfl)
  · unfold Dev.raiseForce Dev.announce; dsimp only
    split
    · refine (Dev.pulseF_record ..).trans ((hsend ..).trans ?_)
      refine Dev.ite_kept (π := fun d => d.f.pulse) ?_ rfl
      have hawake (e : Dev) (h : e.f.ch.rest = none) : ((e.pulse .h).wake .h 3).f.pulse = e.f.pulse := by
        obtain ⟨-, r, -, hf, -⟩ := e.pulse_h
        have hstay : (e.pulse .h).wake .h 3 = e.pulse .h := if_pos (by rw [hf, h]; rfl)
        rw [hstay, hf]
      exact hawake _ hrest
    · rfl

/-! ## The link down -/

/-- The link cut: it is not up, and what waits on it is dropped. -/
def Dev.linkCut (d : Dev) : Dev :=
  let l := { d.h.link with
    up := false, training := false, fwd := 0, ret := 0, fwdBad := 0, retBad := 0
    retryAt := if d.now < d.h.link.retryAt then d.h.link.retryAt else d.now + msCycles }
  { d with h.link := l, h.syncPend := true, h.shadowQ := [], h.fwReads := [], f.watch.refA := none }

/-- The reads of the field window that wait complete with all ones, and the copy of the F-side's locks is stale. -/
def Dev.readsFailed (d : Dev) (l : List FwRead) : Dev :=
  let d2 := l.foldl (fun d r => d.tlp r.fn (.cpl 0xFFFFFFFF)) d
  (d2.wr Reg.SYS_LOCK_STATUS (d2.rd Reg.SYS_LOCK_STATUS &&& ~~~fLockBits)).setFld Fld.SYS_LOCK_STATUS_F_STALE 1

theorem Dev.linkDown_eq (d : Dev) :
    d.linkDown = ((d.linkCut.readsFailed d.h.fwReads).learnPulseF).raiseBoth .h Sn.PRZ_LINK_DOWN := rfl

theorem Dev.StreamBlind.readsFailed {α : Type} {π : Dev → α} (h : Dev.StreamBlind π)
    (hlock : ∀ (d : Dev) (v : Word), π (d.wr Reg.SYS_LOCK_STATUS v) = π d) (d : Dev) (l : List FwRead) : π (d.readsFailed l) = π d :=
  (hlock _ _).trans <| (hlock _ _).trans <| Dev.StreamBlind.foldl (π := π) _ (fun d _ => h.tlp d _ _) _ _

/-- A part blind to reports, to PRZ_LINK_DOWN and to the copy of the F-side's locks sees of a link down its cut. -/
theorem Dev.Blind.linkDown {α : Type} {π : Dev → α} (h : Dev.Blind π) (hsrc : ∀ (d : Dev) (s : Src), π (d.setSrc .h Sn.PRZ_LINK_DOWN s) = π d)
    (hlock : ∀ (d : Dev) (v : Word), π (d.wr Reg.SYS_LOCK_STATUS v) = π d) (d : Dev) : π d.linkDown = π d.linkCut := by
  rw [Dev.linkDown_eq, h.raiseBothH hsrc (by decide), h.learnPulseF, h.readsFailed hlock]

theorem Dev.pulseF_linkDown (d : Dev) (hrest : d.f.ch.rest = none) : d.linkDown.f.pulse = d.f.pulse := by
  have hlock (d : Dev) (v : Word) : (d.wr Reg.SYS_LOCK_STATUS v).f.pulse = d.f.pulse := by simp
  have hlearn (d : Dev) : d.learnPulseF.f.pulse = d.f.pulse := by
    have hmode (e : Dev) (fn : Func) : (if e.fld (Fld.SN_ACK_F_MODE.of fn) = 2 then e.setFld (Fld.SN_ACK_F_MODE.of fn) 0 else e).f.pulse =
        e.f.pulse := Dev.ite_kept (π := fun d => d.f.pulse) (Dev.pulseF_setFld ..) rfl
    exact (hmode _ true).trans (hmode d false)
  have hblind : Dev.Blind (fun d => d.f.ch.rest) := .of_core fun _ => rfl
  have hkept : ((d.linkCut.readsFailed d.h.fwReads).learnPulseF).f.ch.rest = none := by
    rw [hblind.learnPulseF, hblind.readsFailed fun d v => by rw [Dev.wr_f]]
    exact hrest
  rw [Dev.linkDown_eq]
  exact (Dev.pulseF_raiseH _ _ _ _ hkept).trans ((hlearn _).trans (Dev.stateBlind_pulseF.readsFailed hlock _ _))

/-! ## The reset of the F-side -/

theorem Dev.StateBlind.opsLost {α : Type} {π : Dev → α} (h : Dev.StateBlind π) (d : Dev) (l : List Nat) : π (d.opsLost l) = π d :=
  Dev.StreamBlind.foldl (π := π) _ (fun _ _ => Dev.ite_kept (π := π) rfl (h.complete _ _ _ _ _)) _ _

/-- A retrain noted reaches registers and a source of the H-side alone. -/
theorem Dev.Blind.retrainNoted {α : Type} {π : Dev → α} (h : Dev.Blind π) (hsrc : ∀ (d : Dev) (s : Src), π (d.setSrc .h Sn.PRZ_RETRAIN s) = π d)
    (hwr : ∀ (d : Dev) (k : Nat) (v : Word), π (d.wr k v) = π d) (d : Dev) : π d.retrainNoted = π d :=
  (h.raiseBothH hsrc (by decide) _).trans (Dev.bump_of_wr hwr d _ _)

/-- The device whose F-side has been reset and whose operations there are lost. -/
def Dev.fSideLost (d : Dev) : Dev := d.fSideClear.opsLost (d.f.car.slots.filterMap (fun p => p.2.tag))

theorem Dev.fSideReset_eq (d : Dev) : d.fSideReset =
    if d.h.link.up || d.h.link.training then d.fSideLost.linkDown.retrainNoted else d.fSideLost.linkDown := rfl

/-- What the link down and its retrain leave of the F-side reset. -/
theorem Dev.Blind.fSideReset {α : Type} {π : Dev → α} (h : Dev.Blind π) (hsrc : ∀ (d : Dev) (i : Nat) (s : Src), π (d.setSrc .h i s) = π d)
    (hwr : ∀ (d : Dev) (k : Nat) (v : Word), π (d.wr k v) = π d) (d : Dev) : π d.fSideReset = π d.fSideLost.linkCut := by
  have hdown := h.linkDown (fun d => hsrc d _) (fun d => hwr d _) d.fSideLost
  rw [Dev.fSideReset_eq]
  exact Dev.ite_kept (π := π) ((h.retrainNoted (fun d => hsrc d _) hwr _).trans hdown) hdown

/-- The part of the device that neither the loss of operations nor the levels taken anew reach shows the F-side's reset. -/
theorem Dev.fSideLost_of_unpinned {α : Type} {π : Dev → α} (h : Dev.StateBlind π) (hpins : ∀ d : Dev, π d.unpinned = π d) (d : Dev) :
    ∃ e : Dev, π d.fSideLost = π e ∧ e.now = d.now ∧ e.f = d.f.reset d.now ∧ e.h.fReset = true := by
  refine ⟨_, (h.opsLost _ _).trans ((hpins _).symm.trans ((congrArg π (Dev.unpinned_pins _)).trans (hpins _))), rfl, rfl, rfl⟩

theorem Dev.rest_fSideLost (d : Dev) : d.fSideLost.f.ch.rest = none := by
  have hblind : Dev.Blind (fun d => d.f.ch.rest) := .of_core fun _ => rfl
  obtain ⟨e, he, -, hf, -⟩ := Dev.fSideLost_of_unpinned hblind.toStateBlind (fun _ => rfl) d
  rw [he, hf]
  rfl

theorem Dev.pulseF_fSideReset (d : Dev) : d.fSideReset.f.pulse = d.f.pulse := by
  have hblind : Dev.Blind (fun d => d.f.ch.rest) := .of_core fun _ => rfl
  have hdown : d.fSideLost.linkDown.f.pulse = d.f.pulse := by
    obtain ⟨e, he, -, hf, -⟩ := Dev.fSideLost_of_unpinned Dev.stateBlind_pulseF (fun _ => rfl) d
    rw [Dev.pulseF_linkDown _ d.rest_fSideLost, he, hf]
    rfl
  have hrest : d.fSideLost.linkDown.f.ch.rest = none :=
    (hblind.linkDown (fun _ _ => rfl) (fun d v => by rw [Dev.wr_f]) _).trans d.rest_fSideLost
  have hbump : (d.fSideLost.linkDown.bump Fld.PRZ_RETRAIN_CNT_COUNT ⟨Reg.PRZ_CNT_SAT, 3, 1⟩).f.pulse = d.fSideLost.linkDown.f.pulse :=
    Dev.bump_of_wr (π := fun d => d.f.pulse) (fun d k v => by simp) _ _ _
  have hbumpRest : (d.fSideLost.linkDown.bump Fld.PRZ_RETRAIN_CNT_COUNT ⟨Reg.PRZ_CNT_SAT, 3, 1⟩).f.ch.rest = none :=
    (Dev.bump_of_wr (π := fun d => d.f.ch.rest) (fun d k v => by simp) _ _ _).trans hrest
  rw [Dev.fSideReset_eq]
  refine Dev.ite_kept (π := fun d => d.f.pulse) ?_ hdown
  exact (Dev.pulseF_raiseH _ _ _ _ hbumpRest).trans (hbump.trans hdown)

/-- The F-side after its reset: no operation, the timers and WDF at reset, the link down. -/
theorem Dev.fSideReset_spec (d : Dev) : d.fSideReset.h.fReset = true ∧ d.fSideReset.h.link.up = false ∧
    d.fSideReset.f.wdF = { d.f.wdF.inReset with paused := false } ∧ d.fSideReset.f.ops = [] ∧ d.fSideReset.f.ft.tm = [] := by
  have hwr (d : Dev) (k : Nat) (v : Word) : (d.wr k v).f.wdF = d.f.wdF ∧ (d.wr k v).f.ops = d.f.ops ∧ (d.wr k v).f.ft = d.f.ft ∧
      (d.wr k v).h.fReset = d.h.fReset ∧ (d.wr k v).h.link = d.h.link := by simp
  have hreset : Dev.Blind (fun d => d.h.fReset) := .of_core fun _ => rfl
  have hlink : Dev.Blind (fun d => d.h.link.up) := .of_core fun _ => rfl
  have hwd : Dev.Blind (fun d => d.f.wdF) := .of_core fun _ => rfl
  have hops : Dev.Blind (fun d => d.f.ops) := .of_core fun _ => rfl
  have htm : Dev.Blind (fun d => d.f.ft) := .of_core fun _ => rfl
  refine ⟨?_, ?_, ?_, ?_, ?_⟩
  · obtain ⟨e, he, -, -, hf⟩ := Dev.fSideLost_of_unpinned hreset.toStateBlind (fun _ => rfl) d
    exact (hreset.fSideReset (fun _ _ _ => rfl) (fun d k v => (hwr d k v).2.2.2.1) d).trans (he.trans hf)
  · exact hlink.fSideReset (fun _ _ _ => rfl) (fun d k v => congrArg Link.up (hwr d k v).2.2.2.2) d
  · obtain ⟨e, he, -, hf, -⟩ := Dev.fSideLost_of_unpinned hwd.toStateBlind (fun _ => rfl) d
    exact (hwd.fSideReset (fun _ _ _ => rfl) (fun d k v => (hwr d k v).1) d).trans (he.trans (congrArg FDie.wdF hf))
  · obtain ⟨e, he, -, hf, -⟩ := Dev.fSideLost_of_unpinned hops.toStateBlind (fun _ => rfl) d
    exact (hops.fSideReset (fun _ _ _ => rfl) (fun d k v => (hwr d k v).2.1) d).trans (he.trans (congrArg FDie.ops hf))
  · obtain ⟨e, he, -, hf, -⟩ := Dev.fSideLost_of_unpinned htm.toStateBlind (fun _ => rfl) d
    exact congrArg (·.tm)
      ((htm.fSideReset (fun _ _ _ => rfl) (fun d k v => (hwr d k v).2.2.1) d).trans (he.trans (congrArg FDie.ft hf)))

/-! ## The reaction of a watchdog -/

theorem Dev.pulse_f (d : Dev) : (d.pulse .f).f.pulse = some d.now := by
  have hmode (e : Dev) (fn : Func) : (if bitsOf (e.shadow (keyOf fn Reg.SN_ACK)).toNat 2 2 = 2
      then e.setShadow (keyOf fn Reg.SN_ACK) (setBits (e.shadow (keyOf fn Reg.SN_ACK)) 2 2 0) else e).f.pulse = e.f.pulse :=
    Dev.ite_kept (π := fun d => d.f.pulse) rfl rfl
  exact (hmode _ true).trans (hmode _ false)

theorem doWdExpire_of_due {d : Dev} {k t : Nat} (hk : k ≤ 2) (hdue : (d.at t).wdDue k = true) : doWdExpire k t d = (d.at t).wdReact k :=
  if_pos (by rw [hdue, decide_eq_true hk]; rfl)

/-- Settles O35: a watchdog at its limit pulses the FAULT pin of its die and resets its domain. -/
theorem watchdogExpiryResetsDomain : Obligations.WatchdogExpiryResetsDomain := by
  intro s k t hk hdue
  have hdo := doWdExpire_of_due hk hdue
  refine ⟨fun hlt hbroad => ?function, fun hlt habsorbed => ?absorbed, fun h2 => ?fSide⟩
  case function =>
    obtain ⟨r, r', hh, hf, hnow⟩ := (s.dev.at t).pulse_h
    set e := (s.dev.at t).pulse .h with he
    have hbroadE : e.broaderReset = false := by
      unfold Dev.broaderReset
      rw [hh]; exact hbroad
    have hpci (fn : Func) : e.pci fn = s.dev.pci fn := by
      unfold Dev.pci
      rw [hh]; rfl
    have hidx : Func.idx (k == 1) = k := by
      obtain rfl | rfl : k = 0 ∨ k = 1 := by omega
      · rfl
      · rfl
    have hwdE : e.wd k = s.dev.wd k := by
      unfold Dev.wd
      rw [hh, hf]; rfl
    have hfree : ¬ (s.dev.at t).h.fReset = true := by
      intro h
      rw [Dev.at_h] at h
      simp [Dev.broaderReset, h] at hbroad
    have hreact : doWdExpire k t s.dev = e.functionReset (k == 1) false :=
      hdo.trans ((if_neg (by omega)).trans (if_neg hfree))
    obtain ⟨⟨b, hsame⟩, -, hwd, -⟩ := Dev.functionReset_same (k == 1) false hbroadE
    obtain ⟨hother, -, -, hpulse, -, -, -⟩ := Dev.functionReset_others (k == 1) false hbroadE
    rw [hidx] at hwd
    refine ⟨_, s.onDev_of hreact, hpulse.trans ?_, (congrArg PciFn.resetAt hsame).trans ?_, hwd.trans (congrArg Wd.inReset hwdE),
      hother.trans (hpci _), rfl, rfl⟩
    · rw [hh]; rfl
    · rw [hnow]; rfl
  case absorbed =>
    refine s.onDev_of (g := doWdExpire k t) (hdo.trans ?_)
    exact (if_neg (by omega)).trans (if_pos habsorbed)
  case fSide =>
    subst h2
    obtain ⟨hreset, hup, hwd, hops, htm⟩ := ((s.dev.at t).pulse .f).fSideReset_spec
    refine ⟨_, s.onDev_of hdo, (Dev.pulseF_fSideReset _).trans (Dev.pulse_f _), hreset, hup, hwd.trans ?_, hops, htm, rfl, rfl⟩
    rw [(Dev.Blind.of_core (π := fun d => d.f.wdF) fun _ => rfl).pulse]
    rfl

end Sys2Proof.Machine
end

section
/-!
PROOF. What the Carousel's slots leave as they act (R25 to R35).
-/

namespace Sys2Proof.Machine

namespace Dev.EdgeBlind

variable {α : Type} {π : Dev → α} (h : Dev.EdgeBlind π) (d : Dev)
include h

theorem raiseFn (i : Nat) (fn : Func) : π (d.raiseFn .f i fn) = π d := h.raiseFnF h.pins (h.srcF · _ ·) d fn

theorem raiseBoth (i : Nat) : π (d.raiseBoth .f i) = π d := h.raiseF h.pins (h.srcF · _ ·) d true true

theorem refuse (source : Nat) (fn : Func) (slot : Nat) : π (d.refuse source fn slot) = π d := by
  have hstatus : π (((d.setFld Fld.CH_CHK_STATUS_PATH_FAIL 1).setFld Fld.CH_CHK_STATUS_PATH_SRC source).setFld
      Fld.CH_CHK_STATUS_PATH_FUNC fn.idx) = π d :=
    (h.setFld _ _ _ (by decide)).trans ((h.setFld _ _ _ (by decide)).trans (h.setFld d _ _ (by decide)))
  refine (h.raiseFn _ _ _).trans ((h.bump _ _ _ (by decide) (by decide)).trans ?_)
  exact Dev.ite_kept ((h.setFld _ _ _ (by decide)).trans hstatus) hstatus

end Dev.EdgeBlind

/-- A part of the device that a slot's action does not reach: blind also to the channels, the FSP and the slots themselves. -/
structure Dev.SlotBlind {α : Type} (π : Dev → α) : Prop extends Dev.EdgeBlind π where
  ch : ∀ (d : Dev) (c : Chans), π { d with f.ch := c } = π d
  fsp : ∀ (d : Dev) (s : Fsp), π { d with f.fsp := s } = π d
  slot : ∀ (d : Dev) (n : Nat) (x : Slot), π (d.setSlot n x) = π d

namespace Dev.SlotBlind

variable {α : Type} {π : Dev → α} (h : Dev.SlotBlind π) (d : Dev)
include h

theorem suppress (fn : Func) : π (d.suppress fn) = π d := by
  cases fn
  · exact (h.raiseFn _ _ _).trans (h.setFld d _ _ (by decide))
  · exact (h.raiseFn _ _ _).trans (h.setFld d _ _ (by decide))

theorem slotChannels (n : Nat) (x : Slot) : π (d.slotChannels n x) = π d := by
  have happly (e : Dev) (fn : Func) (v m : W48) : π (e.applyBits fn v m) = π e := (h.pins _).trans (h.ch e _)
  unfold Dev.slotChannels; dsimp only
  split
  · exact (h.suppress _ _).trans ((happly _ _ _ _).trans (h.ch d _))
  · exact (happly _ _ _ _).trans (h.ch d _)

theorem slotCapture (n : Nat) (x : Slot) : π (d.slotCapture n x) = π d := by
  have hrec (p : Prop) [Decidable p] (pos q1 first : W48) :
      π (if p then d.capRecord x.fn none pos q1 first else d.capDiscard.capLost x.fn) = π d :=
    Dev.ite_kept (h.capRecord d ..) ((h.capLost _ _).trans (h.capDiscard d))
  unfold Dev.slotCapture; dsimp only
  split
  · exact (h.suppress _ _).trans (hrec _ _ _ _)
  · exact hrec _ _ _ _

theorem tmStart (k : Nat) : π (d.tmStart k) = π d := by
  have htake (e : Dev) (l : Bool) : π (e.tmTake k l) = π e := by
    unfold Dev.tmTake; dsimp only
    refine Dev.ite_kept (h.tm e _ _) (Dev.ite_kept (h.tm e _ _) ?_)
    exact (h.tmWrapped _ _).trans (h.tm e _ _)
  have hunwrap (e : Dev) : π (e.tmUnwrap k) = π e := Dev.ite_kept (h.setFld e _ _ (by decide)) rfl
  have hnote (e : Dev) : π (e.tmNote k) = π e := Dev.ite_kept rfl (h.tm e _ _)
  have hflag (e : Dev) (p q : Prop) [Decidable p] [Decidable q] (v : Nat) :
      π (if p then (if q then e.tmUnwrap k else e).setFld Fld.FT_FLAGS_LF_UNIT v else if q then e.tmUnwrap k else e) = π e := by
    have hif : π (if q then e.tmUnwrap k else e) = π e := Dev.ite_kept (hunwrap e) rfl
    exact Dev.ite_kept ((h.setFld _ _ _ (by decide)).trans hif) hif
  unfold Dev.tmStart; dsimp only
  exact (hnote _).trans ((h.tm _ _ _).trans ((hflag _ _ _ _).trans (htake d _)))

theorem tmStartMask (mask : Nat) : π (d.tmStartMask mask) = π d :=
  Dev.StreamBlind.foldl (π := π) _ (fun _ _ => Dev.ite_kept (h.tmStart _ _) rfl) _ _

theorem fspSlotStart (e : Nat) (fn : Func) : π (d.fspSlotStart e fn) = π d := by
  unfold Dev.fspSlotStart
  split
  · exact h.fsp d _
  · exact (h.raiseFn _ _ _).trans ((h.bump _ _ _ (by decide) (by decide)).trans (h.setFld d _ _ (by decide)))

/-- The action of a slot (Table CAR-2). -/
theorem slotAct (n : Nat) (x : Slot) : π (d.slotAct n x).1 = π d := by
  unfold Dev.slotAct; dsimp only
  have hact (e : Dev) (he : π e = π d) (p : Prop) [Decidable p] (c : Nat) : π (if p then e.v1 c else e) = π d :=
    Dev.ite_kept ((h.v1 _ _).trans he) he
  refine hact _ ?_ _ _
  refine Dev.ite_kept (Dev.ite_kept (h.refuse d _ _ _) (h.slotChannels d n x)) (Dev.ite_kept (h.fspSlotStart d _ _) ?_)
  exact Dev.ite_kept (h.slotCapture d n x) (Dev.ite_kept (h.tmStartMask d _) (h.v1 d _))

/-- A slot's firing (R33, Table CAR-3). -/
theorem slotFire (n last : Nat) : π (d.slotFire n last) = π d := by
  have hres (p : Prop) [Decidable p] (x : Slot) : π (if p then (d, false) else d.slotAct n x).1 = π d := by
    split
    · rfl
    · exact h.slotAct d n x
  have hcount (e : Dev) (c s : Fld) (i : Nat) (hc : c.off ≠ Reg.CAR_TURN) (hs : s.off ≠ Reg.CAR_TURN) :
      π ((e.bump c s).raiseBoth .f i) = π e := (h.raiseBoth _ _).trans (h.bump e c s hc hs)
  have hlast (e : Dev) : π (if last = 4 then (e.bump Fld.CAR_LATE_CNT_COUNT Fld.CAR_CNT_SAT_SAT_LATE).raiseBoth .f Sn.CAR_LATE
      else if last = 3 then (e.bump Fld.CAR_ABANDON_CNT_COUNT Fld.CAR_CNT_SAT_SAT_ABANDON).raiseBoth .f Sn.CAR_ABANDON else e) = π e :=
    Dev.ite_kept (hcount e _ _ _ (by decide) (by decide)) (Dev.ite_kept (hcount e _ _ _ (by decide) (by decide)) rfl)
  unfold Dev.slotFire; dsimp only
  split
  · exact (h.slot _ _ _).trans ((hlast _).trans (hres _ _))
  · split
    · exact (h.endF h.fop _ _ _ _).trans ((h.slot _ _ _).trans ((hlast _).trans (hres _ _)))
    · exact (h.slot _ _ _).trans ((hlast _).trans (hres _ _))

/-- One slot at one count. -/
theorem slotAtCount (n old : Nat) (forward : Bool) : π (d.slotAtCount n old forward) = π d := by
  have hset (p : Prop) [Decidable p] (x : Slot) : π (if p then d.setSlot n x else d) = π d := Dev.ite_kept (h.slot d _ _) rfl
  unfold Dev.slotAtCount; dsimp only
  refine Dev.ite_kept rfl (Dev.ite_kept (Dev.ite_kept (h.slotFire d _ _) rfl) (Dev.ite_kept ?_ ?_))
  · exact Dev.ite_kept ((h.slotFire _ _ _).trans (hset _ _)) (hset _ _)
  · exact Dev.ite_kept (Dev.ite_kept (h.slotFire d _ _) (h.slotFire d _ _)) (Dev.ite_kept (h.slot d _ _) rfl)

theorem slotsAtCount (old : Nat) (forward : Bool) : π (d.slotsAtCount old forward) = π d :=
  Dev.ite_kept (Dev.StreamBlind.foldl (π := π) _ (fun _ _ => h.slotAtCount _ _ _ _) _ _) rfl

/-- The slots that a travel meets. -/
theorem absTravel (old n : Nat) (forward : Bool) : π (d.absTravel old n forward) = π d :=
  Dev.ite_kept rfl (Dev.StreamBlind.foldl (π := π) _ (fun _ _ => h.slotFire _ _ _) _ _)

end Dev.SlotBlind

/-! ## What is left of the Carousel -/

/-- The Carousel without its slots. -/
def Dev.carTravel (d : Dev) : Carousel := { d.f.car with slots := [] }

theorem Dev.slotBlind_carTravel : Dev.SlotBlind Dev.carTravel where
  toBlind := .of_core fun _ => rfl
  wrAny d k v _ := by simp [Dev.carTravel]
  tm _ _ _ := rfl
  fop _ _ _ := rfl
  srcF _ _ _ := rfl
  pins d := show d.pins.unpinned.carTravel = d.unpinned.carTravel from congrArg _ d.unpinned_pins
  cap d fn c := by cases fn <;> rfl
  ch _ _ := rfl
  fsp _ _ := rfl
  slot _ _ _ := rfl

/-- The turn counter's register. -/
theorem Dev.slotBlind_turn : Dev.SlotBlind (fun d => d.rd Reg.CAR_TURN) where
  toBlind := Dev.blind_rd (by decide)
  wrAny d k v hk := d.rd_wr_ne v hk.symm
  tm _ _ _ := rfl
  fop _ _ _ := rfl
  srcF _ _ _ := rfl
  pins d := d.rd_pins (by decide) (by decide)
  cap d fn c := by cases fn <;> rfl
  ch _ _ := rfl
  fsp _ _ := rfl
  slot _ _ _ := rfl

end Sys2Proof.Machine
end

section
/-!
PROOF. Counts of the Carousel (R18 to R21).
-/

namespace Sys2Proof.Machine

/-! ## One count -/

/-- The turn counter moves nothing else of the Carousel. -/
theorem Dev.car_turnCount (d : Dev) (forward : Bool) : ∃ n, (d.turnCount forward).f.car = { d.f.car with turn := n } := by
  unfold Dev.turnCount; dsimp only
  split_ifs
  · exact ⟨_, rfl⟩
  · exact ⟨d.f.car.turn + 1, by rw [Dev.v1_f, Dev.setFld_f]⟩
  · exact ⟨_, rfl⟩
  · exact ⟨d.f.car.turn, by rw [Dev.setFld_f]⟩
  · exact ⟨_, rfl⟩

/-- Whether a count makes a wrap, the position after it, and the turn index after a wrap (R18, R20). -/
def Carousel.wrapsAt (c : Carousel) (forward : Bool) : Prop := if forward then c.pos + 1 = c.modulus else c.pos = 0
def Carousel.stepped (c : Carousel) (forward : Bool) : Nat :=
  if forward then (c.pos + 1) % c.modulus else (c.pos + c.modulus - 1) % c.modulus
def Carousel.nextIndex (c : Carousel) (forward : Bool) : Nat := (c.index + (if forward then 1 else 2 ^ 32 - 1)) % 2 ^ 32

theorem Dev.car_wrap (d : Dev) (forward : Bool) : ∃ n w k l, (d.wrap forward).f.car = { d.f.car with
    turn := n
    index := d.f.car.nextIndex forward
    lastWrap := w
    wraps := k
    slots := l } := by
  obtain ⟨n, hn⟩ := d.car_turnCount forward
  unfold Dev.wrap Dev.turnChanged; dsimp only
  rw [hn]
  exact ⟨n, _, _, _, rfl⟩

/-- A count moves the position by one, modulo M, and the turn index at a wrap. -/
theorem Dev.car_carStep (d : Dev) (forward : Bool) : ∃ i n w k l, (d.carStep forward).f.car = { d.f.car with
      pos := d.f.car.stepped forward
      counted := true
      moved := d.f.car.moved + (if forward then 1 else -1)
      turn := n
      index := i
      lastWrap := w
      wraps := k
      slots := l } ∧
    (d.f.car.wrapsAt forward → i = d.f.car.nextIndex forward) ∧ (¬ d.f.car.wrapsAt forward → i = d.f.car.index) := by
  unfold Dev.carStep
  extract_lets c wraps p car f d1
  by_cases h : wraps
  · obtain ⟨n, w, k, l, hcar⟩ := d1.car_wrap forward
    refine ⟨_, n, w, k, l, (congrArg (fun d : Dev => d.f.car) (if_pos h)).trans hcar, fun _ => rfl, fun hn => absurd h hn⟩
  · exact ⟨_, _, _, _, _, (congrArg (fun d : Dev => d.f.car) (if_neg h)), fun hp => absurd hp h, fun _ => rfl⟩

/-- The history of the position is the history alone. -/
theorem Dev.car_carNote (d : Dev) (count : Bool) : ∃ l, (d.carNote count).f.car = { d.f.car with hist := l } := ⟨_, rfl⟩

theorem Dev.car_unpend (d : Dev) : ∃ l, d.unpend.f.car = { d.f.car with slots := l } := ⟨_, rfl⟩

/-- Counts go on where the Carousel runs. -/
theorem Dev.carRuns_iff (d : Dev) : d.carRuns = true ↔ d.carEn = true ∧ d.f.car.held = false ∧ d.f.ch.rest = none := by
  simp [Dev.carRuns, Dev.carFrozen]

theorem Dev.sourceCounts_of_used {d : Dev} {src : Nat} (hrun : d.carRuns = true) (hpend : d.f.car.pendSrc = none) (hsrc : d.f.car.src = src) :
    d.sourceCounts src = some d := by
  obtain ⟨hen, hheld, hrest⟩ := d.carRuns_iff.mp hrun
  simp [Dev.sourceCounts, hen, hheld, hrest, hpend, hsrc]

/-! ## A count of the encoder -/

theorem doQuadCount_of_used {d : Dev} {t : Nat} {forward z : Bool} (hrun : d.carRuns = true) (hpend : d.f.car.pendSrc = none)
    (hsrc : d.f.car.src = 1) (hsel : d.fld Fld.CAR_SRC_SEL = 1) (hz : z = false ∨ d.fld Fld.CAR_SRC_Z_MODE = 0) :
    ∃ e x : Dev, doQuadCount forward z t d = (e.carNote true).slotsAtCount d.f.car.pos forward ∧
      (∃ l a, e.f.car = { (x.carStep forward).f.car with edges := l, zArmed := a }) ∧ (∀ k, e.rd k = (x.carStep forward).rd k) ∧
      (∃ l, x.f.car = { d.f.car with illFirst := none, slots := l }) ∧ (∀ k, x.rd k = d.rd k) := by
  obtain ⟨-, -, hrest⟩ := d.carRuns_iff.mp hrun
  have hcounts : ({ d.at t with f.car.illFirst := none } : Dev).sourceCounts 1 = some { d.at t with f.car.illFirst := none } :=
    Dev.sourceCounts_of_used hrun hpend hsrc
  have hskip : ¬ ((d.fld Fld.CAR_SRC_SEL != 1 && d.f.car.src != 1) || d.f.ch.rest.isSome) = true := by simp [hsel, hrest]
  have hmode (k : Nat) (hk : k ≠ 0) : (z && forward && d.f.car.zArmed && d.fld Fld.CAR_SRC_Z_MODE == k) = false := by
    rcases hz with rfl | h0
    · simp
    · simp [h0, Ne.symm hk]
  unfold doQuadCount
  extract_lets e f c e0
  rw [if_neg (show ¬ ((e.fld Fld.CAR_SRC_SEL != 1 && e.f.car.src != 1) || e.f.ch.rest.isSome) = true from hskip)]
  split
  case h_1 heq => exact absurd (heq.symm.trans hcounts) (Option.some_ne_none _).symm
  case h_2 e heq =>
    obtain rfl : e0 = e := Option.some.inj (hcounts.symm.trans heq)
    have hturned (b : Bool) : (∃ l, (if b then e0.unpend else e0).f.car = { d.f.car with illFirst := none, slots := l }) ∧
        ∀ k, (if b then e0.unpend else e0).rd k = d.rd k := by
      cases b
      · exact ⟨⟨_, rfl⟩, fun _ => rfl⟩
      · exact ⟨⟨_, rfl⟩, fun _ => rfl⟩
    have hzero (k : Nat) (hk : k ≠ 0) : (z && forward && e0.f.car.zArmed && e0.fld Fld.CAR_SRC_Z_MODE == k) = false := hmode k hk
    refine ⟨_, _, (if_neg ?reject).trans ((if_neg ?load).trans
      (congrArg (fun d : Dev => (d.carNote true).slotsAtCount _ forward) (if_neg ?mismatch))), ⟨_, _, rfl⟩, fun _ => rfl,
      (hturned _).1, (hturned _).2⟩
    case reject =>
      rw [hzero 1 (by decide)]
      exact Bool.false_ne_true
    case load => exact Bool.eq_false_iff.mp (hzero 1 (by decide))
    case mismatch =>
      rw [hzero 2 (by decide)]
      exact Bool.false_ne_true

/-! ## A carry of the oscillator -/

theorem doNcoCount_of_used {d : Dev} {t : Nat} (hrun : d.carRuns = true) (hpend : d.f.car.pendSrc = none)
    (hnco : isNco d.f.car.src = true) (hrate : d.ncoRate ≠ 0) (hphase : 2 ^ 31 ≤ (d.at t).ncoPhase) :
    ∃ x : Dev, doNcoCount t d = ((x.carStep true).carNote true).slotsAtCount x.f.car.pos true ∧
      x.f.car = { d.f.car with acc := (d.at t).ncoPhase - 2 ^ 31, ncoAt := max d.now t } := by
  obtain ⟨hen, hheld, hrest⟩ := d.carRuns_iff.mp hrun
  have hncoRun : (d.at t).ncoRun = d.ncoRate := by
    unfold Dev.ncoRun
    refine (if_neg ?_).trans (if_pos ?_)
    · rw [show (d.at t).carEn = true from hen, Dev.at_f, hrest]; exact Bool.false_ne_true
    · rw [Dev.at_f, hnco, hheld]; rfl
  have hcounts (a n : Nat) : ({ d.at t with f.car.acc := a, f.car.ncoAt := n } : Dev).sourceCounts d.f.car.src =
      some { d.at t with f.car.acc := a, f.car.ncoAt := n } := Dev.sourceCounts_of_used hrun hpend rfl
  unfold doNcoCount
  extract_lets e want d0 f c
  have hwant : want = d.f.car.src := by simp only [want, e, Dev.at_f, hpend]
  have hgo : ¬ (!isNco want || decide (e.ncoRun = 0) || decide (e.ncoPhase < 2 ^ 31)) = true := by
    rw [hwant, hnco, show e.ncoRun = d.ncoRate from hncoRun, decide_eq_false hrate, decide_eq_false (Nat.not_lt.mpr hphase)]
    exact Bool.false_ne_true
  rw [if_neg hgo, hwant]
  split
  case h_1 heq => exact absurd (heq.symm.trans (hcounts _ _)) (Option.some_ne_none _).symm
  case h_2 y heq =>
    obtain rfl := Option.some.inj (heq.symm.trans (hcounts _ _))
    exact ⟨_, rfl, rfl⟩

/-! ## Travel of an absolute sample -/

/-- The part of the Carousel that a travel leaves alone. -/
def Carousel.settled (c : Carousel) : Carousel :=
  { c with
    pos := 0
    counted := false
    absDir := 0
    moved := 0
    turn := 0
    index := 0
    lastWrap := none
    wraps := 0
    slots := []
    hist := [] }

/-- A stretch of travel, modulo `m`, on one side of a wrap: the position and the slots on the way. -/
def Dev.absGo (d : Dev) (m k : Nat) (forward : Bool) : Dev :=
  ({ d with f.car.pos := if forward then (d.f.car.pos + k) % m else (d.f.car.pos + m - k) % m }).absTravel d.f.car.pos k forward

theorem Dev.car_absTravel (d : Dev) (old n : Nat) (forward : Bool) :
    (d.absTravel old n forward).f.car.pos = d.f.car.pos ∧ (d.absTravel old n forward).f.car.settled = d.f.car.settled :=
  ⟨(congrArg Carousel.pos (Dev.slotBlind_carTravel.absTravel d old n forward) :),
    (congrArg Carousel.settled (Dev.slotBlind_carTravel.absTravel d old n forward) :)⟩

theorem Dev.car_absGo (d : Dev) (m k : Nat) (forward : Bool) :
    (d.absGo m k forward).f.car.pos = (if forward then (d.f.car.pos + k) % m else (d.f.car.pos + m - k) % m) ∧
    (d.absGo m k forward).f.car.settled = d.f.car.settled :=
  Dev.car_absTravel _ _ _ _

/-- The counts up to the wrap. -/
def Carousel.toWrap (c : Carousel) (forward : Bool) : Nat := if forward then c.modulus - 1 - c.pos else c.pos

/-- A travel begun. -/
def Dev.absBegun (d : Dev) (n : Nat) (forward : Bool) : Dev :=
  { d with f.car := { d.f.car with
    counted := true, absDir := if forward then 1 else 2, moved := d.f.car.moved + (if forward then (n : Int) else -(n : Int)) } }

/-- The count of a travel that makes a wrap. -/
def Dev.absWrap (d : Dev) (m : Nat) (forward : Bool) : Dev :=
  (({ d with f.car.pos := if forward then 0 else m - 1 } : Dev).wrap forward).absTravel d.f.car.pos 1 forward

theorem Dev.absMove_eq (d : Dev) (n : Nat) (forward : Bool) : d.absMove n forward =
    if n ≤ d.f.car.toWrap forward then (d.absBegun n forward).absGo d.f.car.modulus n forward
    else (((d.absBegun n forward).absGo d.f.car.modulus (d.f.car.toWrap forward) forward).absWrap d.f.car.modulus forward).absGo
      d.f.car.modulus (n - d.f.car.toWrap forward - 1) forward := rfl

theorem Dev.car_absWrap (d : Dev) (m : Nat) (forward : Bool) : (d.absWrap m forward).f.car.pos = (if forward then 0 else m - 1) ∧
    (d.absWrap m forward).f.car.settled = d.f.car.settled := by
  obtain ⟨hpos, hset⟩ := (({ d with f.car.pos := if forward then 0 else m - 1 } : Dev).wrap forward).car_absTravel d.f.car.pos 1 forward
  obtain ⟨n, w, k, l, h⟩ := ({ d with f.car.pos := if forward then 0 else m - 1 } : Dev).car_wrap forward
  rw [h] at hpos hset
  exact ⟨hpos, hset⟩

/-- Travel of at most one turn ends at the position that it reaches modulo M. -/
theorem Dev.car_absMove (d : Dev) {n : Nat} (forward : Bool) (hpos : d.f.car.pos < d.f.car.modulus) (hn : n ≤ d.f.car.modulus) :
    (d.absMove n forward).f.car.pos = (if forward then (d.f.car.pos + n) % d.f.car.modulus
      else (d.f.car.pos + d.f.car.modulus - n) % d.f.car.modulus) ∧
    (d.absMove n forward).f.car.settled = d.f.car.settled := by
  have hbegun : (d.absBegun n forward).f.car.settled = d.f.car.settled := rfl
  rw [Dev.absMove_eq]
  by_cases h : n ≤ d.f.car.toWrap forward
  · rw [if_pos h]
    exact (d.absBegun n forward).car_absGo d.f.car.modulus n forward
  · rw [if_neg h]
    obtain ⟨-, hs1⟩ := (d.absBegun n forward).car_absGo d.f.car.modulus (d.f.car.toWrap forward) forward
    obtain ⟨hp2, hs2⟩ := ((d.absBegun n forward).absGo d.f.car.modulus (d.f.car.toWrap forward) forward).car_absWrap d.f.car.modulus forward
    set e := ((d.absBegun n forward).absGo d.f.car.modulus (d.f.car.toWrap forward) forward).absWrap d.f.car.modulus forward
    obtain ⟨hp, hs⟩ := e.car_absGo d.f.car.modulus (n - d.f.car.toWrap forward - 1) forward
    refine ⟨?_, hs.trans (hs2.trans (hs1.trans hbegun))⟩
    rw [hp, hp2]
    unfold Carousel.toWrap at h ⊢
    cases forward with
    | true =>
      simp only [if_true] at h ⊢
      rw [show d.f.car.pos + n = 0 + (n - (d.f.car.modulus - 1 - d.f.car.pos) - 1) + d.f.car.modulus by omega, Nat.add_mod_right]
    | false =>
      simp only [Bool.false_eq_true, if_false] at h ⊢
      rw [show d.f.car.modulus - 1 + d.f.car.modulus - (n - d.f.car.pos - 1) = d.f.car.pos + d.f.car.modulus - n + d.f.car.modulus by omega,
        Nat.add_mod_right]

/-! ## A sample -/

/-- Where a sample of value `v` stands for: the first one after a Rest is where the Carousel stands, another its value with what has been
left out (R280). -/
def Carousel.sampled (c : Carousel) (v : Nat) : Nat := if c.absRest then c.pos else (v + c.absOff) % c.modulus

/-- What a sample leaves out from now on. -/
def Carousel.sampleOff (c : Carousel) (v : Nat) : Nat :=
  if c.absRest then (c.pos + c.modulus - v % c.modulus) % c.modulus else c.absOff % c.modulus

theorem Carousel.sampled_eq (c : Carousel) (v : Nat) (hpos : c.pos < c.modulus) : (v + c.sampleOff v) % c.modulus = c.sampled v := by
  unfold Carousel.sampleOff Carousel.sampled
  split
  · have hv : v % c.modulus < c.modulus := Nat.mod_lt _ (by omega)
    rw [Nat.add_mod, Nat.mod_mod, ← Nat.add_mod, ← Nat.mod_add_mod,
      show v % c.modulus + (c.pos + c.modulus - v % c.modulus) = c.pos + c.modulus by omega, Nat.add_mod_right, Nat.mod_eq_of_lt hpos]
  · rw [Nat.add_mod_mod]

/-- The shorter way from a position to another. -/
theorem shorter_way {m p q : Nat} (hp : p < m) (hq : q < m) : ((q + m - p) % m = 0 → q = p) ∧ (p + (q + m - p) % m) % m = q ∧
    (p + m - (m - (q + m - p) % m)) % m = q ∧ (q + m - p) % m < m := by
  have hlt : (q + m - p) % m < m := Nat.mod_lt _ (by omega)
  by_cases h : p ≤ q
  · have hup : (q + m - p) % m = q - p := by
      rw [show q + m - p = q - p + m by omega, Nat.add_mod_right, Nat.mod_eq_of_lt (by omega)]
    rw [hup]
    exact ⟨by omega, by rw [show p + (q - p) = q by omega, Nat.mod_eq_of_lt hq],
      by rw [show p + m - (m - (q - p)) = q by omega, Nat.mod_eq_of_lt hq], by omega⟩
  · have hup : (q + m - p) % m = q + m - p := Nat.mod_eq_of_lt (by omega)
    rw [hup]
    exact ⟨by omega, by rw [show p + (q + m - p) = q + m by omega, Nat.add_mod_right, Nat.mod_eq_of_lt hq],
      by rw [show p + m - (m - (q + m - p)) = q + m by omega, Nat.add_mod_right, Nat.mod_eq_of_lt hq], by omega⟩

/-- The device with what samples leave out. -/
def Dev.offTaken (d : Dev) (v : Nat) : Dev := { d with f.car.absOff := d.f.car.sampleOff v, f.car.absRest := false }

theorem Dev.absSample_eq (d : Dev) (v : Nat) (hpos : d.f.car.pos < d.f.car.modulus) : d.absSample v =
    let up := (d.f.car.sampled v + d.f.car.modulus - d.f.car.pos) % d.f.car.modulus
    if up = 0 then { d.offTaken v with f.car.absDir := 0, f.car.counted := true }
    else if up * 2 ≤ d.f.car.modulus then ((d.offTaken v).absMove up true).carNote true
    else ((d.offTaken v).absMove (d.f.car.modulus - up) false).carNote true := by
  rw [← d.f.car.sampled_eq v hpos]
  rfl

/-- The position after a good sample: the sample's, taken with what has been left out of it, but for the first one after a Rest. -/
theorem Dev.car_absSample (d : Dev) (v : Nat) (hpos : d.f.car.pos < d.f.car.modulus) :
    (d.absSample v).f.car.pos = d.f.car.sampled v ∧ (d.absSample v).f.car.settled = (d.offTaken v).f.car.settled := by
  have hto : d.f.car.sampled v < d.f.car.modulus := by
    unfold Carousel.sampled
    split
    · exact hpos
    · exact Nat.mod_lt _ (by omega)
  obtain ⟨hstay, hup, hdown, hlt⟩ := shorter_way hpos hto
  rw [Dev.absSample_eq d v hpos]
  extract_lets up
  split_ifs with h0
  · exact ⟨(hstay h0).symm, rfl⟩
  · obtain ⟨hp, hs⟩ := (d.offTaken v).car_absMove (n := up) true hpos (Nat.le_of_lt hlt)
    exact ⟨hp.trans hup, hs⟩
  · obtain ⟨hp, hs⟩ := (d.offTaken v).car_absMove (n := d.f.car.modulus - up) false hpos (Nat.sub_le _ _)
    exact ⟨hp.trans hdown, hs⟩

/-! ## The counts together -/

/-- The device as it takes a good sample. -/
def Dev.goodSample (d : Dev) : Dev :=
  { d with f.fsp.absTaken := true, f.car := { d.f.car with absBad := 0, absLast := d.now } }

section
variable {d : Dev} {rx : List (BitVec 8)} {t : Nat} (hrun : d.carRuns = true) (hpend : d.f.car.pendSrc = none)
  (hsel : d.fld Fld.CAR_SRC_SEL = 2) (hsrc : d.f.car.src = 2) (hbits : d.fld Fld.CAR_ABS_CFG_BITS ≠ 0) (hlost : d.f.car.lost = false)
include hrun hsel hbits hlost

theorem absSample_taken : ¬ (d.fld Fld.CAR_SRC_SEL != 2 || !d.carEn || decide (d.fld Fld.CAR_ABS_CFG_BITS = 0) || d.f.car.lost
    || d.f.ch.rest.isSome) = true := by
  obtain ⟨hen, -, hrest⟩ := d.carRuns_iff.mp hrun
  simp [hsel, hen, hbits, hlost, hrest]

/-- A bad sample counts. -/
theorem doAbsSampleCommit_of_bad (hrx : (d.at t).absReceived rx = some none) (hfew : d.f.car.absBad < 2) :
    doAbsSampleCommit rx t d = { d.at t with f.fsp.absTaken := true, f.car.absBad := d.f.car.absBad + 1 } := by
  unfold doAbsSampleCommit
  extract_lets e n
  rw [show e.absReceived rx = some none from hrx]
  exact (if_neg (absSample_taken hrun hsel hbits hlost)).trans (if_neg (by show ¬ 3 ≤ d.f.car.absBad + 1; omega))

include hpend hsrc

/-- A good sample is taken. -/
theorem doAbsSampleCommit_of_good {bits : List Bool} (hrx : (d.at t).absReceived rx = some (some bits)) :
    doAbsSampleCommit rx t d = (d.at t).goodSample.absSample (natOfBits (bits.take (d.fld Fld.CAR_ABS_CFG_BITS))) := by
  have hcounts : (d.at t).goodSample.sourceCounts 2 = some (d.at t).goodSample := Dev.sourceCounts_of_used hrun hpend hsrc
  unfold doAbsSampleCommit
  extract_lets e n
  rw [show e.absReceived rx = some (some bits) from hrx]
  refine (if_neg (absSample_taken hrun hsel hbits hlost)).trans ?_
  dsimp only
  split
  case h_1 heq => exact absurd (heq.symm.trans hcounts) (Option.some_ne_none _).symm
  case h_2 y heq =>
    obtain rfl := Option.some.inj (heq.symm.trans hcounts)
    rfl

end

/-- Settles O4: each count goes through one step of the position, or a travel, and slots that act on the way leave it. -/
theorem carouselCounts : Obligations.CarouselCounts := by
  intro s forward z rx bits t hrun hpend
  refine ⟨fun hsel hsrc hmode => ?quad, fun hnco hrate hphase => ?nco, fun hsel hsrc hbits hlost hpos => ⟨fun hrx => ?good, fun hrx hfew => ?bad⟩⟩
  case quad =>
    obtain ⟨e, x, hdo, ⟨l, a, hcar⟩, -, ⟨l', hx⟩, -⟩ :=
      doQuadCount_of_used (t := t) (forward := forward) (z := z) hrun hpend hsrc hsel (.inr hmode)
    obtain ⟨i, n, w, k, sl, hstep, hwrap, hstay⟩ := x.car_carStep forward
    have htravel : (doQuadCount forward z t s.dev).carTravel = (e.carNote true).carTravel :=
      hdo ▸ Dev.slotBlind_carTravel.slotsAtCount (e.carNote true) s.dev.f.car.pos forward
    rw [hstep, hx] at hcar
    rw [hx] at hwrap hstay
    have hkept {α : Type} (π : Carousel → α) (hπ : ∀ (c : Carousel) (l : Tab Slot), π { c with slots := l } = π c)
        (hhist : ∀ (c : Carousel) l, π { c with hist := l } = π c) : π (doQuadCount forward z t s.dev).f.car = π e.f.car :=
      (hπ _ _).symm.trans ((congrArg π htravel).trans ((hπ _ _).trans (hhist _ _)))
    refine ⟨_, s.onDev_of rfl, ?_, ?_, ?_, ?_, rfl, rfl⟩
    · exact (hkept (·.pos) (fun _ _ => rfl) fun _ _ => rfl).trans (congrArg (·.pos) hcar)
    · exact (hkept (·.moved) (fun _ _ => rfl) fun _ _ => rfl).trans (congrArg (·.moved) hcar)
    · exact (hkept (·.modulus) (fun _ _ => rfl) fun _ _ => rfl).trans (congrArg (·.modulus) hcar)
    · refine (hkept (·.index) (fun _ _ => rfl) fun _ _ => rfl).trans ((congrArg (·.index) hcar).trans ?_)
      by_cases h : s.dev.f.car.wrapsAt forward
      · exact (hwrap h).trans (if_pos h).symm
      · exact (hstay h).trans (if_neg h).symm
  case nco =>
    obtain ⟨x, hdo, hx⟩ := doNcoCount_of_used (t := t) hrun hpend hnco hrate hphase
    obtain ⟨i, n, w, k, sl, hstep, -, -⟩ := x.car_carStep true
    have htravel : (doNcoCount t s.dev).carTravel = ((x.carStep true).carNote true).carTravel :=
      hdo ▸ Dev.slotBlind_carTravel.slotsAtCount ((x.carStep true).carNote true) x.f.car.pos true
    rw [hx] at hstep
    have hkept {α : Type} (π : Carousel → α) (hπ : ∀ (c : Carousel) (l : Tab Slot), π { c with slots := l } = π c)
        (hhist : ∀ (c : Carousel) l, π { c with hist := l } = π c) : π (doNcoCount t s.dev).f.car = π (x.carStep true).f.car :=
      (hπ _ _).symm.trans ((congrArg π htravel).trans ((hπ _ _).trans (hhist _ _)))
    refine ⟨_, s.onDev_of rfl, ?_, ?_, ?_, ?_, rfl, rfl⟩
    · exact (hkept (·.pos) (fun _ _ => rfl) fun _ _ => rfl).trans (congrArg (·.pos) hstep)
    · exact (hkept (·.ncoAt) (fun _ _ => rfl) fun _ _ => rfl).trans (congrArg (·.ncoAt) hstep)
    · exact (hkept (·.acc) (fun _ _ => rfl) fun _ _ => rfl).trans (congrArg (·.acc) hstep)
    · exact (hkept (·.moved) (fun _ _ => rfl) fun _ _ => rfl).trans (congrArg (·.moved) hstep)
  case good =>
    obtain ⟨hp, hs⟩ := (s.dev.at t).goodSample.car_absSample (natOfBits (bits.take (s.dev.fld Fld.CAR_ABS_CFG_BITS))) hpos
    refine ⟨_, s.onDev_of (doAbsSampleCommit_of_good hrun hpend hsel hsrc hbits hlost hrx), hp, ?_, ?_, ?_, rfl, rfl⟩
    · exact (congrArg Carousel.absRest hs :)
    · exact (congrArg Carousel.absBad hs :)
    · exact (congrArg Carousel.absLast hs :)
  case bad => exact s.onDev_of (doAbsSampleCommit_of_bad hrun hsel hbits hlost hrx hfew)

end Sys2Proof.Machine
end

section
/-!
PROOF. Writes of CAR_CTRL and CAR_SRC (R19 to R23).
-/

namespace Sys2Proof.Machine

/-! ## Slots freed -/

theorem Tab.mem_of_get_ne {α : Type} (d : Nat → α) {k : Nat} : ∀ {m : Tab α}, Tab.get d m k ≠ d k → (k, Tab.get d m k) ∈ m
  | [], h => absurd rfl h
  | (j, v) :: m, h => by
    rw [Tab.get_cons] at h ⊢
    by_cases hk : k = j
    · subst hk
      rw [if_pos rfl]
      exact List.mem_cons_self
    · rw [if_neg hk] at h ⊢
      exact List.mem_cons_of_mem _ (Tab.mem_of_get_ne d h)

/-- A slot in use is among the keys of those in use. -/
theorem Dev.mem_slotKeys {d : Dev} {n : Nat} (h : (d.slot n).st ≠ .free) : n ∈ d.slotKeys := by
  have hne : Tab.get (fun _ => Slot.free) d.f.car.slots n ≠ Slot.free := fun heq => h (congrArg Slot.st heq)
  refine List.mem_map.mpr ⟨_, List.mem_filter.mpr ⟨Tab.mem_of_get_ne (fun _ => Slot.free) hne, ?_⟩, rfl⟩
  exact bne_iff_ne.mpr h

theorem Dev.slot_setSlot (d : Dev) (n k : Nat) (x : Slot) : (d.setSlot n x).slot k = if k = n then x else d.slot k := by
  simp [Dev.slot, Dev.setSlot, Tab.get_set]

theorem Dev.slot_endF (d : Dev) (tag st : Nat) (r : Quad) (k : Nat) : (d.endF tag st r).slot k = d.slot k :=
  (congrArg (fun d : Dev => d.slot k) (d.noOps_endF tag st r) :)

theorem Dev.slot_slotFree (d : Dev) (n k : Nat) : (d.slotFree n).slot k =
    if k = n ∧ (d.slot n).st ≠ .free then { Slot.free with last := 5 } else d.slot k := by
  unfold Dev.slotFree; dsimp only
  by_cases h : (d.slot n).st = .free
  · rw [if_pos h, if_neg fun hk => hk.2 h]
  · rw [if_neg h]
    have hset : (d.setSlot n { Slot.free with last := 5 }).slot k =
        if k = n ∧ (d.slot n).st ≠ .free then { Slot.free with last := 5 } else d.slot k := by
      rw [Dev.slot_setSlot]
      simp only [h, ne_eq, not_false_eq_true, and_true]
    split
    · exact (Dev.slot_endF ..).trans hset
    · exact hset

/-- A part blind to slots, contexts and what is sent does not see a slot freed. -/
theorem Dev.StreamBlind.slotFree {α : Type} {π : Dev → α} (h : Dev.StreamBlind π) (hfop : ∀ (d : Dev) (g : Nat) (o : Option FOp), π (d.setFop g o) = π d)
    (hslot : ∀ (d : Dev) (n : Nat) (x : Slot), π (d.setSlot n x) = π d) (d : Dev) (n : Nat) : π (d.slotFree n) = π d := by
  unfold Dev.slotFree; dsimp only
  split
  · rfl
  · split
    · exact (h.endF hfop _ _ _ _).trans (hslot d n _)
    · exact hslot d n _

/-- A slot freed whose target is at `m` or above. -/
def Dev.freeAbove (d : Dev) (m n : Nat) : Dev := if m ≤ (d.slot n).target then d.slotFree n else d

theorem Dev.slot_freeAbove (d : Dev) {m k : Nat} (n : Nat) (h : (d.slot k).target < m) : (d.freeAbove m n).slot k = d.slot k := by
  unfold Dev.freeAbove
  split
  case isTrue hn =>
    rw [Dev.slot_slotFree, if_neg]
    rintro ⟨rfl, -⟩
    omega
  case isFalse => rfl

theorem Dev.slot_freeAbove_self (d : Dev) (m n : Nat) :
    ((d.freeAbove m n).slot n).st = .free ∨ ((d.freeAbove m n).slot n).target < m := by
  unfold Dev.freeAbove
  split
  case isTrue hn =>
    rw [Dev.slot_slotFree]
    by_cases hst : (d.slot n).st = .free
    · rw [if_neg fun h => h.2 hst]
      exact .inl hst
    · rw [if_pos ⟨rfl, hst⟩]
      exact .inl rfl
  case isFalse hn => exact .inr (Nat.not_le.mp hn)

theorem Dev.slot_freeAbove_kept (d : Dev) {m : Nat} (n k : Nat) (h : (d.slot k).st = .free ∨ (d.slot k).target < m) :
    ((d.freeAbove m n).slot k).st = .free ∨ ((d.freeAbove m n).slot k).target < m := by
  unfold Dev.freeAbove
  split
  · rw [Dev.slot_slotFree]
    split
    · exact .inl rfl
    · exact h
  · exact h

/-- Slots at `m` or above freed: none of a list is left in use there, and every slot below stays. -/
theorem Dev.slot_freesAbove (m k : Nat) : ∀ (l : List Nat) (d : Dev),
    ((d.slot k).target < m → (l.foldl (fun d n => d.freeAbove m n) d).slot k = d.slot k) ∧
    (k ∈ l ∨ (d.slot k).st = .free ∨ (d.slot k).target < m →
      ((l.foldl (fun d n => d.freeAbove m n) d).slot k).st = .free ∨ ((l.foldl (fun d n => d.freeAbove m n) d).slot k).target < m)
  | [], _ => ⟨fun _ => rfl, fun h => h.resolve_left List.not_mem_nil⟩
  | n :: l, d => by
    obtain ⟨hstay, hgone⟩ := Dev.slot_freesAbove m k l (d.freeAbove m n)
    refine ⟨fun h => ?_, fun h => hgone ?_⟩
    · have hone := d.slot_freeAbove n h
      exact (hstay (hone ▸ h)).trans hone
    · rcases h with hmem | hok
      · rcases List.mem_cons.mp hmem with rfl | hin
        · exact .inr (d.slot_freeAbove_self m k)
        · exact .inl hin
      · exact .inr (d.slot_freeAbove_kept n k hok)

/-! ## The position and the registers under a control write -/

theorem Dev.car_setFld (d : Dev) (F : Fld) (v : Nat) : (d.setFld F v).f.car = d.f.car := by rw [Dev.setFld_f]

/-- The modulus taken and the position reduced (R19); time with EN at 0 does not count toward a loss (R23). -/
def Dev.modulusTaken (d : Dev) (m : Nat) : Dev :=
  let d := d.ncoSettle
  let c := d.f.car
  let shift := fun s : Nat => s + (d.now - max s c.offAt)
  let c1 := { c with
    modulus := m, pos := c.pos % m, holdSince := c.holdSince.map shift, absLast := shift c.absLast
    illFirst := c.illFirst.map shift }
  { d with f.car := c1 }

/-- The Carousel enabled with a modulus. -/
def Dev.carStarted (d : Dev) (m : Nat) : Dev := ((d.modulusTaken m).setFld Fld.CAR_CTRL_EN 1).carNote false

theorem Dev.carEnable_eq (d : Dev) (m : Nat) :
    d.carEnable m = (d.carStarted m).slotKeys.foldl (fun d n => d.freeAbove m n) (d.carStarted m) := rfl

theorem Dev.carEnable_spec (d : Dev) (m : Nat) : (d.carEnable m).carEn = true ∧ (d.carEnable m).f.car.modulus = m ∧
    (d.carEnable m).f.car.pos = d.f.car.pos % m ∧ (d.carEnable m).f.car.turn = d.f.car.turn ∧
    (∀ n, ((d.carEnable m).slot n).st ≠ .free → ((d.carEnable m).slot n).target < m) ∧
    (∀ n, (d.slot n).target < m → (d.carEnable m).slot n = d.slot n) := by
  have hfold {α : Type} {π : Dev → α} (h : Dev.StreamBlind π) (hfop : ∀ (d : Dev) (g : Nat) (o : Option FOp), π (d.setFop g o) = π d)
      (hslot : ∀ (d : Dev) (n : Nat) (x : Slot), π (d.setSlot n x) = π d) : π (d.carEnable m) = π (d.carStarted m) :=
    Dev.StreamBlind.foldl (π := π) _ (fun d n => Dev.ite_kept (h.slotFree hfop hslot d n) rfl) _ _
  have hcar : (d.carStarted m).f.car.modulus = m ∧ (d.carStarted m).f.car.pos = d.f.car.pos % m ∧
      (d.carStarted m).f.car.turn = d.f.car.turn ∧ (d.carStarted m).f.car.slots = d.f.car.slots := by
    obtain ⟨l, hl⟩ := ((d.modulusTaken m).setFld Fld.CAR_CTRL_EN 1).car_carNote false
    unfold Dev.carStarted
    rw [hl, Dev.car_setFld]
    exact ⟨rfl, rfl, rfl, rfl⟩
  obtain ⟨hmod, hpos, hturn, hslots⟩ := hcar
  have hslot (n : Nat) : (d.carStarted m).slot n = d.slot n := by unfold Dev.slot; rw [hslots]
  have hen : (d.carStarted m).carEn = true := by
    show (((d.modulusTaken m).setFld Fld.CAR_CTRL_EN 1).fld Fld.CAR_CTRL_EN == 1) = true
    rw [Dev.fld_setFld_same _ _ _ (by decide)]
    rfl
  refine ⟨?_, ?_, ?_, ?_, fun n hn => ?_, fun n hn => ?_⟩
  · exact (hfold (π := fun d => d.carEn) (.of_unsent fun _ => rfl) (fun _ _ _ => rfl) fun _ _ _ => rfl).trans hen
  · exact (hfold (π := fun d => d.f.car.modulus) (.of_unsent fun _ => rfl) (fun _ _ _ => rfl) fun _ _ _ => rfl).trans hmod
  · exact (hfold (π := fun d => d.f.car.pos) (.of_unsent fun _ => rfl) (fun _ _ _ => rfl) fun _ _ _ => rfl).trans hpos
  · exact (hfold (π := fun d => d.f.car.turn) (.of_unsent fun _ => rfl) (fun _ _ _ => rfl) fun _ _ _ => rfl).trans hturn
  · rw [Dev.carEnable_eq] at hn ⊢
    obtain ⟨-, hgone⟩ := Dev.slot_freesAbove m n (d.carStarted m).slotKeys (d.carStarted m)
    refine (hgone ?_).resolve_left hn
    by_cases h : ((d.carStarted m).slot n).st = .free
    · exact .inr (.inl h)
    · exact .inl (Dev.mem_slotKeys h)
  · rw [Dev.carEnable_eq]
    exact ((Dev.slot_freesAbove m n _ _).1 (by rw [hslot]; exact hn)).trans (hslot n)

/-! ## The turn counter cleared (R20) -/

/-- The turn counter at 0, its SAT clear. -/
def Dev.turnZero (d : Dev) : Dev := ({ d with f.car.turn := 0 }).setFld Fld.CAR_TURN_SAT 0

theorem Dev.turnZero_spec (d : Dev) : d.turnZero.f.car = { d.f.car with turn := 0 } ∧ d.turnZero.fld Fld.CAR_TURN_SAT = 0 ∧
    ∀ k, k ≠ Reg.CAR_TURN → d.turnZero.rd k = d.rd k :=
  ⟨Dev.car_setFld .., Dev.fld_setFld_same _ _ _ (by decide), fun _ hk => Dev.rd_setFld_ne _ _ _ hk⟩

theorem Dev.turnClear_of_still {d : Dev} (h : ∀ w, d.f.car.lastWrap ≠ some (d.now, w)) : d.turnClear = d.turnZero := by
  have hlast : d.turnZero.f.car.lastWrap = d.f.car.lastWrap := by rw [d.turnZero_spec.1]
  have hnow : d.turnZero.now = d.now := Dev.setFld_now ..
  show (match d.turnZero.f.car.lastWrap with
    | some (t, forward) => if t = d.turnZero.now then d.turnZero.turnCount forward else d.turnZero
    | none => d.turnZero) = d.turnZero
  rw [hlast, hnow]
  rcases hw : d.f.car.lastWrap with _ | ⟨u, w⟩
  · rfl
  · exact if_neg fun hu : u = d.now => h w (by rw [hw, hu])

theorem Dev.turnClear_of_wrap {d : Dev} {forward : Bool} (h : d.f.car.lastWrap = some (d.now, forward)) :
    d.turnClear = d.turnZero.turnCount forward := by
  have hlast : d.turnZero.f.car.lastWrap = d.f.car.lastWrap := by rw [d.turnZero_spec.1]
  have hnow : d.turnZero.now = d.now := Dev.setFld_now ..
  show (match d.turnZero.f.car.lastWrap with
    | some (t, forward) => if t = d.turnZero.now then d.turnZero.turnCount forward else d.turnZero
    | none => d.turnZero) = d.turnZero.turnCount forward
  rw [hlast, hnow, h]
  exact if_pos rfl

/-- A wrap counted from 0. -/
theorem Dev.turnCount_of_zero {d : Dev} (forward : Bool) (hturn : d.f.car.turn = 0) (hsat : d.fld Fld.CAR_TURN_SAT = 0) :
    (d.turnCount forward).f.car = { d.f.car with turn := if forward then 1 else 0 } ∧ (d.turnCount forward).fld Fld.CAR_TURN_SAT = 0 ∧
    (forward = false → (d.turnCount forward).fld Fld.CAR_TURN_BELOW = 1) := by
  have hflag : ¬ d.flag Fld.CAR_TURN_SAT = true := by simp [Dev.flag, hsat]
  cases forward with
  | true =>
    have hcount : d.turnCount true = { d with f.car.turn := d.f.car.turn + 1 } :=
      (if_neg hflag).trans ((if_pos rfl).trans (if_neg (by rw [hturn]; decide)))
    rw [hcount, hturn]
    exact ⟨rfl, hsat, fun h => absurd h (by decide)⟩
  | false =>
    have hcount : d.turnCount false = d.setFld Fld.CAR_TURN_BELOW 1 :=
      (if_neg hflag).trans ((if_neg Bool.false_ne_true).trans (if_pos hturn))
    rw [hcount]
    refine ⟨(Dev.car_setFld ..).trans ?_, ?_, fun _ => Dev.fld_setFld_same _ _ _ (by decide)⟩
    · rw [show (if false = true then 1 else 0) = d.f.car.turn from hturn.symm]
    · exact (Dev.fld_setFld_ne _ _ _ _ (by decide) (.inr (.inl (by decide)))).trans hsat

/-- The position after a wrap. -/
theorem Carousel.stepped_of_wraps {c : Carousel} {forward : Bool} (h : c.wrapsAt forward) :
    c.stepped forward = if forward then 0 else c.modulus - 1 := by
  unfold Carousel.wrapsAt at h
  unfold Carousel.stepped
  cases forward with
  | true =>
    rw [if_pos rfl] at h
    rw [if_pos rfl, if_pos rfl, h, Nat.mod_self]
  | false =>
    rw [if_neg Bool.false_ne_true] at h
    rw [if_neg Bool.false_ne_true, if_neg Bool.false_ne_true, h, Nat.zero_add]
    rcases Nat.eq_zero_or_pos c.modulus with h0 | hpos
    · rw [h0]
    · exact Nat.mod_eq_of_lt (by omega)

/-- A count that makes a wrap from turn 0. -/
theorem Dev.carStep_of_zero {d : Dev} (forward : Bool) (hturn : d.f.car.turn = 0) (hsat : d.fld Fld.CAR_TURN_SAT = 0)
    (hwrap : d.f.car.wrapsAt forward) : (d.carStep forward).f.car.turn = (if forward then 1 else 0) ∧
    (d.carStep forward).fld Fld.CAR_TURN_SAT = 0 ∧ (forward = false → (d.carStep forward).fld Fld.CAR_TURN_BELOW = 1) := by
  unfold Dev.carStep
  extract_lets c wraps p f e d1
  obtain ⟨hcar, hclear, hbelow⟩ := Dev.turnCount_of_zero (d := d1) forward hturn hsat
  have hif : (if wraps then d1.wrap forward else d1) = d1.wrap forward := if_pos hwrap
  rw [hif]
  exact ⟨(congrArg Carousel.turn hcar :), hclear, hbelow⟩

/-! ## CAR_CTRL -/

theorem bitOf_or (a b : Word) (i : Nat) : bitOf (a ||| b).toNat i = (bitOf a.toNat i || bitOf b.toNat i) := by
  rw [bitOf_eq_testBit, bitOf_eq_testBit, bitOf_eq_testBit, BitVec.toNat_or, Nat.testBit_or]

section
variable {d : Dev} {fn : Func} {data : Word} (hown : d.carCode = codeOf fn)
include hown

/-- The owner's write that leaves EN as it is: POS_LOAD, TURN_CLR and LOCK act in their order (R19). -/
theorem Dev.carCtrlWrite_of_same (hen : bitOf data.toNat 0 = d.carEn) : d.carCtrlWrite fn data =
    let d2 := if bitOf data.toNat 3 then (if d.f.car.modulus ≤ d.loadValue then d.carRej else d.carLoad d.loadValue) else d
    let d3 := if bitOf data.toNat 1 then d2.turnClear else d2
    .ok (if bitOf data.toNat 2 then d3.setFld Fld.CAR_CTRL_LOCK 1 else d3) := by
  unfold Dev.carCtrlWrite; dsimp only
  rw [hen, hown]
  cases d.carEn <;> simp

theorem Dev.carCtrlWrite_of_load (hen : bitOf data.toNat 0 = d.carEn) (h1 : bitOf data.toNat 1 = false) (h2 : bitOf data.toNat 2 = false)
    (hload : d.loadValue < d.f.car.modulus) : d.carCtrlWrite fn (data ||| 8) = .ok (d.carLoad d.loadValue) := by
  have hbit (i : Nat) : bitOf (data ||| 8).toNat i = (bitOf data.toNat i || bitOf 8 i) := bitOf_or data 8 i
  rw [Dev.carCtrlWrite_of_same hown (by rw [hbit, hen]; exact Bool.or_false _), hbit, hbit, hbit, h1, h2, Bool.or_eq_true_iff.mpr (.inr (by decide))]
  exact congrArg Except.ok (if_neg (Nat.not_le.mpr hload))

theorem Dev.carCtrlWrite_of_turn (hen : bitOf data.toNat 0 = d.carEn) (h2 : bitOf data.toNat 2 = false) (h3 : bitOf data.toNat 3 = false) :
    d.carCtrlWrite fn (data ||| 2) = .ok d.turnClear := by
  have hbit (i : Nat) : bitOf (data ||| 2).toNat i = (bitOf data.toNat i || bitOf 2 i) := bitOf_or data 2 i
  rw [Dev.carCtrlWrite_of_same hown (by rw [hbit, hen]; exact Bool.or_false _), hbit, hbit, hbit, h2, h3, Bool.or_eq_true_iff.mpr (.inr (by decide : bitOf 2 1 = true))]
  rfl

theorem Dev.carCtrlWrite_of_lock (hen : bitOf data.toNat 0 = d.carEn) (h1 : bitOf data.toNat 1 = false) (h3 : bitOf data.toNat 3 = false) :
    d.carCtrlWrite fn (data ||| 4) = .ok (d.setFld Fld.CAR_CTRL_LOCK 1) := by
  have hbit (i : Nat) : bitOf (data ||| 4).toNat i = (bitOf data.toNat i || bitOf 4 i) := bitOf_or data 4 i
  rw [Dev.carCtrlWrite_of_same hown (by rw [hbit, hen]; exact Bool.or_false _), hbit, hbit, hbit, h1, h3, Bool.or_eq_true_iff.mpr (.inr (by decide : bitOf 4 2 = true))]
  rfl

theorem Dev.carCtrlWrite_of_enable {m : Nat} (hm : m = d.fld Fld.CAR_MOD_LO_MODM1_LO + 2 ^ 32 * d.fld Fld.CAR_MOD_HI_MODM1_HI + 1)
    (hne : m ≠ 1) (hen : d.carEn = false) (h0 : bitOf data.toNat 0 = true) (h1 : bitOf data.toNat 1 = false)
    (h2 : bitOf data.toNat 2 = false) (h3 : bitOf data.toNat 3 = false) : d.carCtrlWrite fn data = .ok (d.carEnable m) := by
  unfold Dev.carCtrlWrite; dsimp only
  rw [← hm, hown, hen, h0, h1, h2, h3]
  simp [hne]

theorem Dev.carCtrlWrite_of_disable (hen : d.carEn = true) (h0 : bitOf data.toNat 0 = false) (h1 : bitOf data.toNat 1 = false)
    (h2 : bitOf data.toNat 2 = false) (h3 : bitOf data.toNat 3 = false) : d.carCtrlWrite fn data =
      .ok ({ d.ncoSettle.setFld Fld.CAR_CTRL_EN 0 with f.car.offAt := d.now } : Dev).unpend := by
  unfold Dev.carCtrlWrite; dsimp only
  rw [hown, hen, h0, h1, h2, h3]
  simp

end

/-! ## CAR_SRC -/

/-- A source of the F-side's condition that ends leaves the Carousel and its registers. -/
theorem Dev.car_lossEnd (d : Dev) : d.lossEnd.f.car = (if d.f.car.lost then { d.f.car with
      lost := false
      onInternal := false
      illFirst := none
      absBad := 0
      absLast := d.now } else d.f.car) ∧ ∀ k, d.lossEnd.rd k = d.rd k := by
  unfold Dev.lossEnd
  split
  · exact ⟨(Dev.StreamBlind.of_unsent (π := fun d => d.f.car) fun _ => rfl).condEnd (fun _ _ => rfl) _,
      fun k => (Dev.streamBlind_rd k).condEnd (fun _ _ => rfl) _⟩
  · exact ⟨rfl, fun _ => rfl⟩

theorem Dev.car_syncBack (d : Dev) : d.syncBack.f.car = { d.f.car with holdSince := none } ∧ ∀ k, d.syncBack.rd k = d.rd k := by
  unfold Dev.syncBack
  split
  case isTrue h =>
    refine ⟨?_, fun _ => rfl⟩
    rw [← Option.isNone_iff_eq_none.mp h]
  case isFalse =>
    exact ⟨(Dev.StreamBlind.of_unsent (π := fun d => d.f.car) fun _ => rfl).condEnd (fun _ _ => rfl) _,
      fun k => (Dev.streamBlind_rd k).condEnd (fun _ _ => rfl) _⟩

/-- An accepted write of CAR_SRC: its fields, the loss ended, and the source that waits for its first count. -/
theorem Dev.carSelect_spec (d : Dev) (data : Word) : (d.carSelect data).fld Fld.CAR_SRC_SEL = bitsOf data.toNat 0 3 ∧
    (d.carSelect data).fld Fld.CAR_SRC_Z_MODE = bitsOf data.toNat 3 2 ∧ (d.carSelect data).f.car.lost = false ∧
    (d.carSelect data).f.car.pos = d.f.car.pos ∧ (d.carSelect data).f.car.slots = d.f.car.slots ∧
    (d.carSelect data).f.car.pendSrc = (if bitsOf data.toNat 0 3 = d.f.car.src ∧ d.f.car.held = false ∧
        (d.f.car.lost = false ∨ (d.f.car.onInternal = true ∧ bitsOf data.toNat 0 3 = 0)) then none else some (bitsOf data.toNat 0 3)) := by
  have hspec : specOf (baseOff Reg.CAR_SRC) = some ⟨0x2004, 1, 4, 0x1F, 0x0, 0x0, 0x0⟩ := by decide
  set e := d.ncoSettle.wrAccess Reg.CAR_SRC data with he
  have hcar : e.f.car = d.ncoSettle.f.car := Dev.wrAccess_of_wr (π := fun d => d.f.car) (fun d k v => by rw [Dev.wr_f]) _ _ _
  have hsel : e.fld Fld.CAR_SRC_SEL = bitsOf data.toNat 0 3 := d.ncoSettle.fld_wrAccess (F := Fld.CAR_SRC_SEL) data hspec (by decide)
  have hz : e.fld Fld.CAR_SRC_Z_MODE = bitsOf data.toNat 3 2 := d.ncoSettle.fld_wrAccess (F := Fld.CAR_SRC_Z_MODE) data hspec (by decide)
  obtain ⟨hloss, hrd2⟩ := e.car_lossEnd
  obtain ⟨hback, hrd3⟩ := e.lossEnd.car_syncBack
  have hd3 (b : Bool) : (if b then e.lossEnd.syncBack else e.lossEnd).f.car.lost = false ∧
      (if b then e.lossEnd.syncBack else e.lossEnd).f.car.pos = d.f.car.pos ∧
      (if b then e.lossEnd.syncBack else e.lossEnd).f.car.slots = d.f.car.slots ∧
      ∀ k, (if b then e.lossEnd.syncBack else e.lossEnd).rd k = e.rd k := by
    have hend : e.lossEnd.f.car.lost = false ∧ e.lossEnd.f.car.pos = d.f.car.pos ∧ e.lossEnd.f.car.slots = d.f.car.slots := by
      rw [hloss, hcar]
      split
      case isTrue => exact ⟨rfl, rfl, rfl⟩
      case isFalse h => exact ⟨Bool.eq_false_iff.mpr h, rfl, rfl⟩
    cases b with
    | false => exact ⟨hend.1, hend.2.1, hend.2.2, hrd2⟩
    | true =>
      rw [if_pos rfl, hback]
      exact ⟨hend.1, hend.2.1, hend.2.2, fun k => (hrd3 k).trans (hrd2 k)⟩
  unfold Dev.carSelect
  extract_lets d' c sel d1 kept left d2 d3
  obtain ⟨hlost3, hpos3, hslots3, hrd⟩ : d3.f.car.lost = false ∧ d3.f.car.pos = d.f.car.pos ∧ d3.f.car.slots = d.f.car.slots ∧
      ∀ k, d3.rd k = e.rd k := hd3 left
  clear_value d3
  have hkept : kept = true ↔ bitsOf data.toNat 0 3 = d.f.car.src ∧ d.f.car.held = false ∧
      (d.f.car.lost = false ∨ (d.f.car.onInternal = true ∧ bitsOf data.toNat 0 3 = 0)) := by
    show (bitsOf data.toNat 0 3 == d.f.car.src && !d.f.car.held && (!d.f.car.lost || (d.f.car.onInternal && bitsOf data.toNat 0 3 == 0))) =
      true ↔ _
    simp only [Bool.and_eq_true, Bool.or_eq_true, beq_iff_eq, Bool.not_eq_true', and_assoc]
  have hfld (F : Fld) : d3.fld F = e.fld F := by unfold Dev.fld; rw [hrd]
  by_cases h : kept = true
  · rw [if_pos h, if_pos (hkept.mp h)]
    exact ⟨(hfld _).trans hsel, (hfld _).trans hz, hlost3, hpos3, hslots3, rfl⟩
  · rw [if_neg h, if_neg (mt hkept.mpr h)]
    exact ⟨(hfld _).trans hsel, (hfld _).trans hz, hlost3, hpos3, hslots3, rfl⟩

theorem Dev.carSrcWrite_of_owner {d : Dev} {fn : Func} {data : Word} (hown : d.carCode = codeOf fn) (hsel : bitsOf data.toNat 0 3 < 5)
    (hz : bitsOf data.toNat 3 2 ≠ 3) : d.carSrcWrite fn data =
      if d.flag Fld.CAR_CTRL_LOCK && !((bitsOf data.toNat 0 3 == d.fld Fld.CAR_SRC_SEL && bitsOf data.toNat 3 2 == d.fld Fld.CAR_SRC_Z_MODE)
        && d.f.car.lost) then lockedOut else .ok (d.carSelect data) := by
  unfold Dev.carSrcWrite; dsimp only
  rw [if_neg (by simp [hown]), if_neg (by omega)]

/-- Settles O1: each write goes through what its bits ask for, in their order. -/
theorem carouselControlWrites : Obligations.CarouselControlWrites := by
  intro s fn data forward t m hown hm
  have hownAt : (s.dev.at t).carCode = codeOf fn := hown
  refine ⟨fun h0 h1 h2 h3 hen hne => ?enable, fun h0 h1 h2 h3 hen => ?disable, fun h0 h1 h2 hload => ?load, fun h0 h2 h3 => ?turn,
    fun h0 h1 h3 => ?lock, fun hsel hz hfree => ?select, fun hsel hz hlock hlost => ?locked⟩
  case enable =>
    have hwrite := Dev.carCtrlWrite_of_enable (d := s.dev.at t) hownAt hm hne hen h0 h1 h2 h3
    obtain ⟨hen', hmod, hpos, hturn, huse, hstay⟩ := (s.dev.at t).carEnable_spec m
    refine ⟨_, s.onDev_of (g := doCarEnWrite fn data t) (by unfold doCarEnWrite; rw [hwrite]; rfl), hen', hmod, hpos, hturn, huse, hstay, rfl, rfl⟩
  case disable =>
    have hwrite := Dev.carCtrlWrite_of_disable (d := s.dev.at t) hownAt hen h0 h1 h2 h3
    exact s.onDev_of (g := doCarEnWrite fn data t) (by unfold doCarEnWrite; rw [hwrite]; rfl)
  case load =>
    exact s.onDev_of (g := doCarPosLoad fn data t) (by unfold doCarPosLoad; rw [Dev.carCtrlWrite_of_load hownAt h0 h1 h2 hload]; rfl)
  case lock =>
    exact s.onDev_of (g := doCarLock fn data t) (by unfold doCarLock; rw [Dev.carCtrlWrite_of_lock hownAt h0 h1 h3]; rfl)
  case turn =>
    have hdo (count : Option Bool) : doTurnClr fn data count t s.dev = match count with
        | none => (s.dev.at t).turnClear
        | some forward => if isNco (s.dev.at t).turnClear.f.car.src then
            (if forward then doNcoCount t (s.dev.at t).turnClear else (s.dev.at t).turnClear)
          else doQuadCount forward false t (s.dev.at t).turnClear := by
      unfold doTurnClr
      rw [Dev.carCtrlWrite_of_turn hownAt h0 h2 h3]
      rfl
    obtain ⟨hcar, hsat, hrd⟩ := (s.dev.at t).turnZero_spec
    refine ⟨fun hstill => ⟨?alone, fun hrun hsrc hsel hpend hwrap => ?counted⟩, fun hlast => ?wrapped⟩
    case alone =>
      refine ⟨_, s.onDev_of ((hdo none).trans (Dev.turnClear_of_still hstill)), ?_, hsat, ?_, ?_, rfl, rfl⟩
      · rw [hcar]
      · rw [hcar]; rfl
      · rw [hcar]; rfl
    case wrapped =>
      obtain ⟨hcar', hsat', hbelow⟩ := Dev.turnCount_of_zero (d := (s.dev.at t).turnZero) forward (by rw [hcar]) hsat
      refine ⟨_, s.onDev_of ((hdo none).trans (Dev.turnClear_of_wrap hlast)), ?_, hsat', hbelow, ?_, ?_, rfl, rfl⟩
      · rw [hcar']
      · rw [hcar', hcar]; rfl
      · rw [hcar', hcar]; rfl
    case counted =>
      have hrun0 : (s.dev.at t).turnZero.carRuns = true := by
        refine (Dev.carRuns_iff _).mpr ?_
        obtain ⟨hen, hheld, hrest⟩ := s.dev.carRuns_iff.mp hrun
        refine ⟨?_, by rw [hcar]; exact hheld, hrest⟩
        unfold Dev.carEn Dev.flag Dev.fld
        rw [hrd _ (by decide)]
        exact hen
      have hsel0 : (s.dev.at t).turnZero.fld Fld.CAR_SRC_SEL = 1 := by
        unfold Dev.fld
        rw [hrd _ (by decide)]
        exact hsel
      obtain ⟨e, x, hquad, ⟨l, a, hecar⟩, herd, ⟨l', hxcar⟩, hxrd⟩ := doQuadCount_of_used (t := t) (forward := forward) (z := false)
        hrun0 (by rw [hcar]; exact hpend) (by rw [hcar]; exact hsrc) hsel0 (.inl rfl)
      rw [hcar] at hxcar
      have hxsat : x.fld Fld.CAR_TURN_SAT = 0 := by
        unfold Dev.fld
        rw [hxrd]
        exact hsat
      have hxwrap : x.f.car.wrapsAt forward := by
        rw [hxcar]
        exact hwrap
      obtain ⟨hturn, hsat', hbelow⟩ := Dev.carStep_of_zero forward (by rw [hxcar]) hxsat hxwrap
      obtain ⟨i, n, w, k, sl, hstep, hindex, -⟩ := x.car_carStep forward
      rw [hstep] at hecar hturn
      rw [hxcar] at hecar hindex
      have hresult : doTurnClr fn data (some forward) t s.dev = (e.carNote true).slotsAtCount (s.dev.at t).turnZero.f.car.pos forward := by
        refine (hdo (some forward)).trans ?_
        rw [Dev.turnClear_of_still hstill, hcar]
        refine (if_neg ?_).trans hquad
        rw [show isNco (s.dev.at t).f.car.src = false by rw [Dev.at_f, hsrc]; rfl]
        exact Bool.false_ne_true
      have htravel : (doTurnClr fn data (some forward) t s.dev).carTravel = (e.carNote true).carTravel :=
        hresult ▸ Dev.slotBlind_carTravel.slotsAtCount (e.carNote true) _ forward
      have hreg : (doTurnClr fn data (some forward) t s.dev).rd Reg.CAR_TURN = (x.carStep forward).rd Reg.CAR_TURN :=
        (hresult ▸ Dev.slotBlind_turn.slotsAtCount (e.carNote true) _ forward).trans (herd _)
      have hcarries {α : Type} (π : Carousel → α) (hπ : ∀ (c : Carousel) (l : Tab Slot), π { c with slots := l } = π c)
          (hhist : ∀ (c : Carousel) l, π { c with hist := l } = π c) : π (doTurnClr fn data (some forward) t s.dev).f.car = π e.f.car :=
        (hπ _ _).symm.trans ((congrArg π htravel).trans ((hπ _ _).trans (hhist _ _)))
      have hfld (F : Fld) (hF : F.off = Reg.CAR_TURN) : (doTurnClr fn data (some forward) t s.dev).fld F = (x.carStep forward).fld F := by
        unfold Dev.fld
        rw [hF, hreg]
      refine ⟨_, s.onDev_of rfl, ?_, (hfld _ (by decide)).trans hsat', fun h => (hfld _ (by decide)).trans (hbelow h), ?_, ?_, rfl, rfl⟩
      · exact (hcarries (·.turn) (fun _ _ => rfl) fun _ _ => rfl).trans ((congrArg (·.turn) hecar).trans hturn)
      · refine (hcarries (·.pos) (fun _ _ => rfl) fun _ _ => rfl).trans ((congrArg (·.pos) hecar).trans ?_)
        exact Carousel.stepped_of_wraps hwrap
      · refine (hcarries (·.index) (fun _ _ => rfl) fun _ _ => rfl).trans ((congrArg (·.index) hecar).trans ?_)
        exact hindex (hxcar ▸ hxwrap)
  case select =>
    have hwrite : (s.dev.at t).carSrcWrite fn data = .ok ((s.dev.at t).carSelect data) :=
      (Dev.carSrcWrite_of_owner hownAt hsel hz).trans (if_neg (by rw [show (s.dev.at t).flag Fld.CAR_CTRL_LOCK = false from hfree]; exact Bool.false_ne_true))
    obtain ⟨h1, h2, h3, h4, h5, h6⟩ := (s.dev.at t).carSelect_spec data
    exact ⟨_, s.onDev_of (g := doCarSrcWrite fn data t) (by unfold doCarSrcWrite; rw [hwrite]; rfl), h1, h2, h3, h4, h5, h6, rfl, rfl⟩
  case locked =>
    have hwrite : (s.dev.at t).carSrcWrite fn data = lockedOut :=
      (Dev.carSrcWrite_of_owner hownAt hsel hz).trans (if_pos (by
        rw [show (s.dev.at t).flag Fld.CAR_CTRL_LOCK = true from hlock, show (s.dev.at t).f.car.lost = false from hlost, Bool.and_false]; rfl))
    exact s.onDev_of (g := doCarSrcWrite fn data t) (by unfold doCarSrcWrite; rw [hwrite]; rfl)

end Sys2Proof.Machine
end

section
/-!
PROOF. Losses of the position's source, and the references of the oscillator (R21 to R23).
-/

namespace Sys2Proof.Machine

/-! ## A counter -/

/-- A saturating counter after one more (R11). -/
theorem Dev.fld_bump_same (d : Dev) {c s : Fld} (hlo : c.lo = 0) (hw : c.w = 32) (hoff : c.off ≠ s.off) :
    (d.bump c s).fld c = min (d.fld c + 1) (2 ^ 32 - 1) := by
  have hlt : d.fld c < 2 ^ 32 := hw ▸ bitsOf_lt _ c.lo c.w
  have hset (v : Nat) (hv : v < 2 ^ 32) : (d.setFld c v).fld c = v := by
    rw [Dev.fld_setFld_same _ _ _ (by omega), hw, Nat.mod_eq_of_lt hv]
  unfold Dev.bump; dsimp only
  split_ifs with hsat hfull
  · omega
  · rw [Dev.fld_setFld_off _ _ _ _ hoff, hset _ (by omega)]
    omega
  · rw [hset _ (by omega)]
    omega

theorem Dev.rd_bump_ne (d : Dev) {c s : Fld} {k : Nat} (hc : k ≠ c.off) (hs : k ≠ s.off) : (d.bump c s).rd k = d.rd k := by
  unfold Dev.bump; dsimp only
  repeat' split
  · rfl
  · rw [Dev.rd_setFld_ne _ _ _ hs, Dev.rd_setFld_ne _ _ _ hc]
  · rw [Dev.rd_setFld_ne _ _ _ hc]

/-! ## Sources raised on the F-side -/

/-- A source raised leaves another one of its die. -/
theorem Dev.src_raiseF_ne (d : Dev) {i j : Nat} (hj : j ≠ i) (hpin : j ≠ Sn.CHK_PIN) (a b : Bool) :
    (d.raise .f i a b).src .f j = d.src .f j :=
  (Dev.blind_src .f j).raiseF (fun d => d.src_pins_ne .f (.inr hpin)) (fun d s => d.src_setSrc_ne .f s hj) d a b

/-- The Carousel is not reached by a source raised on the F-side. -/
theorem Dev.car_raiseF (d : Dev) (i : Nat) (a b : Bool) : (d.raise .f i a b).f.car = d.f.car :=
  (Dev.Blind.of_core (π := fun d => d.f.car) fun _ => rfl).raiseF (i := i)
    (fun d => (congrArg (fun d : Dev => d.f.car) d.unpinned_pins :)) (fun _ _ => rfl) d a b

/-- Rest is not entered or left by it. -/
theorem Dev.rest_raiseF (d : Dev) (i : Nat) (a b : Bool) : (d.raise .f i a b).f.ch.rest = d.f.ch.rest :=
  (Dev.Blind.of_core (π := fun d => d.f.ch.rest) fun _ => rfl).raiseF (i := i)
    (fun d => (congrArg (fun d : Dev => d.f.ch.rest) d.unpinned_pins :)) (fun _ _ => rfl) d a b

/-! ## The source lost (R23) -/

/-- The loss recorded, with its report. -/
def Dev.lossNoted (d : Dev) : Dev := (d.latchLost.ncoSettle.setFld Fld.CAR_STATUS_SRC_LOST 1).raiseBoth .f Sn.CAR_SRC_LOST

theorem Dev.car_lossNoted (d : Dev) : d.lossNoted.f.car = d.ncoSettle.f.car := by
  unfold Dev.lossNoted Dev.raiseBoth
  rw [Dev.car_raiseF, Dev.car_setFld]
  rfl

theorem Dev.rd_lossNoted (d : Dev) {k : Nat} (hk : reactReg k = false) :
    d.lossNoted.rd k = (d.setFld Fld.CAR_STATUS_SRC_LOST 1).rd k := (Dev.rd_raiseF _ hk _ _).trans rfl

/-- A loss changes the sources of the F-side but its own only by reports, and the registers but CAR_STATUS. -/
theorem Dev.carLose_kept (d : Dev) : (∀ j, j ≠ Sn.CAR_SRC_LOST → j ≠ Sn.CHK_PIN → d.carLose.src .f j = d.src .f j) ∧
    ∀ k, reactReg k = false → k ≠ Reg.CAR_STATUS → d.carLose.rd k = d.rd k := by
  have hblind {α : Type} (π : Dev → α) (hcar : ∀ (d : Dev) (c : Carousel), π { d with f.car := c } = π d)
      (hnoted : π d.lossNoted = π d) : π d.carLose = π d :=
    Dev.ite_kept rfl (Dev.ite_kept ((hcar _ _).trans ((hcar _ _).trans ((hcar _ _).trans hnoted)))
      ((hcar _ _).trans ((hcar _ _).trans ((hcar _ _).trans hnoted))))
  refine ⟨fun j hj hpin => ?_, fun k hk hne => ?_⟩
  · exact hblind (fun d => d.src .f j) (fun _ _ => rfl) (Dev.src_raiseF_ne _ hj hpin _ _)
  · exact hblind (fun d => d.rd k) (fun _ _ => rfl) ((d.rd_lossNoted hk).trans (d.rd_setFld_ne _ _ hne))

/-- The source of an enabled Carousel is lost. -/
theorem Dev.carLose_spec {d : Dev} (hen : d.carEn = true) (hlost : d.f.car.lost = false) (hrest : d.f.ch.rest = none) :
    d.carLose.f.car.lost = true ∧ d.carLose.fld Fld.CAR_STATUS_SRC_LOST = 1 ∧
    d.carLose.f.car.onInternal = (d.f.car.onInternal || d.fld Fld.CAR_LOSS_POL == 1) ∧ d.carLose.f.car.pos = d.f.car.pos := by
  have hcar := d.car_lossNoted
  have hreg : d.lossNoted.fld Fld.CAR_STATUS_SRC_LOST = 1 := by
    refine Eq.trans ?_ (d.fld_setFld_same Fld.CAR_STATUS_SRC_LOST 1 (by decide))
    unfold Dev.fld
    rw [Dev.rd_lossNoted d (by decide)]
  have hgo : ¬ (!d.carEn || d.f.car.lost || d.f.ch.rest.isSome) = true := by simp [hen, hlost, hrest]
  unfold Dev.carLose
  extract_lets c e d1 f c1 d2 f1 c2
  rw [if_neg hgo]
  have hd1 : d1 = d.lossNoted := rfl
  have hpol : e.fld Fld.CAR_LOSS_POL = d.fld Fld.CAR_LOSS_POL := rfl
  by_cases h : e.fld Fld.CAR_LOSS_POL = 1
  · rw [if_pos h]
    refine ⟨rfl, hreg, ?_, ?_⟩
    · rw [hpol] at h
      simp [h]
    · exact (congrArg Carousel.pos hcar :)
  · rw [if_neg h]
    refine ⟨rfl, hreg, ?_, ?_⟩
    · rw [hpol] at h
      rw [beq_false_of_ne h, Bool.or_false]
      exact (congrArg Carousel.onInternal hcar :)
    · exact (congrArg Carousel.pos hcar :)

/-! ## What loses it -/

/-- What an illegal transition counted and reported is. -/
theorem Dev.quadErr_spec {d e : Dev} {t : Nat}
    (he : e = ((d.at t).bump Fld.CAR_QERR_CNT_COUNT Fld.CAR_CNT_SAT_SAT_QERR).raiseBoth .f Sn.CAR_QUAD_ERR) :
    e.f.car = d.f.car ∧ e.f.ch.rest = d.f.ch.rest ∧
    (∀ k, reactReg k = false → k ≠ Reg.CAR_QERR_CNT → k ≠ Reg.CAR_CNT_SAT → e.rd k = d.rd k) ∧
    e.fld Fld.CAR_QERR_CNT_COUNT = min (d.fld Fld.CAR_QERR_CNT_COUNT + 1) (2 ^ 32 - 1) ∧ (e.src .f Sn.CAR_QUAD_ERR).last = max d.now t := by
  subst he
  have hcar (d : Dev) : (d.bump Fld.CAR_QERR_CNT_COUNT Fld.CAR_CNT_SAT_SAT_QERR).f.car = d.f.car :=
    Dev.bump_of_wr (π := fun d => d.f.car) (fun d k v => by rw [Dev.wr_f]) d _ _
  have hch (d : Dev) : (d.bump Fld.CAR_QERR_CNT_COUNT Fld.CAR_CNT_SAT_SAT_QERR).f.ch = d.f.ch :=
    Dev.bump_of_wr (π := fun d => d.f.ch) (fun d k v => by rw [Dev.wr_f]) d _ _
  refine ⟨(Dev.car_raiseF ..).trans (hcar _), ?_, fun k hk hne hne' => ?_, ?_, ?_⟩
  · refine (Dev.rest_raiseF ..).trans ?_
    rw [hch]
    rfl
  · exact (Dev.rd_raiseF _ hk _ _).trans (Dev.rd_bump_ne _ hne hne')
  · unfold Dev.fld Dev.raiseBoth
    rw [Dev.rd_raiseF _ (by decide)]
    exact Dev.fld_bump_same _ (by decide) (by decide) (by decide)
  · refine (Dev.last_raise _ .f true true (by decide)).trans ?_
    exact Dev.bump_of_wr (π := fun d => d.now) (fun d k v => Dev.wr_now d k v) _ _ _

/-- Where the device goes from an illegal transition that has been counted and reported as `e`. -/
def Dev.illegalNext (d e : Dev) : Dev :=
  if d.f.car.lost then e
  else match d.f.car.illFirst with
    | none => { e with f.car.illFirst := some d.now }
    | some s => if d.carEn && decide (s + msCycles ≤ d.now) then e.carLose else e

theorem Dev.illegalNext_cases (d e : Dev) :
    d.illegalNext e = e ∨ d.illegalNext e = { e with f.car.illFirst := some d.now } ∨ d.illegalNext e = e.carLose := by
  unfold Dev.illegalNext
  repeat' split
  · exact .inl rfl
  · exact .inr (.inl rfl)
  · exact .inr (.inr rfl)
  · exact .inl rfl

theorem Dev.illegalNext_of_long {d : Dev} (e : Dev) {q : Nat} (hlost : d.f.car.lost = false) (hen : d.carEn = true)
    (hfirst : d.f.car.illFirst = some q) (hlong : q + msCycles ≤ d.now) : d.illegalNext e = e.carLose := by
  unfold Dev.illegalNext
  have hlose : (d.carEn && decide (q + msCycles ≤ d.now)) = true := Bool.and_eq_true_iff.mpr ⟨hen, decide_eq_true hlong⟩
  rw [hlost, hfirst]
  simp only [Bool.false_eq_true, if_false, hlose, if_true]

/-- An illegal transition is counted and reported, and may lose the source. -/
theorem doQuadIllegalTransition_of_encoder {d : Dev} {t : Nat} (hrest : d.f.ch.rest = none) (hsel : d.fld Fld.CAR_SRC_SEL = 1) :
    ∃ e : Dev, e = ((d.at t).bump Fld.CAR_QERR_CNT_COUNT Fld.CAR_CNT_SAT_SAT_QERR).raiseBoth .f Sn.CAR_QUAD_ERR ∧
    doQuadIllegalTransition t d = (d.at t).illegalNext e := by
  have hskip : ¬ ((d.at t).fld Fld.CAR_SRC_SEL != 1 || (d.at t).f.ch.rest.isSome) = true := by
    rw [show (d.at t).fld Fld.CAR_SRC_SEL = 1 from hsel, Dev.at_f, hrest]
    exact Bool.false_ne_true
  exact ⟨_, rfl, if_neg hskip⟩

/-! ## References (R21) -/

/-- Prediction that is lost moves slots alone. -/
theorem Dev.car_predCheck (d : Dev) : ∃ l, d.predCheck.f.car = { d.f.car with slots := l } := by
  unfold Dev.predCheck
  split
  · exact ⟨_, rfl⟩
  · exact ⟨_, rfl⟩

/-- The oscillator steered to a rate, under the source selected. -/
theorem Dev.steer_spec (d : Dev) (rate : Nat) : (d.steer rate).f.car.pendRate = rate ∧
    (d.f.car.pendSrc = none → (d.steer rate).f.car.rate = rate) ∧ (d.steer rate).f.car.holdSince = d.f.car.holdSince ∧
    (d.steer rate).f.car.lockRun = d.f.car.lockRun ∧ (d.steer rate).f.car.locked = d.f.car.locked := by
  unfold Dev.steer
  extract_lets e f c
  by_cases h : e.f.car.pendSrc.isSome = true
  · rw [if_pos h]
    refine ⟨rfl, fun hnone => ?_, rfl, rfl, rfl⟩
    rw [show e.f.car.pendSrc = none from hnone] at h
    exact absurd h Bool.false_ne_true
  · rw [if_neg h]
    obtain ⟨l, hl⟩ := Dev.car_predCheck { e with f.car.rate := rate, f.car.pendRate := rate }
    rw [hl]
    exact ⟨rfl, fun _ => rfl, rfl, rfl, rfl⟩

/-- What the references decide of the Carousel: which source, the oscillator's rates, holdover and lock. -/
def Carousel.steered (c : Carousel) : Option Nat × Nat × Nat × Option Nat × Nat × Bool × Nat :=
  (c.pendSrc, c.rate, c.pendRate, c.holdSince, c.lockRun, c.locked, c.badRun)

/-- A time-of-day load applied leaves it. -/
theorem Dev.steered_todApply (d : Dev) : d.todApply.f.car.steered = d.f.car.steered := by
  have hend (d : Dev) (g st : Nat) (r : Quad) : (d.endF g st r).f.car = d.f.car :=
    (congrArg (fun d : Dev => d.f.car) (d.noOps_endF g st r) :)
  unfold Dev.todApply
  split
  · rfl
  · dsimp only
    split
    · rw [hend]; rfl
    · rw [hend]; rfl

/-- An edge at the timers leaves the Carousel. -/
theorem Dev.car_tmEdge (d : Dev) (src : Nat) (rising : Bool) (raw : Nat) : (d.tmEdge src rising raw).f.car.steered = d.f.car.steered := by
  have hone (d : Dev) (k : Nat) : (d.tmEvent k raw).f.car.steered = d.f.car.steered :=
    (congrArg Carousel.steered (Dev.slotBlind_carTravel.toEdgeBlind.tmEvent d k raw) :)
  exact Dev.ite_kept (π := fun d => d.f.car.steered) rfl
    (Dev.StreamBlind.foldl (π := fun d => d.f.car.steered) _ (fun d k => Dev.ite_kept (π := fun d => d.f.car.steered) (hone d k) rfl) _ _)

section
variable {d : Dev} {t : Nat} (hrest : d.f.ch.rest = none) (err : Int) (rate raw : Nat)
include hrest

/-- A rising edge of PPS_IN steers the oscillator under TIME. -/
theorem doPpsEdge_of_time (hsel : d.fld Fld.CAR_SRC_SEL = 3) : ∃ e : Dev, doPpsEdge true err rate raw t d = e.steer (clampRate rate) ∧
    e.f.car.holdSince = none ∧ e.f.car.pendSrc = d.f.car.pendSrc ∧
    e.f.car.lockRun = (if err.natAbs ≤ 8 then min 4 (d.f.car.lockRun + 1) else 0) ∧ e.f.car.locked = decide (4 ≤ e.f.car.lockRun) := by
  have hkept : ((d.at t).todApply.tmEdge 2 true raw).f.car.steered = d.f.car.steered :=
    (Dev.car_tmEdge ..).trans (Dev.steered_todApply _)
  obtain ⟨hback, -⟩ := ((d.at t).todApply.tmEdge 2 true raw).car_syncBack
  simp only [Carousel.steered, Prod.mk.injEq] at hkept
  obtain ⟨hpend, -, -, -, hrun, -, -⟩ := hkept
  unfold doPpsEdge
  extract_lets e d1 d2 run f c
  have hd2 : d2.f.car = { ((d.at t).todApply.tmEdge 2 true raw).f.car with holdSince := none } := hback
  refine ⟨_, (if_neg ?awake).trans (if_neg ?time), ?_, ?_, ?_, rfl⟩
  case awake => rw [show e.f.ch.rest = none from hrest]; exact Bool.false_ne_true
  case time => rw [show e.fld Fld.CAR_SRC_SEL = 3 from hsel]; exact Bool.false_ne_true
  · exact (congrArg Carousel.holdSince hd2 :)
  · exact (congrArg Carousel.pendSrc hd2).trans hpend
  · have hd2run : d2.f.car.lockRun = d.f.car.lockRun := (congrArg Carousel.lockRun hd2).trans hrun
    rw [← hd2run]

/-- A rising zero-cross out of band steers the oscillator under MAINS and unlocks it. -/
theorem doMainsZeroCross_of_out (hsel : d.fld Fld.CAR_SRC_SEL = 4) : ∃ e : Dev, doMainsZeroCross true err rate raw false t d = e.steer rate ∧
    e.f.car.holdSince = none ∧ e.f.car.pendSrc = d.f.car.pendSrc ∧ e.f.car.locked = false := by
  have hkept : ((d.at t).tmEdge 3 true raw).f.car.steered = d.f.car.steered := Dev.car_tmEdge ..
  obtain ⟨hback, -⟩ := ((d.at t).tmEdge 3 true raw).car_syncBack
  simp only [Carousel.steered, Prod.mk.injEq] at hkept
  obtain ⟨hpend, -⟩ := hkept
  unfold doMainsZeroCross
  extract_lets e d1 d2 div er run bad unlock f c
  have hd2 : d2.f.car = { ((d.at t).tmEdge 3 true raw).f.car with holdSince := none } := hback
  refine ⟨_, if_neg ?mains, ?_, ?_, rfl⟩
  case mains =>
    rw [show e.fld Fld.CAR_SRC_SEL = 4 from hsel, show e.f.ch.rest = none from hrest]
    exact Bool.false_ne_true
  · exact (congrArg Carousel.holdSince hd2 :)
  · exact (congrArg Carousel.pendSrc hd2).trans hpend

end

/-- Settles O5: each way to lose the source ends in its loss, and each reference event in the oscillator's steering. -/
theorem carouselLossesAndReferences : Obligations.CarouselLossesAndReferences := by
  intro s err rate q t hrest
  refine ⟨fun hen hlost => ⟨fun hsel => ⟨?bias, fun hfirst hlong => ?illegal⟩, fun hsel hlong => ?sample, fun hhold hlong => ?holdover⟩,
    fun hsel => ?count, fun hsel => ?pps, fun hsel => ?mains, fun hsel hhold => ?loss⟩
  case bias =>
    obtain ⟨h1, h2, h3, h4⟩ := Dev.carLose_spec (d := s.dev.at t) hen hlost hrest
    exact ⟨_, s.onDev_of (if_pos hsel), h1, h2, h3, h4, rfl, rfl⟩
  case illegal =>
    obtain ⟨e, he, hdo⟩ := doQuadIllegalTransition_of_encoder (t := t) hrest hsel
    obtain ⟨hcar, hch, hrd, -, -⟩ := Dev.quadErr_spec he
    have hen' : e.carEn = true := by
      unfold Dev.carEn Dev.flag Dev.fld
      rw [hrd _ (by decide) (by decide) (by decide)]
      exact hen
    obtain ⟨h1, h2, -, -⟩ := Dev.carLose_spec hen' (by rw [hcar]; exact hlost) (by rw [hch]; exact hrest)
    exact ⟨_, s.onDev_of (hdo.trans (Dev.illegalNext_of_long e hlost hen hfirst hlong)), h1, h2, rfl, rfl⟩
  case sample =>
    obtain ⟨h1, h2, -, -⟩ := Dev.carLose_spec (d := s.dev.at t) hen hlost hrest
    exact ⟨_, s.onDev_of (if_pos ⟨hsel, hlong⟩), h1, h2, rfl, rfl⟩
  case holdover =>
    obtain ⟨h1, h2, -, -⟩ := Dev.carLose_spec (d := s.dev.at t) hen hlost hrest
    have hdo : doHoldoverExpire t s.dev = (s.dev.at t).carLose := by
      unfold doHoldoverExpire; dsimp only
      rw [Dev.at_f, hhold]
      exact if_pos hlong
    exact ⟨_, s.onDev_of hdo, h1, h2, rfl, rfl⟩
  case count =>
    obtain ⟨e, he, hdo⟩ := doQuadIllegalTransition_of_encoder (t := t) hrest hsel
    obtain ⟨-, -, -, hcount, hlast⟩ := Dev.quadErr_spec he
    obtain ⟨hsrc, hrd⟩ := e.carLose_kept
    have hcount' : e.carLose.fld Fld.CAR_QERR_CNT_COUNT = e.fld Fld.CAR_QERR_CNT_COUNT := by
      unfold Dev.fld
      rw [hrd _ (by decide) (by decide)]
    rcases (s.dev.at t).illegalNext_cases e with hnext | hnext | hnext
    · exact ⟨_, s.onDev_of (hdo.trans hnext), hcount, hlast, rfl, rfl⟩
    · exact ⟨_, s.onDev_of (hdo.trans hnext), hcount, hlast, rfl, rfl⟩
    · exact ⟨_, s.onDev_of (hdo.trans hnext), hcount'.trans hcount, (congrArg Src.last (hsrc _ (by decide) (by decide))).trans hlast, rfl, rfl⟩
  case pps =>
    obtain ⟨e, hdo, hhold, hpend, hrun, hlocked⟩ := doPpsEdge_of_time (t := t) hrest err rate q hsel
    obtain ⟨h1, h2, h3, h4, h5⟩ := e.steer_spec (clampRate rate)
    refine ⟨_, s.onDev_of hdo, h1, fun h => h2 (hpend.trans h), h3.trans hhold, h4.trans hrun, h5.trans ?_, rfl, rfl⟩
    rw [hlocked, hrun]
    split_ifs with h
    · exact decide_eq_decide.mpr (by omega)
    · exact decide_eq_decide.mpr (by omega)
  case mains =>
    obtain ⟨e, hdo, hhold, hpend, hlocked⟩ := doMainsZeroCross_of_out (t := t) hrest err rate q hsel
    obtain ⟨h1, h2, h3, -, h5⟩ := e.steer_spec rate
    exact ⟨_, s.onDev_of hdo, h1, fun h => h2 (hpend.trans h), h3.trans hhold, h5.trans hlocked, rfl, rfl⟩
  case loss =>
    have hgo : ¬ (!decide (s.dev.fld Fld.CAR_SRC_SEL = 3 ∨ s.dev.fld Fld.CAR_SRC_SEL = 4) || s.dev.f.car.holdSince.isSome ||
        s.dev.f.ch.rest.isSome) = true := by simp [hsel, hhold, hrest]
    have hcar := Dev.car_raiseF ({ s.dev.at t with f.car := { s.dev.f.car with
      holdSince := some (max s.dev.now t), locked := false, lockRun := 0, badRun := 0 } }) Sn.CAR_SYNC_UNLOCK true true
    refine ⟨_, s.onDev_of (if_neg hgo), ?_, ?_, Dev.last_raise _ .f true true (by decide), ?_, rfl, rfl⟩
    · exact (congrArg Carousel.holdSince hcar :)
    · exact (congrArg Carousel.locked hcar :)
    · exact (congrArg Carousel.pos hcar :)

end Sys2Proof.Machine
end

section
/-!
PROOF. Slots armed, disarmed, fired and abandoned; time-of-day loads; the ABS entry's run (R28, R30, R33, R34, R188).
-/

namespace Sys2Proof.Machine

/-! ## Every listed value passed through a function -/

/-- A table in its canonical form, passed through a function that keeps the default. -/
theorem Tab.get_mapVals {α : Type} [DecidableEq α] (d : Nat → α) (g : α → α) (hg : ∀ k, g (d k) = d k) (k : Nat) :
    ∀ {m : Tab α}, Tab.wf d m = true → Tab.get d (Tab.mapVals d g m) k = g (Tab.get d m k)
  | [], _ => (hg k).symm
  | (j, v) :: m, h => by
    simp only [Tab.wf_cons, Bool.and_eq_true] at h
    obtain ⟨⟨-, habove⟩, hwf⟩ := h
    have htail := Tab.get_mapVals d g hg k hwf
    have hkeep : Tab.mapVals d g ((j, v) :: m) = if g v ≠ d j then (j, g v) :: Tab.mapVals d g m else Tab.mapVals d g m := by
      simp only [Tab.mapVals, List.map_cons, List.filter_cons, decide_eq_true_eq]
    rw [hkeep, Tab.get_cons]
    by_cases hk : k = j
    · subst hk
      rw [if_pos rfl]
      split
      · rw [Tab.get_cons, if_pos rfl]
      case isFalse hv =>
        rw [htail, Tab.get_of_above d habove, hg, not_not.mp hv]
    · rw [if_neg hk]
      split
      · rw [Tab.get_cons, if_neg hk, htail]
      · exact htail

/-! ## Commands of the slots -/

/-- The slot as an arm of an operation loads it. -/
def FOp.slotOf (o : FOp) (tag last : Nat) : Slot :=
  { st := .armed, last := last, fn := o.fn, ring := o.ring, tag := if o.desc.repeats then none else some tag
    target := o.desc.target, frac := o.desc.frac, qual := o.desc.qual, repeats := o.desc.repeats, drop := o.desc.lateDrop
    notify := o.desc.notify, lead := o.desc.lead, action := o.desc.action, value := o.desc.slotValue, operand := o.desc.operand1
    fired := [], placed := 0, abandoned := false }

/-- The device with the slot of an arm loaded. -/
def Dev.armed (d : Dev) (tag : Nat) (o : FOp) : Dev :=
  (d.setFop tag (some { o with begun := true })).setSlot o.desc.dest (o.slotOf tag (d.slot o.desc.dest).last)

section
variable {d : Dev} {tag t : Nat} {o : FOp}

/-- An arm that nothing refuses and whose target is not just passed. -/
theorem doSlotArm_of_ahead (hfresh : d.freshOp tag opSLOT_ARM = some o) (hcode : d.slotCode o.desc.dest = codeOf o.fn)
    (htgt : o.desc.target < d.f.car.modulus) (hfree : (d.slot o.desc.dest).st = .free) (hring : (d.ring o.ring).running = true)
    (hlate : d.f.ch.standby = true ∨ (d.at t).targetLate o.desc.qual o.desc.target = false)
    (hforeign : o.desc.action = 2 → d.entryForeign o.fn (o.desc.operand1.toNat % 256) = false) :
    doSlotArm tag t d = if o.desc.repeats then ((d.at t).armed tag o).endF tag stOK 0 else (d.at t).armed tag o := by
  unfold doSlotArm; dsimp only
  rw [show (d.at t).freshOp tag opSLOT_ARM = some o from hfresh]
  refine (if_neg ?owner).trans ((if_neg (Nat.not_le.mpr htgt)).trans ((if_neg ?entry).trans ((if_neg (not_not.mpr hfree)).trans
    ((if_neg ?ring).trans (if_neg ?late)))))
  case owner => exact fun h => bne_iff_ne.mp h hcode
  case entry =>
    rw [Bool.and_eq_true, decide_eq_true_eq]
    exact fun ⟨h2, hf⟩ => Bool.false_ne_true ((hforeign h2).symm.trans hf)
  case ring =>
    rw [Bool.and_eq_true, Bool.not_eq_true', Bool.not_eq_true']
    exact fun ⟨_, hr⟩ => Bool.false_ne_true (hr.symm.trans hring)
  case late =>
    rw [Bool.and_eq_true, Bool.not_eq_true']
    exact fun ⟨hs, hl⟩ => hlate.elim (fun h => Bool.false_ne_true (hs.symm.trans h)) fun h => Bool.false_ne_true (h.symm.trans hl)

theorem doSlotDisarm_of_owner (hfresh : d.freshOp tag opSLOT_DISARM = some o) (hcode : d.slotCode o.desc.dest = codeOf o.fn) :
    doSlotDisarm tag t d = (((d.at t).setFop tag (some { o with begun := true })).slotFree o.desc.dest).endF tag stOK 0 := by
  unfold doSlotDisarm; dsimp only
  rw [show (d.at t).freshOp tag opSLOT_DISARM = some o from hfresh]
  exact if_neg fun h => bne_iff_ne.mp h hcode

theorem doTodLoad_of_good (hfresh : d.freshOp tag opTOD_LOAD = some o) (hcode : d.carCode = codeOf o.fn)
    (hgood : o.desc.value.good o.fn o.ring 0x130 = true) (hnone : d.f.car.tod = none) (htgt : o.desc.value.word.toNat < d.f.car.modulus) :
    doTodLoad tag t d = { (d.at t).setFop tag (some { o with begun := true }) with f.car.tod := some (tag, o.desc.value.word.toNat) } := by
  unfold doTodLoad; dsimp only
  rw [show (d.at t).freshOp tag opTOD_LOAD = some o from hfresh]
  refine (if_neg fun h => bne_iff_ne.mp h hcode).trans ((if_neg ?good).trans ((if_neg ?waits).trans (if_neg (Nat.not_le.mpr htgt))))
  case good => rw [hgood]; exact Bool.false_ne_true
  case waits =>
    show ¬ d.f.car.tod.isSome = true
    rw [hnone]
    exact Bool.false_ne_true

end

/-- The ABS entry's run falls due. -/
theorem doAbsSampleRun_of_due {d : Dev} {n t : Nat} (habs : d.absEntry = some n) (hloaded : (d.fspEntry n).loaded = true)
    (htx : (d.fspEntry n).txWords = 0) (hwords : ecWords (d.fspEntry n).ectrl = 1) (hphase : ∃ p ∈ (d.fspEntry n).phases, phKind p = 5)
    (hdue : ∀ a, d.f.fsp.absAt = some a → a + 64 * d.fld Fld.CAR_ABS_CFG_PERIOD ≤ max d.now t) :
    doAbsSampleRun t d = { d.at t with f.fsp.absAt := some (max d.now t), f.fsp.absDue := true } := by
  obtain ⟨p, hmem, hkind⟩ := hphase
  have hany : (d.fspEntry n).phases.any (fun p => phKind p == 5) = true := List.any_eq_true.mpr ⟨p, hmem, beq_iff_eq.mpr hkind⟩
  unfold doAbsSampleRun
  extract_lets e early
  have hearly : early = false := by
    dsimp only [early]
    split
    case h_1 a ha => exact decide_eq_false (Nat.not_lt.mpr (hdue a ha))
    case h_2 => rfl
  rw [show e.absEntry = some n from habs, hearly]
  refine (if_neg Bool.false_ne_true).trans (if_pos ?_)
  show ((d.fspEntry n).loaded && (d.fspEntry n).txWords == 0 && ecWords (d.fspEntry n).ectrl == 1 &&
    (d.fspEntry n).phases.any (fun p => phKind p == 5)) = true
  rw [hloaded, htx, hwords, hany]
  rfl

/-- Settles O6: each command takes the branch that its operation and slot name. -/
theorem carouselSlotCommands : Obligations.CarouselSlotCommands := by
  intro s tag n t o
  refine ⟨fun hfresh hcode htgt hfree hring hlate hforeign => ?arm, fun hfresh hcode huse => ?disarm, fun hst hplaced hact hpred => ?fire,
    fun hpred hwf => ?timeout, fun hfresh hcode hgood hnone htgt => ?tod, fun habs hloaded htx hwords hphase hdue => ?run⟩
  case arm =>
    have hkept (e : Dev) (k : Nat) : (if o.desc.repeats then e.endF tag stOK 0 else e).slot k = e.slot k :=
      Dev.ite_kept (π := fun d => d.slot k) (e.slot_endF tag stOK 0 k) rfl
    have hpos (e : Dev) : (if o.desc.repeats then e.endF tag stOK 0 else e).f.car.pos = e.f.car.pos :=
      Dev.ite_kept (π := fun d => d.f.car.pos) (congrArg (fun d : Dev => d.f.car.pos) (e.noOps_endF tag stOK 0) :) rfl
    refine ⟨_, s.onDev_of (doSlotArm_of_ahead (t := t) hfresh hcode htgt hfree hring hlate hforeign), ?_, fun k hk => ?_, ?_, rfl, rfl⟩
    · exact (hkept _ _).trans ((Dev.slot_setSlot ..).trans (if_pos rfl))
    · exact (hkept _ _).trans ((Dev.slot_setSlot ..).trans (if_neg hk))
    · exact hpos _
  case disarm =>
    refine ⟨_, s.onDev_of (doSlotDisarm_of_owner (t := t) hfresh hcode), ?_, fun k hk => ?_, rfl, rfl⟩
    · exact (Dev.slot_endF ..).trans ((Dev.slot_slotFree ..).trans (if_pos ⟨rfl, huse⟩))
    · exact (Dev.slot_endF ..).trans ((Dev.slot_slotFree ..).trans (if_neg fun h => hk h.1))
  case fire =>
    exact s.onDev_of ((if_pos ⟨hst, hplaced, hact⟩).trans (if_pos hpred))
  case timeout =>
    refine ⟨_, s.onDev_of (if_neg (by rw [hpred]; exact Bool.false_ne_true)), fun k => ?_, rfl, rfl, rfl⟩
    exact Tab.get_mapVals (fun _ => Slot.free) (fun x => if x.st = .pending then { x with st := .armed, abandoned := true } else x)
      (fun _ => rfl) k hwf
  case tod => exact s.onDev_of (doTodLoad_of_good (t := t) hfresh hcode hgood hnone htgt)
  case run => exact s.onDev_of (doAbsSampleRun_of_due habs hloaded htx hwords hphase hdue)

end Sys2Proof.Machine
end

section
/-!
PROOF. Cells received, position forwarding, refresh ticks and the PARAM exchange (R37, R42, R47 to R49, R54).
-/

namespace Sys2Proof.Machine

/-! ## Cells received -/

/-- A good LINK cell that its direction defines is taken. -/
theorem Dev.linkCell_of_good {d : Dev} {c : Cell80} {x : Die} {op : Nat} (hup : d.h.link.up = true) (hc : goodLink c op = true)
    (hop : (op = 1 ∨ op = 2 ∨ op = 3 ∨ op = 6) ∨ (x = .f ∧ op = 4) ∨ (x = .h ∧ (op = 5 ∨ op = 7))) :
    d.linkCell x op c = (true, d.cellSeen x) := by
  simp only [goodLink, Bool.and_eq_true, beq_iff_eq] at hc
  obtain ⟨⟨⟨⟨hhchk, hcchk⟩, htyp⟩, hroute⟩, hopc⟩ := hc
  have hdef : unexpected c (x == .f) = false := by
    unfold unexpected
    rw [htyp, hroute, hopc]
    rcases hop with (rfl | rfl | rfl | rfl) | ⟨rfl, rfl⟩ | ⟨rfl, rfl | rfl⟩
    all_goals rfl
  have hrec : d.receiveCell x c = (true, d.cellSeen x) := Dev.receiveCell_of_good x hup (by simp [hhchk, hcchk]) hdef
  unfold Dev.linkCell
  rw [hrec, htyp, hopc]
  simp

/-- The device whose link has entered training. -/
def Dev.trainingBegun (d : Dev) : Dev := { d with h.link := { d.h.link with up := false, training := true }, f.watch.refA := none }

theorem Dev.enterTraining_of_up {d : Dev} (hup : d.h.link.up = true) : d.enterTraining = d.trainingBegun.retrainNoted := by
  unfold Dev.enterTraining
  rw [hup]
  rfl

section
variable {α : Type} {π : Dev → α} (h : Dev.Blind π) (hsrc : ∀ (d : Dev) (i : Nat) (s : Src), π (d.setSrc .h i s) = π d)
  (hbegun : ∀ d : Dev, π d.trainingBegun = π d)
include h hsrc hbegun

/-- A part blind to reports, to the H-side's sources, the link and the count of retrains does not see training begin. -/
theorem Dev.Blind.enterTraining (hretrain : ∀ (d : Dev), π (d.bump Fld.PRZ_RETRAIN_CNT_COUNT ⟨Reg.PRZ_CNT_SAT, 3, 1⟩) = π d) (d : Dev) :
    π d.enterTraining = π d := by
  unfold Dev.enterTraining
  split
  · rfl
  · exact (h.raiseBothH (fun d => hsrc d _) (by decide) _).trans ((hretrain _).trans (hbegun d))

/-- Of a bad cell at the H-side it sees at most the count of such cells. -/
theorem Dev.Blind.cellErrH (hretrain : ∀ (d : Dev), π (d.bump Fld.PRZ_RETRAIN_CNT_COUNT ⟨Reg.PRZ_CNT_SAT, 3, 1⟩) = π d) (d : Dev) :
    π (d.cellErr .h) = π (d.bump Fld.PRZ_CELL_ERR_CNT_COUNT (przSat 0)) := by
  have hraise := h.raiseBothH (i := Sn.PRZ_CELL_ERR) (fun d => hsrc d _) (by decide) (d.bump Fld.PRZ_CELL_ERR_CNT_COUNT (przSat 0))
  unfold Dev.cellErr; dsimp only
  refine Dev.ite_kept ((h.enterTraining hsrc hbegun hretrain _).trans ?_) ?_
  · exact (h.bulk _ _ _).trans hraise
  · exact (h.bulk _ _ _).trans hraise

end

/-! ## Position forwarding -/

/-- A part blind to what is put out does not see several things put out at once. -/
theorem Dev.emits_kept {α : Type} {π : Dev → α} (hemit : ∀ (d : Dev) (e : Emit), π (d.emit e) = π d) :
    ∀ (l : List Emit) (d : Dev), π { d with out := l ++ d.out } = π d
  | [], _ => rfl
  | e :: l, d => (hemit { d with out := l ++ d.out } e).trans (Dev.emits_kept hemit l d)

/-- A part blind to what is put out and to sweeps does not see an update of the position copy. -/
theorem Dev.phaseUpdate_kept {α : Type} {π : Dev → α} (hemit : ∀ (d : Dev) (e : Emit), π (d.emit e) = π d) (hsweep : ∀ (d : Dev) (fn : Func) (s : Sweep), π (d.setSweep fn s) = π d)
    (d : Dev) (old : Nat) (delta : Int) : π (d.phaseUpdate old delta) = π d := by
  have hread (d : Dev) (fn : Func) (a n : Nat) : π (d.hostRead fn a n) = π d := Dev.emits_kept hemit _ d
  have hissue (d : Dev) (fn : Func) : π (d.sweepIssue fn) = π d := by
    unfold Dev.sweepIssue; dsimp only
    split
    · exact Dev.ite_kept ((hread _ _ _ _).trans (hsweep d _ _)) ((hread _ _ _ _).trans ((hread _ _ _ _).trans (hsweep d _ _)))
    · rfl
  have htrigger (d : Dev) (fn : Func) : π (d.sweepTrigger fn) = π d :=
    Dev.ite_kept rfl (Dev.ite_kept (hsweep d _ _) (hissue d fn))
  have hone (d : Dev) (fn : Func) (p : Prop) [Decidable p] : π (if p then d.sweepTrigger fn else d) = π d :=
    Dev.ite_kept (htrigger d fn) rfl
  unfold Dev.phaseUpdate; dsimp only
  exact (hone _ _ _).trans (hone _ _ _)

/-- The device with the position copy from a cell (R37). -/
def Dev.copyTaken (d : Dev) (c : Cell80) : Dev :=
  { d with h.copy := ⟨c.container.word.toNat, c.route / 8, (extendTurn d.h.copy.turn (c.route % 8) % 2 ^ 32).toNat, true,
    min 16 (d.h.copy.good + 1)⟩ }

section
variable {d : Dev} {c : Cell80} {t : Nat} (hup : d.h.link.up = true)
include hup

theorem doPositionForward_of_up : doPositionForward t d = { d.at t with
    f.posNum := (d.f.posNum + 1) % 32
    out := .cell .f ((Cell.position (d.at t).carDir (d.f.car.index % 8) d.f.posNum
      (Container.make (BitVec.ofNat 48 d.f.car.pos) false 0 routePosition)).wire 0) :: d.out } := by
  unfold doPositionForward; dsimp only
  rw [Dev.at_h, hup]
  rfl

/-- A position cell at the H-side whose header check holds. -/
theorem Dev.receiveCell_of_position (hhchk : c.hchkGood = true) (htyp : c.typ = 2) (hroute : c.route / 8 ≠ 3) :
    d.receiveCell .h c = (true, d.cellSeen .h) := by
  refine Dev.receiveCell_of_good .h hup (by simp [hhchk, htyp, isControl]) ?_
  unfold unexpected
  rw [htyp]
  exact beq_false_of_ne hroute


theorem doPositionCellReceive_of_good (hhchk : c.hchkGood = true) (htyp : c.typ = 2) (hroute : c.route / 8 ≠ 3)
    (hgood : c.container.good false 0 routePosition = true) : doPositionCellReceive c t d = ((d.at t).cellSeen .h).copyTaken c ∨
      ∃ old delta, doPositionCellReceive c t d = (((d.at t).cellSeen .h).copyTaken c).phaseUpdate old delta := by
  unfold doPositionCellReceive
  rw [Dev.receiveCell_of_position (d := d.at t) hup hhchk htyp hroute]
  extract_lets r d1 p dir new turn d2 delta agrees
  have htaken : ¬ (!r.1 || c.typ != 2) = true := by
    rw [htyp]
    exact Bool.false_ne_true
  have hbad : ¬ (!c.container.good false 0 routePosition) = true := by
    rw [hgood]
    exact Bool.false_ne_true
  rw [if_neg htaken, if_neg hbad]
  split
  · exact .inr ⟨_, _, rfl⟩
  · exact .inl rfl

theorem doPositionCellReceive_of_bad (hhchk : c.hchkGood = true) (htyp : c.typ = 2) (hroute : c.route / 8 ≠ 3)
    (hbad : c.container.good false 0 routePosition = false) :
    doPositionCellReceive c t d = ({ (d.at t).cellSeen .h with h.copy.good := 0 } : Dev).raiseBoth .h Sn.CAR_FWD_CHK := by
  unfold doPositionCellReceive
  rw [Dev.receiveCell_of_position (d := d.at t) hup hhchk htyp hroute]
  extract_lets r d1 p f c' dir new turn d2 delta agrees
  have htaken : ¬ (!r.1 || c.typ != 2) = true := by
    rw [htyp]
    exact Bool.false_ne_true
  rw [if_neg htaken, hbad]
  rfl

theorem doPositionCellReceive_of_error (hhchk : c.hchkGood = false) : doPositionCellReceive c t d = ((d.at t).cellSeen .h).cellErr .h := by
  unfold doPositionCellReceive
  rw [Dev.receiveCell_of_bad (d := d.at t) .h hup (by simp [hhchk])]
  rfl

end

/-- Settles O7: one cell goes out, and each kind of cell received goes its way. -/
theorem positionForwarding : Obligations.PositionForwarding := by
  intro s c t hup
  refine ⟨s.onDev_of (doPositionForward_of_up hup), fun hhchk htyp hroute hgood => ?good, fun hhchk htyp hroute hbad => ?bad, fun hhchk => ?error⟩
  case good =>
    have hdo := doPositionCellReceive_of_good (t := t) hup hhchk htyp hroute hgood
    have hkept {α : Type} (π : Dev → α) (hemit : ∀ (d : Dev) (e : Emit), π (d.emit e) = π d)
        (hsweep : ∀ (d : Dev) (fn : Func) (s : Sweep), π (d.setSweep fn s) = π d) :
        π (doPositionCellReceive c t s.dev) = π (((s.dev.at t).cellSeen .h).copyTaken c) := by
      rcases hdo with hdo | ⟨old, delta, hdo⟩
      · rw [hdo]
      · rw [hdo, Dev.phaseUpdate_kept hemit hsweep]
    refine ⟨_, s.onDev_of rfl, ?_, ?_, ?_, fun k => ?_, rfl, rfl⟩
    · exact hkept (fun d => d.h.copy) (fun _ _ => rfl) (fun _ fn _ => by cases fn <;> rfl)
    · exact hkept (fun d => d.f) (fun _ _ => rfl) (fun _ fn _ => by cases fn <;> rfl)
    · exact hkept (fun d => d.h.rings) (fun _ _ => rfl) (fun _ fn _ => by cases fn <;> rfl)
    · exact hkept (fun d => d.rd k) (fun _ _ => rfl) (fun _ fn _ => by cases fn <;> rfl)
  case bad =>
    have hdo := doPositionCellReceive_of_bad (t := t) hup hhchk htyp hroute hbad
    refine ⟨_, s.onDev_of hdo, ?_, Dev.last_raise _ .h true true (by decide), ?_, rfl, rfl⟩
    · exact (Dev.Blind.of_core (π := fun d => d.h.copy) fun _ => rfl).raiseBothH (i := Sn.CAR_FWD_CHK) (fun _ _ => rfl) (by decide) _
    · exact (Dev.Blind.of_core (π := fun d => d.f.car) fun _ => rfl).raiseBothH (i := Sn.CAR_FWD_CHK) (fun _ _ => rfl) (by decide) _
  case error =>
    have hdo := doPositionCellReceive_of_error (t := t) hup hhchk
    refine ⟨_, s.onDev_of hdo, ?_, ?_, ?_, rfl, rfl⟩
    · refine ((Dev.Blind.of_core (π := fun d => d.h.copy) fun _ => rfl).cellErrH (fun _ _ _ => rfl) (fun _ => rfl) ?_ _).trans ?_
      · exact fun d => Dev.bump_of_wr (π := fun d => d.h.copy) (fun d k v => by simp) d _ _
      · exact Dev.bump_of_wr (π := fun d => d.h.copy) (fun d k v => by simp) _ _ _
    · have hwr (d : Dev) (c s : Fld) (hc : Reg.PRZ_CELL_ERR_CNT ≠ c.off) (hs : Reg.PRZ_CELL_ERR_CNT ≠ s.off) :
          (d.bump c s).rd Reg.PRZ_CELL_ERR_CNT = d.rd Reg.PRZ_CELL_ERR_CNT := d.rd_bump_ne hc hs
      have hreg := (Dev.blind_rd (k := Reg.PRZ_CELL_ERR_CNT) (by decide)).cellErrH (fun _ _ _ => rfl) (fun _ => rfl)
        (fun d => hwr d _ _ (by decide) (by decide)) ((s.dev.at t).cellSeen .h)
      refine (congrArg (fun w : Word => bitsOf w.toNat 0 32) hreg).trans ?_
      exact Dev.fld_bump_same _ (by decide) (by decide) (by decide)
    · refine ((Dev.Blind.of_core (π := fun d => d.f.car) fun _ => rfl).cellErrH (fun _ _ _ => rfl) (fun _ => rfl) ?_ _).trans ?_
      · exact fun d => Dev.bump_of_wr (π := fun d => d.f.car) (fun d k v => by simp) d _ _
      · exact Dev.bump_of_wr (π := fun d => d.f.car) (fun d k v => by simp) _ _ _

/-! ## Refresh ticks -/

section
variable {d : Dev} (hup : d.h.link.up = true)
include hup

/-- The refresh of one tick, and the PARAM that waits. -/
theorem doRefreshTick_spec {t : Nat} (hawake : d.h.dev ≠ .rest) (hdue : d.h.lastTick + d.fld Fld.PRZ_REF_EFF_EFF * 20 ≤ max d.now t) :
    ∃ e : Dev, doRefreshTick t d = e.sendParam ∧ e.h.imgA = d.h.imgA.latch ∧ e.h.imgB = d.h.imgB.latch ∧
      e.out = .cell .h ((Cell.refresh true d.h.refNum d.h.imgB.cur).wire 0) :: .cell .h ((Cell.refresh false d.h.refNum d.h.imgA.cur).wire 0) :: d.out ∧
      e.h.refNum = (d.h.refNum + 1) % 32 ∧ e.h.lastTick = max d.now t ∧ e.f = d.f ∧ (∀ k, e.rd k = d.rd k) ∧ e.h.param = d.h.param := by
  have hgo : ¬ (!(d.at t).h.link.up || decide ((d.at t).now < (d.at t).h.lastTick + (d.at t).fld Fld.PRZ_REF_EFF_EFF * 20)) = true := by
    rw [Dev.at_h, hup, show decide ((d.at t).now < d.h.lastTick + (d.at t).fld Fld.PRZ_REF_EFF_EFF * 20) = false from
      decide_eq_false (Nat.not_lt.mpr hdue)]
    exact Bool.false_ne_true
  have hsend : (d.at t).sendRefresh = _ := if_neg hawake
  refine ⟨{ (d.at t).sendRefresh with h.lastTick := max d.now t }, if_neg hgo, ?_⟩
  rw [hsend]
  exact ⟨rfl, rfl, rfl, rfl, rfl, rfl, fun _ => rfl, rfl⟩

/-- The period and the miss limit written start the PARAM exchange. -/
theorem Dev.refreshWrite_of_good {data : Word} (hlock : d.flag Fld.PRZ_CTRL_LOCK = false) (hlo : 10 ≤ bitsOf data.toNat 0 10)
    (hhi : bitsOf data.toNat 0 10 ≤ 640) (hn : 2 ≤ bitsOf data.toNat 10 4) : d.refreshWrite false data =
      ({ d.wrAccess Reg.PRZ_REFRESH data with h.param := some (bitsOf data.toNat 0 10, bitsOf data.toNat 10 4,
        (d.wrAccess Reg.PRZ_REFRESH data).effNow) } : Dev).sendParam := by
  have hgo : ¬ (false || d.flag Fld.PRZ_CTRL_LOCK || decide (bitsOf data.toNat 0 10 < 10) || decide (640 < bitsOf data.toNat 0 10) ||
      decide (bitsOf data.toNat 10 4 < 2)) = true := by
    rw [hlock, decide_eq_false (Nat.not_lt.mpr hlo), decide_eq_false (Nat.not_lt.mpr hhi), decide_eq_false (Nat.not_lt.mpr hn)]
    exact Bool.false_ne_true
  exact (if_neg hgo).trans (if_pos hup)

end

/-- Settles O8: each command sends what it states and leaves the rest. -/
theorem refreshTicksAndPeriod : Obligations.RefreshTicksAndPeriod := by
  intro s data c t hup
  refine ⟨fun hawake hdue => ?tick, fun hopen hlock hlo hhi hn => ?write, fun hc => ?param, fun hc hparam => ?ack, fun hc => ?miss⟩
  case tick =>
    obtain ⟨e, hdo, h1, h2, h3, h4, h5, h6, h7, h8⟩ := doRefreshTick_spec hup hawake hdue
    cases hp : s.dev.h.param with
    | none =>
      have hstill : e.sendParam = e := by
        unfold Dev.sendParam
        rw [h8, hp]
      exact ⟨_, s.onDev_of (hdo.trans hstill), h1, h2, h3, h4, h5, h6, h7, rfl, rfl⟩
    | some p =>
      obtain ⟨p, n, v⟩ := p
      have hsent : e.sendParam = e.emitCell .h (.param p n v) := by
        unfold Dev.sendParam
        rw [h8, hp]
      exact ⟨_, s.onDev_of (hdo.trans hsent), h1, h2, congrArg (List.cons _) h3, h4, h5, h6, h7, rfl, rfl⟩
  case write =>
    have hspec : specOf (baseOff Reg.PRZ_REFRESH) = some ⟨0x0204, 1, 4, 0x3FFF, 0x0, 0x0, 0xC28⟩ := by decide
    have hkeeps := s.dev.wrAccess_keeps Reg.PRZ_REFRESH data
    have hsame {α : Type} (π : Dev → α) (hwr : ∀ (d : Dev) (v : Word), π (d.wr Reg.PRZ_REFRESH v) = π d) :
        π (s.dev.wrAccess Reg.PRZ_REFRESH data) = π s.dev := by
      unfold Dev.wrAccess
      split
      · exact hwr _ _
      · rfl
    have hperiod : (s.dev.wrAccess Reg.PRZ_REFRESH data).fld Fld.PRZ_REFRESH_PERIOD = bitsOf data.toNat 0 10 :=
      s.dev.fld_wrAccess (F := Fld.PRZ_REFRESH_PERIOD) data hspec (by decide)
    have hlink : (s.dev.wrAccess Reg.PRZ_REFRESH data).h.link = s.dev.h.link := hsame (fun d => d.h.link) fun d v => by simp
    have heff : (s.dev.wrAccess Reg.PRZ_REFRESH data).effNow = effPeriod (bitsOf data.toNat 0 10) s.dev.h.link.fwd s.dev.h.link.ret := by
      unfold Dev.effNow
      rw [hperiod, hlink]
    have hdo : doPrzRefreshWrite false data s.dev = _ :=
      (s.dev.hostDo_of_open Reg.PRZ_REFRESH _ hopen).trans (Dev.refreshWrite_of_good hup hlock hlo hhi hn)
    rw [heff] at hdo
    refine ⟨_, s.onDev_of hdo, hperiod, s.dev.fld_wrAccess (F := Fld.PRZ_REFRESH_MISS_N) data hspec (by decide), rfl, ?_, hkeeps.regs, ?_, rfl, rfl⟩
    · exact congrArg (List.cons _) hkeeps.out
    · exact hsame (fun d => d.f) fun d v => d.wr_f_of_h v (by decide)
  case param =>
    have hcell := Dev.linkCell_of_good (x := .f) hup hc (.inr (.inl ⟨rfl, rfl⟩))
    exact s.onDev_of (g := doParamReceive c) (by unfold doParamReceive; rw [hcell]; rfl)
  case ack =>
    have hcell := Dev.linkCell_of_good (x := .h) hup hc (.inr (.inr ⟨rfl, .inl rfl⟩))
    have htaken : (true && (s.dev.cellSeen .h).h.param == some (c.bits 46 10, c.bits 42 4, c.bits 32 10)) = true := beq_iff_eq.mpr hparam
    refine s.onDev_of (g := doParamAckReceive c) ?_
    unfold doParamAckReceive
    rw [hcell]
    exact if_pos htaken
  case miss =>
    have hcell := Dev.linkCell_of_good (x := .h) hup hc (.inr (.inr ⟨rfl, .inr rfl⟩))
    exact s.onDev_of (g := doMissStatusReceive c) (by unfold doMissStatusReceive; rw [hcell]; rfl)

end Sys2Proof.Machine
end

section
/-!
PROOF. Refresh commits and the refresh watch (R47, R50, R84, R139 to R142, R155).
-/

namespace Sys2Proof.Machine

/-! ## What a commit decides -/

/-- The part of the device that a commit decides: the words, their refusals, the owners in effect, the watch's commit, what it leaves of
the Carousel, and the channels that an IMMEDIATE write or a slot sets in this cycle. -/
structure Committed where
  wordA : W48
  wordB : W48
  cntA : Nat
  cntB : Nat
  own : Word × Word × Word
  keep : W48
  last : Option Nat
  refA : Option (Nat × Container)
  car : Carousel

def Dev.committed (d : Dev) : Committed where
  wordA := d.f.ch.wordA
  wordB := d.f.ch.wordB
  cntA := d.f.ch.refCntA
  cntB := d.f.ch.refCntB
  own := (d.f.ch.own0, d.f.ch.own1, d.f.ch.own2)
  keep := d.f.ch.immNow d.now ||| d.f.ch.slotNow d.now 0
  last := d.f.watch.lastCommit
  refA := d.f.watch.refA
  car := d.f.car

theorem Dev.committed_ch (d : Dev) (c : Chans) (hc : c.unpinned = d.f.ch.unpinned) : Dev.committed { d with f.ch := c } = d.committed :=
  show Dev.committed (Dev.unpinned { d with f.ch := c }) = d.unpinned.committed from congrArg Dev.committed (d.unpinned_ch c hc)

theorem Dev.edgeBlind_committed : Dev.EdgeBlind Dev.committed where
  toBlind := .of_core fun _ => rfl
  wrAny d k v _ := by simp [Dev.committed]
  tm _ _ _ := rfl
  fop _ _ _ := rfl
  srcF _ _ _ := rfl
  pins d := show d.pins.unpinned.committed = d.unpinned.committed from congrArg _ d.unpinned_pins
  cap d fn c := by cases fn <;> rfl

/-! ## The words of a pair -/

/-- The word of a good container under the channels that are kept (R140, R155). -/
def keptWord (c : Container) (old keep : W48) : W48 := (c.word &&& ~~~keep) ||| (old &&& keep)

theorem Dev.committed_commitWord_good (d : Dev) {c : Container} :
    (c.good false 0 routeRefresh = true → (d.commitWord false c).committed =
      { d.committed with wordA := keptWord c d.committed.wordA d.committed.keep, cntA := 0 }) ∧
    (c.good true 0 routeRefresh = true → (d.commitWord true c).committed =
      { d.committed with wordB := keptWord c d.committed.wordB d.committed.keep, cntB := 0 }) := by
  have hset (e : Chans) (p : Prop) [Decidable p] (f : Chans) (hf : ({ d with f.ch := f } : Dev).committed = ({ d with f.ch := e } : Dev).committed) :
      ({ d with f.ch := if p then e else f } : Dev).committed = ({ d with f.ch := e } : Dev).committed := by
    split
    · rfl
    · exact hf
  refine ⟨fun h => ?_, fun h => ?_⟩
  · unfold Dev.commitWord
    extract_lets i tags r keep word ch ch1
    rw [if_pos h]
    exact (hset ch1 (tags.isEmpty = true) { ch1 with waitA := false } rfl).trans rfl
  · unfold Dev.commitWord
    extract_lets i tags r keep word ch ch1
    rw [if_pos h]
    exact (hset ch1 (tags.isEmpty = true) { ch1 with waitB := false } rfl).trans rfl

theorem Dev.committed_commitWord_bad (d : Dev) {c : Container} :
    (c.good false 0 routeRefresh = false → (d.commitWord false c).committed = { d.committed with cntA := d.committed.cntA + 1 }) ∧
    (c.good true 0 routeRefresh = false → (d.commitWord true c).committed = { d.committed with cntB := d.committed.cntB + 1 }) := by
  have hrefA (e : Dev) (he : e.committed = d.committed) (k : Nat) (b : Bool) :
      ({ e with f.ch := e.f.ch.setRef false k b } : Dev).committed = { d.committed with cntA := k } :=
    (congrArg (fun c : Committed => { c with cntA := k }) he :)
  have hrefB (e : Dev) (he : e.committed = d.committed) (k : Nat) (b : Bool) :
      ({ e with f.ch := e.f.ch.setRef true k b } : Dev).committed = { d.committed with cntB := k } :=
    (congrArg (fun c : Committed => { c with cntB := k }) he :)
  refine ⟨fun h => ?_, fun h => ?_⟩
  · unfold Dev.commitWord; dsimp only
    rw [if_neg (by rw [h]; exact Bool.false_ne_true)]
    exact hrefA _ (Dev.edgeBlind_committed.refuse d _ _ _) _ _
  · unfold Dev.commitWord; dsimp only
    rw [if_neg (by rw [h]; exact Bool.false_ne_true)]
    exact hrefB _ (Dev.edgeBlind_committed.refuse d _ _ _) _ _

/-! ## OUT_WRITEs judged -/

section
variable {α : Type} {π : Dev → α} (h : Dev.StreamBlind π) (hfop : ∀ (d : Dev) (g : Nat) (o : Option FOp), π (d.setFop g o) = π d)
  (hch : ∀ (d : Dev) (c : Chans), c.unpinned = d.f.ch.unpinned → π { d with f.ch := c } = π d)
  (hout : ∀ (d : Dev) (l : List OutWait), π { d with f.ch.outw := l } = π d)
include h hfop hch hout

/-- Of the OUT_WRITEs of a pair judged a part blind to operations sees the function's image alone. -/
theorem Dev.judgePair_kept (d : Dev) (fn : Func) (accepted : Bool) :
    ∃ i : Image, i.carried = [] ∧ π (d.judgePair fn accepted) = π (d.setImg fn i) := by
  unfold Dev.judgePair
  extract_lets i refreshed tags late
  split
  · refine ⟨{ i with carried := [], older := late }, rfl, Dev.StreamBlind.foldl (π := π) _ (fun d g => ?_) _ _⟩
    split
    · exact (Dev.judge_of_unpinned hch hout _ _ _ _).trans (hfop d _ _)
    · rfl
  · refine ⟨{ i with carried := [] }, rfl, Dev.StreamBlind.foldl (π := π) _ (fun d g => ?_) _ _⟩
    have hneed : π (d.needFop g) = π d := by
      unfold Dev.needFop
      split
      · exact hfop d _ _
      · rfl
    exact (h.endF hfop _ _ _ _).trans hneed

end

theorem Dev.committed_judgePair (d : Dev) (fn : Func) (accepted : Bool) : (d.judgePair fn accepted).committed = d.committed := by
  obtain ⟨i, -, hi⟩ := Dev.judgePair_kept Dev.edgeBlind_committed.toStreamBlind Dev.edgeBlind_committed.fop Dev.committed_ch (fun _ _ => rfl)
    d fn accepted
  rw [hi]
  cases fn <;> rfl

/-- An image keeps nothing carried once its pair has been judged, and the other image stays. -/
theorem Dev.carried_judgePair (d : Dev) (fn : Func) (accepted : Bool) : ((d.judgePair fn accepted).img fn).carried = [] ∧
    (d.judgePair fn accepted).img (!fn) = d.img (!fn) := by
  have hblind (g : Func) : Dev.StreamBlind (fun d => d.img g) := .of_unsent fun _ => rfl
  constructor
  · obtain ⟨i, hnone, hi⟩ := Dev.judgePair_kept (π := fun d => d.img fn) (hblind fn) (fun _ _ _ => rfl) (fun _ _ _ => rfl)
      (fun _ _ => rfl) d fn accepted
    rw [hi, ← hnone]
    cases fn <;> rfl
  · obtain ⟨i, -, hi⟩ := Dev.judgePair_kept (π := fun d => d.img (!fn)) (hblind (!fn)) (fun _ _ _ => rfl) (fun _ _ _ => rfl)
      (fun _ _ => rfl) d fn accepted
    refine hi.trans ?_
    cases fn <;> rfl

/-! ## The commit -/

/-- A pair committed outside a takeover and a Rest: the words behind the owners in effect, and the watch armed. -/
theorem Dev.commit_spec {d : Dev} (a b : Container) (htake : d.h.mir.takeover = none) (hrest : d.f.ch.rest = none) :
    (d.commit a b).committed = ((d.watchCommit.adoptOwners.commitWord false a).commitWord true b).committed ∧
    (d.commit a b).h.imgA.carried = [] ∧ (d.commit a b).h.imgB.carried = [] := by
  have htake0 : d.watchCommit.h.mir.takeover = none :=
    ((Dev.StreamBlind.of_unsent (π := fun d => d.h.mir.takeover) fun _ => rfl).condEnd (fun _ _ => rfl) _).trans htake
  have hrest0 : d.watchCommit.f.ch.rest = none :=
    ((Dev.StreamBlind.of_unsent (π := fun d => d.f.ch.rest) fun _ => rfl).condEnd (fun _ _ => rfl) _).trans hrest
  unfold Dev.commit
  extract_lets d0 d1 d2 c f c' d3 f' c'' d4 d5
  have hd1 : d1 = d.watchCommit := by
    dsimp only [d1, d0]
    rw [htake0]
  have hd2 : d2 = (d.watchCommit.adoptOwners.commitWord false a).commitWord true b := by
    dsimp only [d2]
    rw [hd1, show d.watchCommit.restExit = d.watchCommit from if_pos (by rw [hrest0]; rfl)]
  have hd5 : d5.committed = d2.committed := by
    refine (Dev.addDue_of_unpinned Dev.committed_ch _ _).trans ((Dev.edgeBlind_committed.pins _).trans ?_)
    rfl
  obtain ⟨hA, -⟩ := d5.carried_judgePair false (a.good false 0 routeRefresh)
  obtain ⟨hB, hother⟩ := (d5.judgePair false (a.good false 0 routeRefresh)).carried_judgePair true (b.good true 0 routeRefresh)
  refine ⟨?_, ?_, hB⟩
  · rw [Dev.committed_judgePair, Dev.committed_judgePair, hd5, hd2]
  · exact (congrArg Image.carried hother).trans hA

theorem Dev.committed_watchCommit (d : Dev) : d.watchCommit.committed = { d.committed with last := some d.now } :=
  Dev.edgeBlind_committed.toStreamBlind.condEnd (fun _ _ => rfl) _

/-! ## The watch expires -/

theorem allCh_or (m : W48) : allCh ||| m = allCh := BitVec.allOnes_or

/-- Channels that are all held stay held by the levels taken anew, and by a source raised on the F-side. -/
theorem Dev.allHeld_pins {d : Dev} (hheld : d.f.ch.held = allCh) : d.pins.f.ch.held = allCh := by
  rw [Dev.held_pins, hheld, allCh_or]

theorem Dev.allHeld_raiseF {d : Dev} (i : Nat) (a b : Bool) (hheld : d.f.ch.held = allCh) : (d.raise .f i a b).f.ch.held = allCh := by
  have hblind : Dev.Blind (fun d => d.f.ch.held) := .of_core fun _ => rfl
  unfold Dev.raise Dev.raiseInfo Dev.raiseForce Dev.announce; dsimp only
  split_ifs
  · exact hheld
  · exact (hblind.sendEvent _ _ _ _ _ _ _).trans hheld
  · exact Dev.allHeld_pins ((hblind.sendEvent _ _ _ _ _ _ _).trans ((hblind.startPulse _ _ _).trans hheld))
  · exact hheld

/-- An expired watch holds every channel (Table CH-3). -/
theorem Dev.allHeld_of_expired {d : Dev} (h : d.f.watch.expired = true) : d.pins.f.ch.held = allCh := by
  have hmask : d.holdMask = allCh := by
    unfold Dev.holdMask; dsimp only
    rw [h, Bool.or_true, Bool.true_or]
    exact (BitVec.or_comm _ _).trans (allCh_or _)
  rw [Dev.held_pins, hmask]
  exact (BitVec.or_comm _ _).trans (allCh_or _)

/-- The severities that apply on the F-side are not in the registers of the mismatches. -/
theorem Dev.sevOf_pins (d : Dev) {i : Nat} (hlo : Reg.SN_SEV (i / 16) ≠ Reg.CH_PIN_MISM_LO) (hhi : Reg.SN_SEV (i / 16) ≠ Reg.CH_PIN_MISM_HI) :
    d.pins.sevOf .f i = d.sevOf .f i := by
  have hwr (d : Dev) (k : Nat) (v : Word) (hk : onFSide (baseOff k) = true) (hne : Reg.SN_SEV (i / 16) ≠ k) :
      (d.wr k v).sevOf .f i = d.sevOf .f i := by
    have hshadow : (d.wr k v).shadow (Reg.SN_SEV (i / 16)) = d.shadow (Reg.SN_SEV (i / 16)) := by
      unfold Dev.wr
      rw [if_pos hk]
      exact Tab.get_set_ne _ _ _ hne
    unfold Dev.sevOf Dev.snWord Dev.snCopy
    dsimp only
    rw [hshadow, Dev.wr_f, Dev.wr_now]
  exact (Dev.StreamBlind.of_unsent (π := fun d => d.sevOf .f i) fun _ => rfl).pins (fun _ _ _ => rfl)
    (fun d v => ⟨hwr d _ v (by decide) hlo, hwr d _ v (by decide) hhi⟩) (fun _ _ => rfl) d

/-- An expiry holds every channel and raises PRZ_REF_MISS for both functions (R50). -/
theorem Dev.watchExpire_spec (d : Dev) (hsev : 0 < d.sevOf .f Sn.PRZ_REF_MISS) : d.watchExpire.f.watch.expired = true ∧
    d.watchExpire.f.watch.expAt = some d.now ∧ d.watchExpire.f.ch.held = allCh ∧ (d.watchExpire.src .f Sn.PRZ_REF_MISS).active = true ∧
    (d.watchExpire.src .f Sn.PRZ_REF_MISS).scA = true ∧ (d.watchExpire.src .f Sn.PRZ_REF_MISS).scB = true ∧
    d.watchExpire.f.car = d.f.car := by
  unfold Dev.watchExpire
  set x := ({ d with f.watch := { d.f.watch with expired := true, runFrom := none, expAt := some d.now } } : Dev)
  have hblind {α : Type} (π : Dev → α) (hcore : ∀ d : Dev, π d.core = π d) (hpins : ∀ d : Dev, π d.unpinned = π d)
      (hsrc : ∀ (d : Dev) (s : Src), π (d.setSrc .f Sn.PRZ_REF_MISS s) = π d) : π (x.pins.raiseBoth .f Sn.PRZ_REF_MISS) = π x := by
    have hpins' (d : Dev) : π d.pins = π d := (hpins _).symm.trans ((congrArg π d.unpinned_pins).trans (hpins _))
    exact ((Dev.Blind.of_core hcore).raiseF hpins' hsrc _ _ _).trans (hpins' x)
  have hraised : x.pins.raiseBoth .f Sn.PRZ_REF_MISS = x.pins.raiseForce .f Sn.PRZ_REF_MISS (x.pins.sevOf .f Sn.PRZ_REF_MISS) true true := by
    refine if_neg fun h => ?_
    rw [Dev.sevOf_pins _ (by decide) (by decide)] at h
    exact absurd h.1 (Nat.ne_of_gt hsev)
  have hwiden (s : Src) : (s.widen true true).1 = true ∧ (s.widen true true).2 = true := by
    unfold Src.widen
    split
    · exact ⟨rfl, rfl⟩
    · exact ⟨Bool.or_true _, Bool.or_true _⟩
  obtain ⟨act, hsrc, -⟩ := x.pins.src_raiseForce .f (i := Sn.PRZ_REF_MISS) (x.pins.sevOf .f Sn.PRZ_REF_MISS) true true (by decide)
  refine ⟨?_, ?_, Dev.allHeld_raiseF _ _ _ (Dev.allHeld_of_expired rfl), Dev.active_raise _ .f true true (by decide) (.inr (by decide)), ?_, ?_, ?_⟩
  · exact (congrArg Watch.expired (hblind (fun d => d.f.watch) (fun _ => rfl) (fun _ => rfl) fun _ _ => rfl) :)
  · exact (congrArg Watch.expAt (hblind (fun d => d.f.watch) (fun _ => rfl) (fun _ => rfl) fun _ _ => rfl) :)
  · rw [hraised, hsrc]
    exact (hwiden _).1
  · rw [hraised, hsrc]
    exact (hwiden _).2
  · exact hblind (fun d => d.f.car) (fun _ => rfl) (fun _ => rfl) fun _ _ => rfl

/-! ## Refresh cells -/

/-- The number of a refresh cell is noted, and a gap counted. -/
theorem Dev.refGap_spec (d : Dev) (n : Nat) : (d.refGap n).f.watch = { d.f.watch with lastNum := some n } ∧
    ∀ {α : Type} (π : Dev → α), (∀ (d : Dev) (k : Nat) (v : Word), π (d.wr k v) = π d) →
      (∀ (d : Dev) (k : Option Nat), π { d with f.watch.lastNum := k } = π d) → π (d.refGap n) = π d := by
  have hbump {α : Type} (π : Dev → α) (hwr : ∀ (d : Dev) (k : Nat) (v : Word), π (d.wr k v) = π d) (d1 : Dev) (hd1 : d1 = { d with f.watch.lastNum := some n }) :
      π (d.refGap n) = π d1 := by
    subst hd1
    unfold Dev.refGap; dsimp only
    split
    · exact Dev.ite_kept rfl (Dev.bump_of_wr hwr _ _ _)
    · rfl
  exact ⟨hbump (fun d => d.f.watch) (fun _ _ _ => by simp) _ rfl, fun π hwr hnum => (hbump π hwr _ rfl).trans (hnum d _)⟩

theorem Dev.rd_refGap (d : Dev) (n : Nat) {k : Nat} (hcnt : k ≠ Reg.PRZ_SEQ_CNT) (hsat : k ≠ Reg.PRZ_CNT_SAT) : (d.refGap n).rd k = d.rd k := by
  unfold Dev.refGap; dsimp only
  split
  · exact Dev.ite_kept (π := fun d => d.rd k) rfl (Dev.rd_bump_ne _ hcnt hsat)
  · rfl

/-- The device with a REF_A kept for its REF_B. -/
def Dev.refATaken (d : Dev) (c : Cell80) : Dev :=
  { d with f.watch := { d.f.watch with refA := some (c.seq, c.container), refAt := d.now } }

section
variable {d : Dev} {c : Cell80} (hup : d.h.link.up = true) (hhchk : c.hchkGood = true) (htyp : c.typ = 1)
include hup hhchk htyp

theorem Dev.receiveCell_of_refresh (hroute : c.route % 16 = 0) : d.receiveCell .f c = (true, d.cellSeen .f) := by
  refine Dev.receiveCell_of_good .f hup (by simp [hhchk, htyp, isControl]) ?_
  unfold unexpected
  rw [htyp, hroute]
  rfl

theorem doRefreshCellReceive_of_refA {t : Nat} (hroute : c.route / 16 = 0) (hlast : d.f.watch.lastNum = some c.seq) (hres : c.route % 16 = 0) :
    doRefreshCellReceive c t d = { (d.at t).cellSeen .f with f.watch := { d.f.watch with
      lastNum := some c.seq, refA := some (c.seq, c.container), refAt := max d.now t } } := by
  have hcell : (d.at t).receiveCell .f c = (true, (d.at t).cellSeen .f) := Dev.receiveCell_of_refresh (d := d.at t) hup hhchk htyp hres
  have hgap : ((d.at t).cellSeen .f).refGap c.seq = { (d.at t).cellSeen .f with f.watch.lastNum := some c.seq } := by
    unfold Dev.refGap; dsimp only
    rw [show ((d.at t).cellSeen .f).f.watch.lastNum = some c.seq from hlast]
    exact if_pos (.inl rfl)
  unfold doRefreshCellReceive
  rw [hcell]
  extract_lets r d1 f d2 f' d3
  have htaken : ¬ (!r.1 || c.typ != 1) = true := by
    rw [htyp]
    exact Bool.false_ne_true
  rw [if_neg htaken, if_pos hroute]
  show (((d.at t).cellSeen .f).refGap c.seq).refATaken c = _
  rw [hgap]
  rfl

/-- A REF_B in the slot after its REF_A commits the pair, outside an expiry. -/
theorem doRefreshCellReceive_of_pair {t : Nat} {a : Container} (hroute : c.route / 16 = 1) (hres : c.route % 16 = 0)
    (hrefA : d.f.watch.refA = some (c.seq, a)) (hslot : (d.at t).nextSlot d.f.watch.refAt = true) (hdue : (d.at t).watchDue = false)
    (hexp : d.f.watch.expAt ≠ some (max d.now t)) : doRefreshCellReceive c t d =
      ({ ((d.at t).cellSeen .f).refGap c.seq with f.watch.refA := none } : Dev).commit a c.container := by
  have hcell : (d.at t).receiveCell .f c = (true, (d.at t).cellSeen .f) := Dev.receiveCell_of_refresh (d := d.at t) hup hhchk htyp hres
  obtain ⟨hwatch, hkept⟩ := ((d.at t).cellSeen .f).refGap_spec c.seq
  have hnow : (((d.at t).cellSeen .f).refGap c.seq).now = max d.now t := hkept (fun d => d.now) (fun _ _ _ => by simp) fun _ _ => rfl
  have hlink : (((d.at t).cellSeen .f).refGap c.seq).h.link = d.h.link := hkept (fun d => d.h.link) (fun _ _ _ => by simp) fun _ _ => rfl
  set e := ((d.at t).cellSeen .f).refGap c.seq with he
  have hnext : e.nextSlot d.f.watch.refAt = true := by
    refine Eq.trans ?_ hslot
    unfold Dev.nextSlot Dev.slotGap
    rw [hnow, hlink]
    rfl
  have hdue' : ({ e with f.watch.refA := none } : Dev).watchDue = false := by
    refine Eq.trans ?_ hdue
    unfold Dev.watchDue
    dsimp only
    rw [hwatch, hnow]
    rfl
  have htaken : ¬ (!true || c.typ != 1) = true := by
    rw [htyp]
    exact Bool.false_ne_true
  have hA : ¬ c.route / 16 = 0 := by omega
  have hpair : (c.seq = c.seq && e.nextSlot e.f.watch.refAt) = true := by
    rw [decide_eq_true rfl, hwatch]
    exact hnext
  unfold doRefreshCellReceive
  rw [hcell]
  refine (if_neg htaken).trans ((if_neg hA).trans ?_)
  show (match e.f.watch.refA with
    | some (n, a) => if n = c.seq && e.nextSlot e.f.watch.refAt then ({ e with f.watch.refA := none } : Dev).pairIn a c.container
      else { e with f.watch.refA := none }
    | none => { e with f.watch.refA := none }) = _
  rw [show e.f.watch.refA = some (c.seq, a) by rw [hwatch]; exact hrefA]
  refine (if_pos hpair).trans ((if_neg (by rw [hdue']; exact Bool.false_ne_true)).trans (if_neg ?_))
  show ¬ e.f.watch.expAt = some e.now
  rw [hwatch, hnow]
  exact hexp

end

/-- A pair committed, from the device before it: the words go in over what had been decided, with the owners in effect and the watch
armed. -/
theorem exec_refreshPair (s : State) {c : Cell80} (t : Nat) {a : Container} (hup : s.dev.h.link.up = true) (hhchk : c.hchkGood = true)
    (htyp : c.typ = 1) (hroute : c.route / 16 = 1) (hres : c.route % 16 = 0) (hrefA : s.dev.f.watch.refA = some (c.seq, a))
    (hslot : (s.dev.at t).nextSlot s.dev.f.watch.refAt = true) (hdue : (s.dev.at t).watchDue = false)
    (hexp : s.dev.f.watch.expAt ≠ some (max s.dev.now t)) (htake : s.dev.h.mir.takeover = none) (hrest : s.dev.f.ch.rest = none) :
    ∃ e u : Dev, exec (.refreshCellReceive c t) s = .next { s with dev := u } ∧ u.h.imgA.carried = [] ∧ u.h.imgB.carried = [] ∧
      u.committed = ((e.commitWord false a).commitWord true c.container).committed ∧
      e.committed = { (s.dev.at t).committed with
        own := (s.dev.rd (Reg.PCI_OWN_CH 0), s.dev.rd (Reg.PCI_OWN_CH 1), s.dev.rd (Reg.PCI_OWN_CH 2))
        last := some (max s.dev.now t)
        refA := none } := by
  obtain ⟨hwatch, hkept⟩ := ((s.dev.at t).cellSeen .f).refGap_spec c.seq
  have hrd (k : Nat) (hcnt : k ≠ Reg.PRZ_SEQ_CNT) (hsat : k ≠ Reg.PRZ_CNT_SAT) :
      (((s.dev.at t).cellSeen .f).refGap c.seq).rd k = s.dev.rd k := Dev.rd_refGap _ _ hcnt hsat
  have hnow : (((s.dev.at t).cellSeen .f).refGap c.seq).now = max s.dev.now t := hkept (fun d => d.now) (fun _ _ _ => by simp) fun _ _ => rfl
  have hstate : (((s.dev.at t).cellSeen .f).refGap c.seq).committed = (s.dev.at t).committed :=
    hkept Dev.committed (fun _ _ _ => by simp [Dev.committed]) fun _ _ => rfl
  have htake' := hkept (fun d => d.h.mir.takeover) (fun _ _ _ => by simp) fun _ _ => rfl
  have hrest' := hkept (fun d => d.f.ch.rest) (fun _ _ _ => by simp) fun _ _ => rfl
  have hdo := doRefreshCellReceive_of_pair (d := s.dev) hup hhchk htyp hroute hres hrefA hslot hdue hexp
  generalize ((s.dev.at t).cellSeen .f).refGap c.seq = e at *
  obtain ⟨hcommit, hA, hB⟩ := Dev.commit_spec (d := { e with f.watch.refA := none }) a c.container (htake'.trans htake) (hrest'.trans hrest)
  refine ⟨_, _, s.onDev_of hdo, hA, hB, hcommit, ?_⟩
  have hadopt (d : Dev) : d.adoptOwners.committed = { d.committed with
      own := (d.rd (Reg.PCI_OWN_CH 0), d.rd (Reg.PCI_OWN_CH 1), d.rd (Reg.PCI_OWN_CH 2)) } := rfl
  have hwatchRd (k : Nat) (hcnt : k ≠ Reg.PRZ_SEQ_CNT) (hsat : k ≠ Reg.PRZ_CNT_SAT) :
      (({ e with f.watch.refA := none } : Dev).watchCommit).rd k = s.dev.rd k := (Dev.rd_condEnd ..).trans (hrd k hcnt hsat)
  have hnone : ({ e with f.watch.refA := none } : Dev).committed = { (s.dev.at t).committed with refA := none } :=
    (congrArg (fun c : Committed => { c with refA := none }) hstate :)
  rw [hadopt, hwatchRd _ (by decide) (by decide), hwatchRd _ (by decide) (by decide), hwatchRd _ (by decide) (by decide),
    Dev.committed_watchCommit, hnone, show ({ e with f.watch.refA := none } : Dev).now = max s.dev.now t from hnow]

/-- Settles O9: a pair goes through its commit, and the watch through its report and its expiry. -/
theorem refreshCommitsAndWatch : Obligations.RefreshCommitsAndWatch := by
  refine ⟨fun s a c keep t hup hhchk htyp hres => ⟨fun hroute hlast => ?refA, fun hroute hrefA hslot hdue hexp htake hrest hkeep => ⟨fun ha hb => ?good, fun ha hb => ?bad⟩⟩,
    fun s l t hlast => ⟨fun hnew hup => ?report, fun hexp hdue hsev => ?expire⟩⟩
  case refA =>
    exact ⟨_, s.onDev_of (doRefreshCellReceive_of_refA hup hhchk htyp hroute hlast hres), rfl, rfl, rfl, fun _ => rfl, rfl, rfl⟩
  case good =>
    obtain ⟨e, u, hdo, hA, hB, hcommit, he⟩ := exec_refreshPair s t hup hhchk htyp hroute hres hrefA hslot hdue hexp htake hrest
    rw [(Dev.committed_commitWord_good (e.commitWord false a)).2 hb, (Dev.committed_commitWord_good e).1 ha, he] at hcommit
    subst hkeep
    refine ⟨_, hdo, (congrArg (·.wordA) hcommit :), (congrArg (·.wordB) hcommit :), (congrArg (·.own.1) hcommit :),
      (congrArg (·.own.2.1) hcommit :), (congrArg (·.own.2.2) hcommit :), (congrArg (·.cntA) hcommit :), (congrArg (·.cntB) hcommit :),
      hA, hB, (congrArg (·.last) hcommit :), (congrArg (·.refA) hcommit :), (congrArg (·.car) hcommit :), rfl, rfl⟩
  case bad =>
    obtain ⟨e, u, hdo, -, -, hcommit, he⟩ := exec_refreshPair s t hup hhchk htyp hroute hres hrefA hslot hdue hexp htake hrest
    rw [(Dev.committed_commitWord_bad (e.commitWord false a)).2 hb, (Dev.committed_commitWord_bad e).1 ha, he] at hcommit
    exact ⟨_, hdo, (congrArg (·.wordA) hcommit :), (congrArg (·.wordB) hcommit :), (congrArg (·.cntA) hcommit :),
      (congrArg (·.cntB) hcommit :), (congrArg (·.last) hcommit :), (congrArg (·.car) hcommit :), rfl, rfl⟩
  case report =>
    refine s.onDev_of (g := doRefreshWatchPeriod t) ?_
    unfold doRefreshWatchPeriod; dsimp only
    rw [Dev.at_f, hlast]
    refine (if_neg (Ne.symm hnew)).trans ?_
    exact if_pos hup
  case expire =>
    have hdue' : (s.dev.at t).watchDue = true := by
      unfold Dev.watchDue
      dsimp only
      rw [Dev.at_f, hexp, hlast]
      exact decide_eq_true hdue
    obtain ⟨h1, h2, h3, h4, h5, h6, h7⟩ := (s.dev.at t).watchExpire_spec hsev
    exact ⟨_, s.onDev_of (if_pos hdue'), h1, h2, h3, h4, h5, h6, h7, rfl, rfl⟩

end Sys2Proof.Machine
end

section
/-!
PROOF. The bulk stream (R55), and what a report leaves of its ends.
-/

namespace Sys2Proof.Machine

/-! ## Reports, and the ends of the bulk stream -/

/-- The device state is blind to all of a report but its following. -/
theorem Dev.wakeBlind_dev : Dev.WakeBlind (fun d => d.h.dev) where
  emit _ _ := rfl
  wrHalt d k v _ := by simp
  pci d fn p := by cases fn <;> rfl
  irqRest _ _ := rfl
  wr d k v _ := by simp
  ackCopy _ _ _ := rfl
  pulseH _ _ := rfl
  pulseF _ _ := rfl
  brk _ _ := rfl
  pm _ _ := rfl
  training _ _ := rfl

theorem Dev.dev_sendEvent (d : Dev) (x : Die) (i sev : Nat) (active a b : Bool) : (d.sendEvent x i sev active a b).h.dev = d.h.dev := by
  unfold Dev.sendEvent; dsimp only
  split
  · cases x <;> rfl
  · cases x <;> rfl

section
variable {α : Type} {π : Dev → α} (h : Dev.WakeBlind π) {x : Die} {i : Nat} (hi : i < 96)
  (hsrc : ∀ (d : Dev) (s : Src), π (d.setSrc x i s) = π d)
  (hevent : ∀ (d : Dev) (y : Die) (j sev : Nat) (active a b : Bool), π (d.sendEvent y j sev active a b) = π d)
  (hpins : ∀ d : Dev, π d.pins = π d)
include h hi hsrc hevent hpins

/-- A part blind to wakes, to a source, to events and to the levels taken anew does not see the source raised, if it does not see the
device state followed. -/
theorem Dev.raise_kept (d : Dev) (a b : Bool) (hfollow : ∀ e : Dev, e.h.dev = d.h.dev → π e.followReactions = π e) :
    π (d.raise x i a b) = π d := by
  have hrecord (e : Dev) (sev : Nat) (he : e.h.dev = d.h.dev) : π (e.record i sev) = π e :=
    (hfollow _ ((Dev.wakeBlind_dev.latched e sev hi).trans he)).trans (h.latched e sev hi)
  have hset (s : Src) : (d.setSrc x i s).h.dev = d.h.dev := by cases x <;> rfl
  unfold Dev.raise Dev.raiseInfo Dev.raiseForce Dev.announce; dsimp only
  split_ifs
  · exact hsrc d _
  · cases x with
    | f => exact (hevent _ _ _ _ _ _ _).trans (hsrc d _)
    | h => exact (hrecord _ _ ((Dev.dev_sendEvent ..).trans (hset _))).trans ((hevent _ _ _ _ _ _ _).trans (hsrc d _))
  · cases x with
    | f => exact (hpins _).trans ((hevent _ _ _ _ _ _ _).trans ((h.startPulse _ _ _).trans (hsrc d _)))
    | h =>
      exact (hrecord _ _ ((Dev.dev_sendEvent ..).trans ((Dev.wakeBlind_dev.startPulse _ _ _).trans (hset _)))).trans
        ((hevent _ _ _ _ _ _ _).trans ((h.startPulse _ _ _).trans (hsrc d _)))
  · exact hsrc d _

end

/-! ## What has been sent and not acknowledged -/

/-- The cells that a die has sent and may send again. -/
def Dev.sent (d : Dev) (x : Die) : List Cell × Nat × Nat := ((d.bulk x).replay, (d.bulk x).resends, (d.bulk x).replayAt)

theorem Dev.calmBlind_sent (y : Die) : Dev.CalmBlind (fun d => d.sent y) where
  emit _ _ := by cases y <;> rfl
  wrHalt d k v _ := by cases y <;> simp [Dev.sent, Dev.bulk]
  pci d fn p := by cases y <;> cases fn <;> rfl
  irqRest _ _ := by cases y <;> rfl
  op _ _ _ := by cases y <;> rfl
  ring _ _ _ := by cases y <;> rfl
  state _ _ _ _ _ _ := by cases y <;> rfl
  restEntry _ _ := by cases y <;> rfl
  brk _ _ := by cases y <;> rfl

theorem Dev.wakeBlind_sent (y : Die) : Dev.WakeBlind (fun d => d.sent y) where
  toIrqBlind := (Dev.calmBlind_sent y).toIrqBlind
  wr d k v _ := by cases y <;> simp [Dev.sent, Dev.bulk]
  ackCopy _ _ _ := by cases y <;> rfl
  pulseH _ _ := by cases y <;> rfl
  pulseF _ _ := by cases y <;> rfl
  brk _ _ := by cases y <;> rfl
  pm _ _ := by cases y <;> rfl
  training _ _ := by cases y <;> rfl

theorem Dev.sent_sendEvent (d : Dev) (x y : Die) (i sev : Nat) (active a b : Bool) : (d.sendEvent x i sev active a b).sent y = d.sent y := by
  unfold Dev.sendEvent; dsimp only
  split
  · cases x <;> cases y <;> rfl
  · cases x <;> cases y <;> rfl

/-- A source raised outside HALT leaves the cells sent. -/
theorem Dev.sent_raise (d : Dev) (x y : Die) {i : Nat} (hi : i < 96) (a b : Bool) (hdev : d.h.dev ≠ .halt) :
    (d.raise x i a b).sent y = d.sent y := by
  have hsrc (d : Dev) (x : Die) (i : Nat) (s : Src) : (d.setSrc x i s).sent y = d.sent y := by cases x <;> cases y <;> rfl
  have hch (d : Dev) (c : Chans) : ({ d with f.ch := c } : Dev).sent y = d.sent y := by cases y <;> rfl
  refine Dev.raise_kept (π := fun d => d.sent y) (Dev.wakeBlind_sent y) hi (hsrc · x i) (fun d x => d.sent_sendEvent x y) (fun d => ?_) d a b
    fun e he => (Dev.calmBlind_sent y).followReactions_of_calm e (he ▸ hdev)
  refine Dev.pins_cases (π := fun d => d.sent y) (fun d c _ => hch d c) (fun d v => ⟨(Dev.wakeBlind_sent y).wr d _ v rfl, (Dev.wakeBlind_sent y).wr d _ v rfl⟩) d
    (P := fun e => e.sent y = d.sent y) (fun _ he => he) fun e he => Eq.trans ?_ he
  unfold Dev.condEnd; dsimp only
  split_ifs
  · rfl
  · exact (Dev.sent_sendEvent ..).trans (hsrc _ _ _ _)
  · exact hsrc _ _ _ _

/-! ## Cells sent again -/

/-- The cells of a list under the SEQs from `n`, as they go out. -/
def sentFrom (x : Die) (n : Nat) (l : List Cell) : List Emit := l.zipIdx.map (fun p => Emit.cell x (p.1.wire ((n + p.2) % 32)))

theorem sentFrom_cons (x : Die) {n : Nat} (hn : n < 32) (c : Cell) (l : List Cell) :
    sentFrom x n (c :: l) = .cell x (c.wire n) :: sentFrom x ((n + 1) % 32) l := by
  unfold sentFrom
  rw [List.zipIdx_cons', List.map_cons, List.map_map, Nat.add_zero, Nat.mod_eq_of_lt hn]
  refine congrArg _ (List.map_congr_left fun p _ => ?_)
  show Emit.cell x (p.1.wire ((n + (p.2 + 1)) % 32)) = Emit.cell x (p.1.wire (((n + 1) % 32 + p.2) % 32))
  rw [Nat.mod_add_mod, Nat.add_assoc, Nat.add_comm 1]

theorem Dev.sendAgain_eq (x : Die) : ∀ (l : List Cell) (n : Nat) (d : Dev), n < 32 →
    Dev.sendAgain x n l d = { d with out := (sentFrom x n l).reverse ++ d.out }
  | [], _, _, _ => rfl
  | c :: l, n, d, hn => by
    show Dev.sendAgain x ((n + 1) % 32) l (d.emit (.cell x (c.wire n))) = _
    rw [Dev.sendAgain_eq x l _ _ (Nat.mod_lt _ (by decide)), sentFrom_cons x hn, List.reverse_cons, List.append_assoc]
    rfl

/-- A resend outside HALT that is not the fourth without progress. -/
theorem Dev.resend_spec (d : Dev) (x : Die) (hfew : (d.bulk x).resends < 3) (hdev : d.h.dev ≠ .halt) :
    (d.resend x).sent x = ((d.bulk x).replay, (d.bulk x).resends + 1, d.now) ∧
    (∃ l, (d.resend x).out = l ++ (sentFrom x (((d.bulk x).txSeq + 32 - (d.bulk x).replay.length % 32) % 32) (d.bulk x).replay).reverse ++ d.out) ∧
    (d.resend x).fld Fld.PRZ_REPLAY_CNT_COUNT = min (d.fld Fld.PRZ_REPLAY_CNT_COUNT + 1) (2 ^ 32 - 1) := by
  unfold Dev.resend
  extract_lets b d1 d2 d3
  have hb : b.resends < 3 := hfew
  rw [if_neg (show ¬ 4 ≤ b.resends + 1 by omega)]
  have hd2 : d2 = { d1 with out := (sentFrom x ((b.txSeq + 32 - b.replay.length % 32) % 32) b.replay).reverse ++ d1.out } :=
    Dev.sendAgain_eq x _ _ _ (Nat.mod_lt _ (by decide))
  have hsent2 : d2.sent x = (b.replay, b.resends + 1, d.now) := by
    rw [hd2]
    cases x <;> rfl
  have hout2 : d2.out = (sentFrom x ((b.txSeq + 32 - b.replay.length % 32) % 32) b.replay).reverse ++ d.out := by
    rw [hd2]
    cases x <;> rfl
  have hdev2 : d2.h.dev = d.h.dev := by
    rw [hd2]
    cases x <;> rfl
  have hcnt2 : d2.fld Fld.PRZ_REPLAY_CNT_COUNT = d.fld Fld.PRZ_REPLAY_CNT_COUNT := by
    rw [hd2]
    cases x <;> rfl
  have hsentBump : (d2.bump Fld.PRZ_REPLAY_CNT_COUNT (przSat 2)).sent x = d2.sent x :=
    Dev.bump_of_wr (π := fun d => d.sent x) (fun d k v => by cases x <;> simp [Dev.sent, Dev.bulk]) _ _ _
  have hdevBump : (d2.bump Fld.PRZ_REPLAY_CNT_COUNT (przSat 2)).h.dev = d2.h.dev :=
    Dev.bump_of_wr (π := fun d => d.h.dev) (fun d k v => by simp) _ _ _
  have houtBump : (d2.bump Fld.PRZ_REPLAY_CNT_COUNT (przSat 2)).out = d2.out :=
    Dev.bump_of_wr (π := fun d => d.out) (fun d k v => by simp) _ _ _
  have hraised := (d2.bump Fld.PRZ_REPLAY_CNT_COUNT (przSat 2)).raiseBoth_apart x (i := Sn.PRZ_REPLAY) (by decide)
  refine ⟨?_, ?_, ?_⟩
  · exact (Dev.sent_raise _ x x (by decide) _ _ (by rw [hdevBump, hdev2]; exact hdev)).trans (hsentBump.trans hsent2)
  · obtain ⟨l, hl⟩ := hraised.out
    exact ⟨l, by rw [hl, houtBump, hout2, List.append_assoc]⟩
  · refine (congrArg (fun w : Word => bitsOf w.toNat 0 32) (hraised.regs Reg.PRZ_REPLAY_CNT (by decide))).trans ?_
    exact (Dev.fld_bump_same _ (by decide) (by decide) (by decide)).trans (by rw [hcnt2])

/-! ## Cells received -/

/-- With nothing that waits nothing more is sent. -/
theorem Dev.drainBulk_of_idle {d : Dev} {x : Die} (hfw : (d.bulk x).waitFw = []) (hop : (d.bulk x).waitOp = []) : ∀ n, d.drainBulk x n = d
  | 0 => rfl
  | n + 1 => by
    unfold Dev.drainBulk; dsimp only
    rw [hfw, hop, ite_self, ite_self]
    split
    · rfl
    · rfl

section
variable {d : Dev} {x : Die} {c : Cell80} {t : Nat} (hup : d.h.link.up = true)
include hup

/-- A good bulk cell. -/
theorem Dev.receiveCell_of_bulk (hhchk : c.hchkGood = true)
    (htyp : c.typ = 3 ∨ (c.typ = 4 ∧ c.cchkGood = true ∧ (c.opcode = 0x20 ∨ c.opcode = 0x21))) (hroute : c.route ≤ 7) :
    d.receiveCell x c = (true, d.cellSeen x) := by
  have hlow : decide (7 < c.route) = false := decide_eq_false (Nat.not_lt.mpr hroute)
  rcases htyp with htyp | ⟨htyp, hcchk, hop⟩
  · refine Dev.receiveCell_of_good x hup (by simp [hhchk, htyp, isControl]) ?_
    unfold unexpected
    rw [htyp]
    exact hlow
  · refine Dev.receiveCell_of_good x hup (by simp [hhchk, hcchk]) ?_
    unfold unexpected
    rw [htyp]
    dsimp only
    rw [hlow]
    rcases hop with hop | hop
    · rw [hop]; rfl
    · rw [hop]; rfl

/-- The end of the stream that has taken the next expected cell at an instant. -/
def BulkEnd.taking (b : BulkEnd) (now : Nat) : BulkEnd :=
  { b with
    rxSeq := (b.rxSeq + 1) % 32
    nakSent := false
    since := b.since + 1
    sinceAt := if b.since = 0 then now else b.sinceAt
    seen := b.seen + 1 }

variable (hhchk : c.hchkGood = true) (htyp : c.typ = 3 ∨ (c.typ = 4 ∧ c.cchkGood = true ∧ (c.opcode = 0x20 ∨ c.opcode = 0x21)))
  (hroute : c.route ≤ 7)
include hhchk htyp hroute

theorem doBulkCellReceive_of_next (hseq : c.seq = (d.bulk x).rxSeq) : doBulkCellReceive x c t d =
    if 8 ≤ (d.bulk x).since + 1 then ((d.at t).setBulk x ((d.bulk x).taking (max d.now t))).sendAck x
    else (d.at t).setBulk x ((d.bulk x).taking (max d.now t)) := by
  have htaken : ¬ (!true || !(c.typ == 3 || c.typ == 4)) = true := by
    rcases htyp with h | ⟨h, -⟩
    · simp [h]
    · simp [h]
  unfold doBulkCellReceive; dsimp only
  rw [Dev.receiveCell_of_bulk (d := d.at t) hup hhchk htyp hroute]
  dsimp only
  rw [if_neg htaken]
  unfold Dev.cellSeen
  rw [Dev.bulk_setBulk, Dev.setBulk_setBulk, Dev.setBulk_now]
  exact if_pos hseq

theorem doBulkCellReceive_of_gap (hseq : c.seq ≠ (d.bulk x).rxSeq) (hnak : (d.bulk x).nakSent = false) : doBulkCellReceive x c t d =
    ((((d.at t).cellSeen x).bump Fld.PRZ_SEQ_CNT_COUNT (przSat 1)).setBulk x
      { (((d.at t).cellSeen x).bump Fld.PRZ_SEQ_CNT_COUNT (przSat 1)).bulk x with nakSent := true }).emitCell x (.nak (d.bulk x).rxSeq) := by
  have htaken : ¬ (!true || !(c.typ == 3 || c.typ == 4)) = true := by
    rcases htyp with h | ⟨h, -⟩
    · simp [h]
    · simp [h]
  have hbulk : (((d.at t).cellSeen x).bulk x) = { d.bulk x with seen := (d.bulk x).seen + 1 } := Dev.bulk_setBulk ..
  unfold doBulkCellReceive; dsimp only
  rw [Dev.receiveCell_of_bulk (d := d.at t) hup hhchk htyp hroute]
  dsimp only
  rw [if_neg htaken, hbulk]
  refine (if_neg hseq).trans (if_neg ?_)
  rw [hnak]
  exact Bool.false_ne_true

end

/-- With no field-window read that waits none is sent. -/
theorem Dev.sendReads_of_none {d : Dev} (h : d.h.fwReads = []) : d.sendReads = d := by
  unfold Dev.sendReads; dsimp only
  rw [h]
  split
  · rfl
  · exact (congrArg (fun l => ({ d with h.fwReads := l } : Dev)) h.symm :)

theorem Dev.sendAck_setBulk (d : Dev) (x : Die) (b : BulkEnd) : (d.setBulk x b).sendAck x =
    (d.setBulk x { b with since := 0 }).emitCell x (.ack ((b.rxSeq + 31) % 32)) := by
  unfold Dev.sendAck; dsimp only
  rw [Dev.bulk_setBulk, Dev.setBulk_setBulk]

/-- Settles O10: cells taken and missed, acknowledgements, and resends. -/
theorem bulkStreamAcknowledges : Obligations.BulkStreamAcknowledges := by
  intro s x c k t hup
  refine ⟨fun hhchk htyp hroute => ⟨fun hseq => ?next, fun hseq hnak => ?gap⟩, fun hsince hdue => ?timer, fun hc hfw hop hreads hk hlt => ?ack,
    fun hany hfew hdev hk i hi => ?resend⟩
  case next =>
    have hdo := doBulkCellReceive_of_next (t := t) hup hhchk htyp hroute hseq
    have hother (b : BulkEnd) : ((s.dev.at t).setBulk x b).bulk (Machine.Die.other x) = s.dev.bulk (Machine.Die.other x) := by cases x <;> rfl
    have hrd (b : BulkEnd) (k : Nat) : ((s.dev.at t).setBulk x b).rd k = s.dev.rd k := Dev.rd_setBulk ..
    by_cases h : (s.dev.bulk x).since < 7
    · rw [if_neg (by omega)] at hdo
      refine ⟨_, s.onDev_of hdo, ?_, ?_, fun _ => ⟨?_, Dev.setBulk_out ..⟩, fun hge => absurd h (Nat.not_lt.mpr hge), hother _, hrd _, rfl, rfl⟩
      all_goals rw [Dev.bulk_setBulk]
      · rw [hseq]
        rfl
      · rfl
      · rfl
    · rw [if_pos (by omega)] at hdo
      have hack : (((c.seq + 1) % 32) + 31) % 32 = c.seq := by
        have hlt : c.seq < 32 := (c.extractLsb' 67 5).isLt
        omega
      rw [Dev.sendAck_setBulk, show ((s.dev.bulk x).taking (max s.dev.now t)).rxSeq = (c.seq + 1) % 32 by rw [hseq]; rfl, hack] at hdo
      refine ⟨_, s.onDev_of hdo, ?_, ?_, fun hlt => absurd hlt h, fun _ => ⟨?_, ?_⟩, hother _, hrd _, rfl, rfl⟩
      · exact (congrArg BulkEnd.rxSeq (Dev.bulk_setBulk (s.dev.at t) x _)).trans (by rw [hseq])
      · exact congrArg BulkEnd.nakSent (Dev.bulk_setBulk (s.dev.at t) x _)
      · exact congrArg BulkEnd.since (Dev.bulk_setBulk (s.dev.at t) x _)
      · exact congrArg (List.cons _) (Dev.setBulk_out (s.dev.at t) x _)
  case gap =>
    have hdo := doBulkCellReceive_of_gap (t := t) hup hhchk htyp hroute hseq hnak
    set e := ((s.dev.at t).cellSeen x).bump Fld.PRZ_SEQ_CNT_COUNT (przSat 1) with he
    have hbulk (y : Die) : e.bulk y = ((s.dev.at t).cellSeen x).bulk y :=
      Dev.bump_of_wr (π := fun d => d.bulk y) (fun d k v => by cases y <;> simp [Dev.bulk]) _ _ _
    have hout : e.out = s.dev.out := (Dev.bump_of_wr (π := fun d => d.out) (fun d k v => by simp) _ _ _).trans (Dev.setBulk_out ..)
    have hseen : ((s.dev.at t).cellSeen x).bulk x = { s.dev.bulk x with seen := (s.dev.bulk x).seen + 1 } := Dev.bulk_setBulk ..
    have hself : (((e.setBulk x { e.bulk x with nakSent := true }).emitCell x (.nak (s.dev.bulk x).rxSeq)).bulk x) =
        { e.bulk x with nakSent := true } := Dev.bulk_setBulk ..
    refine ⟨_, s.onDev_of hdo, ?_, ?_, ?_, ?_, ?_, rfl, rfl⟩
    · refine (congrArg BulkEnd.rxSeq hself).trans ?_
      rw [hbulk, hseen]
    · exact congrArg BulkEnd.nakSent hself
    · exact congrArg (List.cons _) ((Dev.setBulk_out ..).trans hout)
    · have hcount := Dev.fld_bump_same ((s.dev.at t).cellSeen x) (c := Fld.PRZ_SEQ_CNT_COUNT) (s := przSat 1) (by decide) (by decide) (by decide)
      have hrd : (e.setBulk x { e.bulk x with nakSent := true }).fld Fld.PRZ_SEQ_CNT_COUNT = e.fld Fld.PRZ_SEQ_CNT_COUNT := by
        cases x <;> rfl
      refine hrd.trans (hcount.trans ?_)
      cases x <;> rfl
    · have hother : ((e.setBulk x { e.bulk x with nakSent := true }).emitCell x (.nak (s.dev.bulk x).rxSeq)).bulk (Machine.Die.other x) =
          e.bulk (Machine.Die.other x) := by cases x <;> rfl
      refine hother.trans ((hbulk _).trans ?_)
      cases x <;> rfl
  case timer =>
    have hgo : (true && (s.dev.bulk x).since != 0 && decide ((s.dev.bulk x).sinceAt + 160 ≤ max s.dev.now t)) = true := by
      rw [decide_eq_true hdue, bne_iff_ne.mpr hsince]
      rfl
    refine s.onDev_of (g := doAckSendTimer x t) ?_
    unfold doAckSendTimer; dsimp only
    rw [Dev.at_h, hup]
    exact if_pos hgo
  case ack =>
    have hcell := Dev.linkCell_of_good (d := s.dev.at t) (x := x) hup hc (.inl (.inl rfl))
    have hseen : ((s.dev.at t).cellSeen x).bulk x = { s.dev.bulk x with seen := (s.dev.bulk x).seen + 1 } := Dev.bulk_setBulk ..
    refine s.onDev_of (g := doAck x c t) ?_
    unfold doAck; dsimp only
    rw [hcell]
    dsimp only
    rw [hseen]
    dsimp only
    rw [← hk, if_neg (by simp [hlt])]
    unfold Dev.cellSeen
    rw [Dev.setBulk_setBulk, Dev.setBulk_now, Dev.drainBulk_of_idle (by rw [Dev.bulk_setBulk]; exact hfw) (by rw [Dev.bulk_setBulk]; exact hop)]
    exact Dev.sendReads_of_none (by cases x <;> exact hreads)
  case resend =>
    have hstart (d : Dev) (hb : ∃ n, d.bulk x = { s.dev.bulk x with seen := n }) (hd : d.h.dev = s.dev.h.dev) (hnow : d.now = max s.dev.now t)
        (hout : d.out = s.dev.out) (hcnt : d.fld Fld.PRZ_REPLAY_CNT_COUNT = s.dev.fld Fld.PRZ_REPLAY_CNT_COUNT) (hdo : exec i s = .next { s with dev := d.resend x }) :
        ∃ u : State, exec i s = .next u ∧ (u.dev.bulk x).replay = (s.dev.bulk x).replay ∧
          (u.dev.bulk x).resends = (s.dev.bulk x).resends + 1 ∧ (u.dev.bulk x).replayAt = max s.dev.now t ∧
          (∃ l, u.dev.out = l ++ ((s.dev.bulk x).replay.zipIdx.map (fun p =>
            Emit.cell x (p.1.wire ((k + p.2) % 32)))).reverse ++ s.dev.out) ∧
          u.dev.fld Fld.PRZ_REPLAY_CNT_COUNT = min (s.dev.fld Fld.PRZ_REPLAY_CNT_COUNT + 1) (2 ^ 32 - 1) ∧
          u.nv = s.nv ∧ u.pending = s.pending := by
      obtain ⟨n, hb⟩ := hb
      obtain ⟨hsent, hcells, hcount⟩ := d.resend_spec x (by rw [hb]; exact hfew) (by rw [hd]; exact hdev)
      rw [hb, hnow] at hsent
      rw [hb, hout] at hcells
      rw [hcnt] at hcount
      simp only [Dev.sent, Prod.mk.injEq] at hsent
      obtain ⟨h1, h2, h3⟩ := hsent
      subst hk
      exact ⟨_, hdo, h1, h2, h3, hcells, hcount, rfl, rfl⟩
    rcases hi with ⟨rfl, hc⟩ | ⟨rfl, hlate⟩
    · have hcell := Dev.linkCell_of_good (d := s.dev.at t) (x := x) hup hc (.inl (.inr (.inl rfl)))
      have hseen : ((s.dev.at t).cellSeen x).bulk x = { s.dev.bulk x with seen := (s.dev.bulk x).seen + 1 } := Dev.bulk_setBulk ..
      refine hstart ((s.dev.at t).cellSeen x) ⟨_, hseen⟩ (by cases x <;> rfl) (Dev.setBulk_now ..) (Dev.setBulk_out ..) (by cases x <;> rfl)
        (s.onDev_of (g := doNak x c t) ?_)
      unfold doNak; dsimp only
      rw [hcell]
      refine if_pos ?_
      rw [hseen]
      simp [hany]
    · have hgo : (true && !(s.dev.bulk x).replay.isEmpty && decide ((s.dev.bulk x).replayAt + 1600 ≤ max s.dev.now t)) = true := by
        simp [hany, hlate]
      refine hstart (s.dev.at t) ⟨_, rfl⟩ rfl rfl rfl rfl (s.onDev_of (g := doReplayTimeout x t) ?_)
      unfold doReplayTimeout; dsimp only
      rw [Dev.at_h, hup]
      exact if_pos hgo

end Sys2Proof.Machine
end

section
/-!
PROOF. Training (R57, R58, R60).
-/

namespace Sys2Proof.Machine

/-! ## Training begins -/

/-- A wake of a link that trains, or outside REST, leaves whether it trains. -/
theorem Dev.training_wake {d : Dev} (x : Die) (src : Nat) (h : d.f.ch.rest = none ∨ d.h.link.training = true) :
    (d.wake x src).h.link.training = d.h.link.training := by
  rcases h with hrest | htrain
  · unfold Dev.wake
    rw [hrest]
    rfl
  · have hmode (e : Dev) (he : e.h.link.training = true) : e.wakeTrain.h.link.training = true := by
      unfold Dev.wakeTrain
      split
      · rfl
      · exact he
    have hsrc (p : Prop) [Decidable p] (v : Nat) : (if p then d else d.setFld Fld.BRK_WAKE_SRC v).h.link.training = true :=
      Dev.ite_kept (π := fun d => d.h.link.training) htrain (by simp [Dev.setFld, htrain])
    have hat (e : Dev) (he : e.h.link.training = true) (p : Prop) [Decidable p] (v : Option Nat) :
        (if p then e else { e with f.brk.wakeAt := v }).h.link.training = true :=
      Dev.ite_kept (π := fun d => d.h.link.training) he he
    have hH (e : Dev) (host : Bool) (he : e.h.link.training = true) : (e.wakeH host).h.link.training = true := by
      unfold Dev.wakeH; dsimp only
      split
      · exact he
      · refine hmode _ ?_
        cases host
        · exact he
        · exact he
    rw [htrain]
    unfold Dev.wake; dsimp only
    split
    · exact htrain
    · cases x
      · exact hH _ _ (hat _ (hsrc _ _) _ _)
      · exact hmode _ (hat _ (hsrc _ _) _ _)

theorem Dev.reactBlind_training : Dev.ReactBlind (fun d => d.h.link.training) where
  emit _ _ := rfl
  bulk d x b := by cases x <;> rfl
  reads _ _ := rfl
  wrHalt d k v _ := by simp
  pci d fn p := by cases fn <;> rfl
  irqRest _ _ := rfl
  op _ _ _ := rfl
  ring _ _ _ := rfl
  state _ _ _ _ _ _ := rfl
  restEntry _ _ := rfl
  brk _ _ := rfl
  wr d k v _ := by simp
  ackCopy _ _ _ := rfl
  pulseH _ _ := rfl
  pulseF _ _ := rfl

/-- A source raised on the H-side, on a link that trains or outside REST, leaves whether it trains. -/
theorem Dev.training_raiseH (d : Dev) {i : Nat} (hi : i < 96) (a b : Bool) (h : d.f.ch.rest = none ∨ d.h.link.training = true) :
    (d.raise .h i a b).h.link.training = d.h.link.training := by
  have hreact := Dev.reactBlind_training
  have hrest : Dev.Blind (fun d => d.f.ch.rest) := .of_core fun _ => rfl
  have hstart (e : Dev) (on : Bool) (he : e.f.ch.rest = none ∨ e.h.link.training = true) :
      (e.startPulse .h on).h.link.training = e.h.link.training := by
    unfold Dev.startPulse
    split
    · refine (Dev.training_wake _ _ ?_).trans (hreact.pulse e .h)
      exact he.imp (hrest.pulse e .h).trans (hreact.pulse e .h).trans
    · rfl
  unfold Dev.raise Dev.raiseInfo Dev.raiseForce Dev.announce; dsimp only
  split_ifs
  · rfl
  · exact (hreact.record _ _ hi).trans (hreact.sendEvent _ _ _ _ _ _ _)
  · exact (hreact.record _ _ hi).trans ((hreact.sendEvent _ _ _ _ _ _ _).trans (hstart _ _ h))
  · rfl

/-- The lanes of a link, and whether it is up. -/
def Dev.lanes (d : Dev) : Bool × Nat × Nat × Nat × Nat := (d.h.link.up, d.h.link.fwd, d.h.link.ret, d.h.link.fwdBad, d.h.link.retBad)

/-- A link that was up and enters training: it is down and trains, the lanes that failed stay, and the retrain is counted. -/
theorem Dev.enterTraining_spec {d : Dev} (hup : d.h.link.up = true) : d.enterTraining.h.link.training = true ∧
    d.enterTraining.lanes = (false, d.h.link.fwd, d.h.link.ret, d.h.link.fwdBad, d.h.link.retBad) ∧
    d.enterTraining.fld Fld.PRZ_RETRAIN_CNT_COUNT = min (d.fld Fld.PRZ_RETRAIN_CNT_COUNT + 1) (2 ^ 32 - 1) ∧
    d.enterTraining.f.car = d.f.car := by
  rw [Dev.enterTraining_of_up hup]
  have hbump {α : Type} (π : Dev → α) (hwr : ∀ (d : Dev) (k : Nat) (v : Word), π (d.wr k v) = π d) :
      π (d.trainingBegun.bump Fld.PRZ_RETRAIN_CNT_COUNT ⟨Reg.PRZ_CNT_SAT, 3, 1⟩) = π d.trainingBegun := Dev.bump_of_wr hwr _ _ _
  have htrain : (d.trainingBegun.bump Fld.PRZ_RETRAIN_CNT_COUNT ⟨Reg.PRZ_CNT_SAT, 3, 1⟩).h.link.training = true :=
    hbump (fun d => d.h.link.training) fun d k v => by simp
  refine ⟨?_, ?_, ?_, ?_⟩
  · exact (Dev.training_raiseH _ (by decide) _ _ (.inr htrain)).trans htrain
  · exact (Dev.Blind.of_core (π := Dev.lanes) fun _ => rfl).retrainNoted (fun _ _ => rfl) (fun d k v => by simp [Dev.lanes]) _
  · have hraised := (d.trainingBegun.bump Fld.PRZ_RETRAIN_CNT_COUNT ⟨Reg.PRZ_CNT_SAT, 3, 1⟩).raiseBoth_apart .h (i := Sn.PRZ_RETRAIN) (by decide)
    refine (congrArg (fun w : Word => bitsOf w.toNat 0 32) (hraised.regs Reg.PRZ_RETRAIN_CNT (by decide))).trans ?_
    exact Dev.fld_bump_same _ (by decide) (by decide) (by decide)
  · exact (Dev.Blind.of_core (π := fun d => d.f.car) fun _ => rfl).retrainNoted (fun _ _ => rfl) (fun d k v => by simp) _

/-! ## The link comes up -/

/-- A part of the device that what the link does as it comes up does not reach, but for its exchange and the effective period: not the
stream's traffic, the refresh, the watch, the copy of the F-side's locks, or the H-side's sources. -/
structure Dev.UpBlind {α : Type} (π : Dev → α) : Prop extends Dev.OutBlind π where
  event : ∀ (d : Dev) (x : Die) (i sev : Nat) (active a b : Bool), π (d.sendEvent x i sev active a b) = π d
  waits : ∀ (d : Dev) (x : Die), π (d.setBulk x { d.bulk x with evWait := [] }) = π d
  drain : ∀ (d : Dev) (x : Die) (n : Nat), π (d.drainBulk x n) = π d
  sendBulk : ∀ (d : Dev) (x : Die) (c : Cell), π (d.sendBulk x c) = π d
  reads : ∀ (d : Dev) (r : List FwRead), π { d with h.fwReads := r } = π d
  shadow : ∀ (d : Dev) (b : Bool) (q : List FwWrite), π { d with h.syncPend := b, h.shadowQ := q } = π d
  image : ∀ (d : Dev) (a b : Image) (n : Nat) (k : Option Takeover),
    π { d with h.imgA := a, h.imgB := b, h.refNum := n, h.mir.takeover := k } = π d
  wd : ∀ (d : Dev) (k : Nat) (w : Wd), π (d.setWd k w) = π d
  watch : ∀ (d : Dev) (w : Watch), π { d with f.watch := w } = π d
  lock : ∀ (d : Dev) (v : Word), π (d.wr Reg.SYS_LOCK_STATUS v) = π d
  src : ∀ (d : Dev) (i : Nat) (s : Src), π (d.setSrc .h i s) = π d
  raise : ∀ d : Dev, d.f.ch.rest = none → π (d.raiseBoth .h Sn.PRZ_LANE_DEGRADE) = π d

/-- The exchange of the link with its lanes, and the events that waited sent. -/
def Dev.exchanged (d : Dev) (fwd ret : Nat) : Dev :=
  ((({ d with h.link := { d.h.link with
    up := true, training := false, stopped := false, fwd := fwd, ret := ret } } : Dev).exchange fwd ret).sendWaiting .h).sendWaiting .f

namespace Dev.UpBlind

variable {α : Type} {π : Dev → α} (h : Dev.UpBlind π) (d : Dev)
include h

theorem sendWaiting (x : Die) : π (d.sendWaiting x) = π d :=
  (Dev.StreamBlind.foldl (π := π) _ (fun _ _ => h.event _ _ _ _ _ _ _) _ _).trans (h.waits d x)

theorem sendRefresh : π d.sendRefresh = π d := by
  have hsent := h.image d d.h.imgA.latch d.h.imgB.latch ((d.h.refNum + 1) % 32) (d.h.mir.takeover.map (fun k : Takeover => { k with latched := true }))
  have hresume (e : Dev) (k : Nat) : π (e.wdResume k) = π e := Dev.ite_kept (h.wd e _ _) rfl
  unfold Dev.sendRefresh; dsimp only
  refine Dev.ite_kept ((hresume _ _).trans ((hresume _ _).trans ?_)) ?_
  · exact (h.emit _ _).trans ((h.emit _ _).trans hsent)
  · exact (h.emit _ _).trans ((h.emit _ _).trans hsent)

theorem sendMiss : π d.sendMiss = π d := Dev.ite_kept ((h.emit _ _).trans (h.watch d _)) (h.watch d _)

theorem condEnd (i : Nat) : π (d.condEnd .h i) = π d := by
  unfold Dev.condEnd; dsimp only
  split_ifs
  · rfl
  · exact (h.event _ _ _ _ _ _ _).trans (h.src d _ _)
  · exact h.src d _ _

theorem shadowSync : π d.shadowSync = π d := by
  have hsend (d : Dev) (fn : Func) (off : Nat) (data : Word) : π (d.shadowSend fn off data) = π d := by
    unfold Dev.shadowSend; dsimp only
    exact Dev.ite_kept ((h.sendBulk _ _ _).trans (h.shadow d true _)) (h.shadow d true _)
  exact (hsend _ _ _ _).trans ((hsend _ _ _ _).trans
    ((Dev.StreamBlind.foldl (π := π) _ (fun _ _ => hsend _ _ _ _) _ _).trans (h.shadow d d.h.syncPend [])))

theorem sendReads : π d.sendReads = π d :=
  Dev.ite_kept rfl ((Dev.StreamBlind.foldl (π := π) _ (fun _ _ => h.sendBulk _ _ _) _ _).trans (h.reads d _))

end Dev.UpBlind

/-- A part blind to reports is such a part, if the images, the watch and the locks are not in it. -/
theorem Dev.Blind.up {α : Type} {π : Dev → α} (h : Dev.Blind π)
    (shadow : ∀ (d : Dev) (b : Bool) (q : List FwWrite), π { d with h.syncPend := b, h.shadowQ := q } = π d)
    (image : ∀ (d : Dev) (a b : Image) (n : Nat) (k : Option Takeover),
      π { d with h.imgA := a, h.imgB := b, h.refNum := n, h.mir.takeover := k } = π d)
    (wd : ∀ (d : Dev) (k : Nat) (w : Wd), π (d.setWd k w) = π d) (watch : ∀ (d : Dev) (w : Watch), π { d with f.watch := w } = π d)
    (lock : ∀ (d : Dev) (v : Word), π (d.wr Reg.SYS_LOCK_STATUS v) = π d) (src : ∀ (d : Dev) (i : Nat) (s : Src), π (d.setSrc .h i s) = π d) :
    Dev.UpBlind π where
  emit := h.emit
  event d x i sev active a b := h.sendEvent d x i sev active a b
  waits d x := h.bulk d x _
  drain d x n := h.drainBulk d x n
  sendBulk d x c := h.sendBulk d x c
  reads := h.reads
  shadow := shadow
  image := image
  wd := wd
  watch := watch
  lock := lock
  src := src
  raise d _ := h.raiseBothH (fun d => src d _) (by decide) d

theorem Dev.setWd_kept {α : Type} {π : Dev → α} (ha : ∀ (d : Dev) (w : Wd), π { d with h.wdA := w } = π d)
    (hb : ∀ (d : Dev) (w : Wd), π { d with h.wdB := w } = π d) (hf : ∀ (d : Dev) (w : Wd), π { d with f.wdF := w } = π d)
    (d : Dev) (k : Nat) (w : Wd) : π (d.setWd k w) = π d := Dev.ite_kept (ha d w) (Dev.ite_kept (hb d w) (hf d w))

/-- Whether the device rests is such a part. -/
theorem Dev.upBlind_rest : Dev.UpBlind (fun d => d.f.ch.rest) :=
  (Dev.Blind.of_core fun _ => rfl).up (fun _ _ _ => rfl) (fun _ _ _ _ _ => rfl) (Dev.setWd_kept (π := fun d => d.f.ch.rest) (fun _ _ => rfl) (fun _ _ => rfl) fun _ _ => rfl)
    (fun _ _ => rfl) (fun d v => by simp) fun _ _ _ => rfl

/-- What the link coming up leaves of such a part, that PRZ_LANE_DEGRADE does not reach either: its exchange and the effective period. -/
theorem Dev.UpBlind.linkUp_of_raise {α : Type} {π : Dev → α} (h : Dev.UpBlind π) (d : Dev) (fwd ret : Nat)
    (hraise : ∀ e : Dev, e.f.ch.rest = (d.exchanged fwd ret).f.ch.rest → π (e.raiseBoth .h Sn.PRZ_LANE_DEGRADE) = π e) :
    π (d.linkUp fwd ret) = π ((d.exchanged fwd ret).setFld Fld.PRZ_REF_EFF_EFF (d.exchanged fwd ret).effNow) := by
  unfold Dev.linkUp
  extract_lets l0 l hd d3 d4 fd w d5 d5' d6 d7 d8
  have hmiss {β : Type} {ρ : Dev → β} (h : Dev.UpBlind ρ) : ρ d5' = ρ (d3.setFld Fld.PRZ_REF_EFF_EFF d3.effNow) := by
    have hd5 : ρ d5 = ρ (d3.setFld Fld.PRZ_REF_EFF_EFF d3.effNow) := (h.watch d4 _).trans (h.sendRefresh _)
    exact Dev.ite_kept ((h.sendMiss d5).trans hd5) hd5
  have hrest5 : d5'.f.ch.rest = d3.f.ch.rest := (hmiss Dev.upBlind_rest).trans (by rw [Dev.setFld_f])
  have hd6 : π d6 = π d5' := Dev.ite_kept (h.condEnd d5' _) (hraise d5' hrest5)
  have hd7 : π d7 = π d6 := (h.lock _ _).trans ((h.lock _ _).trans (h.condEnd d6 _))
  have hd8 : π d8 = π d7 := Dev.ite_kept rfl (h.shadowSync d7)
  exact (h.sendReads _).trans ((h.drain _ _ _).trans ((h.drain _ _ _).trans (hd8.trans (hd7.trans (hd6.trans (hmiss h))))))

/-- The same outside REST. -/
theorem Dev.UpBlind.linkUp {α : Type} {π : Dev → α} (h : Dev.UpBlind π) (d : Dev) (fwd ret : Nat)
    (hrest : (d.exchanged fwd ret).f.ch.rest = none) : π (d.linkUp fwd ret) =
    π ((d.exchanged fwd ret).setFld Fld.PRZ_REF_EFF_EFF (d.exchanged fwd ret).effNow) :=
  h.linkUp_of_raise d fwd ret fun e he => h.raise e (he.trans hrest)

/-! ## The exchange -/

/-- The device with both ends of the stream renumbered and nothing of a refresh or a PARAM pending. -/
def Dev.endsAnew (d : Dev) : Dev :=
  { d with
    h.bulk := renumber d.h.bulk ((d.f.bulk.rxSeq + 31) % 32) d.now
    f.bulk := renumber d.f.bulk ((d.h.bulk.rxSeq + 31) % 32) d.now
    h.param := none
    f.watch.refA := none }

theorem Dev.OutBlind.exchange {α : Type} {π : Dev → α} (h : Dev.OutBlind π) (d : Dev) (fwd ret : Nat) :
    π (d.exchange fwd ret) = π d.endsAnew := by
  have hagain (x : Die) (l : List Cell) (e : Dev) : π (Dev.sendAgain x 0 l e) = π e := by
    rw [Dev.sendAgain_eq x l 0 e (by decide)]
    exact Dev.emits_kept h.emit _ e
  unfold Dev.exchange; dsimp only
  refine (hagain .f _ _).trans ((hagain .h _ _).trans ?_)
  exact (h.emit _ _).trans ((h.emit _ _).trans ((h.emit _ _).trans (h.emit d.endsAnew _)))

/-- The exchange leaves what the ends of the stream, the PARAM and the REF_A are not part of. -/
theorem Dev.UpBlind.exchanged {α : Type} {π : Dev → α} (h : Dev.UpBlind π) (d : Dev) (fwd ret : Nat) : π (d.exchanged fwd ret) =
    π ({ d with h.link := { d.h.link with up := true, training := false, stopped := false, fwd := fwd, ret := ret } } : Dev).endsAnew :=
  (h.sendWaiting _ _).trans ((h.sendWaiting _ _).trans (h.toOutBlind.exchange _ fwd ret))

/-! ## What the link is after training -/

/-- The SEQs that both ends of the stream expect. -/
def Dev.expects (d : Dev) : Nat × Nat := (d.h.bulk.rxSeq, d.f.bulk.rxSeq)

theorem Dev.expects_setBulk (d : Dev) (x : Die) (b : BulkEnd) (hb : b.rxSeq = (d.bulk x).rxSeq) : (d.setBulk x b).expects = d.expects := by
  cases x
  · exact congrArg (fun n => (n, d.f.bulk.rxSeq)) hb
  · exact congrArg (fun n => (d.h.bulk.rxSeq, n)) hb

theorem Dev.expects_drainBulk (x : Die) : ∀ (n : Nat) (d : Dev), (d.drainBulk x n).expects = d.expects
  | 0, _ => rfl
  | n + 1, d => by
    unfold Dev.drainBulk; dsimp only
    split
    · rfl
    · split
      · rfl
      · refine (Dev.expects_drainBulk x n _).trans ?_
        have hset (b : BulkEnd) (hb : b.rxSeq = (d.bulk x).rxSeq) (c : Cell) : (d.sendNext x b c).expects = d.expects := by
          have h1 := d.expects_setBulk x { b with
            txSeq := (b.txSeq + 1) % 32
            replayAt := if b.replay.isEmpty then d.now else b.replayAt
            replay := b.replay ++ [c] } hb
          unfold Dev.sendNext; dsimp only
          split
          · exact h1
          · exact h1
        refine hset _ ?_ _
        rfl

theorem Dev.expects_sendEvent (d : Dev) (x : Die) (i sev : Nat) (active a b : Bool) : (d.sendEvent x i sev active a b).expects = d.expects := by
  unfold Dev.sendEvent; dsimp only
  split
  · exact d.expects_setBulk x _ rfl
  · exact d.expects_setBulk x _ rfl

theorem Dev.expects_sendBulk (d : Dev) (x : Die) (c : Cell) : (d.sendBulk x c).expects = d.expects := by
  unfold Dev.sendBulk; dsimp only
  refine (Dev.expects_drainBulk ..).trans (d.expects_setBulk x _ ?_)
  split
  · rfl
  · rfl

theorem Dev.calmBlind_expects : Dev.CalmBlind Dev.expects where
  emit _ _ := rfl
  wrHalt d k v _ := by simp [Dev.expects]
  pci d fn p := by cases fn <;> rfl
  irqRest _ _ := rfl
  op _ _ _ := rfl
  ring _ _ _ := rfl
  state _ _ _ _ _ _ := rfl
  restEntry _ _ := rfl
  brk _ _ := rfl

theorem Dev.wakeBlind_expects : Dev.WakeBlind Dev.expects where
  toIrqBlind := Dev.calmBlind_expects.toIrqBlind
  wr d k v _ := by simp [Dev.expects]
  ackCopy _ _ _ := rfl
  pulseH _ _ := rfl
  pulseF _ _ := rfl
  brk _ _ := rfl
  pm _ _ := rfl
  training _ _ := rfl

theorem Dev.upBlind_expects : Dev.UpBlind Dev.expects where
  emit _ _ := rfl
  event := Dev.expects_sendEvent
  waits d x := d.expects_setBulk x _ rfl
  drain d x n := Dev.expects_drainBulk x n d
  sendBulk := Dev.expects_sendBulk
  reads _ _ := rfl
  shadow _ _ _ := rfl
  image _ _ _ _ _ := rfl
  wd := Dev.setWd_kept (fun _ _ => rfl) (fun _ _ => rfl) fun _ _ => rfl
  watch _ _ := rfl
  lock d v := by simp [Dev.expects]
  src _ _ _ := rfl
  raise d _ := by
    have hsrc (d : Dev) (x : Die) (i : Nat) (s : Src) : (d.setSrc x i s).expects = d.expects := by cases x <;> rfl
    refine Dev.raise_kept Dev.wakeBlind_expects (by decide) (hsrc · .h _) Dev.expects_sendEvent (fun d => ?_) d true true
      fun e _ => Dev.calmBlind_expects.followReactions_of_drained e (fun d x n => Dev.expects_drainBulk x n d)
    refine Dev.pins_cases (fun _ _ _ => rfl) (fun d v => ⟨Dev.wakeBlind_expects.wr d _ v rfl, Dev.wakeBlind_expects.wr d _ v rfl⟩) d
      (P := fun e => e.expects = d.expects) (fun _ he => he) fun e he => Eq.trans ?_ he
    unfold Dev.condEnd; dsimp only
    split_ifs
    · rfl
    · exact (Dev.expects_sendEvent ..).trans (hsrc _ _ _ _)
    · exact hsrc _ _ _ _

theorem Dev.upBlind_training : Dev.UpBlind (fun d => d.h.link.training) where
  emit _ _ := rfl
  event := Dev.reactBlind_training.sendEvent
  waits d x := Dev.reactBlind_training.bulk d x _
  drain d x n := Dev.reactBlind_training.drainBulk d x n
  sendBulk := Dev.reactBlind_training.sendBulk
  reads _ _ := rfl
  shadow _ _ _ := rfl
  image _ _ _ _ _ := rfl
  wd := Dev.setWd_kept (π := fun d => d.h.link.training) (fun _ _ => rfl) (fun _ _ => rfl) fun _ _ => rfl
  watch _ _ := rfl
  lock d v := by simp
  src _ _ _ := rfl
  raise d hrest := d.training_raiseH (by decide) _ _ (.inl hrest)

/-- The device with its link up on the lanes, and both ends of the stream renumbered. -/
def Dev.linked (d : Dev) (fwd ret : Nat) : Dev :=
  ({ d with h.link := { d.h.link with up := true, training := false, stopped := false, fwd := fwd, ret := ret } } : Dev).endsAnew

/-- Of such a part without the effective period a link that comes up outside REST leaves what renumbering leaves. -/
theorem Dev.UpBlind.linkUp_linked {α : Type} {π : Dev → α} (h : Dev.UpBlind π) (heff : ∀ (d : Dev) (v : Word), π (d.wr Reg.PRZ_REF_EFF v) = π d)
    {d : Dev} (hrest : d.f.ch.rest = none) (fwd ret : Nat) : π (d.linkUp fwd ret) = π (d.linked fwd ret) :=
  (h.linkUp d fwd ret ((Dev.upBlind_rest.exchanged d fwd ret).trans hrest)).trans ((heff _ _).trans (h.exchanged d fwd ret))

/-- A part outside what reports write, which no write of a link that comes up reaches. -/
theorem Dev.upBlind_of_core {α : Type} {π : Dev → α} (h : ∀ d : Dev, π d.core = π d)
    (image : ∀ (d : Dev) (a b : Image) (n : Nat) (k : Option Takeover),
      π { d with h.imgA := a, h.imgB := b, h.refNum := n, h.mir.takeover := k } = π d)
    (wd : ∀ (d : Dev) (k : Nat) (w : Wd), π (d.setWd k w) = π d) (watch : ∀ (d : Dev) (w : Watch), π { d with f.watch := w } = π d)
    (lock : ∀ (d : Dev) (v : Word), π (d.wr Reg.SYS_LOCK_STATUS v) = π d) (src : ∀ (d : Dev) (i : Nat) (s : Src), π (d.setSrc .h i s) = π d)
    (shadow : ∀ (d : Dev) (b : Bool) (q : List FwWrite), π { d with h.syncPend := b, h.shadowQ := q } = π d) :
    Dev.UpBlind π := (Dev.Blind.of_core h).up shadow image wd watch lock src

theorem Dev.upBlind_lanes : Dev.UpBlind Dev.lanes :=
  Dev.upBlind_of_core (fun _ => rfl) (fun _ _ _ _ _ => rfl) (Dev.setWd_kept (fun _ _ => rfl) (fun _ _ => rfl) fun _ _ => rfl)
    (fun _ _ => rfl) (fun d v => by simp [Dev.lanes]) (fun _ _ _ => rfl) fun _ _ _ => rfl

theorem Dev.upBlind_rd {k : Nat} (hk : reactReg k = false) (hlock : k ≠ Reg.SYS_LOCK_STATUS) : Dev.UpBlind (fun d => d.rd k) :=
  (Dev.blind_rd hk).up (fun _ _ _ => rfl) (fun _ _ _ _ _ => rfl) (Dev.setWd_kept (π := fun d => d.rd k) (fun _ _ => rfl) (fun _ _ => rfl) fun _ _ => rfl)
    (fun _ _ => rfl) (fun d v => Dev.rd_wr_ne d v hlock) fun _ _ _ => rfl

/-- The effective period of a link that has come up follows its lanes. -/
theorem Dev.eff_linkUp {d : Dev} (hrest : d.f.ch.rest = none) (fwd ret : Nat) : (d.linkUp fwd ret).fld Fld.PRZ_REF_EFF_EFF =
    effPeriod (d.fld Fld.PRZ_REFRESH_PERIOD) fwd ret := by
  have hexch := (Dev.upBlind_rest.exchanged d fwd ret).trans hrest
  have heff : (d.exchanged fwd ret).effNow = effPeriod (d.fld Fld.PRZ_REFRESH_PERIOD) fwd ret := by
    have hlanes := Dev.upBlind_lanes.exchanged d fwd ret
    have hper : (d.exchanged fwd ret).fld Fld.PRZ_REFRESH_PERIOD = d.fld Fld.PRZ_REFRESH_PERIOD :=
      congrArg (fun w : Word => bitsOf w.toNat Fld.PRZ_REFRESH_PERIOD.lo Fld.PRZ_REFRESH_PERIOD.w)
        ((Dev.upBlind_rd (k := Reg.PRZ_REFRESH) (by decide) (by decide)).exchanged d fwd ret)
    unfold Dev.effNow
    rw [hper, show (d.exchanged fwd ret).h.link.fwd = fwd from congrArg (fun l => l.2.1) hlanes,
      show (d.exchanged fwd ret).h.link.ret = ret from congrArg (fun l => l.2.2.1) hlanes]
  have hlt : effPeriod (d.fld Fld.PRZ_REFRESH_PERIOD) fwd ret < 2 ^ 10 := by
    have hp : d.fld Fld.PRZ_REFRESH_PERIOD < 2 ^ 10 := bitsOf_lt _ _ _
    unfold effPeriod
    dsimp only
    split_ifs <;> split <;> omega
  refine (congrArg (fun w : Word => bitsOf w.toNat Fld.PRZ_REF_EFF_EFF.lo Fld.PRZ_REF_EFF_EFF.w)
    ((Dev.upBlind_rd (k := Reg.PRZ_REF_EFF) (by decide) (by decide)).linkUp d fwd ret hexch)).trans ?_
  refine (Dev.fld_setFld_same _ Fld.PRZ_REF_EFF_EFF _ (by decide)).trans ?_
  rw [heff]
  exact Nat.mod_eq_of_lt hlt

/-! ## What a command does to a link that is up -/

/-- A link that trains with these lanes excluded, its retrain counted, and the same Carousel. -/
def Dev.trainsAfter (e d : Dev) (fwdBad retBad : Nat) : Prop :=
  e.h.link.up = false ∧ e.h.link.training = true ∧ e.h.link.fwdBad = fwdBad ∧ e.h.link.retBad = retBad ∧
    e.fld Fld.PRZ_RETRAIN_CNT_COUNT = min (d.fld Fld.PRZ_RETRAIN_CNT_COUNT + 1) (2 ^ 32 - 1) ∧ e.f.car = d.f.car

theorem Dev.trainsAfter_of_eq {e e' d : Dev} {f r : Nat} (h : e = e') (h' : e'.trainsAfter d f r) : e.trainsAfter d f r := h ▸ h'

theorem Dev.trainsAfter_enterTraining {e d : Dev} (hup : e.h.link.up = true) (hregs : e.fld Fld.PRZ_RETRAIN_CNT_COUNT = d.fld Fld.PRZ_RETRAIN_CNT_COUNT)
    (hcar : e.f.car = d.f.car) : e.enterTraining.trainsAfter d e.h.link.fwdBad e.h.link.retBad := by
  obtain ⟨htrain, hlanes, hcnt, hc⟩ := Dev.enterTraining_spec hup
  simp only [Dev.lanes, Prod.mk.injEq] at hlanes
  obtain ⟨hdown, -, -, hfwd, hret⟩ := hlanes
  exact ⟨hdown, htrain, hfwd, hret, hregs ▸ hcnt, hc.trans hcar⟩

section
variable {d : Dev} {x : Die} {t : Nat} (hup : d.h.link.up = true)
include hup

theorem doLaneFail_f_trains {lanes : Nat} (hhit : lanes &&& d.h.link.fwd ≠ 0) :
    (doLaneFail .f lanes t d).trainsAfter d (d.h.link.fwdBad ||| (lanes &&& d.h.link.fwd)) d.h.link.retBad := by
  have hon : ¬ ((!(d.h.link.up || d.h.link.training) || (lanes &&& d.h.link.fwd) == 0) = true) := by
    rw [hup]
    simpa using hhit
  exact Dev.trainsAfter_of_eq (if_neg hon) (Dev.trainsAfter_enterTraining (by exact hup) rfl rfl)

theorem doLaneFail_h_trains {lanes : Nat} (hhit : lanes &&& d.h.link.ret ≠ 0) :
    (doLaneFail .h lanes t d).trainsAfter d d.h.link.fwdBad (d.h.link.retBad ||| (lanes &&& d.h.link.ret)) := by
  have hon : ¬ ((!(d.h.link.up || d.h.link.training) || (lanes &&& d.h.link.ret) == 0) = true) := by
    rw [hup]
    simpa using hhit
  exact Dev.trainsAfter_of_eq (if_neg hon) (Dev.trainsAfter_enterTraining (by exact hup) rfl rfl)

theorem doRetrain_trains {c : Cell80} (hc : goodLink c 0x03 = true) :
    (doRetrain x (some c) t d).trainsAfter d (d.h.link.fwdBad ||| (15 ^^^ c.bits 52 4)) (d.h.link.retBad ||| (3 ^^^ c.bits 50 2)) := by
  have hlink := Dev.linkCell_of_good (d := d.at t) (x := x) hup hc (.inl (by decide))
  have hon : ¬ ((!(d.at t).h.link.up) = true) := by
    rw [Dev.at_h, hup]
    decide
  refine Dev.trainsAfter_of_eq (if_neg hon) ?_
  dsimp only
  rw [hlink]
  refine Dev.trainsAfter_of_eq (if_pos rfl) ?_
  cases x
  · exact Dev.trainsAfter_enterTraining (by exact hup) rfl rfl
  · exact Dev.trainsAfter_enterTraining (by exact hup) rfl rfl

theorem doRetrain_pattern_trains : (doRetrain x none t d).trainsAfter d d.h.link.fwdBad d.h.link.retBad := by
  have hon : ¬ ((!(d.at t).h.link.up) = true) := by
    rw [Dev.at_h, hup]
    decide
  exact Dev.trainsAfter_of_eq (if_neg hon) (Dev.trainsAfter_enterTraining (by exact hup) rfl rfl)

theorem doPrzRetrainCmd_trains (hstop : d.h.link.stopped = false) (hopen : d.hostOpen false = true) :
    (doPrzRetrainCmd false t d).trainsAfter d 0 0 := by
  have hon : ¬ (((d.at t).h.link.stopped || !((d.at t).h.link.up || (d.at t).h.link.training)) = true) := by
    rw [Dev.at_h, hup, hstop]
    simp
  refine Dev.trainsAfter_of_eq (Dev.hostDo_of_open (fn := false) (d.at t) _ _ hopen) (Dev.trainsAfter_of_eq (if_neg hon) ?_)
  exact Dev.trainsAfter_enterTraining (by exact hup) rfl rfl

end

/-- A command after which the link trains, on the state. -/
theorem State.trains_of {s : State} {i : Instr} {g : Dev → Dev} {f r : Nat} (hexec : exec i s = s.onDev g) (h : (g s.dev).trainsAfter s.dev f r) :
    ∃ u : State, exec i s = .next u ∧ u.dev.h.link.up = false ∧ u.dev.h.link.training = true ∧
      u.dev.h.link.fwdBad = f ∧ u.dev.h.link.retBad = r ∧
      u.dev.fld Fld.PRZ_RETRAIN_CNT_COUNT = min (s.dev.fld Fld.PRZ_RETRAIN_CNT_COUNT + 1) (2 ^ 32 - 1) ∧
      u.dev.f.car = s.dev.f.car ∧ u.nv = s.nv ∧ u.pending = s.pending := by
  obtain ⟨hup, htrain, hf, hr, hcnt, hcar⟩ := h
  exact ⟨{ s with dev := g s.dev }, hexec.trans (s.onDev_of rfl), hup, htrain, hf, hr, hcnt, hcar, rfl, rfl⟩

/-! ## Training ends -/

/-- The parts of the link, the boot and the Carousel that a link that comes up settles. -/
theorem Dev.linkUp_spec {d : Dev} (hrest : d.f.ch.rest = none) (fwd ret : Nat) :
    (d.linkUp fwd ret).lanes = (true, fwd, ret, d.h.link.fwdBad, d.h.link.retBad) ∧ (d.linkUp fwd ret).h.link.training = false ∧
      (d.linkUp fwd ret).expects = (0, 0) ∧ (d.linkUp fwd ret).f.car = d.f.car ∧ (d.linkUp fwd ret).h.boot = d.h.boot := by
  refine ⟨?_, ?_, ?_, ?_, ?_⟩
  · exact Dev.upBlind_lanes.linkUp_linked (fun d v => by simp [Dev.lanes]) hrest fwd ret
  · exact Dev.upBlind_training.linkUp_linked (fun d v => by simp) hrest fwd ret
  · exact Dev.upBlind_expects.linkUp_linked (fun d v => by simp [Dev.expects]) hrest fwd ret
  · have hcar : Dev.UpBlind (fun d => d.f.car) :=
      Dev.upBlind_of_core (fun _ => rfl) (fun _ _ _ _ _ => rfl) (Dev.setWd_kept (π := fun d => d.f.car) (fun _ _ => rfl) (fun _ _ => rfl) fun _ _ => rfl)
        (fun _ _ => rfl) (fun d v => by simp) (fun _ _ _ => rfl) fun _ _ _ => rfl
    exact hcar.linkUp_linked (fun d v => by simp) hrest fwd ret
  · have hboot : Dev.UpBlind (fun d => d.h.boot) :=
      Dev.upBlind_of_core (fun _ => rfl) (fun _ _ _ _ _ => rfl) (Dev.setWd_kept (π := fun d => d.h.boot) (fun _ _ => rfl) (fun _ _ => rfl) fun _ _ => rfl)
        (fun _ _ => rfl) (fun d v => by simp) (fun _ _ _ => rfl) fun _ _ _ => rfl
    exact hboot.linkUp_linked (fun d v => by simp) hrest fwd ret

/-- With no boot that waits nothing goes on. -/
theorem State.bootGoOn_of_none {s : State} (h : s.dev.h.boot.env = none) : s.bootGoOn = s := by
  unfold State.bootGoOn
  rw [h]
  split
  case h_1 heq => cases heq
  case h_2 => rfl

theorem Dev.at_at (d : Dev) (t : Nat) : (d.at t).at t = d.at t :=
  congrArg (fun n => { d with now := n }) (by exact Nat.max_eq_left (Nat.le_max_right ..))

theorem execTrainingComplete_up {s : State} {fwd ret t f r : Nat} (hf : f = fwd % 16 &&& (15 ^^^ s.dev.h.link.fwdBad))
    (hr : r = ret % 4 &&& (3 ^^^ s.dev.h.link.retBad)) (htrain : s.dev.h.link.training = true) (h2 : 2 ≤ lanesIn f) (h1 : 1 ≤ lanesIn r)
    (hrel : s.dev.f.released = true) (hres : s.dev.h.fReset = false) (himg : s.dev.f.image.isSome = true) (henv : s.dev.h.boot.env = none)
    (hrest : s.dev.f.ch.rest = none) : exec (.trainingComplete fwd ret t) s = .next { s with dev := (s.dev.at t).linkUp f r } := by
  have hdev : doTrainingComplete fwd ret t (s.dev.at t) = (s.dev.at t).linkUp f r := by
    subst hf hr
    unfold doTrainingComplete
    rw [Dev.at_at]
    exact (if_pos htrain).trans (if_pos ⟨h2, h1⟩)
  have hgo : ¬ ((!(s.dev.at t).f.released || (((s.dev.at t).h.fReset || (s.dev.at t).f.image.isNone) && (s.dev.at t).h.dev != .boot)) = true) := by
    rw [Dev.at_f, Dev.at_h, hrel, hres, Option.isNone_eq_false_iff.mpr himg]
    simp
  refine (if_neg hgo).trans ?_
  rw [hdev, State.bootGoOn_of_none]
  exact (congrArg Boot.env (Dev.linkUp_spec (d := s.dev.at t) hrest f r).2.2.2.2).trans henv

/-- The retry of a link that is down. -/
theorem doLinkTrainRetry_of_due {d : Dev} {t : Nat} (hup : d.h.link.up = false) (htrain : d.h.link.training = false) (hstop : d.h.link.stopped = false)
    (hdev : d.h.dev ≠ .off) (hdue : d.h.link.retryAt ≤ max d.now t) : doLinkTrainRetry t d = { d.at t with h.link := { d.h.link with
      training := true
      fwdBad := 0
      retBad := 0
      retryAt := d.h.link.retryAt + ((max d.now t - d.h.link.retryAt) / msCycles + 1) * msCycles } } := by
  have hgo : ¬ ((!(d.at t).linkIsDown || (d.at t).h.dev == .off || decide ((d.at t).now < (d.at t).h.link.retryAt)) = true) := by
    have hdown : (d.at t).linkIsDown = true := by
      unfold Dev.linkIsDown
      rw [Dev.at_h, hup, htrain, hstop]
      rfl
    have hwait : ¬ (d.at t).now < (d.at t).h.link.retryAt := Nat.not_lt.mpr hdue
    rw [hdown, decide_eq_false hwait]
    simpa using hdev
  exact if_neg hgo

/-- Settles O11: each start enters training on the lanes it leaves, and training that locks enough of them brings the link up with nothing
outstanding; its refresh, events and copies reach neither the lanes nor the Carousel. -/
theorem linkTrains : Obligations.LinkTrains := by
  unfold Obligations.LinkTrains
  intro s x c lanes fwd ret t
  refine ⟨fun hup => ⟨fun hhit => ?_, fun hc => ?_, ?_, fun hstop hopen => ?_⟩, fun hopen => ?_, ?_, ?_⟩
  · cases x with
    | h =>
      obtain ⟨u, hu, hdown, htrain, hf, hr, hrest⟩ := State.trains_of (i := .laneFail .h lanes t) rfl (doLaneFail_h_trains hup hhit)
      exact ⟨u, hu, hdown, htrain, ⟨hr, hf⟩, hrest⟩
    | f =>
      obtain ⟨u, hu, hdown, htrain, hf, hr, hrest⟩ := State.trains_of (i := .laneFail .f lanes t) rfl (doLaneFail_f_trains hup hhit)
      exact ⟨u, hu, hdown, htrain, ⟨hf, hr⟩, hrest⟩
  · exact State.trains_of rfl (doRetrain_trains hup hc)
  · exact State.trains_of rfl (doRetrain_pattern_trains hup)
  · exact State.trains_of rfl (doPrzRetrainCmd_trains hup hstop hopen)
  · exact s.onDev_of (Dev.hostDo_of_open (fn := true) (s.dev.at t) _ _ hopen)
  · intro htrain h2 h1 hrel hres himg henv hrest
    obtain ⟨hlanes, htrained, hseq, hcar, -⟩ := Dev.linkUp_spec (d := s.dev.at t) hrest (fwd % 16 &&& (15 ^^^ s.dev.h.link.fwdBad))
      (ret % 4 &&& (3 ^^^ s.dev.h.link.retBad))
    simp only [Dev.lanes, Dev.expects, Prod.mk.injEq] at hlanes hseq
    obtain ⟨hup, hfwd, hret, -, -⟩ := hlanes
    refine ⟨_, execTrainingComplete_up rfl rfl htrain h2 h1 hrel hres himg henv hrest, hup, htrained, hfwd, hret, ?_, hseq.1, hseq.2, hcar, rfl, rfl⟩
    rw [hfwd, hret]
    exact Dev.eff_linkUp (d := s.dev.at t) hrest _ _
  · intro hup htrain hstop hdev hdue
    exact s.onDev_of (doLinkTrainRetry_of_due hup htrain hstop hdev hdue)

end Sys2Proof.Machine
end

section
/-!
PROOF. Commands that queue a record (R302 to R306, R319, R321, R322, R338 to R343): a body command, an installation, an owner command.
-/

namespace Sys2Proof.Machine

section
variable {d : Dev} {tag cmd t : Nat} {o : Op} (h : d.mgmtOp tag cmd = some o)
include h

theorem Dev.op_of_mgmtOp : d.op tag = some o := by
  unfold Dev.mgmtOp Dev.openedOp at h
  cases hop : d.op tag with
  | none => simp [hop] at h
  | some x =>
    simp only [hop] at h
    split at h
    case h_1 y hy =>
      split at hy
      · split at h
        · rw [Option.some.inj hy, Option.some.inj h]
        · cases h
      · cases hy
    case h_2 => cases h

/-- The operation of a management command that executes. -/
theorem Dev.taken_of_mgmtOp : (d.at t).taken tag = (d.at t).setOp tag (some { o with stage := .closing }) := by
  unfold Dev.taken
  rw [show (d.at t).op tag = some o from Dev.op_of_mgmtOp h]

end

/-- The body of an operation that has been dropped. -/
theorem Dev.body_dropBody (d : Dev) (tag : Nat) : (d.dropBody tag).body tag = none := Tab.get_del_same _ _ _

theorem Dev.calmBlind_body (tag : Nat) : Dev.CalmBlind (fun d => d.body tag) where
  emit _ _ := rfl
  wrHalt d k v _ := by simp [Dev.body]
  pci d fn p := by cases fn <;> rfl
  irqRest _ _ := rfl
  op _ _ _ := rfl
  ring _ _ _ := rfl
  state _ _ _ _ _ _ := rfl
  restEntry _ _ := rfl
  brk _ _ := rfl

/-! ## Body commands -/

theorem State.bodyCause_le (s : State) (cal : Bool) (e : Desc) (b : List Quad) : s.bodyCause cal e b ≤ 8 := by
  unfold State.bodyCause; dsimp only
  split_ifs <;> decide

/-- The device of a body command that executes: the body dropped, the permission of a CAL_WRITE cleared. -/
def Dev.bodyTaken (d : Dev) (cal : Bool) (tag : Nat) : Dev :=
  if cal then (d.dropBody tag).setFld Fld.CAL_CTRL_OVERWRITE_EN 0 else d.dropBody tag

/-- The device after a body command that a cause refuses. -/
def Dev.bodyRefused (d : Dev) (cal : Bool) (tag k : Nat) : Dev := ((d.bodyTaken cal tag).refuseCmd tag k).nvsLast (if cal then 2 else 1) k

theorem Dev.bodyRefused_spec (d : Dev) (cal : Bool) (tag : Nat) {k : Nat} (hk : k ≤ 8) :
    let e := d.bodyRefused cal tag k
    e.fld Fld.NVS_LAST_CAUSE = k ∧ e.fld Fld.NVS_LAST_TYPE = (if cal then 2 else 1) ∧
      (cal = true → e.fld Fld.CAL_CTRL_OVERWRITE_EN = 0) ∧ e.body tag = none ∧
      e.h.jobs = d.h.jobs ∧ e.h.job = d.h.job ∧ e.f.ch = d.f.ch := by
  intro e
  have hlast {α : Type} {π : Dev → α} (hwr : ∀ (d : Dev) (v : Word), π (d.wr Reg.NVS_LAST v) = π d) :
      π e = π ((d.bodyTaken cal tag).refuseCmd tag k) := (hwr _ _).trans (hwr _ _)
  have hsame {α : Type} {π : Dev → α} (h : Dev.CalmBlind π) (hwr : ∀ (d : Dev) (k : Nat) (v : Word), π (d.wr k v) = π d)
      (hbody : π (d.dropBody tag) = π d) : π e = π d := by
    refine (hlast fun d v => hwr d _ v).trans ((h.finish _ tag _ _).trans (Eq.trans ?_ hbody))
    exact Dev.ite_kept (hwr _ _ _) rfl
  refine ⟨?_, ?_, fun hcal => ?_, ?_, ?_, ?_, ?_⟩
  · refine (Dev.fld_setFld_same _ Fld.NVS_LAST_CAUSE _ (by decide)).trans (Nat.mod_eq_of_lt ?_)
    exact Nat.lt_of_le_of_lt hk (by decide)
  · refine (Dev.fld_setFld_ne _ Fld.NVS_LAST_CAUSE Fld.NVS_LAST_TYPE _ (by decide) (by decide)).trans ?_
    refine (Dev.fld_setFld_same _ Fld.NVS_LAST_TYPE _ (by decide)).trans ?_
    cases cal <;> rfl
  · refine (hlast (π := fun d => d.fld Fld.CAL_CTRL_OVERWRITE_EN) fun d v => congrArg (fun w : Word => bitsOf w.toNat 0 1)
      (d.rd_wr_ne v (by decide))).trans ?_
    refine ((Dev.stateBlind_fld (F := Fld.CAL_CTRL_OVERWRITE_EN) (by decide)).finish _ tag _ _).trans ?_
    rw [Dev.bodyTaken, if_pos hcal]
    exact Dev.fld_setFld_same _ Fld.CAL_CTRL_OVERWRITE_EN 0 (by decide)
  · refine (hlast (π := fun d => d.body tag) fun d v => by simp [Dev.body]).trans (((Dev.calmBlind_body tag).finish _ tag _ _).trans ?_)
    refine Eq.trans ?_ (d.body_dropBody tag)
    exact Dev.ite_kept (π := fun d => d.body tag) (by simp [Dev.body, Dev.setFld]) rfl
  · exact hsame (Dev.Blind.of_core (π := fun d => d.h.jobs) fun _ => rfl).toCalmBlind (fun d k v => by simp) rfl
  · exact hsame (Dev.Blind.of_core (π := fun d => d.h.job) fun _ => rfl).toCalmBlind (fun d k v => by simp) rfl
  · exact hsame Dev.blind_ch.toCalmBlind (fun d k v => by simp) rfl

/-- A body command, on the device of its operation taken. -/
theorem State.bodyCommand_of_refused {s : State} {cal : Bool} {tag : Nat} {o : Op} {b : List Quad} (h : s.bodyCause cal o.desc b ≠ 0) :
    s.bodyCommand cal tag o b = { s with dev := s.dev.bodyRefused cal tag (s.bodyCause cal o.desc b) } := if_pos (bne_iff_ne.mpr h)

theorem exec_bodyCommand {s : State} {tag t : Nat} {o : Op} {b : List Quad} (cal : Bool) (hbody : s.dev.body tag = some b)
    (h : s.dev.mgmtOp tag (if cal then cmdCAL_WRITE else cmdSETTINGS_COMMIT) = some o) :
    exec (if cal then .calWrite tag t else .settingsCommit tag t) s =
      .next (({ s with dev := (s.dev.at t).taken tag } : State).bodyCommand cal tag o b) := by
  cases cal
  · refine (?_ : execSettingsCommit tag t s = _)
    unfold execSettingsCommit; dsimp only
    rw [show (s.mapDev (·.at t)).dev.mgmtOp tag cmdSETTINGS_COMMIT = some o from h, show (s.mapDev (·.at t)).dev.body tag = some b from hbody]
    rfl
  · refine (?_ : execCalWrite tag t s = _)
    unfold execCalWrite; dsimp only
    rw [show (s.mapDev (·.at t)).dev.mgmtOp tag cmdCAL_WRITE = some o from h, show (s.mapDev (·.at t)).dev.body tag = some b from hbody]
    rfl

/-- Settles O43: the command is taken and its causes are judged on a device that differs in the operation and the body alone. -/
theorem recordWritesQueueAndStart : Obligations.RecordWritesQueueAndStart := by
  unfold Obligations.RecordWritesQueueAndStart
  intro s tag t o b cal hbody hop
  have hexec := exec_bodyCommand (t := t) cal hbody hop
  have htaken := Dev.taken_of_mgmtOp hop (t := t)
  have hcause : ({ s with dev := (s.dev.at t).taken tag } : State).bodyCause cal o.desc b = s.bodyCause cal o.desc b := by
    rw [htaken]
    rfl
  refine ⟨fun hok => ?_, fun hbad => ?_⟩
  · rw [hexec]
    refine congrArg Host.Outcome.next ((if_neg (by rw [hcause, hok]; decide)).trans ?_)
    rw [htaken]
    cases cal <;> rfl
  · have hspec := ((s.dev.at t).taken tag).bodyRefused_spec cal tag (s.bodyCause_le cal o.desc b)
    obtain ⟨hlast, htyp, hcal, hdrop, hjobs, hjob, hch⟩ := hspec
    refine ⟨_, hexec.trans (congrArg Host.Outcome.next (State.bodyCommand_of_refused (by rw [hcause]; exact hbad))), ?_⟩
    rw [hcause]
    refine ⟨hlast, htyp, hcal, hdrop, hjobs.trans ?_, hjob.trans ?_, hch.trans ?_, rfl, rfl⟩
    · rw [htaken]; rfl
    · rw [htaken]; rfl
    · rw [htaken]; rfl

/-! ## Installations -/

/-- The device of a report of a refusal, raised or not, and the event's interrupt. -/
def Dev.refusalNoted (d : Dev) (i : Nat) (p : Prop) [Decidable p] : Dev := (if p then d.raiseBoth .h i else d).v3

theorem Dev.Blind.refusalNoted {α : Type} {π : Dev → α} (h : Dev.Blind π) (hsrc : ∀ (d : Dev) (i : Nat) (s : Src), π (d.setSrc .h i s) = π d)
    {i : Nat} (hi : i < 96) (d : Dev) (p : Prop) [Decidable p] : π (d.refusalNoted i p) = π d :=
  (h.v3 _).trans (Dev.ite_kept (h.raiseBothH (hsrc · i) hi d) rfl)

/-- The device after an FW_INSTALL that a cause refuses. -/
def Dev.installRefused (d : Dev) (tag k : Nat) : Dev := (d.stageClose.refuseCmd tag k).refusalNoted Sn.FW_STAGE_BAD (4 ≤ k ∧ k ≤ 8)

theorem State.install_of_refused {s : State} {tag : Nat} {e : Desc} {c : SlotCheck} (h : s.installCause e c ≠ 0) :
    s.install tag e c = { s with dev := s.dev.installRefused tag (s.installCause e c) } := if_pos (bne_iff_ne.mpr h)

theorem Dev.installRefused_spec (d : Dev) (tag k : Nat) : (d.installRefused tag k).h.jobs = d.h.jobs ∧
    (d.installRefused tag k).flag Fld.FW_STATUS_STAGE_OPEN = false ∧ (d.installRefused tag k).h.stg = ⟨none, []⟩ := by
  have hkept {α : Type} {π : Dev → α} (h : Dev.Blind π) (hsrc : ∀ (d : Dev) (i : Nat) (s : Src), π (d.setSrc .h i s) = π d) :
      π (d.installRefused tag k) = π d.stageClose := (h.refusalNoted hsrc (by decide) _ _).trans (h.finish _ tag _ _)
  refine ⟨?_, ?_, ?_⟩
  · exact (hkept (Dev.Blind.of_core (π := fun d => d.h.jobs) fun _ => rfl) fun _ _ _ => rfl).trans (by simp [Dev.stageClose, Dev.setFld])
  · have hclosed : d.stageClose.fld Fld.FW_STATUS_STAGE_OPEN = 0 := Dev.fld_setFld_same d Fld.FW_STATUS_STAGE_OPEN 0 (by decide)
    have hreg := hkept (Dev.blind_rd (k := Reg.FW_STATUS) (by decide)) fun _ _ _ => rfl
    have hfld : (d.installRefused tag k).fld Fld.FW_STATUS_STAGE_OPEN = 0 :=
      (congrArg (fun w : Word => bitsOf w.toNat Fld.FW_STATUS_STAGE_OPEN.lo Fld.FW_STATUS_STAGE_OPEN.w) hreg).trans hclosed
    rw [Dev.flag, hfld]
    rfl
  · exact hkept (Dev.Blind.of_core (π := fun d => d.h.stg) fun _ => rfl) fun _ _ _ => rfl

theorem execFwInstall_eq {s : State} {tag t : Nat} {o : Op} {chk : SlotCheck} (h : s.dev.mgmtOp tag cmdFW_INSTALL = some o) :
    exec (.fwInstall tag chk t) s = .next (({ s with dev := (s.dev.at t).taken tag } : State).install tag o.desc chk) := by
  refine (?_ : execFwInstall tag chk t s = _)
  unfold execFwInstall; dsimp only
  rw [show (s.mapDev (·.at t)).dev.mgmtOp tag cmdFW_INSTALL = some o from h]
  rfl

/-- The FW_INSTALL of the taken operation has the command's causes, and queues the command's header. -/
theorem exec_fwInstall_cases {s : State} {tag t : Nat} {o : Op} {chk : SlotCheck} (h : s.dev.mgmtOp tag cmdFW_INSTALL = some o) :
    (s.installCause o.desc chk = 0 → exec (.fwInstall tag chk t) s = .next { s with dev :=
      (((s.dev.at t).taken tag).queueJob
      ⟨.install o.desc.slot o.desc.restart, some tag,
        some (s.headerRec o.desc.slot s.dev.stagedManifest (s.actGen s.dev.runSlot + 1)), [], [], 0, false⟩) }) ∧
    (s.installCause o.desc chk ≠ 0 → exec (.fwInstall tag chk t) s = .next { s with dev :=
      (((s.dev.at t).taken tag).installRefused tag (s.installCause o.desc chk)) }) := by
  have hcause : ({ s with dev := (s.dev.at t).taken tag } : State).installCause o.desc chk = s.installCause o.desc chk := by
    rw [Dev.taken_of_mgmtOp h]
    rfl
  rw [execFwInstall_eq h]
  refine ⟨fun hok => ?_, fun hbad => ?_⟩
  · refine congrArg Host.Outcome.next ((if_neg (by rw [hcause, hok]; decide)).trans ?_)
    rw [Dev.taken_of_mgmtOp h]
    rfl
  · rw [State.install_of_refused (by rw [hcause]; exact hbad), hcause]

theorem exec_fwFallback_cases {s : State} {tag t : Nat} {o : Op} {chk : SlotCheck} (h : s.dev.mgmtOp tag cmdFW_FALLBACK = some o) :
    (∀ x, s.fallbackCause chk = 0 → s.header (!s.dev.runSlot) = some x → exec (.fwFallback tag chk t) s = .next { s with dev :=
      (((s.dev.at t).taken tag).queueJob
      ⟨.fallback, some tag, some (s.headerRec (!s.dev.runSlot) x.body (s.actGen s.dev.runSlot + 1)), [], [], 0, false⟩) }) ∧
    (s.fallbackCause chk ≠ 0 → exec (.fwFallback tag chk t) s = .next { s with dev :=
      ((((s.dev.at t).taken tag).refuseCmd tag (s.fallbackCause chk)).v3) }) := by
  have htaken := Dev.taken_of_mgmtOp h (t := t)
  have hcause : ((s.mapDev (·.at t)).mapDev (·.taken tag)).fallbackCause chk = s.fallbackCause chk := by
    unfold State.mapDev; dsimp only
    rw [htaken]
    rfl
  have hheader : ((s.mapDev (·.at t)).mapDev (·.taken tag)).header (!((s.mapDev (·.at t)).mapDev (·.taken tag)).dev.runSlot) =
      s.header (!s.dev.runSlot) := by
    unfold State.mapDev; dsimp only
    rw [htaken]
    rfl
  have hexec : exec (.fwFallback tag chk t) s = execFwFallback tag chk t s := rfl
  rw [hexec]
  unfold execFwFallback; dsimp only
  rw [show (s.mapDev (·.at t)).dev.mgmtOp tag cmdFW_FALLBACK = some o from h]
  dsimp only
  rw [hheader, hcause]
  refine ⟨fun x hok hx => ?_, fun hbad => ?_⟩
  · rw [hx]
    refine (if_neg (by rw [hok]; decide)).trans ?_
    unfold State.mapDev; dsimp only
    rw [htaken]
    rfl
  · split
    · exact if_pos (bne_iff_ne.mpr hbad)
    · rfl

/-- A host's write that the endpoint takes and the boot allows, outside REST. -/
theorem Dev.hostDo_of_allowed {d : Dev} {fn : Func} {off : Nat} (g : Dev → Dev) (hrest : d.f.ch.rest = none) (hbar : d.barOpen fn = true)
    (hboot : d.bootAllows off = true) : d.hostDo fn off g = g d := by
  unfold Dev.hostDo
  rw [Dev.hostAccess_of_awake _ hrest]
  exact if_pos (by rw [hbar, hboot]; rfl)

theorem State.hostDo_of_allowed {s : State} {fn : Func} {off : Nat} (g : State → State) (hrest : s.dev.f.ch.rest = none)
    (hbar : s.dev.barOpen fn = true) (hboot : s.dev.bootAllows off = true) : s.hostDo fn off g = g s := by
  have hs : s.mapDev (·.hostAccess) = s := by rw [State.mapDev, Dev.hostAccess_of_awake _ hrest]
  unfold State.hostDo
  rw [hs]
  exact if_pos (by rw [hbar, hboot]; rfl)

/-- The boot in RECOVERY lets the staging registers and the window be written. -/
theorem Dev.bootAllows_of_staging {d : Dev} {off : Nat} (h : d.stagingOpen = true)
    (hoff : (0x1800 ≤ off ∧ off < 0x1900) ∨ (0x8000 ≤ off ∧ off < 0xC000)) : d.bootAllows off = true := by
  unfold Dev.bootAllows
  cases hdev : d.h.dev with
  | boot =>
    have hrec : d.flag Fld.FW_STATUS_RECOVERY = true := by simpa [Dev.stagingOpen, hdev] using h
    rw [hrec]
    simpa using hoff
  | _ => rfl

theorem exec_romInstall {s : State} {data : Word} {chk : SlotCheck} {t : Nat} (hrec : s.dev.flag Fld.FW_STATUS_RECOVERY = true)
    (hboot : s.dev.h.dev = .boot) (hbar : s.dev.barOpen false = true) (hrest : s.dev.f.ch.rest = none) (hflash : s.dev.flashBad = false)
    (hcause : s.stagedCause (s.dev.flag Fld.FW_STATUS_STAGE_SLOT) (s.dev.fld Fld.FW_STAGE_CHUNK_INDEX) chk = 0) :
    exec (.romInstall false data chk t) s = .next { s with dev :=
      ((s.dev.at t).queueJob
      ⟨.romInstall (s.dev.flag Fld.FW_STATUS_STAGE_SLOT), none,
        some (s.headerRec (s.dev.flag Fld.FW_STATUS_STAGE_SLOT) s.dev.stagedManifest
          (s.actGen (!s.dev.flag Fld.FW_STATUS_STAGE_SLOT) + 1)), [], [], 0, false⟩) } := by
  have hstaging : (s.dev.at t).stagingOpen = true := by
    unfold Dev.stagingOpen
    rw [Dev.at_h, hboot]
    exact hrec
  refine (congrArg Host.Outcome.next (State.hostDo_of_allowed (s := s.mapDev (·.at t)) _ hrest hbar
    (Dev.bootAllows_of_staging hstaging (.inl ⟨by decide, by decide⟩)))).trans ?_
  have hmay : ¬ ((false || !(s.dev.at t).flag Fld.FW_STATUS_RECOVERY || (s.dev.at t).h.dev != .boot) = true) := by
    rw [show (s.dev.at t).flag Fld.FW_STATUS_RECOVERY = true from hrec, Dev.at_h, hboot]
    decide
  refine congrArg Host.Outcome.next ((if_neg hmay).trans (if_neg ?_))
  have hstaged : (s.mapDev (·.at t)).stagedCause ((s.dev.at t).flag Fld.FW_STATUS_STAGE_SLOT) ((s.dev.at t).fld Fld.FW_STAGE_CHUNK_INDEX) chk = 0 :=
    hcause
  unfold State.mapDev at hstaged ⊢; dsimp only at hstaged ⊢
  rw [hstaged, show (s.dev.at t).flashBad = false from hflash]
  decide

/-- Settles O46: the causes and the header are those of the device before the command, which takes its operation alone. -/
theorem installationsQueueAHeader : Obligations.InstallationsQueueAHeader := by
  unfold Obligations.InstallationsQueueAHeader
  intro s tag t o chk x data
  refine ⟨fun hop => ?_, fun hop => ?_, ?_⟩
  · obtain ⟨hok, hbad⟩ := exec_fwInstall_cases (t := t) (chk := chk) hop
    refine ⟨hok, fun h => ?_⟩
    obtain ⟨hjobs, hopen, hstg⟩ := ((s.dev.at t).taken tag).installRefused_spec tag (s.installCause o.desc chk)
    refine ⟨_, hbad h, ?_, hopen, hstg, rfl, rfl⟩
    rw [hjobs, Dev.taken_of_mgmtOp hop]
    rfl
  · obtain ⟨hok, hbad⟩ := exec_fwFallback_cases (t := t) (chk := chk) hop
    refine ⟨hok x, fun h => ?_⟩
    have hkept {α : Type} {π : Dev → α} (h : Dev.Blind π) (e : Dev) (k : Nat) : π (e.refuseCmd tag k).v3 = π e :=
      (h.v3 _).trans (h.finish _ tag _ _)
    refine ⟨_, hbad h, (hkept (Dev.Blind.of_core (π := fun d => d.h.jobs) fun _ => rfl) _ _).trans ?_,
      (hkept (Dev.Blind.of_core (π := fun d => d.h.stg) fun _ => rfl) _ _).trans ?_, rfl, rfl⟩
    · rw [Dev.taken_of_mgmtOp hop]
      rfl
    · rw [Dev.taken_of_mgmtOp hop]
      rfl
  · exact exec_romInstall

end Sys2Proof.Machine
end

section
/-!
PROOF. Owner commands (R338 to R343).
-/

namespace Sys2Proof.Machine

/-! ## The nonce and the causes -/

theorem Dev.nonce_newNonce (d : Dev) : d.newNonce.nonce = Config.freeValue d.freeCtr := by
  have hq : (Config.freeValue d.freeCtr).extractLsb' 32 32 ++ (Config.freeValue d.freeCtr).extractLsb' 0 32 = Config.freeValue d.freeCtr :=
    (BitVec.extractLsb'_append_extractLsb'_eq_extractLsb' (by decide : 32 = 0 + 32)).trans BitVec.extractLsb'_eq_self
  refine Eq.trans ?_ hq
  unfold Dev.nonce Dev.newNonce Dev.draw; dsimp only
  rw [Dev.rd_wr_same, Dev.rd_wr_ne _ _ (by decide), Dev.rd_wr_same]

/-- A cause is among those listed. -/
theorem firstCause_lt {n : Nat} (hn : 0 < n) : ∀ {l : List (Nat × Bool)}, (∀ p ∈ l, p.1 < n) → firstCause l < n := by
  intro l hl
  unfold firstCause
  split
  case h_1 p hp => exact hl p (List.mem_of_find?_eq_some hp)
  case h_2 => exact hn

theorem State.enrolCause_lt (s : State) (e : Desc) (b : List Quad) (c : OwnerCheck) : s.enrolCause e b c < 16 :=
  firstCause_lt (by decide) (by simp [State.causeTail])

theorem State.rekeyCause_lt (s : State) (e : Desc) (b : List Quad) (c : OwnerCheck) : s.rekeyCause e b c < 16 :=
  firstCause_lt (by decide) (by simp [State.causeTail])

/-! ## A refused command -/

/-- A part that reports leave is reached by a refused owner command at SEC_STATUS alone. -/
theorem Dev.Blind.ownerRefused {α : Type} {π : Dev → α} (h : Dev.Blind π) (hsrc : ∀ (d : Dev) (i : Nat) (s : Src), π (d.setSrc .h i s) = π d)
    (d : Dev) (tag k : Nat) : π (d.ownerRefused tag k) = π (d.setFld Fld.SEC_STATUS_CAUSE k) :=
  Dev.ite_kept ((h.v3 _).trans ((h.raiseBothH (hsrc · _) (by decide) _).trans (h.finish _ tag _ _))) (h.finish _ tag _ _)

/-- What an owner command leaves that queues nothing: the nonce drawn from the device before it, its queue and its keys. -/
def Dev.nonceDrawn (e d : Dev) : Prop := e.nonce = Config.freeValue d.freeCtr ∧ e.h.jobs = d.h.jobs ∧ e.h.sec = d.h.sec

theorem Dev.nonceDrawn_of_blind {e d : Dev} {tag : Nat} (h : ∀ {α : Type} (π : Dev → α), Dev.Blind π →
    (∀ (d : Dev) (i : Nat) (s : Src), π (d.setSrc .h i s) = π d) → (∀ (d : Dev) (v : Word), π (d.wr Reg.SEC_STATUS v) = π d) →
      π e = π (d.dropBody tag).newNonce) : e.nonceDrawn d := by
  have hrd (k : Nat) (hk : reactReg k = false) (hne : k ≠ Reg.SEC_STATUS) : e.rd k = (d.dropBody tag).newNonce.rd k :=
    h (fun d => d.rd k) (Dev.blind_rd hk) (fun _ _ _ => rfl) fun d v => d.rd_wr_ne v hne
  refine ⟨?_, ?_, ?_⟩
  · refine Eq.trans ?_ (d.dropBody tag).nonce_newNonce
    exact congrArg₂ (fun a b : Word => (a ++ b : BitVec 64)) (hrd Reg.SEC_NONCE_HI (by decide) (by decide))
      (hrd Reg.SEC_NONCE_LO (by decide) (by decide))
  · exact (h (fun d => d.h.jobs) (.of_core fun _ => rfl) (fun _ _ _ => rfl) fun d v => by simp).trans (by simp [Dev.newNonce, Dev.draw, Dev.dropBody])
  · exact (h (fun d => d.h.sec) (.of_core fun _ => rfl) (fun _ _ _ => rfl) fun d v => by simp).trans (by simp [Dev.newNonce, Dev.draw, Dev.dropBody])

theorem Dev.ownerRefused_spec (d : Dev) (tag : Nat) {k : Nat} (hk : k < 16) :
    (((d.dropBody tag).newNonce).ownerRefused tag k).fld Fld.SEC_STATUS_CAUSE = k ∧ (((d.dropBody tag).newNonce).ownerRefused tag k).nonceDrawn d := by
  refine ⟨?_, Dev.nonceDrawn_of_blind (tag := tag) fun π h hsrc hwr => (h.ownerRefused hsrc _ tag k).trans (hwr _ _)⟩
  refine (congrArg (fun w : Word => bitsOf w.toNat Fld.SEC_STATUS_CAUSE.lo Fld.SEC_STATUS_CAUSE.w)
    ((Dev.blind_rd (k := Reg.SEC_STATUS) (by decide)).ownerRefused (fun _ _ _ => rfl) _ tag k)).trans ?_
  exact (Dev.fld_setFld_same _ Fld.SEC_STATUS_CAUSE k (by decide)).trans (Nat.mod_eq_of_lt hk)

/-! ## The commands on the operation taken -/

section
variable {s : State} {tag t : Nat} {o : Op} {b : List Quad} {chk : OwnerCheck} (hbody : s.dev.body tag = some b)
include hbody

theorem execOwnerEnrol_eq (h : s.dev.mgmtOp tag cmdOWNER_ENROL = some o) :
    exec (.ownerEnrol tag chk t) s = .next (({ s with dev := (s.dev.at t).taken tag } : State).enrol tag o b chk) := by
  refine (?_ : execOwnerEnrol tag chk t s = _)
  unfold execOwnerEnrol; dsimp only
  rw [show (s.mapDev (·.at t)).dev.mgmtOp tag cmdOWNER_ENROL = some o from h, show (s.mapDev (·.at t)).dev.body tag = some b from hbody]
  rfl

theorem execRekey_eq (h : s.dev.mgmtOp tag cmdREKEY = some o) :
    exec (.rekey tag chk t) s = .next (({ s with dev := (s.dev.at t).taken tag } : State).rekeyCmd tag o b chk) := by
  refine (?_ : execRekey tag chk t s = _)
  unfold execRekey; dsimp only
  rw [show (s.mapDev (·.at t)).dev.mgmtOp tag cmdREKEY = some o from h, show (s.mapDev (·.at t)).dev.body tag = some b from hbody]
  rfl

end

theorem sec_drawn (d : Dev) (tag : Nat) : ((d.dropBody tag).newNonce).h.sec = d.h.sec := by simp [Dev.newNonce, Dev.draw, Dev.dropBody]

theorem indexRec_drawn (d : Dev) (tag : Nat) (k : KeyIndex) : ((d.dropBody tag).newNonce).indexRec k = d.indexRec k := by
  have hrd : ((d.dropBody tag).newNonce).rd Fld.SYS_PROFILE_ACTIVE.off = d.rd Fld.SYS_PROFILE_ACTIVE.off := by
    unfold Dev.newNonce; dsimp only
    rw [Dev.rd_wr_ne _ _ (by decide), Dev.rd_wr_ne _ _ (by decide)]
    rfl
  unfold Dev.indexRec Dev.profile Dev.fld
  rw [hrd]

section
variable {s : State} {tag : Nat} {o : Op} {b : List Quad} {chk : OwnerCheck} (hstate : s.dev.ownerState = true)
include hstate

/-- The states of owner commands hold of the device with the body dropped. -/
theorem not_ownerState_drawn : ¬ ((!((s.dev.dropBody tag).newNonce).ownerState) = true) := by
  have hsame : ((s.dev.dropBody tag).newNonce).ownerState = s.dev.ownerState := by
    simp [Dev.ownerState, Dev.newNonce, Dev.draw, Dev.dropBody]
  rw [hsame, hstate]
  decide

theorem State.enrol_of_refused (h : s.enrolCause o.desc b chk ≠ 0) : s.enrol tag o b chk =
    { s with dev := ((s.dev.dropBody tag).newNonce).ownerRefused tag (s.enrolCause o.desc b chk) } :=
  (if_neg (not_ownerState_drawn hstate)).trans (if_pos (bne_iff_ne.mpr h))

theorem State.enrol_of_accepted {x : KeyIndex} (h : s.enrolCause o.desc b chk = 0) (hx : s.dev.h.sec.index = some x) :
    s.enrol tag o b chk = { s with dev := ((s.dev.dropBody tag).newNonce).queueJob
                                     ⟨.enrol (s.verifiesUnder (!s.dev.runSlot) (zeros b 3 13) chk.other), some tag,
                                       some (s.dev.indexRec { x with owner := if zeros b 3 13 then 0 else chk.hash }), [], [], 0, false⟩ } := by
  refine (if_neg (not_ownerState_drawn hstate)).trans ((if_neg (by rw [h]; decide)).trans ?_)
  rw [show ((s.dev.dropBody tag).newNonce).h.sec.index = some x from (congrArg Sec.index (sec_drawn s.dev tag)).trans hx]
  dsimp only
  rw [indexRec_drawn]

variable (hstand : s.dev.h.dev = .standby → bitOf (wordAt b 0x18) 0 = false)
include hstand

theorem not_rekeyState_drawn : ¬ ((!((s.dev.dropBody tag).newNonce).ownerState ||
    (((s.dev.dropBody tag).newNonce).h.dev = .standby && bitOf (wordAt b 0x18) 0)) = true) := by
  have hdev : ((s.dev.dropBody tag).newNonce).h.dev = s.dev.h.dev := by simp [Dev.newNonce, Dev.draw, Dev.dropBody]
  have hmay := not_ownerState_drawn (tag := tag) hstate
  rw [Bool.not_eq_true] at hmay
  rw [hmay, hdev, Bool.false_or, Bool.and_eq_true, decide_eq_true_eq]
  rintro ⟨hs, hbit⟩
  rw [hstand hs] at hbit
  cases hbit

theorem State.rekeyCmd_of_refused (h : s.rekeyCause o.desc b chk ≠ 0) : s.rekeyCmd tag o b chk =
    { s with dev := ((s.dev.dropBody tag).newNonce).ownerRefused tag (s.rekeyCause o.desc b chk) } :=
  (if_neg (not_rekeyState_drawn hstate hstand)).trans (if_pos (bne_iff_ne.mpr h))

variable {x : KeyIndex} (hcause : s.rekeyCause o.desc b chk = 0) (hx : s.dev.h.sec.index = some x)
include hcause hx

theorem State.rekeyCmd_of_none (hsel : wordAt b 0x18 = 0) : s.rekeyCmd tag o b chk =
    { s with dev := ((s.dev.dropBody tag).newNonce).finish tag stOK 0 } := by
  refine (if_neg (not_rekeyState_drawn hstate hstand)).trans ((if_neg (by rw [hcause]; decide)).trans ?_)
  rw [show ((s.dev.dropBody tag).newNonce).h.sec.index = some x from (congrArg Sec.index (sec_drawn s.dev tag)).trans hx]
  exact if_pos hsel

theorem State.rekeyCmd_of_some (hsel : wordAt b 0x18 ≠ 0) : s.rekeyCmd tag o b chk =
    { s with dev := ((s.dev.dropBody tag).newNonce).queueJob
                      ⟨.rekey (wordAt b 0x18), some tag,
                        some (s.dev.indexRec (if bitOf (wordAt b 0x18) 1
                          then { x with mirGen := wordAt b 0x1C, kcv := chk.kcv % 2 ^ 24 }
                          else { x with trans := true, recGen := x.recGen + 1 })),
                        if wordAt b 0x18 = 3 then [1] else [], [], 0, false⟩ } := by
  refine (if_neg (not_rekeyState_drawn hstate hstand)).trans ((if_neg (by rw [hcause]; decide)).trans ?_)
  rw [show ((s.dev.dropBody tag).newNonce).h.sec.index = some x from (congrArg Sec.index (sec_drawn s.dev tag)).trans hx]
  refine (if_neg hsel).trans ?_
  dsimp only
  rw [indexRec_drawn]

end

/-- Settles O49: the command's causes are judged before its nonce is replaced, and what it queues or refuses leaves the new nonce. -/
theorem ownerCommands : Obligations.OwnerCommands := by
  unfold Obligations.OwnerCommands
  intro s tag t o b chk hstate hbody
  refine ⟨fun hop => ?_, fun hop hstand => ?_⟩
  · have hexec := execOwnerEnrol_eq (t := t) (chk := chk) hbody hop
    rw [Dev.taken_of_mgmtOp hop] at hexec ⊢
    refine ⟨fun x hcause hx => ?_, fun hcause => ?_⟩
    · exact hexec.trans (congrArg Host.Outcome.next (State.enrol_of_accepted (by exact hstate) hcause hx))
    · obtain ⟨hk, hnonce, hjobs, hsec⟩ := ((s.dev.at t).setOp tag (some { o with stage := .closing })).ownerRefused_spec tag
        (s.enrolCause_lt o.desc b chk)
      exact ⟨_, hexec.trans (congrArg Host.Outcome.next (State.enrol_of_refused (by exact hstate) (by exact hcause))),
        hk, hnonce, hjobs, hsec, rfl, rfl⟩
  · have hexec := execRekey_eq (t := t) (chk := chk) hbody hop
    rw [Dev.taken_of_mgmtOp hop] at hexec ⊢
    refine ⟨fun x hcause hsel hx => ?_, fun x hcause hsel hx => ?_, fun hcause => ?_⟩
    · exact hexec.trans (congrArg Host.Outcome.next (State.rekeyCmd_of_some (by exact hstate) (by exact hstand) hcause hx hsel))
    · obtain ⟨hnonce, hjobs, hsec⟩ : Dev.nonceDrawn _ _ := Dev.nonceDrawn_of_blind (tag := tag)
        fun π h _ _ => h.finish ((((s.dev.at t).setOp tag (some { o with stage := .closing })).dropBody tag).newNonce) tag stOK 0
      exact ⟨_, hexec.trans (congrArg Host.Outcome.next (State.rekeyCmd_of_none (by exact hstate) (by exact hstand) hcause hx hsel)),
        hnonce, hjobs, hsec, rfl, rfl⟩
    · obtain ⟨hk, hnonce, hjobs, hsec⟩ := ((s.dev.at t).setOp tag (some { o with stage := .closing })).ownerRefused_spec tag
        (s.rekeyCause_lt o.desc b chk)
      exact ⟨_, hexec.trans (congrArg Host.Outcome.next (State.rekeyCmd_of_refused (by exact hstate) (by exact hstand) (by exact hcause))),
        hk, hnonce, hjobs, hsec, rfl, rfl⟩

end Sys2Proof.Machine
end

section
/-!
PROOF. Fuses and tamper (R332 to R336, R344).
-/

namespace Sys2Proof.Machine

/-! ## What an erase and a lock leave -/

/-- A part of the device that reports, the storage queue, the Mirror's reception, the watchdogs' counts and the debugger do not touch, nor any
register but SEC_TAMPER_STATUS and SYS_BOOT. -/
structure Dev.SecBlind {α : Type} (π : Dev → α) : Prop extends Dev.Blind π where
  wrAny : ∀ (d : Dev) (k : Nat) (v : Word), k ≠ Reg.SEC_TAMPER_STATUS ∧ k ≠ Reg.SYS_BOOT → π (d.wr k v) = π d
  srcAny : ∀ (d : Dev) (x : Die) (i : Nat) (s : Src), π (d.setSrc x i s) = π d
  pins : ∀ d : Dev, π d.pins = π d
  jobs : ∀ (d : Dev) (j : Option Job) (l : List Job), π { d with h.job := j, h.jobs := l } = π d
  mirRx : ∀ d : Dev, π { d with h.mir.rx := none } = π d
  wd : ∀ (d : Dev) (k : Nat) (w : Wd), π (d.setWd k w) = π d
  tm : ∀ (d : Dev) (k : Nat) (x : Timer), π (d.setTm k x) = π d
  halted : ∀ (d : Dev) (b : Bool), π { d with f.ft.halted := b } = π d

namespace Dev.SecBlind

variable {α : Type} {π : Dev → α} (h : Dev.SecBlind π) (d : Dev)
include h

theorem setFld (F : Fld) (v : Nat) (hF : F.off ≠ Reg.SEC_TAMPER_STATUS ∧ F.off ≠ Reg.SYS_BOOT) : π (d.setFld F v) = π d := h.wrAny d _ _ hF

theorem raiseBoth (x : Die) {i : Nat} (hi : i < 96) : π (d.raiseBoth x i) = π d := by
  cases x with
  | h => exact h.raiseBothH (fun d => h.srcAny d .h i) hi d
  | f => exact h.raiseF h.pins (fun d => h.srcAny d .f i) d true true

theorem bump (c s : Fld) (hc : c.off ≠ Reg.SEC_TAMPER_STATUS ∧ c.off ≠ Reg.SYS_BOOT) (hs : s.off ≠ Reg.SEC_TAMPER_STATUS ∧ s.off ≠ Reg.SYS_BOOT) : π (d.bump c s) = π d := by
  unfold Dev.bump; dsimp only
  split_ifs
  · rfl
  · exact (h.setFld _ s _ hs).trans (h.setFld d c _ hc)
  · exact h.setFld d c _ hc

theorem bumpBy (c s : Fld) (n : Nat) (hc : c.off ≠ Reg.SEC_TAMPER_STATUS ∧ c.off ≠ Reg.SYS_BOOT) (hs : s.off ≠ Reg.SEC_TAMPER_STATUS ∧ s.off ≠ Reg.SYS_BOOT) : π (d.bumpBy c s n) = π d := by
  unfold Dev.bumpBy; dsimp only
  split_ifs
  · rfl
  · exact (h.setFld _ s _ hs).trans (h.setFld d c _ hc)
  · exact h.setFld d c _ hc

theorem endCond (i : Nat) : π (d.condEnd .h i) = π d := h.condEnd (h.srcAny · .h i ·) d

theorem jobFails (j : Job) (cause : Nat) : π (d.jobFails j cause) = π d := by
  have hjob (e : Dev) : π { e with h.job := none } = π e := h.jobs e none e.h.jobs
  have hends (e : Dev) (st : Nat) (r : Quad) : π (e.jobEnds j st r) = π e := by
    unfold Dev.jobEnds
    split
    · exact h.finish e _ _ _
    · rfl
  have hlast (e : Dev) (typ c : Nat) : π (e.nvsLast typ c) = π e := (h.setFld _ _ _ (by decide)).trans (h.setFld e _ _ (by decide))
  unfold Dev.jobFails
  extract_lets h0 d1 res d2
  have hd2 : π d2 = π d := (Dev.ite_kept rfl ((hlast _ _ _).trans (hends d1 _ _))).trans (hjob d)
  refine (h.v3 _).trans (Eq.trans ?_ hd2)
  split
  · exact (h.setFld _ _ _ (by decide)).trans ((h.setFld _ _ _ (by decide)).trans (h.setFld d2 _ _ (by decide)))
  · exact (h.setFld _ _ _ (by decide)).trans (h.setFld d2 _ _ (by decide))
  · exact h.setFld d2 _ _ (by decide)
  · exact h.setFld d2 _ _ (by decide)
  · exact h.setFld d2 _ _ (by decide)
  all_goals rfl

theorem dropWrites : π d.dropWrites = π d := by
  unfold Dev.dropWrites
  extract_lets d1 cur isChunk d2
  have hd1 : π d1 = π d := by
    change π (match d.h.job with | some j => if j.open then d.jobFails j j.kind.keyCause else d | none => d) = π d
    split
    · exact Dev.ite_kept (h.jobFails d _ _) rfl
    · rfl
  refine (h.jobs d2 _ _).trans (Eq.trans ?_ hd1)
  exact Dev.StreamBlind.foldl (π := π) _ (fun e j => h.jobFails e j _) _ d1

theorem mirAbort : π d.mirAbort = π d :=
  Dev.ite_kept rfl ((h.v3 _).trans ((h.raiseBoth _ .h (by decide)).trans ((h.bump _ _ _ (by decide) (by decide)).trans (h.mirRx d))))

theorem dualEnd : π (d.dual false) = π d := Dev.ite_kept rfl (h.endCond d _)

theorem tmSync (k : Nat) : π (d.tmSync k) = π d := by
  have hwrapped (e : Dev) (k : Nat) : π (e.tmWrapped k) = π e := by
    have hset (w : Nat) : π (if bitOf w k then e else e.setFld Fld.FT_STATUS_WRAP (w + 2 ^ k)) = π e :=
      Dev.ite_kept rfl (h.setFld e _ _ (by decide))
    have hv1 (e : Dev) (c : Nat) : π (e.v1 c) = π e := Dev.ite_kept (h.irq e _ _) (Dev.ite_kept (h.irq e _ _) rfl)
    exact Dev.ite_kept ((hv1 _ _).trans (hset _)) (hset _)
  unfold Dev.tmSync Dev.tmTake; dsimp only
  split_ifs
  · exact h.tm d k _
  · exact h.tm d k _
  all_goals exact (hwrapped _ k).trans (h.tm d k _)

theorem debugFree : π d.debugFree = π d := by
  have hsync (e : Dev) : π e.tmSyncAll = π e := Dev.StreamBlind.foldl (π := π) _ (fun e k => h.tmSync e k) _ e
  have hnote (e : Dev) : π e.tmNoteAll = π e :=
    Dev.StreamBlind.foldl (π := π) _ (fun e k => Dev.ite_kept rfl (h.tm e k _)) _ e
  exact Dev.ite_kept ((hnote _).trans ((h.halted _ false).trans ((h.wd _ _ _).trans (hsync d)))) rfl

/-- A lock changes `locked` alone of such a part. -/
theorem secLock : π d.secLock = π { d with h.sec := { d.h.sec with locked := true } } :=
  (h.debugFree _).trans (Dev.ite_kept rfl (h.raiseBoth _ .h (by decide)))

/-- The end of a session is all that an erase does to such a part, beside what it does to the keys and the restart that is due. -/
theorem erase (hend : ∀ d : Dev, π { d with h.mir := { d.h.mir with session := none, hello := none } } = π d) (hdue : ∀ d : Dev, π d.restartDue = π d) :
    π d.erase = π { d with h.sec := { d.h.sec with keyed := false, index := none, blocked := true } } := by
  have hmirEnd (e : Dev) : π e.mirEnd = π e := by
    have hd2 : π ((({ e with h.mir := { e.h.mir with session := none, hello := none } }).setFld Fld.MIR_STATUS_LINK_UP 0).mirAbort.dual false) = π e :=
      (h.dualEnd _).trans ((h.mirAbort _).trans ((h.setFld _ _ _ (by decide)).trans (hend e)))
    exact Dev.ite_kept ((h.v3 _).trans hd2) hd2
  exact (hdue _).trans ((h.endCond _ _).trans ((hmirEnd _).trans ((h.dropWrites _).trans (Dev.ite_kept rfl (h.raiseBoth _ .h (by decide))))))

end Dev.SecBlind

/-- A part outside what reports write is such a part, if these are not in it. -/
theorem Dev.secBlind_of_core {α : Type} {π : Dev → α} (h : ∀ d : Dev, π d.core = π d)
    (wrAny : ∀ (d : Dev) (k : Nat) (v : Word), k ≠ Reg.SEC_TAMPER_STATUS ∧ k ≠ Reg.SYS_BOOT → π (d.wr k v) = π d)
    (unpinned : ∀ (d : Dev) (c : Chans), π { d with f.ch := c } = π d)
    (srcAny : ∀ (d : Dev) (x : Die) (i : Nat) (s : Src), π (d.setSrc x i s) = π d)
    (jobs : ∀ (d : Dev) (j : Option Job) (l : List Job), π { d with h.job := j, h.jobs := l } = π d) (mirRx : ∀ d : Dev, π { d with h.mir.rx := none } = π d)
    (wd : ∀ (d : Dev) (k : Nat) (w : Wd), π (d.setWd k w) = π d) (tm : ∀ (d : Dev) (k : Nat) (x : Timer), π (d.setTm k x) = π d)
    (halted : ∀ (d : Dev) (b : Bool), π { d with f.ft.halted := b } = π d) : Dev.SecBlind π where
  toBlind := .of_core h
  wrAny := wrAny
  srcAny := srcAny
  pins d := (Dev.Blind.of_core h).pins (fun d c _ => unpinned d c) (fun d v => ⟨wrAny d _ v (by decide), wrAny d _ v (by decide)⟩) (srcAny · .f _) d
  jobs := jobs
  mirRx := mirRx
  wd := wd
  tm := tm
  halted := halted

/-- The keys in secure RAM and what guards them. -/
theorem Dev.secBlind_sec : Dev.SecBlind (fun d => d.h.sec) :=
  Dev.secBlind_of_core (fun _ => rfl) (fun d k v _ => by simp) (fun _ _ => rfl) (fun d x i s => by cases x <;> rfl) (fun _ _ _ => rfl) (fun _ => rfl)
    (Dev.setWd_kept (π := fun d => d.h.sec) (fun _ _ => rfl) (fun _ _ => rfl) fun _ _ => rfl) (fun _ _ _ => rfl) fun _ _ => rfl

/-- The session of the Mirror port. -/
theorem Dev.secBlind_session : Dev.SecBlind (fun d => d.h.mir.session) :=
  Dev.secBlind_of_core (fun _ => rfl) (fun d k v _ => by simp) (fun _ _ => rfl) (fun d x i s => by cases x <;> rfl) (fun _ _ _ => rfl) (fun _ => rfl)
    (Dev.setWd_kept (π := fun d => d.h.mir.session) (fun _ _ => rfl) (fun _ _ => rfl) fun _ _ => rfl) (fun _ _ _ => rfl) fun _ _ => rfl

/-- SEC_TAMPER_STATUS. -/
theorem Dev.secBlind_tamper : Dev.SecBlind (fun d => d.rd Reg.SEC_TAMPER_STATUS) where
  toBlind := Dev.blind_rd (by decide)
  wrAny d k v hk := d.rd_wr_ne v (Ne.symm hk.1)
  srcAny d x i s := by cases x <;> rfl
  pins d := d.rd_pins (by decide) (by decide)
  jobs _ _ _ := rfl
  mirRx _ := rfl
  wd := Dev.setWd_kept (π := fun d => d.rd Reg.SEC_TAMPER_STATUS) (fun _ _ => rfl) (fun _ _ => rfl) fun _ _ => rfl
  tm _ _ _ := rfl
  halted _ _ := rfl

/-- The keys after an erase, and that a session has ended and a restart is due. -/
theorem Dev.erase_spec (d : Dev) : d.erase.h.sec = { d.h.sec with keyed := false, index := none, blocked := true } ∧
    d.erase.h.mir.session = none ∧ d.erase.h.boot.restart = true := by
  refine ⟨Dev.secBlind_sec.erase d (fun _ => rfl) fun _ => rfl, ?_, rfl⟩
  have h := Dev.secBlind_session
  have hmirEnd (e : Dev) : e.mirEnd.h.mir.session = none := by
    have hd2 : ((({ e with h.mir := { e.h.mir with session := none, hello := none } }).setFld Fld.MIR_STATUS_LINK_UP 0).mirAbort.dual false).h.mir.session = none :=
      (h.dualEnd _).trans ((h.mirAbort _).trans (h.setFld _ _ _ (by decide)))
    unfold Dev.mirEnd; dsimp only
    split
    · exact (h.v3 _).trans hd2
    · exact hd2
  obtain ⟨e, he⟩ : ∃ e : Dev, d.erase = (e.mirEnd.condEnd .h Sn.MIR_LINK_DOWN).restartDue := ⟨_, rfl⟩
  rw [he]
  exact (h.endCond e.mirEnd _).trans (hmirEnd e)

/-- The restart that is due stays due. -/
theorem Dev.blind_restart : Dev.Blind (fun d => d.h.boot.restart) := .of_core fun _ => rfl

/-! ## Tamper sources that fire -/

/-- The sum of the distinct powers of two of a set of sources, as a mask. -/
def maskOf (l : List Nat) : Nat := l.foldl (fun m k => m + 2 ^ k) 0

theorem maskOf_succ (on : Nat → Bool) (n : Nat) :
    maskOf ((List.range (n + 1)).filter on) = maskOf ((List.range n).filter on) + (if on n then 2 ^ n else 0) := by
  unfold maskOf
  rw [List.range_succ, List.filter_append, List.foldl_append]
  cases hon : on n with
  | true => simp [hon]
  | false => simp [hon]

theorem maskOf_lt (on : Nat → Bool) : ∀ n, maskOf ((List.range n).filter on) < 2 ^ n
  | 0 => Nat.one_pos
  | n + 1 => by
    have ih := maskOf_lt on n
    rw [maskOf_succ]
    split
    · omega
    · omega

theorem bitOf_maskOf (on : Nat → Bool) {k : Nat} (hon : on k = true) : ∀ {n : Nat}, k < n → bitOf (maskOf ((List.range n).filter on)) k = true
  | n + 1, hk => by
    rw [maskOf_succ, bitOf_eq_testBit]
    rcases Nat.lt_succ_iff_lt_or_eq.mp hk with hkn | rfl
    · have ih := bitOf_maskOf on hon hkn
      rw [bitOf_eq_testBit] at ih
      split
      · rw [Nat.add_comm, Nat.testBit_two_pow_add_gt hkn]
        exact ih
      · exact ih
    · rw [if_pos hon, Nat.add_comm, Nat.testBit_two_pow_add_eq, Nat.testBit_lt_two_pow (maskOf_lt on _)]
      rfl

/-- The strongest policy of the sources that fire is at least that of each. -/
theorem le_worst (pol : Nat → Nat) {k : Nat} : ∀ (l : List Nat) (m : Nat), (k ∈ l ∨ pol k ≤ m) → pol k ≤ l.foldl (fun m k => max m (pol k)) m
  | [], _, h => h.resolve_left List.not_mem_nil
  | j :: l, m, h => le_worst pol l _ (by
      rcases h with hmem | hle
      · rcases List.mem_cons.mp hmem with rfl | hl
        · exact .inr (Nat.le_max_right ..)
        · exact .inl hl
      · exact .inr (Nat.le_trans hle (Nat.le_max_left ..)))

/-- The sources that fire are logged, and the strongest policy locks and erases. -/
def Dev.tamperLogged (d : Dev) (codes : List Nat) : Dev :=
  (if d.fld Fld.SEC_TAMPER_STATUS_SEEN = 0 then d.setFld Fld.SEC_TAMPER_STATUS_FIRST (codes.headD 0) else d).setFld Fld.SEC_TAMPER_STATUS_SEEN
    (d.fld Fld.SEC_TAMPER_STATUS_SEEN ||| maskOf codes)

def Dev.tamperRaised (d : Dev) (h f : Nat) (codes : List Nat) : Dev :=
  codes.foldl (fun d k =>
    let d1 := if bitOf h k then d.raiseBoth .h (tamperSn k) else d
    if bitOf f k then d1.raiseBoth .f (tamperSn k) else d1)
    ((d.tamperLogged codes).bumpBy Fld.SEC_TAMPER_CNT_COUNT Fld.SEC_CNT_SAT_SAT codes.length)

def Dev.tamperActs (d : Dev) (worst : Nat) : Dev :=
  let d1 := if 1 ≤ worst then d.secLock else d
  if 2 ≤ worst then d1.erase else d1

theorem Dev.tamperUnder_eq (d : Dev) (pol : Nat → Nat) {h f : Nat} {codes : List Nat}
    (hcodes : codes = (List.range 6).filter (fun k => bitOf h k || bitOf f k)) (hne : codes ≠ []) :
    d.tamperUnder pol h f = ((d.tamperRaised h f codes).tamperActs (codes.foldl (fun m k => max m (pol k)) 0)).v3 := by
  unfold Dev.tamperUnder; dsimp only
  rw [← hcodes]
  cases codes with
  | nil => exact absurd rfl hne
  | cons k l => rfl

theorem Dev.SecBlind.tamperRaised {α : Type} {π : Dev → α} (hπ : Dev.SecBlind π) (d : Dev) (h f : Nat) {codes : List Nat} (hcodes : ∀ k ∈ codes, k < 6) :
    π (d.tamperRaised h f codes) = π (d.tamperLogged codes) := by
  have hone (x : Die) (k : Nat) (hk : k < 6) (e : Dev) (p : Prop) [Decidable p] : π (if p then e.raiseBoth x (tamperSn k) else e) = π e := by
    have hsn : ∀ k, k < 6 → tamperSn k < 96 := by decide
    exact Dev.ite_kept (hπ.raiseBoth e x (hsn k hk)) rfl
  have hfold : ∀ (l : List Nat) (e : Dev), (∀ k ∈ l, k < 6) → π (l.foldl (fun d k =>
      let d1 := if bitOf h k then d.raiseBoth .h (tamperSn k) else d
      if bitOf f k then d1.raiseBoth .f (tamperSn k) else d1) e) = π e := by
    intro l
    induction l with
    | nil => exact fun _ _ => rfl
    | cons k l ih =>
      intro e hl
      have hk := hl k List.mem_cons_self
      exact (ih _ fun j hj => hl j (List.mem_cons_of_mem _ hj)).trans ((hone .f k hk _ _).trans (hone .h k hk _ _))
  exact (hfold _ _ hcodes).trans (hπ.bumpBy _ _ _ _ (by decide) (by decide))

/-- The bits of sources that have been seen, after these. -/
theorem Dev.seen_tamperLogged (d : Dev) {codes : List Nat} : (d.tamperLogged codes).fld Fld.SEC_TAMPER_STATUS_SEEN =
    (d.fld Fld.SEC_TAMPER_STATUS_SEEN ||| maskOf codes) % 2 ^ 6 := Dev.fld_setFld_same _ Fld.SEC_TAMPER_STATUS_SEEN _ (by decide)

/-- A policy of LOCK locks, and one of ERASE erases. -/
theorem Dev.tamperActs_spec (d : Dev) (worst : Nat) : (1 ≤ worst → (d.tamperActs worst).h.sec.locked = true) ∧
    (2 ≤ worst → (d.tamperActs worst).h.sec.keyed = false ∧ (d.tamperActs worst).h.sec.index = none ∧ (d.tamperActs worst).h.sec.blocked = true ∧
      (d.tamperActs worst).h.boot.restart = true ∧ (d.tamperActs worst).h.mir.session = none) := by
  have hlock : d.secLock.h.sec.locked = true := congrArg Sec.locked (Dev.secBlind_sec.secLock d)
  refine ⟨fun h1 => ?_, fun h2 => ?_⟩
  · unfold Dev.tamperActs; dsimp only
    rw [if_pos h1]
    split
    · rw [(Dev.erase_spec _).1]
      exact hlock
    · exact hlock
  · unfold Dev.tamperActs; dsimp only
    rw [if_pos h2, if_pos (Nat.le_of_succ_le h2)]
    obtain ⟨hsec, hses, hdue⟩ := d.secLock.erase_spec
    rw [hsec]
    exact ⟨rfl, rfl, rfl, hdue, hses⟩

/-- The registers of an erase and a lock but SEC_TAMPER_STATUS stay. -/
theorem Dev.tamper_tamperActs (d : Dev) (worst : Nat) : (d.tamperActs worst).rd Reg.SEC_TAMPER_STATUS = d.rd Reg.SEC_TAMPER_STATUS := by
  have h := Dev.secBlind_tamper
  have hlock : (if 1 ≤ worst then d.secLock else d).rd Reg.SEC_TAMPER_STATUS = d.rd Reg.SEC_TAMPER_STATUS :=
    Dev.ite_kept (π := fun d => d.rd Reg.SEC_TAMPER_STATUS) (h.secLock d) rfl
  exact Dev.ite_kept (π := fun d => d.rd Reg.SEC_TAMPER_STATUS) ((h.erase _ (fun _ => rfl) fun _ => rfl).trans hlock) hlock

/-- Of a mask without its lowest bit the others stay. -/
theorem bitOf_clear_zero {n k : Nat} (hk : k ≠ 0) : bitOf (n / 2 * 2) k = bitOf n k := by
  obtain ⟨j, rfl⟩ := Nat.exists_eq_succ_of_ne_zero hk
  have hshift (m : Nat) : m / 2 ^ (j + 1) = m / 2 / 2 ^ j := by rw [Nat.pow_succ', Nat.div_div_eq_div_mul]
  unfold bitOf
  rw [hshift, hshift, Nat.mul_div_cancel _ (by decide)]

/-- Settles O48: a source that fires is among those logged, and the strongest policy is at least its own. -/
theorem tamperPolicies : Obligations.TamperPolicies := by
  unfold Obligations.TamperPolicies
  intro s h f now t k hoff hk hfire
  obtain ⟨d, hd⟩ : ∃ d, d = (s.dev.at t).setFld Fld.SEC_TAMPER_STATUS_ACTIVE now := ⟨_, rfl⟩
  obtain ⟨f', hf'⟩ : ∃ f', f' = if s.dev.f.powered then f / 2 * 2 else 0 := ⟨_, rfl⟩
  obtain ⟨codes, hcodes⟩ : ∃ codes, codes = (List.range 6).filter (fun k => bitOf h k || bitOf f' k) := ⟨_, rfl⟩
  have hon : (bitOf h k || bitOf f' k) = true := by
    rcases hfire with hbit | ⟨hpow, hk0, hbit⟩
    · rw [hbit, Bool.true_or]
    · rw [hf', if_pos hpow, bitOf_clear_zero hk0, hbit, Bool.or_true]
  have hmem : k ∈ codes := hcodes ▸ List.mem_filter.mpr ⟨List.mem_range.mpr hk, hon⟩
  have hlt : ∀ j ∈ codes, j < 6 := fun j hj => List.mem_range.mp (List.mem_of_mem_filter (hcodes ▸ hj))
  have hpol (j : Nat) : d.pol j = s.dev.pol j := by
    rw [hd]
    exact Dev.fld_setFld_off (s.dev.at t) _ _ _ (by decide : Reg.SEC_TAMPER_POL ≠ Reg.SEC_TAMPER_STATUS)
  obtain ⟨worst, hw⟩ : ∃ worst, worst = codes.foldl (fun m k => max m (d.pol k)) 0 := ⟨_, rfl⟩
  have hworst : s.dev.pol k ≤ worst := hw ▸ hpol k ▸ le_worst d.pol codes 0 (.inl hmem)
  have hexec : exec (.tamperFire h f now t) s = .next { s with dev :=
      ((d.tamperRaised h f' codes).tamperActs worst).v3 } := by
    have hdev : doTamperFire h f now t s.dev = d.tamper h f' := by
      subst hd hf'
      exact if_neg hoff
    rw [hw]
    exact s.onDev_of (hdev.trans (d.tamperUnder_eq d.pol hcodes (List.ne_nil_of_mem hmem)))
  obtain ⟨hlock, herase⟩ := (d.tamperRaised h f' codes).tamperActs_spec worst
  refine ⟨_, hexec, ?_, fun h1 => ?_, fun h2 => ?_, rfl, rfl⟩
  · have hreg := ((Dev.secBlind_tamper.v3 _).trans (Dev.tamper_tamperActs (d.tamperRaised h f' codes) worst)).trans (Dev.secBlind_tamper.tamperRaised d h f' hlt)
    refine (congrArg (fun w : Word => bitOf (bitsOf w.toNat Fld.SEC_TAMPER_STATUS_SEEN.lo Fld.SEC_TAMPER_STATUS_SEEN.w) k) hreg).trans ?_
    refine (congrArg (bitOf · k) d.seen_tamperLogged).trans ?_
    rw [bitOf_mod_two_pow hk, bitOf_eq_testBit, Nat.testBit_or, ← bitOf_eq_testBit, ← bitOf_eq_testBit, hcodes, bitOf_maskOf _ hon hk, Bool.or_true]
  · exact (congrArg Sec.locked (Dev.secBlind_sec.v3 _)).trans (hlock (Nat.le_trans h1 hworst))
  · obtain ⟨hkeyed, hindex, hblocked, hdue, hses⟩ := herase (Nat.le_trans h2 hworst)
    have hsec := Dev.secBlind_sec.v3 ((d.tamperRaised h f' codes).tamperActs worst)
    exact ⟨(congrArg Sec.keyed hsec).trans hkeyed, (congrArg Sec.index hsec).trans hindex, (congrArg Sec.blocked hsec).trans hblocked,
      (Dev.blind_restart.v3 _).trans hdue, (Dev.secBlind_session.v3 _).trans hses⟩

/-! ## Fuses -/

/-- An advance of the lifecycle, in a state and a lifecycle that take one. -/
theorem State.lcAdv_of_open {s : State} {data : Word} (hdev : s.dev.h.dev = .run ∨ s.dev.h.dev = .safe ∨ s.dev.h.dev = .settingsHold)
    (hlock : s.dev.inForce Sn.SEC_LOCKED = 0) (hlc : s.nv.lifecycle ≠ .manufacture) (hprog : s.dev.h.sec.lcProg = none) :
    (∀ l, s.dev.h.sec.lcFirst = none → lcTarget data = some l → s.nv.lifecycle.code < l.code → (s.dev.h.sec.keyed = true ∨ l = .retired) →
      s.lcAdv false data = { s with dev := { s.dev with h.sec := { s.dev.h.sec with lcFirst := some data } } }) ∧
    (∀ w, s.dev.h.sec.lcFirst = some w → data = ~~~w → s.lcAdv false data =
      { s with dev := { s.dev with h.sec := { s.dev.h.sec with
        lcFirst := none
        lcProg := lcTarget w } } }) := by
  refine ⟨fun l hfirst htarget hcode hkey => (if_neg ?_).trans ?_, fun w hfirst hdata => (if_neg ?_).trans ?_⟩
  · rcases hdev with h | h | h <;> simp [h, hlock, hlc, hprog]
  · dsimp only
    rw [hfirst, htarget]
    refine if_pos ?_
    simpa [hcode] using hkey
  · rcases hdev with h | h | h <;> simp [h, hlock, hlc, hprog]
  · dsimp only
    rw [hfirst]
    exact if_pos hdata

theorem State.svnAdv_of_open {s : State} {data : Word} {r : Rec} (hdev : s.dev.h.dev = .run) (hlock : s.dev.inForce Sn.SEC_LOCKED = 0)
    (hprog : s.dev.h.sec.svnProg = none) (hrun : s.running = some r) (hmin : s.nv.svnMin < bitsOf data.toNat 0 7) (hmax : bitsOf data.toNat 0 7 ≤ 64)
    (htop : bitsOf data.toNat 0 7 ≤ mfSvn r.body) :
    s.svnAdv false data = { s with dev := { s.dev with h.sec := { s.dev.h.sec with svnProg := some (bitsOf data.toNat 0 7) } } } := by
  refine if_neg ?_
  rw [hrun]
  simp [hdev, hlock, hprog, hmin, hmax, htop]

/-- The programming of an advance of the lifecycle that verifies. -/
theorem exec_fuseProgramComplete_ok {s : State} {l : Lifecycle} {t : Nat} (hl : s.dev.h.sec.lcProg = some l) (hcode : s.nv.lifecycle.code < l.code) :
    exec (.fuseProgramComplete true true t) s = .next { s with
      dev := (({ s.dev.at t with h := { s.dev.h with sec := { s.dev.h.sec with lcProg := none } } } : Dev).lifecycleIs l).v3
      nv := { s.nv with lifecycle := l } } := by
  refine (?_ : execFuseProgramComplete true true t s = _)
  unfold execFuseProgramComplete; dsimp only
  rw [show (s.dev.at t).h.sec.lcProg = some l from hl]
  exact (if_pos rfl).trans (if_pos ⟨rfl, hcode⟩)

/-- No step of a lifecycle is under way after one that has verified; the last one erases the keys. -/
theorem Dev.lifecycleIs_spec {d : Dev} (l : Lifecycle) (hprog : d.h.sec.lcProg = none) : (d.lifecycleIs l).v3.h.sec.lcProg = none ∧
    (l = .retired → (d.lifecycleIs l).v3.h.sec.keyed = false ∧ (d.lifecycleIs l).v3.h.boot.restart = true) := by
  have hsec := Dev.secBlind_sec
  have hclosed : (((d.debugFree).wdSync 2).setFld (Fld.WD_CTRL_DBG_FREEZE 2) 0).h.sec = d.h.sec :=
    (hsec.setFld _ _ _ (by decide)).trans ((hsec.wd _ _ _).trans (hsec.debugFree d))
  obtain ⟨hkeys, -, hdue⟩ := Dev.erase_spec (((d.debugFree).wdSync 2).setFld (Fld.WD_CTRL_DBG_FREEZE 2) 0)
  refine ⟨?_, ?_⟩
  · refine (congrArg Sec.lcProg (hsec.v3 _)).trans ?_
    cases l with
    | production => exact (congrArg Sec.lcProg hclosed).trans hprog
    | retired => exact (congrArg Sec.lcProg hkeys).trans ((congrArg Sec.lcProg hclosed).trans hprog)
    | _ => exact hprog
  · rintro rfl
    exact ⟨(congrArg Sec.keyed (hsec.v3 _)).trans (congrArg Sec.keyed hkeys), (Dev.blind_restart.v3 _).trans hdue⟩

/-- Settles O47: an advance that the state takes keeps its word or starts the programming, whose result alone changes a fuse. -/
theorem fuseAdvances : Obligations.FuseAdvances := by
  unfold Obligations.FuseAdvances
  intro s data t
  refine ⟨fun hopen hdev hlock hlc hprog => ?_, ?_, fun l hl => ⟨fun hcode => ?_, ?_⟩, fun n hn => ⟨?_, ?_⟩⟩
  · have hexec : exec (.secLcAdv false data t) s = .next ((s.mapDev (·.at t)).lcAdv false data) :=
      congrArg Host.Outcome.next (State.hostDo_of_open (s.mapDev (·.at t)) _ _ (by exact hopen))
    obtain ⟨hfirst, hsecond⟩ := State.lcAdv_of_open (s := s.mapDev (·.at t)) (data := data) hdev hlock hlc hprog
    exact ⟨fun l hf ht hc hk => hexec.trans (congrArg Host.Outcome.next (hfirst l hf ht hc hk)),
      fun w hf hd => hexec.trans (congrArg Host.Outcome.next (hsecond w hf hd))⟩
  · intro r hopen hdev hlock hprog hrun hmin hmax htop
    have hexec : exec (.secSvnAdv false data t) s = .next ((s.mapDev (·.at t)).svnAdv false data) :=
      congrArg Host.Outcome.next (State.hostDo_of_open (s.mapDev (·.at t)) _ _ (by exact hopen))
    exact hexec.trans (congrArg Host.Outcome.next (State.svnAdv_of_open (s := s.mapDev (·.at t)) hdev hlock hprog hrun hmin hmax htop))
  · obtain ⟨hprog, hkeys⟩ := Dev.lifecycleIs_spec (d := { s.dev.at t with h := { s.dev.h with sec := { s.dev.h.sec with lcProg := none } } }) l rfl
    exact ⟨_, exec_fuseProgramComplete_ok hl hcode, rfl, hprog, hkeys, rfl⟩
  · refine (?_ : execFuseProgramComplete true false t s = _)
    unfold execFuseProgramComplete; dsimp only
    rw [show (s.dev.at t).h.sec.lcProg = some l from hl]
    rfl
  · refine (?_ : execFuseProgramComplete false true t s = _)
    unfold execFuseProgramComplete; dsimp only
    rw [show (s.dev.at t).h.sec.svnProg = some n from hn]
    rfl
  · refine (?_ : execFuseProgramComplete false false t s = _)
    unfold execFuseProgramComplete; dsimp only
    rw [show (s.dev.at t).h.sec.svnProg = some n from hn]
    rfl

end Sys2Proof.Machine
end

section
/-!
PROOF. Staging (R317, R318, R325).
-/

namespace Sys2Proof.Machine

/-- A field whose register reads the same. -/
theorem Dev.fld_of_rd {d e : Dev} {F : Fld} (h : e.rd F.off = d.rd F.off) : e.fld F = d.fld F := by
  unfold Dev.fld
  rw [h]

/-- A one-bit field that reads 1. -/
theorem Dev.flag_of_one {d : Dev} {F : Fld} (h : d.fld F = 1) : d.flag F = true := by
  unfold Dev.flag
  rw [h]
  rfl

theorem Dev.flag_of_zero {d : Dev} {F : Fld} (h : d.fld F = 0) : d.flag F = false := by
  unfold Dev.flag
  rw [h]
  rfl

/-! ## OPEN and CLOSE -/

/-- Pages erased leave the records and the images. -/
theorem NonVol.foldl_worn (g : Nat → Nat) : ∀ (l : List Nat) (v : NonVol), (l.foldl (fun v k => v.worn (g k)) v).recs = v.recs ∧
    (l.foldl (fun v k => v.worn (g k)) v).img = v.img
  | [], _ => ⟨rfl, rfl⟩
  | k :: l, v => NonVol.foldl_worn g l (v.worn (g k))

/-- The check of the erase counts may raise NVS_WEAR. -/
theorem State.wearCheck_cases (s : State) : s.wearCheck = s ∨ s.wearCheck = s.mapDev (·.raiseBoth .h Sn.NVS_WEAR) := by
  unfold State.wearCheck
  split
  · exact .inr rfl
  · exact .inl rfl

theorem State.wearCheck_nv (s : State) : s.wearCheck.nv = s.nv ∧ s.wearCheck.pending = s.pending := by
  rcases s.wearCheck_cases with h | h
  · rw [h]; exact ⟨rfl, rfl⟩
  · rw [h]; exact ⟨rfl, rfl⟩

theorem Dev.Blind.wearCheck {α : Type} {π : Dev → α} (h : Dev.Blind π) (hsrc : ∀ (d : Dev) (s : Src), π (d.setSrc .h Sn.NVS_WEAR s) = π d)
    (s : State) : π s.wearCheck.dev = π s.dev := by
  rcases s.wearCheck_cases with hs | hs
  · rw [hs]
  · rw [hs]
    exact h.raiseBothH hsrc (by decide) s.dev

/-- The device with the session open for a slot. -/
def Dev.stageOpened (d : Dev) (slot : Bool) : Dev :=
  { (d.setFld Fld.FW_STATUS_STAGE_OPEN 1).setFld Fld.FW_STATUS_STAGE_SLOT (b2n slot) with h.stg := ⟨none, []⟩ }

theorem Dev.stageOpened_spec (d : Dev) (slot : Bool) : (d.stageOpened slot).fld Fld.FW_STATUS_STAGE_OPEN = 1 ∧
    (d.stageOpened slot).fld Fld.FW_STATUS_STAGE_SLOT = b2n slot := by
  refine ⟨?_, ?_⟩
  · refine (Dev.fld_setFld_ne (d.setFld Fld.FW_STATUS_STAGE_OPEN 1) Fld.FW_STATUS_STAGE_SLOT Fld.FW_STATUS_STAGE_OPEN _ (by decide) (by decide)).trans ?_
    exact Dev.fld_setFld_same d Fld.FW_STATUS_STAGE_OPEN 1 (by decide)
  · refine (Dev.fld_setFld_same (d.setFld Fld.FW_STATUS_STAGE_OPEN 1) Fld.FW_STATUS_STAGE_SLOT _ (by decide)).trans ?_
    cases slot <;> rfl

/-- The nonvolatile contents with a slot's header region retired and erased. -/
def NonVol.slotEmptied (v : NonVol) (a : Area) : NonVol :=
  ((List.range 16).filter (fun k => v.dirty.contains (sectorKey a k))).foldl (fun v k => v.worn (sectorKey a k))
    { v with recs := v.recs.filter (fun r => r.area != a) }

theorem State.stageOpen_of_open {s : State} {data : Word} (hopen : s.dev.flag Fld.FW_STATUS_STAGE_OPEN = false) (hflash : s.dev.flashBad = false)
    (hslot : s.dev.flag Fld.FW_STATUS_RECOVERY = true ∨ bitOf data.toNat 2 ≠ s.dev.runSlot) : s.stageOpen data =
    ({ s with
      dev := s.dev.stageOpened (bitOf data.toNat 2)
      nv := s.nv.slotEmptied (slotArea (bitOf data.toNat 2)) } : State).wearCheck := by
  refine (if_neg ?_).trans ((if_neg ?_).trans rfl)
  · rw [hopen]
    rcases hslot with h | h
    · simp [h]
    · simp [h]
  · rw [hflash]
    decide

section
variable {s : State} {t : Nat} (hstg : s.dev.stagingOpen = true) (hbar : s.dev.barOpen false = true) (hrest : s.dev.f.ch.rest = none)
include hstg hbar hrest

/-- Function A's write of a staging register reaches the block. -/
theorem exec_fwStageOpen (data : Word) : exec (.fwStageOpen false data t) s = .next ((s.mapDev (·.at t)).stageOpen data) := by
  refine congrArg Host.Outcome.next ((State.hostDo_of_allowed (s := s.mapDev (·.at t)) _ hrest hbar
    (Dev.bootAllows_of_staging (by exact hstg) (.inl ⟨by decide, by decide⟩))).trans (if_neg ?_))
  rw [show (s.mapDev (·.at t)).dev.stagingOpen = true from hstg]
  decide

theorem exec_fwStageClose (data : Word) : exec (.fwStageClose false data t) s = .next { s with dev := (s.dev.at t).stageClose } := by
  refine s.onDev_of (g := fun d => d.stageCloseCmd false t) ?_
  refine (Dev.hostDo_of_allowed (d := s.dev.at t) (off := Reg.FW_STAGE_CTRL) _ hrest hbar
    (Dev.bootAllows_of_staging (by exact hstg) (.inl ⟨by decide, by decide⟩))).trans (if_neg ?_)
  rw [show (s.dev.at t).stagingOpen = true from hstg]
  decide

theorem exec_fwStageWinWrite {off : Nat} (data : Word) (hlo : 0x8000 ≤ off) (hhi : off < 0xC000) (halign : off % 4 = 0) :
    exec (.fwStageWinWrite false off data) s =
      .next { s with dev := if s.dev.flag Fld.FW_STATUS_BUSY then s.dev.setFld Fld.FW_STATUS_WIN_BUSY 1 else s.dev.wr off data } := by
  refine s.onDev_of ((Dev.hostDo_of_allowed (d := s.dev) _ hrest hbar (Dev.bootAllows_of_staging hstg (.inr ⟨hlo, hhi⟩))).trans ?_)
  refine (if_neg ?_).trans (if_neg ?_)
  · simp only [Bool.false_or, Bool.or_eq_true, decide_eq_true_eq, bne_iff_ne]
    omega
  · rw [hstg]
    decide

theorem exec_fwStageChunk (data : Word) :
    exec (.fwStageChunk false data t) s = .next { s with dev := (s.dev.at t).chunkWrite false data } :=
  s.onDev_of (Dev.hostDo_of_allowed (d := s.dev.at t) (off := Reg.FW_STAGE_CHUNK) _ hrest hbar
    (Dev.bootAllows_of_staging (by exact hstg) (.inl ⟨by decide, by decide⟩)))

end

/-! ## Chunks -/

/-- The device with the chunk's number noted. -/
def Dev.chunkNoted (d : Dev) (k : Nat) : Dev := d.setFld Fld.FW_STAGE_CHUNK_INDEX k

theorem Dev.rd_chunkNoted (d : Dev) (k : Nat) {j : Nat} (hj : j ≠ Reg.FW_STAGE_CHUNK) : (d.chunkNoted k).rd j = d.rd j :=
  Dev.rd_setFld_ne d _ k hj

theorem Dev.window_chunkNoted (d : Dev) (k : Nat) : (d.chunkNoted k).window = d.window := by
  refine List.map_congr_left fun j _ => d.rd_chunkNoted k ?_
  unfold Reg.FW_STAGE_WIN Reg.FW_STAGE_CHUNK
  omega

/-- Chunk 0 as kept. -/
def Dev.chunkKept (d : Dev) (k : Nat) : Dev :=
  ((({ d.chunkNoted k with h.stg := { (d.chunkNoted k).h.stg with chunk0 := some d.window } }).setFld Fld.FW_STATUS_CHUNK_OK 1).setFld
    Fld.FW_STATUS_CAUSE 0).v3

/-- Another chunk as queued. -/
def Dev.chunkQueued (d : Dev) (k : Nat) : Dev :=
  ((d.chunkNoted k).setFld Fld.FW_STATUS_BUSY 1).queueJob
    ⟨.chunk (d.flag Fld.FW_STATUS_STAGE_SLOT) k, none, none, [], chunkPlan (d.flag Fld.FW_STATUS_STAGE_SLOT) k d.window, 0, false⟩

theorem Dev.chunkWrite_of_good {d : Dev} {data : Word} (hstg : d.stagingOpen = true) (hbusy : d.flag Fld.FW_STATUS_BUSY = false)
    (hopen : d.flag Fld.FW_STATUS_STAGE_OPEN = true) (hcrc : crc32c (bytesOfQuads (quadsOfWords d.window)) = d.rd Reg.FW_STAGE_CRC)
    (hk : bitsOf data.toNat 0 7 ≤ 92) : (bitsOf data.toNat 0 7 = 0 → d.chunkWrite false data = d.chunkKept (bitsOf data.toNat 0 7)) ∧
      (bitsOf data.toNat 0 7 ≠ 0 → d.flashBad = false → d.chunkWrite false data = d.chunkQueued (bitsOf data.toNat 0 7)) := by
  generalize hn : bitsOf data.toNat 0 7 = k at hk
  have hflag {F : Fld} (hF : F.off ≠ Reg.FW_STAGE_CHUNK) : (d.chunkNoted k).flag F = d.flag F := by
    unfold Dev.flag
    rw [Dev.fld_of_rd (d.rd_chunkNoted k hF)]
  have hcrc' : crc32c (bytesOfQuads (quadsOfWords (d.chunkNoted k).window)) = (d.chunkNoted k).rd Reg.FW_STAGE_CRC := by
    rw [d.window_chunkNoted, d.rd_chunkNoted k (by decide), hcrc]
  have hgo : d.chunkWrite false data = if k = 0 then d.chunkKept k else if (d.chunkNoted k).flashBad then (d.chunkNoted k).chunkErr 12 else
      d.chunkQueued k := by
    unfold Dev.chunkWrite
    rw [hn]
    refine (if_neg (by rw [hstg]; decide)).trans ((if_neg (by rw [hbusy]; decide)).trans ?_)
    refine (if_neg (by rw [show (d.setFld Fld.FW_STAGE_CHUNK_INDEX k) = d.chunkNoted k from rfl, hflag (by decide), hopen]; decide)).trans ?_
    refine (if_neg (by
      rw [show (d.setFld Fld.FW_STAGE_CHUNK_INDEX k) = d.chunkNoted k from rfl, hcrc', bne_self_eq_false]
      exact Bool.false_ne_true)).trans ((if_neg (Nat.not_lt.mpr hk)).trans ?_)
    unfold Dev.chunkKept Dev.chunkQueued
    rw [← d.window_chunkNoted k, ← hflag (F := Fld.FW_STATUS_STAGE_SLOT) (by decide)]
    rfl
  refine ⟨fun h0 => hgo.trans (if_pos h0), fun h0 hflash => hgo.trans ((if_neg h0).trans (if_neg ?_))⟩
  have hsame : (d.chunkNoted k).flashBad = d.flashBad := by
    unfold Dev.flashBad Dev.inForce Dev.src Dev.srcFAtH Dev.chunkNoted
    simp
  rw [hsame, hflash]
  decide

theorem Dev.chunkKept_spec (d : Dev) (k : Nat) : (d.chunkKept k).h.stg.chunk0 = some d.window ∧ (d.chunkKept k).fld Fld.FW_STATUS_CHUNK_OK = 1 ∧
    (d.chunkKept k).fld Fld.FW_STATUS_CAUSE = 0 ∧ (d.chunkKept k).h.jobs = d.h.jobs := by
  generalize he : ({ d.chunkNoted k with h.stg := { (d.chunkNoted k).h.stg with chunk0 := some d.window } } : Dev) = e
  have hkept : d.chunkKept k = ((e.setFld Fld.FW_STATUS_CHUNK_OK 1).setFld Fld.FW_STATUS_CAUSE 0).v3 := by rw [← he]; rfl
  have hv3 := (Dev.blind_rd (k := Reg.FW_STATUS) (by decide)).v3 ((e.setFld Fld.FW_STATUS_CHUNK_OK 1).setFld Fld.FW_STATUS_CAUSE 0)
  rw [hkept]
  refine ⟨?_, ?_, ?_, ?_⟩
  · refine ((Dev.Blind.of_core (π := fun d => d.h.stg.chunk0) fun _ => rfl).v3 _).trans ?_
    rw [Dev.setFld_h, Dev.setFld_h, ← he]
  · refine (Dev.fld_of_rd (F := Fld.FW_STATUS_CHUNK_OK) hv3).trans ?_
    refine (Dev.fld_setFld_ne _ Fld.FW_STATUS_CAUSE Fld.FW_STATUS_CHUNK_OK 0 (by decide) (by decide)).trans ?_
    exact Dev.fld_setFld_same e Fld.FW_STATUS_CHUNK_OK 1 (by decide)
  · refine (Dev.fld_of_rd (F := Fld.FW_STATUS_CAUSE) hv3).trans ?_
    exact Dev.fld_setFld_same (e.setFld Fld.FW_STATUS_CHUNK_OK 1) Fld.FW_STATUS_CAUSE 0 (by decide)
  · refine ((Dev.Blind.of_core (π := fun d => d.h.jobs) fun _ => rfl).v3 _).trans ?_
    rw [Dev.setFld_h, Dev.setFld_h, ← he]
    simp [Dev.chunkNoted]

theorem Dev.chunkQueued_spec (d : Dev) (k : Nat) : (d.chunkQueued k).fld Fld.FW_STATUS_BUSY = 1 ∧
    (d.chunkQueued k).h.jobs = d.h.jobs ++ [⟨.chunk (d.flag Fld.FW_STATUS_STAGE_SLOT) k, none, none, [],
      chunkPlan (d.flag Fld.FW_STATUS_STAGE_SLOT) k d.window, 0, false⟩] ∧ (d.chunkQueued k).h.stg = d.h.stg := by
  refine ⟨Dev.fld_setFld_same (d.chunkNoted k) Fld.FW_STATUS_BUSY 1 (by decide), ?_, ?_⟩
  · simp [Dev.chunkQueued, Dev.queueJob, Dev.chunkNoted]
  · simp [Dev.chunkQueued, Dev.queueJob, Dev.chunkNoted]

/-- A register of the window is one of the H-side. -/
theorem onFSide_window {off : Nat} (hlo : 0x8000 ≤ off) (hhi : off < 0xC000) : onFSide (baseOff off) = false := by
  have hbase : baseOff off = off := by
    unfold baseOff
    rw [if_neg (by omega)]
  rw [hbase]
  unfold onFSide
  simp only [Bool.or_eq_false_iff, Bool.and_eq_false_iff, decide_eq_false_iff_not]
  omega

/-- Settles O45: a staging write reaches its block, and what the block does leaves the queue or joins it with the window as it stands. -/
theorem stagingTakesChunks : Obligations.StagingTakesChunks := by
  unfold Obligations.StagingTakesChunks
  intro s data off t hstg hbar hrest
  refine ⟨fun hopen hflash hslot => ?_, ?_, fun hlo hhi halign => ⟨fun hbusy => ?_, fun hbusy => ?_⟩, fun hbusy hopen hcrc hk => ?_⟩
  · have hdo := State.stageOpen_of_open (s := s.mapDev (·.at t)) (data := data) hopen hflash hslot
    generalize hu : ({ s.mapDev (·.at t) with
      dev := (s.mapDev (·.at t)).dev.stageOpened (bitOf data.toNat 2)
      nv := (s.mapDev (·.at t)).nv.slotEmptied (slotArea (bitOf data.toNat 2)) } : State) = u at hdo
    obtain ⟨hnv, hpend⟩ := u.wearCheck_nv
    obtain ⟨hone, hslotNow⟩ := (s.dev.at t).stageOpened_spec (bitOf data.toNat 2)
    have hreg := (Dev.blind_rd (k := Reg.FW_STATUS) (by decide)).wearCheck (fun _ _ => rfl) u
    have hdev : u.dev = (s.dev.at t).stageOpened (bitOf data.toNat 2) := by rw [← hu]; rfl
    rw [← hdev] at hone hslotNow
    obtain ⟨hrecs, himg⟩ := NonVol.foldl_worn (sectorKey (slotArea (bitOf data.toNat 2)))
      ((List.range 16).filter (fun k => s.nv.dirty.contains (sectorKey (slotArea (bitOf data.toNat 2)) k)))
      { s.nv with recs := s.nv.recs.filter (fun r => r.area != slotArea (bitOf data.toNat 2)) }
    refine ⟨u.wearCheck, (exec_fwStageOpen hstg hbar hrest data).trans (congrArg Host.Outcome.next hdo),
      Dev.flag_of_one ((Dev.fld_of_rd (F := Fld.FW_STATUS_STAGE_OPEN) hreg).trans hone),
      (Dev.fld_of_rd (F := Fld.FW_STATUS_STAGE_SLOT) hreg).trans hslotNow, ?_, ?_, ?_, ?_⟩
    · refine ((Dev.Blind.of_core (π := fun d => d.h.stg) fun _ => rfl).wearCheck (fun _ _ => rfl) u).trans ?_
      rw [hdev]
      rfl
    · rw [hnv, ← hu]; exact hrecs
    · rw [hnv, ← hu]; exact himg
    · rw [hpend, ← hu]; rfl
  · refine ⟨_, exec_fwStageClose hstg hbar hrest data, Dev.flag_of_zero (Dev.fld_setFld_same (s.dev.at t) Fld.FW_STATUS_STAGE_OPEN 0 (by decide)), rfl,
      fun k hk => Dev.rd_setFld_ne (s.dev.at t) Fld.FW_STATUS_STAGE_OPEN 0 hk, ?_, ?_, rfl, rfl⟩
    · exact Dev.wr_f_of_h (s.dev.at t) _ (by decide)
    · have hjobs : ((s.dev.at t).setFld Fld.FW_STATUS_STAGE_OPEN 0).h.jobs = s.dev.h.jobs := by simp
      exact hjobs
  · have hexec := exec_fwStageWinWrite hstg hbar hrest data hlo hhi halign
    rw [hbusy] at hexec
    refine ⟨_, hexec, Dev.rd_wr_same .., fun k hk => s.dev.rd_wr_ne data hk, s.dev.wr_f_of_h data (onFSide_window hlo hhi), ?_, rfl, rfl⟩
    have hstg : (s.dev.wr off data).h.stg = s.dev.h.stg := by simp
    exact hstg
  · have hexec := exec_fwStageWinWrite hstg hbar hrest data hlo hhi halign
    rw [hbusy] at hexec
    exact hexec
  · obtain ⟨hkept, hqueued⟩ := Dev.chunkWrite_of_good (d := s.dev.at t) hstg hbusy hopen hcrc hk
    have hexec := exec_fwStageChunk (t := t) hstg hbar hrest data
    refine ⟨fun h0 => ?_, fun h0 hflash => ?_⟩
    · rw [hkept h0] at hexec
      obtain ⟨hwin, hok, hcause, hjobs⟩ := (s.dev.at t).chunkKept_spec (bitsOf data.toNat 0 7)
      exact ⟨_, hexec, hwin, Dev.flag_of_one hok, hcause, hjobs, rfl, rfl⟩
    · rw [hqueued h0 hflash] at hexec
      obtain ⟨hbusy', hjobs, hstg'⟩ := (s.dev.at t).chunkQueued_spec (bitsOf data.toNat 0 7)
      exact ⟨_, hexec, Dev.flag_of_one hbusy', hjobs, hstg', rfl, rfl⟩

end Sys2Proof.Machine
end

section
/-!
PROOF. The storage queue's writes and their flash operations (R298, R300, R303, R308, R318).
-/

namespace Sys2Proof.Machine

/-! ## A completion -/

/-- A part that interrupts and rings are not in: a completion leaves what the release of the tag leaves. -/
theorem Dev.IrqBlind.complete {α : Type} {π : Dev → α} (h : Dev.IrqBlind π) (hring : ∀ (d : Dev) (n : Nat) (r : Ring), π (d.setRing n r) = π d)
    (d : Dev) (g : Nat) (o : Op) (st : Nat) (r : Quad) : π (d.complete g o st r) = π (d.setOp g none) := by
  unfold Dev.complete; dsimp only
  refine Dev.ite_kept rfl (Dev.ite_kept ?_ ?_)
  · exact h.bump _ _ _ (by cases o.fn <;> rfl) (by cases o.fn <;> rfl)
  · exact (hring _ _ _).trans (h.tlp _ _ _)

theorem Dev.irqBlind_op (g : Nat) : Dev.IrqBlind (fun d => d.op g) where
  emit _ _ := rfl
  wrHalt d k v _ := by simp [Dev.op]
  pci d fn p := by cases fn <;> rfl
  irqRest _ _ := rfl

/-- The tag of a completed operation is free. -/
theorem Dev.op_complete_same (d : Dev) (g : Nat) (o : Op) (st : Nat) (r : Quad) : (d.complete g o st r).op g = none :=
  ((Dev.irqBlind_op g).complete (fun _ _ _ => rfl) d g o st r).trans
    (Tab.get_set_same (fun _ => none) d.h.ops g none)

/-- An operation that HALT has not caught ends with its tag free. -/
theorem Dev.op_finish_same {d : Dev} {g : Nat} {o : Op} (ho : d.op g = some o) (hhalt : o.halted = false) (st : Nat) (r : Quad) :
    (d.finish g st r).op g = none := by
  unfold Dev.finish
  rw [ho]
  dsimp only
  rw [hhalt]
  exact d.op_complete_same g o st r

/-- The end of an operation leaves the device's state. -/
theorem Dev.dev_finish (d : Dev) (g st : Nat) (r : Quad) : (d.finish g st r).h.dev = d.h.dev := by
  have hcomplete (o : Op) (st : Nat) (r : Quad) : (d.complete g o st r).h.dev = d.h.dev :=
    Dev.wakeBlind_dev.toIrqBlind.complete (fun _ _ _ => rfl) d g o st r
  unfold Dev.finish
  split
  · exact Dev.ite_kept (π := fun d => d.h.dev) (hcomplete ..) (Dev.ite_kept (π := fun d => d.h.dev) rfl (hcomplete ..))
  · rfl

/-! ## A write starts -/

/-- A record as of now is of the same area and body. -/
theorem Dev.asOfNow_spec (d : Dev) (k : JobKind) (r : Rec) : (d.asOfNow k r).area = r.area ∧ (d.asOfNow k r).body = r.body := by
  unfold Dev.asOfNow
  split
  · split <;> exact ⟨rfl, rfl⟩
  · exact ⟨rfl, rfl⟩
  · exact ⟨rfl, rfl⟩

/-- The plan of a write: the record as it is placed, and that its pages and its commit are among the operations. -/
theorem NonVol.plan_spec (v : NonVol) (c : Sec) (r : Rec) : (v.plan c r).1.area = r.area ∧ (v.plan c r).1.body = r.body ∧
    (v.plan c r).1.committed = false ∧ (v.plan c r).1.seq = (match v.current c r.area with | some x => x.seq + 1 | none => 1) ∧
    (∀ p, p < (v.plan c r).1.pages → .page (v.plan c r).1 p ∈ (v.plan c r).2) ∧
    .commit (v.plan c r).1.area (v.plan c r).1.seq ∈ (v.plan c r).2 := by
  refine ⟨rfl, rfl, (by decide : (erasedWord.normal == commitWord) = false), rfl, fun p hp => ?_, ?_⟩
  · exact List.mem_append_left _ (List.mem_append_right _ (List.mem_map_of_mem (List.mem_range.mpr hp)))
  · exact List.mem_append_right _ List.mem_cons_self

/-- The write in front of the queue starts. -/
theorem startJob_of_front {s : State} {t : Nat} {j : Job} {rest : List Job} {r : Rec} (hidle : s.dev.h.job = none) (hfront : s.dev.h.jobs = j :: rest)
    (hflash : s.dev.flashBad = false) (hr : j.record = some r) : startJob t s = { s with dev :=
      { s.dev.at t with
        h.jobs := rest
        h.job := some { j with
          record := some (s.nv.plan s.dev.h.sec (s.dev.asOfNow j.kind r)).1
          steps := (s.nv.plan s.dev.h.sec (s.dev.asOfNow j.kind r)).2 ++
            (if j.kind = .calibration then s.nv.dropOldCal (s.nv.plan s.dev.h.sec (s.dev.asOfNow j.kind r)).1.seq else []) } } } := by
  unfold startJob; dsimp only
  rw [show (s.dev.at t).h.job = none from hidle, show (s.dev.at t).h.jobs = j :: rest from hfront]
  refine (if_neg ?_).trans ?_
  · rw [show (s.dev.at t).flashBad = false from hflash]
    decide
  · rw [hr]
    rfl

/-! ## Operations of the write in progress -/

/-- While the write in progress goes on, the end of an operation is that operation alone. -/
theorem exec_flashOpComplete_of_job {s : State} {ok : Bool} {t : Nat} (h : ((s.mapDev (·.at t)).flashDone ok).dev.h.job.isSome = true) :
    exec (.flashOpComplete ok t) s = .next ((s.mapDev (·.at t)).flashDone ok) := by
  refine (?_ : execFlashOpComplete ok t s = _)
  unfold execFlashOpComplete; dsimp only
  generalize hu : (s.mapDev (·.at t)).flashDone ok = u at h
  have hsome : u.dev.h.job.isNone = false := by
    rw [Option.isNone_eq_false_iff]
    exact h
  split
  · refine if_neg ?_
    rw [hsome]
    split <;> simp
  · rfl

/-- Outside SETTINGS_HOLD too. -/
theorem exec_flashOpComplete_of_state {s : State} {ok : Bool} {t : Nat} (h : ((s.mapDev (·.at t)).flashDone ok).dev.h.dev ≠ .settingsHold) :
    exec (.flashOpComplete ok t) s = .next ((s.mapDev (·.at t)).flashDone ok) := by
  refine (?_ : execFlashOpComplete ok t s = _)
  unfold execFlashOpComplete; dsimp only
  split
  case h_1 hdev _ => exact absurd hdev h
  case h_2 => rfl

section
variable {s : State} {j : Job} {st : FlashStep} {l : List FlashStep} (hjob : s.dev.h.job = some j) (hsteps : j.steps = st :: l)
include hjob hsteps

/-- An operation that verifies with others to follow. -/
theorem State.flashDone_of_more (hl : l ≠ []) (hst : ∀ a q, st ≠ .commit a q) : s.flashDone true =
    { ({ s with nv := s.nv.apply st } : State).wearCheck with
      dev := { ({ s with nv := s.nv.apply st } : State).wearCheck.dev with
        h.job := some { j with
          steps := l
          tries := 0 } } } := by
  unfold State.flashDone
  rw [hjob]
  dsimp only
  rw [hsteps]
  refine (if_pos rfl).trans ?_
  cases st with
  | commit a q => exact absurd rfl (hst a q)
  | _ => exact if_neg (by simpa using hl)

/-- An operation that fails for the first time is to be repeated. -/
theorem State.flashDone_of_failure (htries : j.tries = 0) : s.flashDone false =
    ({ s with
      nv := s.nv.fails st
      dev := { s.dev with h.job := some { j with tries := 1 } } } : State).wearCheck := by
  unfold State.flashDone
  rw [hjob]
  dsimp only
  rw [hsteps]
  exact (if_neg Bool.false_ne_true).trans (if_pos htries)

/-- The last operation of a settings write, a commit that verifies: the write is done. -/
theorem State.flashDone_of_commit {q : Nat} (hst : st = .commit .settings q) (hl : l = []) (hkind : j.kind = .settings) (haband : j.abandoned = false)
    (hwear : ∀ p ∈ s.nv.wear, p.2 < 80000) : s.flashDone true =
    { s with
      nv := s.nv.apply (.commit .settings q)
      dev := s.dev.jobDone { j with
        steps := []
        tries := 0 } } := by
  subst hst hl
  have hcheck : ({ s with nv := s.nv.apply (.commit .settings q) } : State).wearCheck = { s with nv := s.nv.apply (.commit .settings q) } := by
    refine if_neg ?_
    have hany : (s.nv.apply (.commit .settings q)).wear.any (fun p => decide (80000 ≤ p.2)) = false := by
      refine List.any_eq_false.mpr fun p hp => ?_
      rw [decide_eq_true_eq]
      exact Nat.not_le.mpr (hwear p hp)
    rw [hany]
    exact Bool.false_ne_true
  unfold State.flashDone
  rw [hjob]
  dsimp only
  rw [hsteps]
  refine (if_pos rfl).trans ?_
  dsimp only
  rw [haband, hcheck]
  refine (if_pos rfl).trans ?_
  have hcommitted : ({ s with nv := s.nv.apply (.commit .settings q) } : State).committed j .settings q =
      { s with nv := s.nv.apply (.commit .settings q) } := by
    refine (if_neg (by decide)).trans (if_neg ?_)
    rw [hkind]
    decide
  rw [if_neg Bool.false_ne_true, hcommitted]
  unfold State.jobRunsOut
  rw [hkind]
  exact congrArg (fun d : Dev => ({ s with
    nv := s.nv.apply (.commit .settings q)
    dev := d } : State)) (if_neg Bool.false_ne_true)

end

/-- The device with no write in progress and NVS_LAST at a settings write's success. -/
def Dev.settingsNoted (d : Dev) : Dev := ({ d with h.job := none } : Dev).nvsLast 1 0

theorem Dev.jobDone_of_settings (d : Dev) {j : Job} (hkind : j.kind = .settings) :
    d.jobDone j = (d.settingsNoted.jobEnds j stOK (BitVec.ofNat 64 j.seq)).v3 := by
  unfold Dev.jobDone
  rw [hkind]
  rfl

/-- The end of a write's command leaves what a completion does. -/
theorem Dev.CalmBlind.jobEnds {α : Type} {π : Dev → α} (h : Dev.CalmBlind π) (d : Dev) (j : Job) (st : Nat) (r : Quad) :
    π (d.jobEnds j st r) = π d := by
  unfold Dev.jobEnds
  split
  · exact h.finish d _ _ _
  · rfl

/-- What a settings write that is done leaves. -/
theorem Dev.jobDone_settings_spec (d : Dev) {j : Job} (hkind : j.kind = .settings) : (d.jobDone j).h.job = none ∧
    (d.jobDone j).fld Fld.NVS_LAST_CAUSE = 0 ∧ (d.jobDone j).fld Fld.NVS_LAST_TYPE = 1 ∧ (d.jobDone j).h.dev = d.h.dev ∧
    (∀ g x, j.tag = some g → d.op g = some x → x.halted = false → (d.jobDone j).op g = none) := by
  have hcalm {α : Type} {π : Dev → α} (h : Dev.CalmBlind π) : π (d.jobDone j) = π d.settingsNoted := by
    rw [d.jobDone_of_settings hkind]
    exact (h.v3 _).trans (h.jobEnds _ j _ _)
  refine ⟨?_, ?_, ?_, ?_, fun g x hg hx hhalt => ?_⟩
  · refine (hcalm (Dev.Blind.of_core (π := fun d => d.h.job) fun _ => rfl).toCalmBlind).trans ?_
    simp [Dev.settingsNoted, Dev.nvsLast]
  · refine (hcalm (Dev.stateBlind_fld (F := Fld.NVS_LAST_CAUSE) (by decide)).toCalmBlind).trans ?_
    exact Dev.fld_setFld_same (({ d with h.job := none } : Dev).setFld Fld.NVS_LAST_TYPE 1) Fld.NVS_LAST_CAUSE 0 (by decide)
  · refine (hcalm (Dev.stateBlind_fld (F := Fld.NVS_LAST_TYPE) (by decide)).toCalmBlind).trans ?_
    refine (Dev.fld_setFld_ne _ Fld.NVS_LAST_CAUSE Fld.NVS_LAST_TYPE 0 (by decide) (by decide)).trans ?_
    exact Dev.fld_setFld_same ({ d with h.job := none } : Dev) Fld.NVS_LAST_TYPE 1 (by decide)
  · rw [d.jobDone_of_settings hkind]
    refine (Dev.wakeBlind_dev.v3 _).trans (Eq.trans ?_ (by simp [Dev.settingsNoted, Dev.nvsLast] : d.settingsNoted.h.dev = d.h.dev))
    unfold Dev.jobEnds
    split
    · exact Dev.dev_finish ..
    · rfl
  · rw [d.jobDone_of_settings hkind]
    refine ((Dev.irqBlind_op g).v3 _).trans ?_
    unfold Dev.jobEnds
    rw [hg]
    refine Dev.op_finish_same (o := x) ?_ hhalt _ _
    simpa [Dev.settingsNoted, Dev.nvsLast, Dev.op] using hx

/-! ## A chunk programmed -/

/-- The device with a chunk staged and its programming ended. -/
def Dev.chunkStaged (d : Dev) (k : Nat) : Dev :=
  { d with
    h.job := none
    h.stg := { d.h.stg with staged := keyIn d.h.stg.staged k } }

/-- The device that shows a chunk as programmed. -/
def Dev.chunkShown (d : Dev) : Dev := (((d.setFld Fld.FW_STATUS_BUSY 0).setFld Fld.FW_STATUS_CHUNK_OK 1).setFld Fld.FW_STATUS_CAUSE 0).v3

theorem doChunkComplete_of_done {d : Dev} {t k : Nat} {slot : Bool} {j : Job} (hjob : d.h.job = some j) (hkind : j.kind = .chunk slot k)
    (hsteps : j.steps = []) (haband : j.abandoned = false) : doChunkComplete t d =
    ((d.at t).chunkStaged k).chunkShown := by
  unfold doChunkComplete; dsimp only
  rw [show (d.at t).h.job = some j from hjob]
  dsimp only
  rw [hkind]
  dsimp only
  rw [hsteps, haband]
  rfl

theorem Dev.chunkShown_spec (d : Dev) : d.chunkShown.fld Fld.FW_STATUS_BUSY = 0 ∧ d.chunkShown.fld Fld.FW_STATUS_CHUNK_OK = 1 ∧
    d.chunkShown.fld Fld.FW_STATUS_CAUSE = 0 ∧ d.chunkShown.h.job = d.h.job ∧ d.chunkShown.h.stg = d.h.stg := by
  obtain ⟨b, hb⟩ : ∃ b, b = d.setFld Fld.FW_STATUS_BUSY 0 := ⟨_, rfl⟩
  obtain ⟨o, ho⟩ : ∃ o, o = b.setFld Fld.FW_STATUS_CHUNK_OK 1 := ⟨_, rfl⟩
  obtain ⟨e, he⟩ : ∃ e, e = d.chunkShown := ⟨_, rfl⟩
  have hshown : e = (o.setFld Fld.FW_STATUS_CAUSE 0).v3 := by
    rw [he, ho, hb]
    rfl
  have hreg : e.rd Reg.FW_STATUS = (o.setFld Fld.FW_STATUS_CAUSE 0).rd Reg.FW_STATUS := by
    rw [hshown]
    exact (Dev.blind_rd (k := Reg.FW_STATUS) (by decide)).v3 _
  rw [← he]
  have hcause (F : Fld) (hF : F.off = Reg.FW_STATUS) (hw : F.lo + F.w ≤ 32) (hne : F.lo + F.w ≤ 12 ∨ 16 ≤ F.lo) : e.fld F = o.fld F :=
    (Dev.fld_of_rd (hF ▸ hreg)).trans (Dev.fld_setFld_ne o Fld.FW_STATUS_CAUSE F 0 hw (.inr hne))
  refine ⟨?_, ?_, ?_, ?_, ?_⟩
  · refine (hcause Fld.FW_STATUS_BUSY rfl (by decide) (by decide)).trans ?_
    rw [ho, Dev.fld_setFld_ne b Fld.FW_STATUS_CHUNK_OK Fld.FW_STATUS_BUSY 1 (by decide) (by decide), hb]
    exact Dev.fld_setFld_same d Fld.FW_STATUS_BUSY 0 (by decide)
  · refine (hcause Fld.FW_STATUS_CHUNK_OK rfl (by decide) (by decide)).trans ?_
    rw [ho]
    exact Dev.fld_setFld_same b Fld.FW_STATUS_CHUNK_OK 1 (by decide)
  · exact (Dev.fld_of_rd (F := Fld.FW_STATUS_CAUSE) hreg).trans (Dev.fld_setFld_same o Fld.FW_STATUS_CAUSE 0 (by decide))
  · rw [hshown]
    refine ((Dev.Blind.of_core (π := fun d => d.h.job) fun _ => rfl).v3 _).trans ?_
    simp [ho, hb]
  · rw [hshown]
    refine ((Dev.Blind.of_core (π := fun d => d.h.stg) fun _ => rfl).v3 _).trans ?_
    simp [ho, hb]

/-! ## The statement -/

/-- The check of the erase counts leaves the storage queue. -/
theorem State.wearCheck_queue (s : State) : s.wearCheck.dev.h.jobs = s.dev.h.jobs ∧ s.wearCheck.dev.h.job = s.dev.h.job :=
  ⟨(Dev.Blind.of_core (π := fun d => d.h.jobs) fun _ => rfl).wearCheck (fun _ _ => rfl) s,
    (Dev.Blind.of_core (π := fun d => d.h.job) fun _ => rfl).wearCheck (fun _ _ => rfl) s⟩

/-- The commit of a settings record that has not been retired. -/
theorem NonVol.apply_commit (v : NonVol) (q : Nat) : v.apply (.commit .settings q) = { v with recs := v.recs.map (fun x =>
    if x.area == .settings && x.seq == q && !x.retired then { x with commit := programWord x.commit commitWord } else x) } := by
  refine congrArg (fun l => { v with recs := l }) (List.map_congr_left fun x _ => ?_)
  dsimp only
  by_cases hx : (x.area == .settings && x.seq == q) = true
  · rw [if_pos hx, hx]
    cases hret : x.retired
    · rfl
    · rfl
  · rw [if_neg hx, if_neg]
    rw [Bool.not_eq_true] at hx
    rw [hx]
    exact Bool.false_ne_true

/-- Settles O44: the write in front is planned with its pages and commit, and each operation is the front of the plan. -/
theorem recordWritesRunTheirOperations : Obligations.RecordWritesRunTheirOperations := by
  unfold Obligations.RecordWritesRunTheirOperations
  intro s t j
  refine ⟨?_, ?_, ?_, ?_⟩
  · intro rest r hidle hfront hflash hr
    obtain ⟨harea, hbody⟩ := s.dev.asOfNow_spec j.kind r
    obtain ⟨hparea, hpbody, hopen, hseq, hpages, hcommit⟩ := s.nv.plan_spec s.dev.h.sec (s.dev.asOfNow j.kind r)
    refine ⟨_, _, _, congrArg Host.Outcome.next (startJob_of_front hidle hfront hflash hr), rfl, rfl, rfl, rfl, rfl, hparea.trans harea,
      hpbody.trans hbody, hopen, ?_, fun p hp => List.mem_append_left _ (hpages p hp), List.mem_append_left _ hcommit, rfl, rfl, rfl, rfl⟩
    rw [harea] at hseq
    exact hseq
  · intro st l hjob hsteps
    refine ⟨fun hl hst => ?_, fun htries => ?_⟩
    · have hdone := State.flashDone_of_more (s := s.mapDev (·.at t)) hjob hsteps hl hst
      obtain ⟨hnv, hpend⟩ := ({ s.mapDev (·.at t) with nv := (s.mapDev (·.at t)).nv.apply st } : State).wearCheck_nv
      obtain ⟨hjobs, -⟩ := ({ s.mapDev (·.at t) with nv := (s.mapDev (·.at t)).nv.apply st } : State).wearCheck_queue
      refine ⟨_, exec_flashOpComplete_of_job (by rw [hdone]; rfl), ?_, ?_, ?_, ?_⟩
      · rw [hdone]; exact hnv
      · rw [hdone]
      · rw [hdone]; exact hjobs
      · rw [hdone]; exact hpend
    · have hdone := State.flashDone_of_failure (s := s.mapDev (·.at t)) hjob hsteps htries
      generalize hu : ({ s.mapDev (·.at t) with
        nv := (s.mapDev (·.at t)).nv.fails st
        dev := { (s.mapDev (·.at t)).dev with h.job := some { j with tries := 1 } } } : State) = u at hdone
      obtain ⟨hnv, hpend⟩ := u.wearCheck_nv
      obtain ⟨hjobs, hjobNow⟩ := u.wearCheck_queue
      have hjobNow' : u.wearCheck.dev.h.job = some { j with tries := 1 } := hjobNow.trans (by rw [← hu])
      refine ⟨u.wearCheck, ?_, hnv.trans (by rw [← hu]; rfl), hjobNow', hjobs.trans (by rw [← hu]; rfl), hpend.trans (by rw [← hu]; rfl)⟩
      exact (exec_flashOpComplete_of_job (by rw [hdone, hjobNow']; rfl)).trans (congrArg Host.Outcome.next hdone)
  · intro q r hjob hkind haband hsteps hr hq hhold hwear
    have hdone := State.flashDone_of_commit (s := s.mapDev (·.at t)) hjob hsteps rfl rfl hkind haband hwear
    obtain ⟨hnone, hcause, htyp, hdev, hop⟩ := (s.dev.at t).jobDone_settings_spec (j := { j with
      steps := []
      tries := 0 }) hkind
    refine ⟨_, (exec_flashOpComplete_of_state (by rw [hdone]; exact hdev ▸ hhold)).trans (congrArg Host.Outcome.next hdone),
      s.nv.apply_commit q, by decide, hnone, hcause, htyp, hop, rfl⟩
  · intro slot k hjob hkind hsteps haband
    obtain ⟨hbusy, hok, hcause, hnone, hstg⟩ := ((s.dev.at t).chunkStaged k).chunkShown_spec
    exact ⟨_, s.onDev_of (doChunkComplete_of_done hjob hkind hsteps haband), hnone, hstg, Dev.flag_of_zero hbusy, Dev.flag_of_one hok, hcause, rfl, rfl⟩

end Sys2Proof.Machine
end

section
/-!
PROOF. The PCIe link and host writes of registers (R69, R71, R77, R82 to R84, R90, R388).
-/

namespace Sys2Proof.Machine

/-! ## The PCIe link -/

theorem Dev.rd_linkStatus (d : Dev) (speed width : Nat) :
    (d.linkStatus speed width).rd Reg.PCI_LINK_STATUS = BitVec.ofNat 32 (speed % 16 + width % 4 * 16) := by
  unfold Dev.linkStatus; dsimp only
  rw [Dev.rd_wr_ne _ _ (by decide), Dev.rd_wr_same]

/-- A device with power and PERST_N released takes the link's events. -/
theorem doPcieLinkDown_of_open {d : Dev} {t : Nat} (hoff : d.h.dev ≠ .off) (hperst : d.h.boot.perst = false) :
    doPcieLinkDown t d = ((d.at t).linkStatus 0 0).raiseBoth .h Sn.PCI_LINK_DOWN := by
  refine if_neg ?_
  rw [Dev.at_h, hperst]
  simpa using hoff

/-- The device with the link returned and PCI_LINK_DOWN ended. -/
def Dev.linkReturned (d : Dev) (speed width : Nat) : Dev := (d.linkStatus speed width).condEnd .h Sn.PCI_LINK_DOWN

theorem doPcieLinkUp_of_open {d : Dev} {speed width t : Nat} (hoff : d.h.dev ≠ .off) (hperst : d.h.boot.perst = false) (hlo : 1 ≤ speed)
    (hhi : speed ≤ 4) (htarget : speed ≤ d.targetSpeed) (hwidth : width = 1 ∨ width = 2) : doPcieLinkUp speed width t d =
    if speed < 4 ∨ width = 1 then ((d.at t).linkReturned speed width).raiseBoth .h Sn.PCI_SPEED_DEGRADE
    else ((d.at t).linkReturned speed width).condEnd .h Sn.PCI_SPEED_DEGRADE := by
  refine if_neg ?_
  have hmin : ¬ min 4 (d.at t).targetSpeed < speed := Nat.not_lt.mpr (Nat.le_min.mpr ⟨hhi, htarget⟩)
  rw [Dev.at_h, hperst, decide_eq_false hmin]
  rcases hwidth with rfl | rfl
  · simp [hoff]
    omega
  · simp [hoff]
    omega

theorem Dev.linkReturned_apart (d : Dev) (speed width : Nat) : (d.linkStatus speed width).SameApart (d.linkReturned speed width) :=
  Dev.condEnd_apart _ _ _

theorem Dev.rd_linkReturned (d : Dev) (speed width : Nat) :
    (d.linkReturned speed width).rd Reg.PCI_LINK_STATUS = BitVec.ofNat 32 (speed % 16 + width % 4 * 16) :=
  (Dev.rd_condEnd _ _ _ _).trans (d.rd_linkStatus speed width)

/-- Settles O17: the status is written first, and what is raised or ended then leaves it; each source is the last one raised or ended of its
name. -/
theorem pcieLinkEvents : Obligations.PcieLinkEvents := by
  unfold Obligations.PcieLinkEvents
  intro s speed width t hoff hperst
  have hstatus {i : Nat} (hi : i < 96) (d : Dev) : (d.raiseBoth .h i).rd Reg.PCI_LINK_STATUS = d.rd Reg.PCI_LINK_STATUS :=
    (Dev.blind_rd (k := Reg.PCI_LINK_STATUS) (by decide)).raiseBothH (fun _ _ => rfl) hi d
  refine ⟨?_, fun htarget => ?_, fun hlo hhi htarget hwidth => ?_, fun hrest => ?_⟩
  · refine ⟨_, s.onDev_of (doPcieLinkDown_of_open hoff hperst), (hstatus (by decide) _).trans ?_, ?_, Dev.raiseBoth_apart _ _ (by decide), rfl, rfl⟩
    · exact ((s.dev.at t).rd_linkStatus 0 0).trans rfl
    · refine (Dev.last_raise _ .h true true (by decide)).trans ?_
      simp [Dev.linkStatus]
  · have hup : doPcieLinkUp 4 2 t s.dev = ((s.dev.at t).linkReturned 4 2).condEnd .h Sn.PCI_SPEED_DEGRADE :=
      (doPcieLinkUp_of_open hoff hperst (by decide) (by decide) htarget (.inr rfl)).trans (if_neg (by decide))
    refine ⟨_, s.onDev_of hup, (Dev.rd_condEnd _ _ _ _).trans (((s.dev.at t).rd_linkReturned 4 2).trans rfl), ?_, Dev.condEnd_inactive _ _ _,
      ((s.dev.at t).linkReturned_apart 4 2).trans (Dev.condEnd_apart _ _ _), rfl, rfl⟩
    rw [Dev.src_condEnd_ne _ _ (by decide)]
    exact Dev.condEnd_inactive _ _ _
  · have hslow : speed < 4 ∨ width = 1 := by omega
    have hup : doPcieLinkUp speed width t s.dev = ((s.dev.at t).linkReturned speed width).raiseBoth .h Sn.PCI_SPEED_DEGRADE :=
      (doPcieLinkUp_of_open hoff hperst hlo hhi htarget (hwidth.imp id And.left)).trans (if_pos hslow)
    refine ⟨_, s.onDev_of hup, (hstatus (by decide) _).trans (((s.dev.at t).rd_linkReturned speed width).trans ?_), ?_, ?_,
      ((s.dev.at t).linkReturned_apart speed width).trans (Dev.raiseBoth_apart _ _ (by decide)), rfl, rfl⟩
    · congr 1
      omega
    · refine congrArg Src.active ((Dev.blind_src .h Sn.PCI_LINK_DOWN).raiseBothH (fun d s => d.src_setSrc_ne .h s (by decide)) (by decide) _) |>.trans ?_
      exact Dev.condEnd_inactive _ _ _
    · refine (Dev.last_raise _ .h true true (by decide)).trans ?_
      exact ((Dev.condEnd_apart _ _ _).now).trans (by simp [Dev.linkStatus])
  · refine s.onDev_of ?_
    unfold doPcieL1Exit Dev.wake
    rw [show ({ s.dev.at t with h.pm := .l0 } : Dev).f.ch.rest = none from hrest]
    rfl

/-! ## The ownership map -/

/-- A write of a register whose row takes every bit. -/
theorem Dev.wrAccess_of_rw (d : Dev) {k : Nat} {r : RegSpec} (data : Word) (hr : specOf (baseOff k) = some r) :
    d.wrAccess k data = d.wr k (writeBits r (d.rd k) data) := by
  unfold Dev.wrAccess
  rw [hr]

theorem specOf_ownCh : ∀ i, i < 3 → specOf (baseOff (Reg.PCI_OWN_CH i)) = some ⟨0x0110, 3, 4, 0xFFFFFFFF, 0x0, 0x0, 0x0⟩ := by decide

theorem Dev.wrAccess_ownCh (d : Dev) {i : Nat} (hi : i < 3) (data : Word) :
    d.wrAccess (Reg.PCI_OWN_CH i) data = d.wr (Reg.PCI_OWN_CH i) data := by
  rw [d.wrAccess_of_rw data (specOf_ownCh i hi)]
  refine congrArg (d.wr _) ?_
  have hall (old : Word) : (old &&& ~~~(BitVec.allOnes 32)) ||| (data &&& BitVec.allOnes 32) = data := by
    rw [BitVec.and_allOnes, BitVec.not_allOnes, BitVec.and_zero, BitVec.zero_or]
  exact (writeBits_of_no_w1c rfl _ _).trans (hall _)

/-- A write of the map's channel words reaches the map. -/
theorem exec_ownershipMapWrite {s : State} {fn : Func} {i : Nat} (data : Word) (hopen : s.dev.hostOpen fn = true) (hi : i < 3) :
    exec (.ownershipMapWrite fn (Reg.PCI_OWN_CH i) data) s = .next { s with dev := s.dev.mapWrite fn (Reg.PCI_OWN_CH i) data } := by
  have hlo : 0x110 ≤ Reg.PCI_OWN_CH i := Nat.le_add_right _ _
  have hhi : Reg.PCI_OWN_CH i < 0x11C := by
    unfold Reg.PCI_OWN_CH
    omega
  refine s.onDev_of ((if_neg ?_).trans ((Dev.hostDo_of_open s.dev _ _ hopen).trans (if_pos (.inl ⟨hlo, hhi⟩))))
  simp only [Bool.or_eq_true, decide_eq_true_eq]
  omega

/-- The device with the channels' orders of ownership replaced. -/
def Dev.ordered (d : Dev) (ord : Tab Nat) : Dev := { d with f.ch.ownOrd := ord }

/-- A write of a channel word is refused to Function B, under LOCK, and with a reserved code; channels are never busy. -/
theorem Dev.mapWrite_ownCh {d : Dev} {fn : Func} {i : Nat} {data : Word} (hi : i < 3) :
    ((fn = true ∨ d.flag Fld.PCI_OWN_CTRL_LOCK = true) → d.mapWrite fn (Reg.PCI_OWN_CH i) data = d.mapRej) ∧
    (fn = false → d.flag Fld.PCI_OWN_CTRL_LOCK = false → (∀ k, k < 16 → mapCodeAt data k ≠ 3) →
      ∃ ord, d.mapWrite fn (Reg.PCI_OWN_CH i) data = (d.ordered ord).wr (Reg.PCI_OWN_CH i) data) := by
  have hport : Reg.PCI_OWN_CH i < Reg.PCI_OWN_PORT := by
    unfold Reg.PCI_OWN_CH Reg.PCI_OWN_PORT
    omega
  have hft : Reg.PCI_OWN_CH i ≠ Reg.PCI_OWN_FT := by
    unfold Reg.PCI_OWN_CH Reg.PCI_OWN_FT
    omega
  have hbusy (k : Nat) : d.mapBusy (Reg.PCI_OWN_CH i) k = false :=
    (if_neg hft).trans (if_pos (bne_iff_ne.mpr (Nat.ne_of_lt hport)))
  have hcodes : mapCodes (Reg.PCI_OWN_CH i) = 16 := (if_neg (Nat.ne_of_lt hport)).trans (if_neg hft)
  refine ⟨fun hrej => if_pos ?_, fun hfn hlock hgood => ⟨_, (if_neg ?_).trans ((if_pos hport).trans (Dev.wrAccess_ownCh _ hi data))⟩⟩
  · rcases hrej with h | h
    · simp [h]
    · simp [h]
  · rw [hfn, hlock, hcodes]
    simp only [hbusy, Bool.and_false, Bool.false_or, Bool.or_eq_true, List.any_eq_true, List.mem_range, beq_iff_eq, Bool.false_eq_true, and_false,
      exists_false, or_false, not_exists, not_and]
    exact hgood

/-! ## Register writes -/

/-- Outside REST nothing wakes. -/
theorem Dev.wake_of_awake {d : Dev} (h : d.f.ch.rest = none) (x : Die) (src : Nat) : d.wake x src = d := by
  unfold Dev.wake
  rw [h]
  rfl

section
variable {s : State} {fn : Func} {t : Nat} {ecrc : Bool} (hopen : s.dev.hostOpen fn = true)
include hopen

/-- An access reaches the endpoint, and wakes nothing. -/
theorem State.reached_of_open : ¬ ((s.mapDev (·.at t)).dev.h.dev = .off ∨ (s.mapDev (·.at t)).dev.h.boot.perst = true) ∧
    (s.mapDev (·.at t)).mapDev (·.wake .h 1) = { s with dev := s.dev.at t } := by
  obtain ⟨hbar, -, hrest⟩ := (s.dev.hostOpen_iff fn).mp hopen
  refine ⟨?_, congrArg (fun d : Dev => ({ s with dev := d } : State)) (Dev.wake_of_awake (d := s.dev.at t) hrest _ _)⟩
  simp only [Dev.barOpen, Bool.and_eq_true, bne_iff_ne, Bool.not_eq_true'] at hbar
  obtain ⟨⟨⟨hoff, hperst⟩, -⟩, -⟩ := hbar
  simp [State.mapDev, hoff, hperst]

variable (bar : Bar) (off size : Nat) (q : Quad)

/-- An access that the endpoint discards for its ECRC. -/
theorem exec_registerWrite_of_drop (hdrop : s.dev.ecrcDrops fn ecrc = true) :
    exec (.registerWrite fn bar off size q ecrc t) s = .next { s with dev := (s.dev.at t).ecrcError fn } := by
  obtain ⟨hreach, hwake⟩ := State.reached_of_open (t := t) hopen
  refine (if_neg hreach).trans ?_
  rw [hwake]
  exact if_pos hdrop

/-- An access that it takes. -/
theorem exec_registerWrite_of_open (hdrop : s.dev.ecrcDrops fn ecrc = false) :
    exec (.registerWrite fn .bar2 off size q ecrc t) s = .next { s with dev := (s.dev.at t).msixWrite fn off size q } ∧
    ((size ≠ 4 ∨ off % 4 ≠ 0) → exec (.registerWrite fn .bar0 off size q ecrc t) s = .next { s with dev := s.dev.at t }) ∧
    (size = 4 → off % 4 = 0 → exec (.registerWrite fn .bar0 off size q ecrc t) s =
      .next (({ s with dev := s.dev.at t } : State).regWrite fn off (q.extractLsb' 0 32))) := by
  obtain ⟨hreach, hwake⟩ := State.reached_of_open (t := t) hopen
  obtain ⟨hbar, hboot, -⟩ := (s.dev.hostOpen_iff fn).mp hopen
  have hgo (bar : Bar) (size : Nat) : exec (.registerWrite fn bar off size q ecrc t) s =
      match bar with
      | .bar2 => .next { s with dev := (s.dev.at t).msixWrite fn off size q }
      | .bar0 =>
        if size ≠ 4 ∨ off % 4 ≠ 0 ∨ !(s.dev.at t).bootAllows off then .next { s with dev := s.dev.at t }
        else .next (({ s with dev := s.dev.at t } : State).regWrite fn off (q.extractLsb' 0 32)) := by
    refine (if_neg hreach).trans ?_
    rw [hwake]
    refine (if_neg (by rw [show (s.dev.at t).ecrcDrops fn ecrc = false from hdrop]; decide)).trans ?_
    exact if_neg (by rw [show (s.dev.at t).barOpen fn = true from hbar]; decide)
  have hallow : (s.dev.at t).bootAllows off = true := by simp [Dev.bootAllows, hboot]
  refine ⟨hgo .bar2 size, fun hbad => (hgo .bar0 size).trans (if_pos ?_), fun hsize halign => (hgo .bar0 size).trans (if_neg ?_)⟩
  · exact hbad.imp id .inl
  · rw [hallow]
    simp [hsize, halign]

end

/-- With MSI-X disabled no message is sent. -/
theorem Dev.flushVectors_of_disabled {d : Dev} {fn : Func} (h : (d.pci fn).msixEn = false) : d.flushVectors fn = d := by
  have hstep (l : List Nat) : l.foldl (fun d v =>
      let p := d.pci fn
      if p.msixEn && !p.d3 && bitOf p.pba v && !d.masked fn v then (d.setPci fn { p with pba := p.pba - 2 ^ v }).message fn v else d) d = d := by
    induction l with
    | nil => rfl
    | cons v l ih =>
      rw [List.foldl_cons]
      dsimp only at ih ⊢
      rw [h]
      exact ih
  exact hstep _

theorem Dev.msixWrite_word {d : Dev} {fn : Func} {n : Nat} {q : Quad} (hn : n < 4) (hen : (d.pci fn).msixEn = false) :
    d.msixWrite fn (16 * n + 8) 4 q = d.wr (msixKey fn n 2) (q.extractLsb' 0 32) := by
  have hword : d.msixWord fn (16 * n + 8) (q.extractLsb' 0 32) = d.wr (msixKey fn n 2) (q.extractLsb' 0 32) := by
    refine (if_pos (by omega)).trans ?_
    rw [if_neg (by omega)]
    exact congrArg (fun k => d.wr (keyOf fn k) _) (by omega)
  refine (if_pos ⟨rfl, by omega⟩).trans ?_
  rw [hword]
  refine Dev.flushVectors_of_disabled ?_
  rw [← hen]
  cases fn <;> simp [Dev.pci]

theorem specOf_ringBase : ∀ n, n < 64 → specOf (baseOff (Reg.RM_RING_BASE_LO n)) = some ⟨0x0800, 64, 32, 0xFFFFFFC0, 0x0, 0x0, 0x0⟩ := by decide

/-- A base of a ring that is not enabled, by its owner. -/
theorem State.regWrite_ringBase {s : State} {fn : Func} {n : Nat} {data : Word} (hn : n < 64) (hown : s.dev.ringOwner n = fn)
    (hen : s.dev.ringEn n = false) : s.regWrite fn (Reg.RM_RING_BASE_LO n) data =
      { s with dev := (s.dev.wr (Reg.RM_RING_BASE_LO n) ((s.dev.rd (Reg.RM_RING_BASE_LO n) &&& 0x3F) ||| (data &&& 0xFFFFFFC0))) } := by
  have hoff : 0x800 ≤ Reg.RM_RING_BASE_LO n ∧ Reg.RM_RING_BASE_LO n < 0x1000 := by
    unfold Reg.RM_RING_BASE_LO
    omega
  have hmod : Reg.RM_RING_BASE_LO n % 32 = 0 ∧ (Reg.RM_RING_BASE_LO n - 0x800) / 32 = n := by
    unfold Reg.RM_RING_BASE_LO
    omega
  have hspec : specOf (Reg.RM_RING_BASE_LO n) = some ⟨0x0800, 64, 32, 0xFFFFFFC0, 0x0, 0x0, 0x0⟩ := by
    rw [← specOf_ringBase n hn]
    exact congrArg specOf (by unfold baseOff; rw [if_neg (by omega)])
  have hring : s.dev.rmWrite fn (Reg.RM_RING_BASE_LO n) data = s.dev.wrAccess (Reg.RM_RING_BASE_LO n) data := by
    refine (if_pos hoff).trans ?_
    rw [hmod.2]
    refine (if_neg ?_).trans (if_neg ?_)
    · unfold Reg.RM_RING_BASE_LO Reg.RM_RING_CFG
      omega
    · rw [hown, hen]
      simp
  have hblock : s.blockWrite fn (Reg.RM_RING_BASE_LO n) data = s.mapDev (·.rmWrite fn (Reg.RM_RING_BASE_LO n) data) :=
    (if_neg (by omega)).trans ((if_neg (by omega)).trans (if_pos (by omega)))
  refine (if_pos (by omega)).trans ?_
  rw [hspec]
  refine (if_neg ?_).trans ((if_neg (by omega)).trans (hblock.trans ?_))
  · unfold Reg.RM_RING_BASE_LO Reg.SYS_LOCK_SET
    omega
  · refine congrArg (fun d : Dev => ({ s with dev := d } : State)) (hring.trans ?_)
    rw [s.dev.wrAccess_of_rw data (specOf_ringBase n hn), writeBits_of_no_w1c rfl]
    rfl

/-! ## The global lock -/

/-- The bit of PRZ_CTRL in SYS_LOCK_SET sets its lock, unless it is set. -/
theorem State.lockSet_prz (s : State) : s.lockSet false 2 =
    if s.dev.flag Fld.PRZ_CTRL_LOCK then s else s.mapDev (·.setFld Fld.PRZ_CTRL_LOCK 1) := by
  have hset : s.lockSet false 2 = s.lockBit false 1 := rfl
  have hwrite : s.blockWrite false Reg.PRZ_CTRL 2 = s.mapDev (·.setFld Fld.PRZ_CTRL_LOCK 1) := rfl
  have hlocked : (s.mapDev (·.setFld Fld.PRZ_CTRL_LOCK 1)).dev.flag Fld.PRZ_CTRL_LOCK = true :=
    Dev.flag_of_one (Dev.fld_setFld_same s.dev Fld.PRZ_CTRL_LOCK 1 (by decide))
  rw [hset]
  by_cases hflag : s.dev.flag Fld.PRZ_CTRL_LOCK = true
  · exact (if_pos hflag).trans (if_pos hflag).symm
  · refine (if_neg hflag).trans (Eq.trans ?_ (if_neg hflag).symm)
    exact if_pos hlocked

theorem exec_sysLockSetWrite_prz {s : State} {t : Nat} (hopen : s.dev.hostOpen false = true) : exec (.sysLockSetWrite false 2 t) s =
    .next (({ s with dev := s.dev.at t } : State).lockSet false 2) :=
  congrArg Host.Outcome.next (State.hostDo_of_open (s.mapDev (·.at t)) _ _ (by exact hopen))

/-- Settles O18: each write reaches its block, whose register it changes or whose rejection it notes; a packet discarded changes AER alone. -/
theorem hostWritesRegisters : Obligations.HostWritesRegisters := by
  unfold Obligations.HostWritesRegisters
  intro s fn bar ecrc i n off size t data q hopen
  refine ⟨fun hi hfn hlock hgood => ?_, fun hi hrej => ?_, fun hdrop => ?_, fun hn hown hen hdrop => ?_, fun hbad hdrop => ?_,
    fun hn hen hdrop => ?_, fun hopenA => ?_⟩
  · obtain ⟨ord, hord⟩ := (Dev.mapWrite_ownCh (d := s.dev) (fn := fn) (data := data) hi).2 hfn hlock hgood
    refine ⟨_, (exec_ownershipMapWrite data hopen hi).trans (congrArg (fun d : Dev => Host.Outcome.next ({ s with dev := d } : State)) hord),
      Dev.rd_wr_same .., fun k hk => Dev.rd_wr_ne (s.dev.ordered ord) data hk, ?_, rfl, rfl⟩
    dsimp only
    rw [Dev.wr_f]
    rfl
  · exact (exec_ownershipMapWrite data hopen hi).trans (by rw [(Dev.mapWrite_ownCh hi).1 hrej]; rfl)
  · refine ⟨_, exec_registerWrite_of_drop hopen bar off size q hdrop, ?_, ?_, Dev.raiseFn_apart _ _ _ (by decide), rfl, rfl⟩
    · refine ((Dev.blind_rd (k := cfgKey fn 0x104) (by cases fn <;> decide)).raiseH (fun _ _ => rfl) (by decide) _ _ _).trans ?_
      exact Dev.rd_wr_same ..
    · refine (Dev.last_raise _ .h _ _ (by decide)).trans ?_
      simp [Dev.aer]
  · refine ((exec_registerWrite_of_open hopen _ 4 q hdrop).2.2 rfl ?_).trans (congrArg Host.Outcome.next (State.regWrite_ringBase hn hown hen))
    unfold Reg.RM_RING_BASE_LO
    omega
  · exact (exec_registerWrite_of_open hopen off size q hdrop).2.1 hbad
  · refine (exec_registerWrite_of_open hopen _ 4 q hdrop).1.trans ?_
    rw [Dev.msixWrite_word hn (by cases fn <;> exact hen)]
  · refine ⟨_, exec_sysLockSetWrite_prz hopenA, ?_⟩
    rw [State.lockSet_prz]
    split
    next hflag =>
      refine ⟨?_, fun k hk => rfl, rfl, rfl, rfl⟩
      simpa [Dev.flag] using hflag
    next =>
      exact ⟨Dev.fld_setFld_same (s.dev.at t) Fld.PRZ_CTRL_LOCK 1 (by decide), fun k hk => Dev.rd_setFld_ne (s.dev.at t) Fld.PRZ_CTRL_LOCK 1 hk,
        Dev.wr_f_of_h (s.dev.at t) _ (by decide), rfl, rfl⟩

end Sys2Proof.Machine
end

section
/-!
PROOF. Rings enabled and disabled (R92, R93, R115).
-/

namespace Sys2Proof.Machine

/-! ## Rings and completions -/

theorem Dev.irqBlind_ring (m : Nat) : Dev.IrqBlind (fun d => d.ring m) where
  emit _ _ := rfl
  wrHalt d k v _ := by simp [Dev.ring]
  pci d fn p := by cases fn <;> rfl
  irqRest _ _ := rfl

/-- What a completion leaves of a ring: whether it runs, why it stopped, its reads and CI. -/
def Ring.course (r : Ring) : Bool × Nat × List (Nat × Bool) × Nat := (r.running, r.stop, r.fetching, r.ci)

/-- A completion leaves the other rings, and the course of its own. -/
theorem Dev.ring_complete (d : Dev) (g : Nat) (o : Op) (st : Nat) (r : Quad) (m : Nat) :
    ((d.complete g o st r).ring m).course = (d.ring m).course ∧ (m ≠ o.ring → (d.complete g o st r).ring m = d.ring m) := by
  have h := Dev.irqBlind_ring m
  have hring (e : Dev) (x : Ring) (hx : x.course = (d.ring o.ring).course) (he : e.ring m = d.ring m) :
      ((e.setRing o.ring x).ring m).course = (d.ring m).course ∧ (m ≠ o.ring → (e.setRing o.ring x).ring m = d.ring m) := by
    by_cases hm : m = o.ring
    · subst hm
      exact ⟨(congrArg Ring.course (e.ring_setRing_same _ x)).trans hx, fun hne => absurd rfl hne⟩
    · have hne := (e.ring_setRing_ne x hm).trans he
      exact ⟨congrArg Ring.course hne, fun _ => hne⟩
  have hsame (e : Dev) (he : e.ring m = d.ring m) : (e.ring m).course = (d.ring m).course ∧ (m ≠ o.ring → e.ring m = d.ring m) :=
    ⟨congrArg Ring.course he, fun _ => he⟩
  unfold Dev.complete; dsimp only
  split
  · exact hsame _ rfl
  split
  · exact hsame _ (h.bump _ _ _ (by cases o.fn <;> rfl) (by cases o.fn <;> rfl))
  · exact hring _ _ rfl (h.tlp _ _ _)

theorem Dev.op_complete (d : Dev) (g : Nat) (o : Op) (st : Nat) (r : Quad) (k : Nat) :
    (d.complete g o st r).op k = if k = g then none else d.op k :=
  ((Dev.irqBlind_op k).complete (fun _ _ _ => rfl) d g o st r).trans (d.op_setOp g k none)

/-! ## A ring stops -/

/-- A ring's operations that have not been opened. -/
def unopened (n : Nat) (p : Nat × Op) : Bool := p.2.ring == n && p.2.stage == .admitted

/-- A ring's operations that have not been opened complete ABORTED. -/
def Dev.abortUnopened (n : Nat) (l : List (Nat × Op)) (d : Dev) : Dev :=
  l.foldl (fun d p => if unopened n p then d.complete p.1 p.2 stABORTED 0 else d) d

theorem Dev.abortUnopened_cons (n : Nat) (p : Nat × Op) (l : List (Nat × Op)) (d : Dev) : Dev.abortUnopened n (p :: l) d =
    Dev.abortUnopened n l (if unopened n p then d.complete p.1 p.2 stABORTED 0 else d) := rfl

theorem Dev.op_abortUnopened (n g : Nat) : ∀ (l : List (Nat × Op)) (d : Dev),
    (Dev.abortUnopened n l d).op g = if l.any (fun p => p.1 == g && unopened n p) then none else d.op g
  | [], _ => rfl
  | p :: l, d => by
    rw [Dev.abortUnopened_cons, Dev.op_abortUnopened n g l, List.any_cons]
    cases hl : l.any (fun p => p.1 == g && unopened n p) with
    | true => simp
    | false =>
      cases hp : unopened n p with
      | false => simp
      | true =>
        simp only [Bool.and_true, Bool.or_false, if_true, Bool.false_eq_true, if_false, Dev.op_complete, beq_iff_eq]
        by_cases hg : p.1 = g
        · rw [if_pos hg, if_pos hg.symm]
        · rw [if_neg hg, if_neg (Ne.symm hg)]

theorem Dev.ring_abortUnopened (n m : Nat) : ∀ (l : List (Nat × Op)) (d : Dev),
    ((Dev.abortUnopened n l d).ring m).course = (d.ring m).course ∧ (m ≠ n → (Dev.abortUnopened n l d).ring m = d.ring m)
  | [], _ => ⟨rfl, fun _ => rfl⟩
  | p :: l, d => by
    obtain ⟨hcourse, hne⟩ := Dev.ring_abortUnopened n m l (if unopened n p then d.complete p.1 p.2 stABORTED 0 else d)
    rw [Dev.abortUnopened_cons]
    cases hp : unopened n p with
    | false =>
      rw [hp] at hcourse hne
      exact ⟨hcourse, hne⟩
    | true =>
      rw [hp] at hcourse hne
      have hring : p.2.ring = n := by
        simp only [unopened, Bool.and_eq_true, beq_iff_eq] at hp
        exact hp.1
      obtain ⟨hc, ho⟩ := d.ring_complete p.1 p.2 stABORTED 0 m
      exact ⟨hcourse.trans hc, fun hm => (hne hm).trans (ho (hring ▸ hm))⟩

/-- A ring stopped, before its slots are disarmed. -/
def Dev.ringHalted (d : Dev) (n cause : Nat) : Dev := d.setRing n { d.ring n with
  running := false
  stop := cause
  fetching := [] }

theorem Dev.ringStop_eq (d : Dev) (n cause : Nat) :
    d.ringStop n cause = (Dev.abortUnopened n (d.ringHalted n cause).opsList (d.ringHalted n cause)).slotsDisarm n := rfl

/-- The disarming of a ring's arms leaves what its slots, its operations on the F-side and what is sent are not part of. -/
theorem Dev.StreamBlind.slotsDisarm {α : Type} {π : Dev → α} (h : Dev.StreamBlind π) (hfop : ∀ (d : Dev) (g : Nat) (o : Option FOp), π (d.setFop g o) = π d)
    (hslot : ∀ (d : Dev) (n : Nat) (x : Slot), π (d.setSlot n x) = π d) (d : Dev) (n : Nat) : π (d.slotsDisarm n) = π d :=
  Dev.StreamBlind.foldl (π := π) _ (fun e k => Dev.ite_kept (h.slotFree hfop hslot e k) rfl) _ d

/-- What a stop leaves of a part that completions leave, and of operations and slots. -/
theorem Dev.CalmBlind.ringStop {α : Type} {π : Dev → α} (h : Dev.CalmBlind π) (hs : Dev.StreamBlind π)
    (hfop : ∀ (d : Dev) (g : Nat) (o : Option FOp), π (d.setFop g o) = π d) (hslot : ∀ (d : Dev) (n : Nat) (x : Slot), π (d.setSlot n x) = π d)
    (d : Dev) (n cause : Nat) : π (d.ringStop n cause) = π d :=
  (hs.slotsDisarm hfop hslot _ n).trans ((Dev.StreamBlind.foldl (π := π) _ (fun e _ => Dev.ite_kept (h.complete e _ _ _ _) rfl) _ _).trans (h.ring d n _))

/-- The rings and operations after a stop: the ring has stopped for the cause, and of its operations those not opened are gone. -/
theorem Dev.ringStop_spec {d : Dev} (hwf : Tab.wf (fun _ => none) d.h.ops = true) (n cause : Nat) :
    ((d.ringStop n cause).ring n).course = (false, cause, [], (d.ring n).ci) ∧
    (∀ tag o, (d.ringStop n cause).op tag = some o → o.ring = n → o.stage ≠ .admitted) ∧
    (∀ tag o, d.op tag = some o → o.ring ≠ n → (d.ringStop n cause).op tag = some o) ∧
    (∀ m, m ≠ n → (d.ringStop n cause).ring m = d.ring m) := by
  have hop (g : Nat) : (d.ringStop n cause).op g = if (d.ringHalted n cause).opsList.any (fun p => p.1 == g && unopened n p) then none else d.op g :=
    ((Dev.StreamBlind.of_unsent (π := fun d => d.op g) fun _ => rfl).slotsDisarm (fun _ _ _ => rfl) (fun _ _ _ => rfl) _ n).trans
      (Dev.op_abortUnopened n g _ _)
  have hring (m : Nat) : (d.ringStop n cause).ring m = (Dev.abortUnopened n (d.ringHalted n cause).opsList (d.ringHalted n cause)).ring m :=
    (Dev.StreamBlind.of_unsent (π := fun d => d.ring m) fun _ => rfl).slotsDisarm (fun _ _ _ => rfl) (fun _ _ _ => rfl) _ n
  have hmem (tag : Nat) (o : Op) : (tag, o) ∈ (d.ringHalted n cause).opsList ↔ d.op tag = some o :=
    Dev.mem_opsList (d := d.ringHalted n cause) hwf tag o
  refine ⟨?_, fun tag o ho hn hadm => ?_, fun tag o ho hn => ?_, fun m hm => ?_⟩
  · rw [hring, (Dev.ring_abortUnopened n n _ _).1, Dev.ringHalted, Dev.ring_setRing_same]
    rfl
  · rw [hop] at ho
    split at ho
    next => cases ho
    next hany =>
      refine hany (List.any_eq_true.mpr ⟨(tag, o), (hmem tag o).mpr ho, ?_⟩)
      simp [unopened, hn, hadm]
  · rw [hop, if_neg, ho]
    intro hany
    obtain ⟨⟨g, x⟩, hx, hp⟩ := List.any_eq_true.mp hany
    simp only [unopened, Bool.and_eq_true, beq_iff_eq] at hp
    obtain ⟨rfl, hxn, -⟩ := hp
    rw [hmem, ho] at hx
    exact hn (Option.some.inj hx ▸ hxn)
  · rw [hring, (Dev.ring_abortUnopened n m _ _).2 hm]
    exact Dev.ring_setRing_ne d _ hm

/-! ## RM_RING_CFG -/

theorem specOf_ringCfg : ∀ n, n < 64 → specOf (baseOff (Reg.RM_RING_CFG n)) = some ⟨0x0810, 64, 32, 0xFFFF003F, 0x0, 0x0, 0x28⟩ := by decide

/-- The gauge of a ring whose backlog is 0 may arm its watermark, and does no more. -/
theorem Dev.gauge_of_empty {d : Dev} {n : Nat} (h : d.backlog n = 0) : d.gauge n = d ∨ d.gauge n = d.setRing n { d.ring n with armed := true } := by
  have hreach : d.wmReached n (d.backlog n) = false := by
    rw [h]
    unfold Dev.wmReached
    cases hwm : d.fld (Fld.RM_BACKLOG_WM n) with
    | zero => simp
    | succ k => simp
  have hgauge : d.gauge n = d.gaugeNote n := by
    unfold Dev.gauge Dev.wmMessage
    rw [hreach]
    rfl
  rw [hgauge]
  unfold Dev.gaugeNote; dsimp only
  rw [hreach, if_neg Bool.false_ne_true]
  split
  · exact .inr rfl
  · exact .inl rfl

/-- The fields of RM_RING_CFG above EN as written with EN 1. -/
theorem bitsOf_or_one (data : Word) {lo w : Nat} (hlo : lo ≠ 0) : bitsOf (data ||| 1).toNat lo w = bitsOf data.toNat lo w := by
  refine Nat.eq_of_testBit_eq fun i => ?_
  have hbit := bitOf_or_one data (lo + i)
  rw [bitOf_eq_testBit, bitOf_eq_testBit, decide_eq_false (by omega), Bool.or_false] at hbit
  rw [testBit_bitsOf, testBit_bitsOf, hbit]

theorem haltReg_ringCfg {n : Nat} (hn : n < 64) : haltReg (Reg.RM_RING_CFG n) = false := by
  unfold haltReg
  simp only [Bool.or_eq_false_iff, beq_eq_false_iff_ne]
  unfold Reg.RM_RING_CFG Reg.PCI_INT_CAUSE Reg.PCI_DROP_CNT Reg.PCI_CNT_SAT copyB
  omega

/-- Its fields EN, DEPTH_LOG2 and GEN are RW. -/
theorem ringCfg_rw : ∀ p ∈ [(0, 1), (1, 4), (16, 16)], ∀ i < p.2, (0xFFFF003F : Word).getLsbD (p.1 + i) = true := by decide

/-- The device with RM_RING_CFG of a ring written with EN 1. -/
def Dev.ringCfgEn (d : Dev) (n : Nat) (data : Word) : Dev := d.wrAccess (Reg.RM_RING_CFG n) (data ||| 1)

theorem Dev.ringCfgEn_spec (d : Dev) {n : Nat} (hn : n < 64) (data : Word) : (d.ringCfgEn n data).ringEn n = true ∧
    (d.ringCfgEn n data).fld (Fld.RM_RING_CFG_DEPTH_LOG2 n) = bitsOf data.toNat 1 4 ∧
    (d.ringCfgEn n data).fld (Fld.RM_RING_CFG_GEN n) = bitsOf data.toNat 16 16 ∧ (d.ringCfgEn n data).f = d.f := by
  have hspec := specOf_ringCfg n hn
  refine ⟨?_, ?_, ?_, ?_⟩
  · have hen := d.fld_wrAccess (F := Fld.RM_RING_CFG_EN n) (data ||| 1) hspec (ringCfg_rw (0, 1) (by decide))
    have hbit := bitOf_or_one data 0
    rw [decide_eq_true rfl, Bool.or_true] at hbit
    exact (congrArg (· == 1) hen).trans hbit
  · exact (d.fld_wrAccess (F := Fld.RM_RING_CFG_DEPTH_LOG2 n) (data ||| 1) hspec (ringCfg_rw (1, 4) (by decide))).trans
      (bitsOf_or_one data (by decide : 1 ≠ 0))
  · exact (d.fld_wrAccess (F := Fld.RM_RING_CFG_GEN n) (data ||| 1) hspec (ringCfg_rw (16, 16) (by decide))).trans
      (bitsOf_or_one data (by decide : 16 ≠ 0))
  · rw [Dev.ringCfgEn, d.wrAccess_of_rw _ hspec]
    refine d.wr_f_of_h _ ?_
    unfold Reg.RM_RING_CFG baseOff onFSide
    rw [if_neg (by omega)]
    simp only [Bool.or_eq_false_iff, Bool.and_eq_false_iff, decide_eq_false_iff_not]
    omega

/-- An enable by the ring's owner. -/
theorem Dev.ringCfgWrite_of_enable {d : Dev} {fn : Func} {n : Nat} {data : Word} (hown : d.ringOwner n = fn) (hen : d.ringEn n = false) :
    d.ringCfgWrite fn n (data ||| 1) = if d.enableBad fn n (bitsOf data.toNat 1 4) then d.rmRej else (d.ringCfgEn n data).ringStart n := by
  have hbit : bitOf (data ||| 1).toNat 0 = true := (bitOf_or_one data 0).trans (by rw [decide_eq_true rfl, Bool.or_true])
  unfold Dev.ringCfgWrite; dsimp only
  rw [hown, hen, hbit, bitsOf_or_one data (by decide)]
  refine (if_neg ?_).trans ((if_neg ?_).trans (if_neg ?_))
  · simp
  · decide
  · decide

/-- What an accepted enable leaves. -/
theorem Dev.ringStart_spec (d : Dev) (n : Nat) :
    (d.ringStart n).ring n = { Ring.idle with
      running := true
      armed := ((d.ringStart n).ring n).armed
      irqDue := (d.ring n).irqDue } ∧
    (∀ m, m ≠ n → (d.ringStart n).ring m = d.ring m) ∧ (∀ k, (d.ringStart n).rd k = d.rd k) ∧
    (d.ringStart n).h.ops = d.h.ops ∧ (d.ringStart n).f = d.f := by
  obtain ⟨r, hr⟩ : ∃ r : Ring, r = { Ring.idle with
    running := true
    armed := (d.ring n).armed
    irqDue := (d.ring n).irqDue } := ⟨_, rfl⟩
  have hstart : d.ringStart n = (d.setRing n r).gauge n := by rw [hr]; rfl
  have hempty : (d.setRing n r).backlog n = 0 := by
    unfold Dev.backlog
    rw [Dev.ring_setRing_same, hr]
    exact (by decide : (0 + 2 ^ 16 - 0) % 2 ^ 16 = 0)
  rw [hstart]
  rcases Dev.gauge_of_empty hempty with h | h
  · rw [h]
    refine ⟨?_, fun m hm => Dev.ring_setRing_ne d r hm, fun _ => rfl, rfl, rfl⟩
    rw [Dev.ring_setRing_same, hr]
  · rw [h]
    refine ⟨?_, fun m hm => (Dev.ring_setRing_ne _ _ hm).trans (Dev.ring_setRing_ne d r hm), fun _ => rfl, rfl, rfl⟩
    rw [Dev.ring_setRing_same, Dev.ring_setRing_same, hr]

/-- A disable by the ring's owner, which leaves the fields that a ring's enable protects. -/
theorem Dev.ringCfgWrite_of_disable {d : Dev} {fn : Func} {n : Nat} {data : Word} (hown : d.ringOwner n = fn) (hen : d.ringEn n = true)
    (hsame : changes (d.rd (Reg.RM_RING_CFG n)) (data &&& ~~~1) 0xFFFF001E = false) : d.ringCfgWrite fn n (data &&& ~~~1) =
      ((d.setFld (Fld.RM_RING_CFG_IRQ_EN n) (b2n (bitOf (data &&& ~~~1).toNat 5))).setFld (Fld.RM_RING_CFG_EN n) 0).ringStop n stopHOST := by
  have hbit : bitOf (data &&& ~~~1).toNat 0 = false := by
    rw [bitOf_eq_testBit]
    simp
  unfold Dev.ringCfgWrite; dsimp only
  rw [hown, hen, hsame, hbit]
  refine (if_neg ?_).trans ((if_pos rfl).trans ((if_neg Bool.false_ne_true).trans ?_))
  · simp
  · rw [if_neg Bool.false_ne_true]

/-- Settles O19: a write of RM_RING_CFG by the ring's owner acts on the ring alone, whose stop completes what it has not opened. -/
theorem ringsEnableAndDisable : Obligations.RingsEnableAndDisable := by
  unfold Obligations.RingsEnableAndDisable
  intro s fn n t data hn hown hopen
  have henable : exec (.ringEnable fn n data) s = .next { s with dev := s.dev.ringCfgWrite fn n (data ||| 1) } :=
    s.onDev_of ((if_pos hn).trans (Dev.hostDo_of_open s.dev _ _ hopen))
  have hdisable : exec (.ringDisable fn n data t) s = .next { s with dev := (s.dev.at t).ringCfgWrite fn n (data &&& ~~~1) } :=
    s.onDev_of ((if_pos hn).trans (Dev.hostDo_of_open (s.dev.at t) _ _ hopen))
  refine ⟨fun hen => ⟨fun hgood => ?_, fun hbad => ?_⟩, fun hen hsame hwf => ?_⟩
  · obtain ⟨henNow, hdepth, hgen, hf⟩ := s.dev.ringCfgEn_spec hn data
    obtain ⟨hring, hothers, hrd, hops, hfNow⟩ := (s.dev.ringCfgEn n data).ringStart_spec n
    have hwrite : s.dev.ringCfgWrite fn n (data ||| 1) = (s.dev.ringCfgEn n data).ringStart n :=
      (Dev.ringCfgWrite_of_enable hown hen).trans (if_neg (by rw [hgood]; decide))
    have hcfg : s.dev.ringCfgEn n data = s.dev.wr (Reg.RM_RING_CFG n) _ := s.dev.wrAccess_of_rw _ (specOf_ringCfg n hn)
    have hrings (m : Nat) : (s.dev.ringCfgEn n data).ring m = s.dev.ring m := by
      rw [hcfg]
      simp [Dev.ring]
    rw [hwrite] at henable
    refine ⟨_, henable, ?_, (Dev.fld_of_rd (hrd _)).trans hdepth, (Dev.fld_of_rd (hrd _)).trans hgen, ?_, fun m hm => (hothers m hm).trans (hrings m),
      fun k hk => (hrd k).trans ?_, hops.trans ?_, hfNow.trans hf, rfl, rfl⟩
    · exact (congrArg (· == 1) (Dev.fld_of_rd (F := Fld.RM_RING_CFG_EN n) (hrd _))).trans henNow
    · rw [← hrings n]
      exact hring
    · rw [hcfg]
      exact s.dev.rd_wr_ne _ hk
    · rw [hcfg]
      simp
  · rw [(Dev.ringCfgWrite_of_enable hown hen).trans (if_pos hbad)] at henable
    exact henable
  · rw [Dev.ringCfgWrite_of_disable (d := s.dev.at t) hown hen hsame] at hdisable
    obtain ⟨d, hd⟩ : ∃ d, d = ((s.dev.at t).setFld (Fld.RM_RING_CFG_IRQ_EN n) (b2n (bitOf (data &&& ~~~1).toNat 5))).setFld (Fld.RM_RING_CFG_EN n) 0 :=
      ⟨_, rfl⟩
    rw [← hd] at hdisable
    have hops : d.h.ops = s.dev.h.ops := by rw [hd]; simp
    have hop (g : Nat) : d.op g = s.dev.op g := by rw [Dev.op, hops]; rfl
    have hrings (m : Nat) : d.ring m = s.dev.ring m := by rw [hd]; simp [Dev.ring]
    obtain ⟨hcourse, hmine, hothers, hring⟩ := Dev.ringStop_spec (d := d) (hops ▸ hwf) n stopHOST
    simp only [Ring.course, Prod.mk.injEq] at hcourse
    obtain ⟨hrun, hstop, hfetch, hci⟩ := hcourse
    refine ⟨_, hdisable, ?_, hrun, hstop, hfetch, hci.trans (by rw [hrings]), hmine, fun g o ho => hothers g o ((hop g).trans ho),
      fun m hm => (hring m hm).trans (hrings m), ?_, rfl, rfl⟩
    · have hkept : (d.ringStop n stopHOST).fld (Fld.RM_RING_CFG_EN n) = d.fld (Fld.RM_RING_CFG_EN n) := by
        refine (Dev.stateBlind_fld (F := Fld.RM_RING_CFG_EN n) ?_).toCalmBlind.ringStop (Dev.streamBlind_fld _) (fun _ _ _ => rfl) (fun _ _ _ => rfl) d n _
        exact haltReg_ringCfg hn
      have hzero : d.fld (Fld.RM_RING_CFG_EN n) = 0 := by
        rw [hd]
        exact Dev.fld_setFld_same _ (Fld.RM_RING_CFG_EN n) 0 (by decide : 0 + 1 ≤ 32)
      exact Dev.flag_of_zero (hkept.trans hzero)
    · refine ((Dev.Blind.of_core (π := fun d => d.f.car.pos) fun _ => rfl).toCalmBlind.ringStop (.of_unsent fun _ => rfl) (fun _ _ _ => rfl)
        (fun _ _ _ => rfl) d n _).trans ?_
      rw [hd]
      simp

end Sys2Proof.Machine
end

section
/-!
PROOF. Interrupts, configuration requests and power states (R71, R77, R79 to R81, R89, R371).
-/

namespace Sys2Proof.Machine

/-! ## Pending bits -/

/-- A bit taken out of a number that has it leaves the others. -/
theorem bitOf_sub_two_pow_ne {n v w : Nat} (h : bitOf n v = true) (hw : w ≠ v) : bitOf (n - 2 ^ v) w = bitOf n w := by
  have hle : 2 ^ v ≤ n := by
    rw [bitOf_eq_testBit] at h
    exact Nat.ge_two_pow_of_testBit h
  obtain ⟨m, rfl⟩ := Nat.exists_eq_add_of_le hle
  rw [Nat.add_sub_cancel_left]
  rcases Nat.lt_or_gt_of_ne hw with hlt | hgt
  · rw [bitOf_eq_testBit, bitOf_eq_testBit, Nat.testBit_two_pow_add_gt hlt]
  · obtain ⟨k, rfl⟩ := Nat.exists_eq_add_of_le (Nat.succ_le_of_lt hgt)
    have hshift (x : Nat) : x / 2 ^ (v.succ + k) = x / 2 ^ v / 2 / 2 ^ k := by
      rw [Nat.pow_add, Nat.pow_succ, Nat.div_div_eq_div_mul, Nat.div_div_eq_div_mul, Nat.mul_assoc]
    have hstep : (2 ^ v + m) / 2 ^ v = m / 2 ^ v + 1 := Nat.add_div_left m (Nat.two_pow_pos v)
    unfold bitOf at h ⊢
    rw [hstep, beq_iff_eq] at h
    rw [hshift, hshift, hstep]
    have hhalf : (m / 2 ^ v + 1) / 2 = m / 2 ^ v / 2 := by omega
    rw [hhalf]

/-! ## Vectors that are flushed -/

/-- A vector that is pending, unmasked and enabled. -/
def Dev.sendable (d : Dev) (fn : Func) (v : Nat) : Bool := (d.pci fn).msixEn && !(d.pci fn).d3 && bitOf (d.pci fn).pba v && !d.masked fn v

/-- One vector of a flush. -/
def Dev.flushOne (fn : Func) (d : Dev) (v : Nat) : Dev :=
  if d.sendable fn v then (d.setPci fn { d.pci fn with pba := (d.pci fn).pba - 2 ^ v }).message fn v else d

theorem Dev.flushVectors_eq (d : Dev) (fn : Func) : d.flushVectors fn = (List.range 4).foldl (Dev.flushOne fn) d := rfl

/-- The device without what is sent and a function's pending bits. -/
def Dev.unflushed (d : Dev) (fn : Func) : Dev := { d.setPci fn { d.pci fn with pba := 0 } with out := [] }

theorem Dev.unflushed_flushOne (d : Dev) (fn : Func) (v : Nat) : (Dev.flushOne fn d v).unflushed fn = d.unflushed fn := by
  unfold Dev.flushOne
  split
  · cases fn <;> rfl
  · rfl

theorem Dev.unflushed_flush (fn : Func) : ∀ (l : List Nat) (d : Dev), (l.foldl (Dev.flushOne fn) d).unflushed fn = d.unflushed fn
  | [], _ => rfl
  | v :: l, d => (Dev.unflushed_flush fn l (Dev.flushOne fn d v)).trans (d.unflushed_flushOne fn v)

/-- What is not sent or pending is left by a flush. -/
theorem Dev.flush_kept {α : Type} {π : Dev → α} (fn : Func) (h : ∀ d : Dev, π (d.unflushed fn) = π d) (l : List Nat) (d : Dev) :
    π (l.foldl (Dev.flushOne fn) d) = π d := by
  rw [← h (l.foldl (Dev.flushOne fn) d), Dev.unflushed_flush, h]

/-- What makes a vector sendable beside its pending bit. -/
theorem Dev.sendable_of_unflushed {d e : Dev} {fn : Func} (h : e.unflushed fn = d.unflushed fn) (v : Nat)
    (hbit : bitOf (e.pci fn).pba v = bitOf (d.pci fn).pba v) : e.sendable fn v = d.sendable fn v := by
  have hkept {α : Type} {π : Dev → α} (hπ : ∀ d : Dev, π (d.unflushed fn) = π d) : π e = π d := by rw [← hπ e, h, hπ]
  have hen : (e.pci fn).msixEn = (d.pci fn).msixEn := hkept (π := fun d => (d.pci fn).msixEn) fun _ => by cases fn <;> rfl
  have hd3 : (e.pci fn).d3 = (d.pci fn).d3 := hkept (π := fun d => (d.pci fn).d3) fun _ => by cases fn <;> rfl
  have hmask : e.masked fn v = d.masked fn v := hkept (π := fun d => d.masked fn v) fun _ => by cases fn <;> rfl
  rw [Dev.sendable, Dev.sendable, hen, hd3, hmask, hbit]

/-- The pending bit of a vector after one of a flush. -/
theorem Dev.pba_flushOne (d : Dev) (fn : Func) (v w : Nat) :
    bitOf ((Dev.flushOne fn d v).pci fn).pba w = (bitOf (d.pci fn).pba w && !(w == v && d.sendable fn v)) := by
  unfold Dev.flushOne
  cases hs : d.sendable fn v with
  | false => simp
  | true =>
    have hbit : bitOf (d.pci fn).pba v = true := by
      simp only [Dev.sendable, Bool.and_eq_true] at hs
      exact hs.1.2
    have hpci : (((d.setPci fn { d.pci fn with pba := (d.pci fn).pba - 2 ^ v }).message fn v).pci fn).pba = (d.pci fn).pba - 2 ^ v := by cases fn <;> rfl
    rw [if_pos rfl, hpci]
    by_cases hw : w = v
    · subst hw
      rw [bitOf_sub_two_pow hbit]
      simp
    · rw [bitOf_sub_two_pow_ne hbit hw]
      simp [hw]

/-- A flush leaves the pending bit of a vector that is not among those flushed. -/
theorem Dev.pba_flush_of_notMem (fn : Func) {w : Nat} : ∀ (l : List Nat) (d : Dev), w ∉ l →
    bitOf ((l.foldl (Dev.flushOne fn) d).pci fn).pba w = bitOf (d.pci fn).pba w
  | [], _, _ => rfl
  | v :: l, d, h => by
    have hv : w ≠ v := fun hv => h (hv ▸ List.mem_cons_self)
    rw [List.foldl_cons, Dev.pba_flush_of_notMem fn l _ fun hl => h (List.mem_cons_of_mem _ hl), d.pba_flushOne]
    simp [hv]

/-- What a flush sends goes out before what has been sent, and nothing does where no vector may be sent. -/
theorem Dev.out_flush (fn : Func) : ∀ (l : List Nat) (d : Dev), l.Nodup → ∃ x, (l.foldl (Dev.flushOne fn) d).out = x ++ d.out ∧
    ((∀ v ∈ l, d.sendable fn v = false) → x = [])
  | [], d, _ => ⟨[], rfl, fun _ => rfl⟩
  | v :: l, d, hl => by
    obtain ⟨hv, hnodup⟩ := List.nodup_cons.mp hl
    obtain ⟨x, hx, hempty⟩ := Dev.out_flush fn l (Dev.flushOne fn d v) hnodup
    have hone : ∃ y, (Dev.flushOne fn d v).out = y ++ d.out ∧ (d.sendable fn v = false → y = []) := by
      unfold Dev.flushOne
      cases hs : d.sendable fn v with
      | true => cases fn <;> exact ⟨[_], rfl, fun h => nomatch h⟩
      | false => exact ⟨[], rfl, fun _ => rfl⟩
    obtain ⟨y, hy, hyempty⟩ := hone
    refine ⟨x ++ y, by rw [List.foldl_cons, hx, hy, List.append_assoc], fun hall => ?_⟩
    rw [hyempty (hall v List.mem_cons_self), hempty fun w hw => ?_]
    · rfl
    · rw [Dev.sendable_of_unflushed (d.unflushed_flushOne fn v) w, hall w (List.mem_cons_of_mem _ hw)]
      rw [d.pba_flushOne]
      simp [show w ≠ v from fun h => hv (h ▸ hw)]

/-- A vector that may be sent is sent once, between what the vectors after it and before it send, and is pending no more. -/
theorem Dev.flushVectors_spec {d : Dev} {fn : Func} {v : Nat} (hv : v < 4) (hs : d.sendable fn v = true) :
    bitOf ((d.flushVectors fn).pci fn).pba v = false ∧
    ∃ l r, (d.flushVectors fn).out = l ++ Emit.tlp fn (d.pci fn).ecrcGen (.msix v
        ((d.rd (msixKey fn v 1)).toNat * 2 ^ 32 + (d.rd (msixKey fn v 0)).toNat) (d.rd (msixKey fn v 2))) :: r ++ d.out ∧
      ((∀ w, w < 4 → w ≠ v → d.sendable fn w = false) → l = [] ∧ r = []) := by
  obtain ⟨pre, post, hsplit⟩ := List.append_of_mem (List.mem_range.mpr hv)
  have hnodup : (pre ++ v :: post).Nodup := hsplit ▸ List.nodup_range
  obtain ⟨hpre, hvpost, hdisj⟩ := List.nodup_append.mp hnodup
  obtain ⟨hpost, hpostNodup⟩ := List.nodup_cons.mp hvpost
  have hvpre : v ∉ pre := fun hmem => hdisj v hmem v List.mem_cons_self rfl
  have hlt (w : Nat) (hw : w ∈ pre ++ v :: post) : w < 4 := List.mem_range.mp (hsplit ▸ hw)
  obtain ⟨e, he⟩ : ∃ e, e = pre.foldl (Dev.flushOne fn) d := ⟨_, rfl⟩
  have heLeft : e.unflushed fn = d.unflushed fn := he ▸ Dev.unflushed_flush fn pre d
  have hes : e.sendable fn v = true :=
    (Dev.sendable_of_unflushed heLeft v (he ▸ Dev.pba_flush_of_notMem fn pre d hvpre)).trans hs
  have hflush : d.flushVectors fn = post.foldl (Dev.flushOne fn) (Dev.flushOne fn e v) := by
    rw [Dev.flushVectors_eq, hsplit, List.foldl_append, List.foldl_cons, he]
  obtain ⟨r, hr, hrEmpty⟩ := Dev.out_flush fn pre d hpre
  obtain ⟨l, hl, hlEmpty⟩ := Dev.out_flush fn post (Dev.flushOne fn e v) hpostNodup
  have hone : (Dev.flushOne fn e v).out = Emit.tlp fn (e.pci fn).ecrcGen (.msix v
      ((e.rd (msixKey fn v 1)).toNat * 2 ^ 32 + (e.rd (msixKey fn v 0)).toNat) (e.rd (msixKey fn v 2))) :: e.out := by
    unfold Dev.flushOne
    rw [if_pos hes]
    cases fn <;> rfl
  have hrd (k : Nat) : e.rd k = d.rd k := he ▸ Dev.flush_kept (π := fun d => d.rd k) fn (fun _ => by cases fn <;> rfl) pre d
  have hgen : (e.pci fn).ecrcGen = (d.pci fn).ecrcGen :=
    he ▸ Dev.flush_kept (π := fun d => (d.pci fn).ecrcGen) fn (fun _ => by cases fn <;> rfl) pre d
  refine ⟨?_, l, r, ?_, fun hothers => ⟨hlEmpty fun w hw => ?_, hrEmpty fun w hw => ?_⟩⟩
  · rw [hflush, Dev.pba_flush_of_notMem fn post _ hpost, e.pba_flushOne, hes]
    simp
  · rw [hflush, hl, hone, hrd, hrd, hrd, hgen, he, hr]
    simp
  · have hne : w ≠ v := fun h => hpost (h ▸ hw)
    have hwpre : w ∉ pre := fun hmem => hdisj w hmem w (List.mem_cons_of_mem _ hw) rfl
    refine (Dev.sendable_of_unflushed ((e.unflushed_flushOne fn v).trans heLeft) w ?_).trans
      (hothers w (hlt w (List.mem_append_right _ (List.mem_cons_of_mem _ hw))) hne)
    rw [e.pba_flushOne, he, Dev.pba_flush_of_notMem fn pre d hwpre]
    simp [hne]
  · exact hothers w (hlt w (List.mem_append_left _ hw)) fun h => hvpre (h ▸ hw)

/-! ## A vector unmasked -/

theorem onFSide_msixKey : ∀ fn : Func, ∀ v, v < 4 → onFSide (baseOff (msixKey fn v 3)) = false := by decide

theorem msixKey_ne : ∀ fn : Func, ∀ v, v < 4 → ∀ w, w < 4 → w ≠ v → ∀ k, k < 4 → msixKey fn w k ≠ msixKey fn v 3 := by decide

theorem msixKey_words : ∀ fn : Func, ∀ v, v < 4 → ∀ k, k < 3 → msixKey fn v k ≠ msixKey fn v 3 := by decide

/-- The device with a vector's own mask bit cleared. -/
def Dev.unmasked (d : Dev) (fn : Func) (v : Nat) : Dev := d.wr (msixKey fn v 3) 0

theorem Dev.msixWord_mask (d : Dev) (fn : Func) {v : Nat} (hv : v < 4) : d.msixWord fn (16 * v + 12) 0 = d.unmasked fn v := by
  refine (if_pos (by omega)).trans ?_
  rw [if_pos (by omega)]
  exact congrArg (fun k => d.wr (keyOf fn k) 0) (by omega)

theorem Dev.pci_unmasked (d : Dev) (fn g : Func) (v : Nat) : (d.unmasked fn v).pci g = d.pci g := by
  cases g <;> simp [Dev.unmasked, Dev.pci]

theorem Dev.masked_unmasked_same {d : Dev} {fn : Func} {v : Nat} (h : (d.pci fn).msixMask = false) : (d.unmasked fn v).masked fn v = false := by
  unfold Dev.masked
  rw [d.pci_unmasked, h, Dev.unmasked, Dev.rd_wr_same]
  decide

theorem Dev.masked_unmasked_ne (d : Dev) (fn : Func) {v w : Nat} (hv : v < 4) (hw : w < 4) (hne : w ≠ v) :
    (d.unmasked fn v).masked fn w = d.masked fn w := by
  unfold Dev.masked
  rw [d.pci_unmasked, Dev.unmasked, Dev.rd_wr_ne _ _ (msixKey_ne fn v hv w hw hne 3 (by decide))]

/-! ## PCI_INT_CAUSE -/

/-- INTx as the causes and the enables say. -/
theorem Dev.intx_intx (d : Dev) (fn : Func) : ((d.intx fn).pci fn).intx = (!(d.pci fn).msixEn && !(d.pci fn).intDis && !(d.pci fn).d3 &&
    d.fld (Fld.PCI_INT_CAUSE_CAUSE.of fn) != 0) := by
  unfold Dev.intx; dsimp only
  split
  next h => exact (beq_iff_eq.mp h).symm
  next => exact congrArg PciFn.intx (d.pci_setPci fn _)

/-- INTx is a matter of the function's own configuration. -/
theorem Dev.intx_kept {α : Type} {π : Dev → α} (hemit : ∀ (d : Dev) (e : Emit), π (d.emit e) = π d) {fn : Func}
    (hpci : ∀ (d : Dev) (p : PciFn), π (d.setPci fn p) = π d) (d : Dev) : π (d.intx fn) = π d := by
  unfold Dev.intx; dsimp only
  exact Dev.ite_kept rfl ((hemit _ _).trans (hpci d _))

theorem specOf_intCause : ∀ fn : Func, specOf (baseOff (keyOf fn Reg.PCI_INT_CAUSE)) = some ⟨0x0108, 1, 4, 0x0, 0xF, 0x0, 0x0⟩ := by decide

/-- The device with causes cleared. -/
def Dev.causesCleared (d : Dev) (fn : Func) (data : Word) : Dev := d.wr (keyOf fn Reg.PCI_INT_CAUSE)
  (writeBits ⟨0x0108, 1, 4, 0x0, 0xF, 0x0, 0x0⟩ (d.rd (keyOf fn Reg.PCI_INT_CAUSE)) data)

theorem Dev.causeClear_eq (d : Dev) (fn : Func) (data : Word) : d.causeClear fn data = (d.causesCleared fn data).intx fn := by
  unfold Dev.causeClear Dev.causesCleared
  rw [d.wrAccess_of_rw data (specOf_intCause fn)]

/-- A cause stays but where a 1 is written. -/
theorem Dev.cause_causesCleared (d : Dev) (fn : Func) (data : Word) {v : Nat} (hv : v < 4) :
    bitOf ((d.causesCleared fn data).fld (Fld.PCI_INT_CAUSE_CAUSE.of fn)) v =
      (bitOf (d.fld (Fld.PCI_INT_CAUSE_CAUSE.of fn)) v && !bitOf data.toNat v) := by
  have hmask : ∀ v, v < 4 → (0xF : Word).getLsbD v = true := by decide
  have hfld (e : Dev) : bitOf (e.fld (Fld.PCI_INT_CAUSE_CAUSE.of fn)) v = (e.rd (keyOf fn Reg.PCI_INT_CAUSE)).getLsbD v := by
    rw [bitOf_eq_testBit]
    refine (testBit_bitsOf _ 0 4 v).trans ?_
    rw [decide_eq_true hv, Bool.true_and, Nat.zero_add]
    rfl
  rw [hfld, hfld, Dev.causesCleared, Dev.rd_wr_same, bitOf_eq_testBit]
  unfold writeBits
  simp only [BitVec.getLsbD_or, BitVec.getLsbD_and, BitVec.getLsbD_not, hmask v hv]
  have hlt : v < 32 := by omega
  simp [hlt, BitVec.getLsbD]

/-- Settles O15: the vector unmasked is sendable, so the flush sends it; the causes are cleared before INTx follows them. -/
theorem interruptsUnmaskAndClear : Obligations.InterruptsUnmaskAndClear := by
  unfold Obligations.InterruptsUnmaskAndClear
  intro s fn vec data
  refine ⟨fun hvec hbar hmask hen hd3 hpba => ?_, fun hopen => ?_⟩
  · have hexec : exec (.msixUnmask fn vec) s = .next { s with dev := (s.dev.unmasked fn vec).flushVectors fn } := by
      refine s.onDev_of ((if_neg ?_).trans ?_)
      · rw [hbar]
        simpa using hvec
      · rw [s.dev.msixWord_mask fn hvec]
    have hpci := s.dev.pci_unmasked fn fn vec
    have hsend : (s.dev.unmasked fn vec).sendable fn vec = true := by
      rw [Dev.sendable, hpci, hen, hd3, hpba, Dev.masked_unmasked_same hmask]
      rfl
    obtain ⟨hbit, l, r, hout, hempty⟩ := Dev.flushVectors_spec hvec hsend
    have hword (k : Nat) (hk : k < 3) : (s.dev.unmasked fn vec).rd (msixKey fn vec k) = s.dev.rd (msixKey fn vec k) :=
      s.dev.rd_wr_ne _ (msixKey_words fn vec hvec k hk)
    rw [hword 0 (by decide), hword 1 (by decide), hword 2 (by decide), hpci, show (s.dev.unmasked fn vec).out = s.dev.out from s.dev.wr_out _ _] at hout
    refine ⟨_, hexec, ?_, hbit, ⟨l, r, hout, fun hothers => hempty fun w hw hne => ?_⟩, fun k hk => ?_, ?_, ?_, rfl, rfl⟩
    · refine (Dev.flush_kept (π := fun d => d.masked fn vec) fn (fun _ => by cases fn <;> rfl) _ _).trans ?_
      exact Dev.masked_unmasked_same hmask
    · rw [Dev.sendable, hpci, s.dev.masked_unmasked_ne fn hvec hw hne]
      cases hpend : bitOf (s.dev.pci fn).pba w with
      | false => simp
      | true => simp [hothers w hw hne hpend]
    · exact (Dev.flush_kept (π := fun d => d.rd k) fn (fun _ => by cases fn <;> rfl) _ _).trans (s.dev.rd_wr_ne _ hk)
    · exact (Dev.flush_kept (π := fun d => d.pci (!fn)) fn (fun _ => by cases fn <;> rfl) _ _).trans (s.dev.pci_unmasked fn (!fn) vec)
    · exact (Dev.flush_kept (π := fun d => d.f) fn (fun _ => by cases fn <;> rfl) _ _).trans (s.dev.wr_f_of_h _ (onFSide_msixKey fn vec hvec))
  · have hexec : exec (.pciIntCauseClear fn data) s = .next { s with dev := (s.dev.causesCleared fn data).intx fn } :=
      s.onDev_of ((Dev.hostDo_of_open s.dev _ _ hopen).trans (s.dev.causeClear_eq fn data))
    have hrd (k : Nat) : ((s.dev.causesCleared fn data).intx fn).rd k = (s.dev.causesCleared fn data).rd k :=
      Dev.intx_kept (π := fun d => d.rd k) (fun _ _ => rfl) (fun _ _ => by cases fn <;> rfl) _
    have hpci (g : Func) : (s.dev.causesCleared fn data).pci g = s.dev.pci g := by cases g <;> simp [Dev.causesCleared, Dev.pci]
    refine ⟨_, hexec, fun v hv => ?_, ?_, fun k hk => (hrd k).trans (s.dev.rd_wr_ne _ hk), ?_, ?_, rfl, rfl⟩
    · exact (congrArg (bitOf · v) (Dev.fld_of_rd (hrd _))).trans (s.dev.cause_causesCleared fn data hv)
    · refine ((s.dev.causesCleared fn data).intx_intx fn).trans ?_
      rw [hpci, Dev.fld_of_rd (F := Fld.PCI_INT_CAUSE_CAUSE.of fn) (hrd _)]
    · exact (Dev.intx_kept (π := fun d => d.pci (!fn)) (fun _ _ => rfl) (fun _ _ => by cases fn <;> rfl) _).trans (hpci (!fn))
    · refine (Dev.intx_kept (π := fun d => d.f) (fun _ _ => rfl) (fun _ _ => by cases fn <;> rfl) _).trans ?_
      exact s.dev.wr_f_of_h _ (by cases fn <;> decide)

end Sys2Proof.Machine
end

section
/-!
PROOF. Configuration requests, Bus Master Enable and power states (R71, R81, R89, R371).
-/

namespace Sys2Proof.Machine

/-! ## The rings of a function stopped -/

/-- One ring of a function that enters D3hot. -/
def Dev.haltRing (fn : Func) (d : Dev) (n : Nat) : Dev :=
  if d.ringOwner n == fn && (d.ring n).running then d.setRing n { d.ring n with running := false, fetching := [] } else d

/-- A function's rings stopped. -/
def Dev.ringsHalted (d : Dev) (fn : Func) : Dev := (List.range 64).foldl (Dev.haltRing fn) d

theorem Dev.ringOwner_haltRing (fn : Func) (d : Dev) (m n : Nat) : (Dev.haltRing fn d m).ringOwner n = d.ringOwner n :=
  Dev.ite_kept (π := fun d => d.ringOwner n) rfl rfl

/-- A ring of another function stays. -/
theorem Dev.ring_haltRings_other {fn : Func} {n : Nat} : ∀ (l : List Nat) (d : Dev), d.ringOwner n ≠ fn →
    (l.foldl (Dev.haltRing fn) d).ring n = d.ring n
  | [], _, _ => rfl
  | m :: l, d, h => by
    rw [List.foldl_cons, Dev.ring_haltRings_other l _ (by rwa [Dev.ringOwner_haltRing])]
    unfold Dev.haltRing
    split
    next hm =>
      refine d.ring_setRing_ne _ fun hnm => h ?_
      subst hnm
      simp only [Bool.and_eq_true, beq_iff_eq] at hm
      exact hm.1
    next => rfl

/-- A ring that has stopped, or is the one to stop, does not run. -/
theorem Dev.running_haltRing {fn : Func} {d : Dev} {m n : Nat} (howner : d.ringOwner n = fn) (h : n = m ∨ (d.ring n).running = false) :
    ((Dev.haltRing fn d m).ring n).running = false := by
  unfold Dev.haltRing
  by_cases hnm : n = m
  · subst hnm
    rw [howner]
    cases hrun : (d.ring n).running <;> simp [hrun]
  · have hoff := h.resolve_left hnm
    split
    · rw [d.ring_setRing_ne _ hnm, hoff]
    · exact hoff

/-- A ring of the function that is met, or had stopped, does not run. -/
theorem Dev.running_haltRings {fn : Func} {n : Nat} : ∀ (l : List Nat) (d : Dev), d.ringOwner n = fn →
    (n ∈ l ∨ (d.ring n).running = false) → ((l.foldl (Dev.haltRing fn) d).ring n).running = false
  | [], _, _, h => h.resolve_left List.not_mem_nil
  | m :: l, d, howner, h => by
    refine Dev.running_haltRings l _ ((Dev.ringOwner_haltRing fn d m n).trans howner) ?_
    rcases h with hmem | hoff
    · rcases List.mem_cons.mp hmem with hnm | hl
      · exact .inr (Dev.running_haltRing howner (.inl hnm))
      · exact .inl hl
    · exact .inr (Dev.running_haltRing howner (.inr hoff))

/-- What no ring belongs to is left where rings stop. -/
theorem Dev.ringsHalted_kept {α : Type} {π : Dev → α} (h : ∀ (d : Dev) (n : Nat) (r : Ring), π (d.setRing n r) = π d) (d : Dev) (fn : Func) :
    π (d.ringsHalted fn) = π d :=
  Dev.StreamBlind.foldl (π := π) _ (fun e n => Dev.ite_kept (π := π) (h e n _) rfl) _ d

/-! ## Channels held -/

/-- The device with a function's channels to wait for its first OUT_WRITE. -/
def Dev.waiting (d : Dev) (fn : Func) : Dev := if fn then { d with f.ch.waitB := true } else { d with f.ch.waitA := true }

theorem Dev.holdFn_eq (d : Dev) (fn : Func) : d.holdFn fn = (d.waiting fn).pins := rfl

/-- Holding channels leaves what the levels leave. -/
theorem Dev.holdFn_kept {α : Type} {π : Dev → α} (hpins : ∀ d : Dev, π d.pins = π d) (hwait : ∀ (d : Dev) (fn : Func), π (d.waiting fn) = π d)
    (d : Dev) (fn : Func) : π (d.holdFn fn) = π d := (hpins _).trans (hwait d fn)

/-- The H-side's rings, configurations and operations, and the registers but for the mismatch bits, stay where channels are held. -/
theorem Dev.holdFn_left (d : Dev) (fn : Func) : (∀ n, (d.holdFn fn).ring n = d.ring n) ∧ (∀ g, (d.holdFn fn).pci g = d.pci g) ∧
    (d.holdFn fn).h.ops = d.h.ops ∧
    (∀ k, k ≠ Reg.CH_PIN_MISM_LO → k ≠ Reg.CH_PIN_MISM_HI → (d.holdFn fn).rd k = d.rd k) := by
  have hpins {α : Type} (π : Dev → α) (hleft : ∀ d : Dev, π d.unpinned = π d) (e : Dev) : π e.pins = π e := by
    rw [← hleft e.pins, e.unpinned_pins, hleft]
  refine ⟨fun n => ?_, fun g => ?_, ?_, fun k hlo hhi => ?_⟩
  · exact Dev.holdFn_kept (π := fun d => d.ring n) (hpins (fun d => d.ring n) fun _ => rfl) (fun _ fn => by cases fn <;> rfl) d fn
  · exact Dev.holdFn_kept (π := fun d => d.pci g) (hpins (fun d => d.pci g) fun _ => by cases g <;> rfl) (fun _ fn => by cases fn <;> rfl) d fn
  · exact Dev.holdFn_kept (π := fun d => d.h.ops) (hpins (fun d => d.h.ops) fun _ => rfl) (fun _ fn => by cases fn <;> rfl) d fn
  · exact Dev.holdFn_kept (π := fun d => d.rd k) (fun e => e.rd_pins hlo hhi) (fun _ fn => by cases fn <;> rfl) d fn

/-! ## D3hot and D0 -/

/-- The device with a function's power state set. -/
def Dev.powered (d : Dev) (fn : Func) (d3 : Bool) : Dev := (d.setPci fn { d.pci fn with d3 := d3 }).intx fn

theorem Dev.powered_kept {α : Type} {π : Dev → α} (hemit : ∀ (d : Dev) (e : Emit), π (d.emit e) = π d) {fn : Func}
    (hpci : ∀ (d : Dev) (p : PciFn), π (d.setPci fn p) = π d) (d : Dev) (b : Bool) : π (d.powered fn b) = π d :=
  (Dev.intx_kept hemit hpci _).trans (hpci _ _)

/-- A function's power state, and in D3hot its INTx. -/
theorem Dev.pci_powered (d : Dev) (fn : Func) (b : Bool) : ((d.powered fn b).pci fn).d3 = b ∧
    (b = true → ((d.powered fn b).pci fn).intx = false) := by
  constructor
  · obtain ⟨i, hi⟩ := (d.setPci fn { d.pci fn with d3 := b }).pci_intx fn
    refine (congrArg PciFn.d3 hi).trans ?_
    rw [d.pci_setPci]
  · rintro rfl
    refine ((d.setPci fn { d.pci fn with d3 := true }).intx_intx fn).trans ?_
    rw [d.pci_setPci]
    simp

/-- What a change of a function's power state leaves. -/
theorem Dev.powered_left (d : Dev) (fn : Func) (b : Bool) : (∀ n, (d.powered fn b).ring n = d.ring n) ∧
    (d.powered fn b).pci (!fn) = d.pci (!fn) ∧ (d.powered fn b).h.ops = d.h.ops ∧ (∀ k, (d.powered fn b).rd k = d.rd k) := by
  refine ⟨fun n => ?_, ?_, ?_, fun k => ?_⟩
  · exact Dev.powered_kept (π := fun d => d.ring n) (fun _ _ => rfl) (fun _ _ => by cases fn <;> rfl) d b
  · exact Dev.powered_kept (π := fun d => d.pci (!fn)) (fun _ _ => rfl) (fun _ _ => by cases fn <;> rfl) d b
  · exact Dev.powered_kept (π := fun d => d.h.ops) (fun _ _ => rfl) (fun _ _ => by cases fn <;> rfl) d b
  · exact Dev.powered_kept (π := fun d => d.rd k) (fun _ _ => rfl) (fun _ _ => by cases fn <;> rfl) d b

/-- The device with the OUT_WRITEs merged so far to release no channel. -/
def Dev.unreleased (d : Dev) (fn : Func) : Dev := { d with f.ch.noRelease := d.mergedOrds fn ++ d.f.ch.noRelease }

section
variable {d : Dev} {fn : Func} {t : Nat} (hopen : d.cfgOpen = true) (hrest : d.f.ch.rest = none)
include hopen hrest

/-- D3hot is entered. -/
theorem doD3hotEntry_of_open (h : (d.pci fn).d3 = false) :
    doD3hotEntry fn t d = ((((d.at t).powered fn true).ringsHalted fn).unreleased fn).holdFn fn := by
  refine (if_neg ?_).trans ?_
  · rw [show (d.at t).cfgOpen = true from hopen, show ((d.at t).pci fn).d3 = false from h]
    decide
  · rw [Dev.wake_of_awake (d := d.at t) hrest]
    rfl

/-- D0 is entered. -/
theorem doD0Return_of_open (h : (d.pci fn).d3 = true) :
    doD0Return fn t d = (((d.at t).powered fn false).flushVectors fn).holdFn fn := by
  refine (if_neg ?_).trans ?_
  · rw [show (d.at t).cfgOpen = true from hopen, show ((d.at t).pci fn).d3 = true from h]
    decide
  · rw [Dev.wake_of_awake (d := d.at t) hrest]
    rfl

/-- The entry to D3hot stops the function's rings and holds its channels. -/
theorem doD3hotEntry_spec (h : (d.pci fn).d3 = false) : ∃ e : Dev, doD3hotEntry fn t d = e ∧ (e.pci fn).d3 = true ∧ (e.pci fn).intx = false ∧
    (∀ n, n < 64 → d.ringOwner n = fn → (e.ring n).running = false) ∧
    (∀ n, n < 64 → d.ringOwner n ≠ fn → e.ring n = d.ring n) ∧
    e.f.ch.ownMask fn &&& ~~~e.f.ch.held = 0 ∧ e.pci (!fn) = d.pci (!fn) ∧ e.h.ops = d.h.ops ∧
    (∀ k, k ≠ Reg.CH_PIN_MISM_LO → k ≠ Reg.CH_PIN_MISM_HI → e.rd k = d.rd k) := by
  rw [doD3hotEntry_of_open hopen hrest h]
  obtain ⟨p, hp⟩ : ∃ p, p = (d.at t).powered fn true := ⟨_, rfl⟩
  obtain ⟨hd3, hintx⟩ := hp ▸ (d.at t).pci_powered fn true
  obtain ⟨hring, hother, hops, hrd⟩ := hp ▸ (d.at t).powered_left fn true
  have howner (n : Nat) : p.ringOwner n = d.ringOwner n := by
    unfold Dev.ringOwner
    rw [Dev.fld_of_rd (hrd _)]
    rfl
  obtain ⟨hhring, hhpci, hhops, hhrd⟩ := ((p.ringsHalted fn).unreleased fn).holdFn_left fn
  have hpci (g : Func) : (((p.ringsHalted fn).unreleased fn).holdFn fn).pci g = p.pci g :=
    (hhpci g).trans (Dev.ringsHalted_kept (π := fun d => d.pci g) (fun _ _ _ => rfl) p fn)
  rw [← hp]
  refine ⟨_, rfl, by rw [hpci, hd3], by rw [hpci, hintx rfl], fun n hn hown => ?_, fun n _ hown => ?_,
    Dev.held_holdFn _ fn, (hpci _).trans hother, ?_, fun k hlo hhi => ?_⟩
  · rw [hhring]
    exact Dev.running_haltRings _ p ((howner n).trans hown) (.inl (List.mem_range.mpr hn))
  · rw [hhring]
    exact (Dev.ring_haltRings_other _ p (by rwa [howner])).trans (hring n)
  · exact (hhops.trans (Dev.ringsHalted_kept (π := fun d => d.h.ops) (fun _ _ _ => rfl) p fn)).trans hops
  · exact ((hhrd k hlo hhi).trans (Dev.ringsHalted_kept (π := fun d => d.rd k) (fun _ _ _ => rfl) p fn)).trans (hrd k)

/-- The return to D0 leaves the rings as they are and holds the function's channels. -/
theorem doD0Return_spec (h : (d.pci fn).d3 = true) : ∃ e : Dev, doD0Return fn t d = e ∧ (e.pci fn).d3 = false ∧
    (∀ n, e.ring n = d.ring n) ∧ e.f.ch.ownMask fn &&& ~~~e.f.ch.held = 0 ∧ e.pci (!fn) = d.pci (!fn) ∧ e.h.ops = d.h.ops ∧
    (∀ k, k ≠ Reg.CH_PIN_MISM_LO → k ≠ Reg.CH_PIN_MISM_HI → e.rd k = d.rd k) := by
  rw [doD0Return_of_open hopen hrest h]
  obtain ⟨p, hp⟩ : ∃ p, p = (d.at t).powered fn false := ⟨_, rfl⟩
  obtain ⟨hd3, -⟩ := hp ▸ (d.at t).pci_powered fn false
  obtain ⟨hring, hother, hops, hrd⟩ := hp ▸ (d.at t).powered_left fn false
  obtain ⟨hhring, hhpci, hhops, hhrd⟩ := (p.flushVectors fn).holdFn_left fn
  have hflush {α : Type} (π : Dev → α) (hπ : ∀ d : Dev, π (d.unflushed fn) = π d) : π (p.flushVectors fn) = π p := Dev.flush_kept fn hπ _ p
  rw [← hp]
  refine ⟨_, rfl, ?_, fun n => ?_, Dev.held_holdFn _ fn, ?_, ?_, fun k hlo hhi => ?_⟩
  · rw [hhpci, hflush (fun d => (d.pci fn).d3) fun _ => by cases fn <;> rfl]
    exact hd3
  · exact ((hhring n).trans (hflush (fun d => d.ring n) fun _ => by cases fn <;> rfl)).trans (hring n)
  · exact ((hhpci _).trans (hflush (fun d => d.pci (!fn)) fun _ => by cases fn <;> rfl)).trans hother
  · exact (hhops.trans (hflush (fun d => d.h.ops) fun _ => by cases fn <;> rfl)).trans hops
  · exact ((hhrd k hlo hhi).trans (hflush (fun d => d.rd k) fun _ => by cases fn <;> rfl)).trans (hrd k)

end

/-! ## Configuration requests -/

section
variable {s : State} {fn : Func} {ecrc : Bool} (hdrop : s.dev.ecrcDrops fn ecrc = false) (hperst : s.dev.h.boot.perst = false)
include hdrop hperst

/-- A request that arrives once step P2 has ended is answered. -/
theorem execConfigRequest_of_ready (hoff : s.dev.h.dev ≠ .off) (hready : s.dev.cfgReady = true) (hrest : s.dev.f.ch.rest = none) (a : CfgAccess) :
    exec (.configRequest fn a ecrc) s = .next (s.cfgAccess fn a) := by
  refine (if_neg ?_).trans ((if_neg ?_).trans ((if_neg ?_).trans ?_))
  · rw [hperst]
    simpa using hoff
  · rw [hdrop]
    decide
  · rw [hready]
    decide
  · refine congrArg (fun d : Dev => (.next (State.cfgAccess { s with dev := d } fn a) : Out)) ?_
    exact Dev.wake_of_awake hrest .h 1

/-- A request before the end of step P2 is retried. -/
theorem execConfigRequest_of_boot (hboot : s.dev.h.dev = .boot) (hstep : s.dev.fld Fld.SYS_BOOT_STEP < 3) (a : CfgAccess) :
    exec (.configRequest fn a ecrc) s = .next { s with dev := s.dev.tlp fn .cplRetry } := by
  refine (if_neg ?_).trans ((if_neg ?_).trans (if_pos ?_))
  · rw [hperst, hboot]
    decide
  · rw [hdrop]
    decide
  · rw [Dev.cfgReady, hboot, decide_eq_false (Nat.not_le.mpr hstep)]
    decide

end

/-- A watchdog starts where Bus Master Enable is set, it is held and its function is not in reset. -/
theorem doBusMasterEnableWrite_of_open {d : Dev} (fn : Func) (en : Bool) (t : Nat) (hopen : d.cfgOpen = true) (hrest : d.f.ch.rest = none) :
    doBusMasterEnableWrite fn en t d =
      (let e := (d.at t).setPci fn { d.pci fn with bme := en }
      if en = true ∧ d.h.dev ≠ .boot ∧ (d.pci fn).resetAt = none ∧ (d.wd fn.idx).held = true
      then e.setWd fn.idx { d.wd fn.idx with
        first := (d.wd fn.idx).en
        armed := false
        base := 0
        since := max d.now t
        held := false }
      else e) := by
  have hwd : ((d.at t).setPci fn { d.pci fn with bme := en }).wd fn.idx = d.wd fn.idx := by cases fn <;> rfl
  have hdev : ((d.at t).setPci fn { d.pci fn with bme := en }).h.dev = d.h.dev := by cases fn <;> rfl
  have hnow : ((d.at t).setPci fn { d.pci fn with bme := en }).now = max d.now t := by cases fn <;> rfl
  refine (if_neg ?_).trans ?_
  · rw [show (d.at t).cfgOpen = true from hopen]
    decide
  · rw [Dev.wake_of_awake (d := d.at t) hrest]
    dsimp only
    rw [show (d.at t).pci fn = d.pci fn from rfl, hdev]
    unfold Dev.wdStart
    rw [hwd, hnow]
    have hgate : (en && d.h.dev != .boot && (d.pci fn).resetAt.isNone) = true ↔ en = true ∧ d.h.dev ≠ .boot ∧ (d.pci fn).resetAt = none := by
      simp [and_assoc]
    by_cases hset : en = true ∧ d.h.dev ≠ .boot ∧ (d.pci fn).resetAt = none
    · rw [if_pos (hgate.mpr hset)]
      exact if_congr ⟨fun hheld => ⟨hset.1, hset.2.1, hset.2.2, hheld⟩, fun h => h.2.2.2⟩ rfl rfl
    · rw [if_neg (mt hgate.mp hset), if_neg fun h => hset ⟨h.1, h.2.1, h.2.2.1⟩]

/-- Settles O14: each request by the branch its hypotheses choose, and the power states by what setting them, stopping rings and
holding channels leave. -/
theorem configurationSpaceAndPowerStates : Obligations.ConfigurationSpaceAndPowerStates := by
  unfold Obligations.ConfigurationSpaceAndPowerStates
  intro s fn en ecrc off t hoff hperst hrest
  refine ⟨fun hready => ?_, fun hboot hstep hdrop a => execConfigRequest_of_boot hdrop hperst hboot hstep a⟩
  have hopen : s.dev.cfgOpen = true := by
    rw [Dev.cfgOpen, hready, hperst]
    simpa using hoff
  refine ⟨fun hdrop => ⟨?_, ?_⟩, ?_, fun hd0 => ?_, fun hd3 => ?_⟩
  · exact execConfigRequest_of_ready hdrop hperst hoff hready hrest (.read off)
  · exact execConfigRequest_of_ready hdrop hperst hoff hready hrest (.memSpace en)
  · exact s.onDev_of (doBusMasterEnableWrite_of_open fn en t hopen hrest)
  · obtain ⟨e, he, hpow, hintx, hstop, hring, hheld, hother, hops, hrd⟩ := doD3hotEntry_spec (t := t) hopen hrest hd0
    exact ⟨_, s.onDev_of he, hpow, hintx, hstop, hring, hheld, hother, hops, hrd, rfl, rfl⟩
  · obtain ⟨e, he, hpow, hring, hheld, hother, hops, hrd⟩ := doD0Return_spec (t := t) hopen hrest hd3
    exact ⟨_, s.onDev_of he, hpow, hring, hheld, hother, hops, hrd, rfl, rfl⟩

end Sys2Proof.Machine
end

section
/-!
PROOF. Field-window reads that time out (R62, R65): the reaction to the timeout may let the bulk stream send a waiting FW_READ, so the
reads behind the one that timed out need not stay as they were.
-/

namespace Sys2Proof.Machine

/-- A read that has been sent, and one behind it whose FW_READ waits in the bulk stream. -/
def sentRead : FwRead := ⟨false, 0x2000, 0, some 0, true⟩
def waitingRead : FwRead := ⟨false, 0x2000, 0, none, true⟩

/-- A device in HALT under no reaction, with both reads: the first reaction it meets ends HALT and lets the held stream go on. -/
def heldReads : State := Tests.on fun d => { d with
  h.dev := .halt
  h.fwReads := [sentRead, waitingRead]
  h.bulk.waitFw := [.fwRead false 0x2000] }

/-- The timeout of the first read sends the FW_READ of the second. -/
theorem fwReads_heldReads : (doFwReadTimeout false 80000 heldReads.dev).h.fwReads = [{ waitingRead with sent := some 80000 }] := by decide

/-- Refutes O12: a read times out 100 µs after FW_READ, and the reaction that its timeout raises ends HALT, by which the stream sends
the FW_READ of the read behind it; so that read does not stay as it was. -/
theorem not_fieldWindowAccesses : ¬ Obligations.FieldWindowAccesses := by
  unfold Obligations.FieldWindowAccesses
  rintro ⟨-, hreads⟩
  obtain ⟨-, -, hfront⟩ := hreads heldReads false .bar0 true 0 4 0 80000 0 0 default sentRead [waitingRead]
  obtain ⟨u, hexec, hrest, -⟩ := (hfront rfl rfl).2 rfl (by decide)
  have hu : u = { heldReads with dev := doFwReadTimeout false 80000 heldReads.dev } := (Host.Outcome.next.inj hexec).symm
  rw [hu, fwReads_heldReads] at hrest
  exact absurd hrest (by decide)

end Sys2Proof.Machine
end

section
/-!
PROOF. Wake events in REST (R222, R281, R282).
-/

namespace Sys2Proof.Machine

/-! ## A wake event -/

/-- The device with a wake source noted. -/
def Dev.wakeSrcNoted (d : Dev) (src : Nat) : Dev :=
  if bitOf (d.fld Fld.BRK_WAKE_SRC) src then d else d.setFld Fld.BRK_WAKE_SRC (d.fld Fld.BRK_WAKE_SRC + 2 ^ src)

/-- The device with the instant of the wake set by its first event. -/
def Dev.wakeTimed (d : Dev) (now : Nat) : Dev := if d.f.brk.wakeAt.isSome then d else { d with f.brk.wakeAt := some now }

/-- The die that recognises an event begins to wake. -/
def Dev.dieWakes (d : Dev) (x : Die) (host : Bool) : Dev := match x with | .h => d.wakeH host | .f => d.wakeF

theorem Dev.wake_of_rest {d : Dev} (h : d.f.ch.rest.isSome = true) (x : Die) (src : Nat) :
    d.wake x src = (((d.wakeSrcNoted src).wakeTimed d.now).emit (.wakeBeacon x)).dieWakes x (src == 1) := by
  obtain ⟨r, hr⟩ := Option.isSome_iff_exists.mp h
  unfold Dev.wake
  rw [hr]
  cases x <;> rfl

theorem Dev.wakeTrain_brk (d : Dev) : d.wakeTrain.f.brk = d.f.brk := Dev.ite_kept (π := fun d => d.f.brk) rfl rfl

/-- The die that wakes is awake. -/
theorem Dev.awake_dieWakes (d : Dev) (x : Die) (host : Bool) :
    (match x with | .h => (d.dieWakes x host).f.brk.awakeH | .f => (d.dieWakes x host).f.brk.awakeF) = true := by
  cases x with
  | h =>
    show (d.wakeH host).f.brk.awakeH = true
    unfold Dev.wakeH
    split
    next hawake => exact hawake
    next => rw [Dev.wakeTrain_brk]
  | f => exact congrArg Brk.awakeF (Dev.wakeTrain_brk _)

theorem Dev.wakeAt_dieWakes (d : Dev) (x : Die) (host : Bool) : (d.dieWakes x host).f.brk.wakeAt = d.f.brk.wakeAt := by
  cases x with
  | h =>
    show (d.wakeH host).f.brk.wakeAt = d.f.brk.wakeAt
    unfold Dev.wakeH
    refine Dev.ite_kept (π := fun d => d.f.brk.wakeAt) rfl ?_
    rw [Dev.wakeTrain_brk]
    exact Dev.ite_kept (π := fun d => d.f.brk.wakeAt) rfl rfl
  | f => simp only [Dev.dieWakes, Dev.wakeF, Dev.wakeTrain_brk]

/-- The instant of the wake is that of its first event. -/
theorem Dev.wakeAt_wakeTimed (d : Dev) (now : Nat) : (d.wakeTimed now).f.brk.wakeAt = some (d.f.brk.wakeAt.getD now) := by
  unfold Dev.wakeTimed
  cases h : d.f.brk.wakeAt with
  | none => rfl
  | some w => exact h

/-- A register but BRK_WAKE is not touched by a wake event. -/
theorem Dev.rd_dieWakes (d : Dev) (x : Die) (host : Bool) (k : Nat) : (d.dieWakes x host).rd k = d.rd k := by
  have htrain (e : Dev) : e.wakeTrain.rd k = e.rd k := Dev.ite_kept (π := fun d => d.rd k) rfl rfl
  cases x with
  | h => exact Dev.ite_kept (π := fun d => d.rd k) rfl ((htrain _).trans (Dev.ite_kept (π := fun d => d.rd k) rfl rfl))
  | f => exact htrain _

theorem Dev.rd_wakeTimed (d : Dev) (now k : Nat) : (d.wakeTimed now).rd k = d.rd k := Dev.ite_kept (π := fun d => d.rd k) rfl rfl

theorem Dev.brk_wakeSrcNoted (d : Dev) (src : Nat) : (d.wakeSrcNoted src).f.brk = d.f.brk :=
  Dev.ite_kept (π := fun d => d.f.brk) rfl (by simp)

/-- The source is noted. -/
theorem Dev.src_wakeSrcNoted (d : Dev) {src : Nat} (hsrc : src < 4) : bitOf ((d.wakeSrcNoted src).fld Fld.BRK_WAKE_SRC) src = true := by
  unfold Dev.wakeSrcNoted
  split
  next hbit => exact hbit
  next hbit =>
    rw [Dev.fld_setFld_same _ _ _ (by decide)]
    exact (bitOf_mod_two_pow hsrc).trans (bitOf_add_two_pow (by simpa using hbit))

/-- A wake event in REST is recorded, sets the instant where it is the first, and wakes the die that recognises it. -/
theorem Dev.wake_spec {d : Dev} (h : d.f.ch.rest.isSome = true) (x : Die) {src : Nat} (hsrc : src < 4) :
    bitOf ((d.wake x src).fld Fld.BRK_WAKE_SRC) src = true ∧ (d.wake x src).f.brk.wakeAt = some (d.f.brk.wakeAt.getD d.now) ∧
    (match x with | .h => (d.wake x src).f.brk.awakeH | .f => (d.wake x src).f.brk.awakeF) = true ∧
    (∀ k, k ≠ Reg.BRK_WAKE → (d.wake x src).rd k = d.rd k) := by
  rw [Dev.wake_of_rest h]
  have hrd (k : Nat) : ((((d.wakeSrcNoted src).wakeTimed d.now).emit (.wakeBeacon x)).dieWakes x (src == 1)).rd k = (d.wakeSrcNoted src).rd k :=
    (Dev.rd_dieWakes _ x _ k).trans (Dev.rd_wakeTimed _ _ k)
  refine ⟨?_, ?_, Dev.awake_dieWakes _ x _, fun k hk => (hrd k).trans ?_⟩
  · rw [Dev.fld_of_rd (F := Fld.BRK_WAKE_SRC) (hrd _)]
    exact d.src_wakeSrcNoted hsrc
  · refine (Dev.wakeAt_dieWakes _ x _).trans ((Dev.wakeAt_wakeTimed _ _).trans ?_)
    rw [d.brk_wakeSrcNoted]
  · exact Dev.ite_kept (π := fun d => d.rd k) rfl (Dev.rd_setFld_ne _ _ _ hk)

/-! ## A late commit -/

/-- The Barker but for the instant of a wake and which dies are awake. -/
def Dev.brkLeft (d : Dev) : Brk := { d.f.brk with wakeAt := none, awakeF := false, awakeH := false }

theorem Dev.brkLeft_wake (d : Dev) (x : Die) (src : Nat) : (d.wake x src).brkLeft = d.brkLeft := by
  have htimed (e : Dev) (now : Nat) : (e.wakeTimed now).brkLeft = e.brkLeft := Dev.ite_kept (π := Dev.brkLeft) rfl rfl
  have htrain (e : Dev) : e.wakeTrain.brkLeft = e.brkLeft := Dev.ite_kept (π := Dev.brkLeft) rfl rfl
  have hwakes (e : Dev) (host : Bool) : (e.dieWakes x host).brkLeft = e.brkLeft := by
    cases x with
    | h => exact Dev.ite_kept (π := Dev.brkLeft) rfl ((htrain _).trans (Dev.ite_kept (π := Dev.brkLeft) rfl rfl))
    | f => exact htrain _
  have hnoted : (d.wakeSrcNoted src).brkLeft = d.brkLeft := by
    unfold Dev.brkLeft
    rw [d.brk_wakeSrcNoted]
  cases hr : d.f.ch.rest.isSome with
  | false =>
    rw [Dev.wake_of_awake (by simpa using hr)]
  | true =>
    rw [Dev.wake_of_rest hr]
    exact (hwakes _ _).trans ((htimed _ _).trans hnoted)

/-- What is sent, a source, a pulse of FAULT_F_N and the levels taken anew are all that a source raised on the F-side moves. -/
theorem Dev.raiseF_kept {α : Type} {π : Dev → α} (hs : Dev.StreamBlind π) {i : Nat} (hsrc : ∀ (d : Dev) (s : Src), π (d.setSrc .f i s) = π d)
    (hpulse : ∀ (d : Dev) (on : Bool), π (d.startPulse .f on) = π d) (hpins : ∀ d : Dev, π d.pins = π d) (d : Dev) (a b : Bool) :
    π (d.raise .f i a b) = π d := by
  unfold Dev.raise Dev.raiseInfo Dev.raiseForce Dev.announce; dsimp only
  refine Dev.ite_kept (Dev.ite_kept (hsrc _ _) ((hs.sendEvent _ _ _ _ _ _ _).trans (hsrc _ _))) (Dev.ite_kept ?_ (hsrc _ _))
  exact (hpins _).trans ((hs.sendEvent _ _ _ _ _ _ _).trans ((hpulse _ _).trans (hsrc _ _)))

/-- A source raised on the F-side leaves the mark of a late commit. -/
theorem Dev.late_raiseF (d : Dev) (i : Nat) (a b : Bool) : (d.raise .f i a b).f.brk.late = d.f.brk.late := by
  have hs : Dev.StreamBlind (fun d => d.f.brk.late) := ⟨⟨fun _ _ => rfl⟩, fun _ x _ => by cases x <;> rfl, fun _ _ => rfl⟩
  have hstart (e : Dev) : (e.pulse .f).f.brk.late = e.f.brk.late := by
    unfold Dev.pulse; dsimp only
    split_ifs <;> rfl
  have hpulse (e : Dev) (on : Bool) : (e.startPulse .f on).f.brk.late = e.f.brk.late :=
    Dev.ite_kept (π := fun d => d.f.brk.late) ((congrArg Brk.late (Dev.brkLeft_wake _ .f 3) :).trans (hstart e)) rfl
  exact Dev.raiseF_kept hs (fun _ _ => rfl) hpulse (fun e => (congrArg (fun d : Dev => d.f.brk.late) e.unpinned_pins :)) d a b

/-! ## The statement -/

/-- Settles O41: each event is a wake of a device in REST, and a late commit is a source raised. -/
theorem wakeEventsComplete : Obligations.WakeEventsComplete := by
  unfold Obligations.WakeEventsComplete
  intro s x src w t
  refine ⟨fun hrest hsrc => ?_, fun hwake => ?_, fun hat hrest hlate hdue => ?_, fun hrest htgt hen => ?_⟩
  · have hexec : exec (.wakeEvent src t) s = .next { s with dev := (s.dev.at t).wake (if src = 1 then .h else .f) src } :=
      s.onDev_of (if_neg (by omega))
    obtain ⟨hbit, hat, hawake, -⟩ := Dev.wake_spec (d := s.dev.at t) hrest (if src = 1 then .h else .f) hsrc
    refine ⟨_, hexec, hbit, hat, ?_, Dev.wake_apart _ _ _, rfl, rfl⟩
    by_cases h1 : src = 1
    · subst h1
      exact hawake
    · simp only [h1, if_false] at hawake ⊢
      exact hawake
  · have hexec : exec (.wakeBeacon x t) s = .next { s with dev := (s.dev.at t).dieWakes x false } := by
      refine s.onDev_of ((if_neg ?_).trans ?_)
      · obtain ⟨w, hw⟩ := Option.isSome_iff_exists.mp hwake
        rw [show (s.dev.at t).f.brk.wakeAt = some w from hw]
        exact Bool.false_ne_true
      · cases x <;> rfl
    refine ⟨_, hexec, Dev.awake_dieWakes _ x _, ?_, rfl, rfl⟩
    cases x with
    | h => exact Dev.wakeH_apart _ _
    | f => exact Dev.wakeF_apart _
  · have hexec : exec (.wakeLate t) s = .next { s with dev := ({ s.dev.at t with f.brk.late := true }).raiseBoth .f Sn.SYS_WAKE_LATE } := by
      refine s.onDev_of ?_
      unfold doWakeLate; dsimp only
      rw [show (s.dev.at t).f.brk.wakeAt = some w from hat]
      refine if_pos ?_
      rw [show (s.dev.at t).f.ch.rest.isSome = true from hrest, show (s.dev.at t).f.brk.late = false from hlate]
      simpa [usCycles] using hdue
    refine ⟨_, hexec, Dev.late_raiseF _ _ _ _, Dev.last_raise _ .f _ _ (by decide), ?_, rfl, rfl⟩
    have hmark : (s.dev.at t).SameApart { s.dev.at t with f.brk.late := true } := by
      constructor <;> first | (intros; rfl) | exact ⟨[], rfl⟩
    exact hmark.trans (Dev.raiseBoth_apart _ .f (by decide))
  · have hexec : exec (.twpWakeMatch t) s = .next { s with dev := ((s.dev.at t).setFld Fld.TWP_STATUS_WAKE_MATCH 1).wake .f 2 } := by
      refine s.onDev_of (if_pos ?_)
      rw [show (s.dev.at t).f.ch.rest.isSome = true from hrest, show (s.dev.at t).flag Fld.TWP_TGT_CFG_TGT_EN = true from htgt,
        show (s.dev.at t).flag Fld.TWP_TGT_CFG_WAKE_EN = true from hen]
      rfl
    obtain ⟨hbit, -, hawake, hrd⟩ := Dev.wake_spec (d := (s.dev.at t).setFld Fld.TWP_STATUS_WAKE_MATCH 1) (by simpa using hrest) .f
      (src := 2) (by decide)
    refine ⟨_, hexec, ?_, hbit, hawake, rfl, rfl⟩
    rw [Dev.fld_of_rd (F := Fld.TWP_STATUS_WAKE_MATCH) (hrd _ (by decide)), Dev.fld_setFld_same _ _ _ (by decide)]
    decide

end Sys2Proof.Machine
end

section
/-!
PROOF. A sample of the Barker (R285 to R290): every input's vote, and what a sample moves.
-/

namespace Sys2Proof.Machine

/-! ## The votes of the inputs together -/

/-- The levels and histories of the first inputs, by the vote of each. -/
def votesOf (f : Nat → List Bool × Bool) (h : Tab (List Bool)) (n : Nat) : Nat × Tab (List Bool) :=
  (List.range n).foldl (fun a k => (a.1 + b2n (f k).2 * 2 ^ k, a.2.set (fun _ => []) k (f k).1)) (0, h)

theorem votesOf_succ (f : Nat → List Bool × Bool) (h : Tab (List Bool)) (n : Nat) : votesOf f h (n + 1) =
    ((votesOf f h n).1 + b2n (f n).2 * 2 ^ n, (votesOf f h n).2.set (fun _ => []) n (f n).1) := by
  unfold votesOf
  rw [List.range_succ, List.foldl_append]
  rfl

/-- A number below a power of two, and that power: the bits below stay, and the bit there is the one added. -/
theorem testBit_add_b2n {a n k : Nat} (ha : a < 2 ^ n) (b : Bool) (hk : k ≤ n) :
    (a + b2n b * 2 ^ n).testBit k = if k = n then b else a.testBit k := by
  cases b with
  | false =>
    have hzero : a + b2n false * 2 ^ n = a := by simp [b2n]
    rw [hzero]
    split
    next h => rw [h, Nat.testBit_lt_two_pow ha]
    next => rfl
  | true =>
    have hone : a + b2n true * 2 ^ n = 2 ^ n + a := by simp [b2n, Nat.add_comm]
    rw [hone]
    split
    next h => rw [h, Nat.testBit_two_pow_add_eq, Nat.testBit_lt_two_pow ha]; rfl
    next h => rw [Nat.testBit_two_pow_add_gt (by omega)]

/-- Every input's bit is its vote, and its history its own. -/
theorem votesOf_spec (f : Nat → List Bool × Bool) (h : Tab (List Bool)) : ∀ n, (votesOf f h n).1 < 2 ^ n ∧
    (∀ k, k < n → bitOf (votesOf f h n).1 k = (f k).2 ∧ Tab.get (fun _ => []) (votesOf f h n).2 k = (f k).1)
  | 0 => ⟨Nat.one_pos, fun _ hk => absurd hk (Nat.not_lt_zero _)⟩
  | n + 1 => by
    obtain ⟨hlt, hbits⟩ := votesOf_spec f h n
    rw [votesOf_succ]
    have hb : b2n (f n).2 * 2 ^ n ≤ 2 ^ n := by cases (f n).2 <;> simp [b2n]
    refine ⟨by dsimp only; omega, fun k hk => ?_⟩
    rw [bitOf_eq_testBit, testBit_add_b2n hlt _ (Nat.lt_succ_iff.mp hk)]
    by_cases hkn : k = n
    · subst hkn
      exact ⟨if_pos rfl, (Tab.get_set ..).trans (if_pos rfl)⟩
    · obtain ⟨hbit, hhist⟩ := hbits k (by omega)
      rw [if_neg hkn, Tab.get_set_ne _ _ _ hkn, ← bitOf_eq_testBit]
      exact ⟨hbit, hhist⟩

/-! ## The parts of a sample -/

/-- The device with the levels and histories of a sample. -/
def Dev.sampled (d : Dev) (p : Nat × Tab (List Bool)) : Dev := ({ d with f.brk.hist := p.2 }).setFld Fld.BRK_STATUS_LEVEL p.1

/-- A change of a level restarts the idle time. -/
def Dev.levelsMoved (d : Dev) (old new : Nat) : Dev := if new = old then d else if d.f.ch.rest.isNone then d.idleReset else d

/-- The travel of a step of the encoder. -/
def Dev.traveled (d : Dev) (step : Nat) : Dev :=
  if step = 1 then d.setTravel (d.travel + 1) else if step = 3 then d.setTravel (d.travel - 1)
  else if step = 2 then d.setFld Fld.BRK_STATUS_ILLEGAL 1 else d

/-- The device without the Barker's own state: its registers are among the F-side's. -/
def Dev.unsampled (d : Dev) : Dev := { d with f.brk := Brk.reset, f.regs := [] }

theorem Dev.unsampled_wr (d : Dev) {k : Nat} (v : Word) (hk : onFSide (baseOff k) = true) : (d.wr k v).unsampled = d.unsampled := by
  unfold Dev.wr
  rw [if_pos hk]
  rfl

theorem Dev.unsampled_sampled (d : Dev) (p : Nat × Tab (List Bool)) : (d.sampled p).unsampled = d.unsampled :=
  Dev.unsampled_wr _ _ (by decide)

theorem Dev.unsampled_levelsMoved (d : Dev) (old new : Nat) : (d.levelsMoved old new).unsampled = d.unsampled :=
  Dev.ite_kept rfl (Dev.ite_kept rfl rfl)

theorem Dev.rd_levelsMoved (d : Dev) (old new k : Nat) : (d.levelsMoved old new).rd k = d.rd k :=
  Dev.ite_kept (π := fun d => d.rd k) rfl (Dev.ite_kept (π := fun d => d.rd k) rfl rfl)

theorem Dev.hist_levelsMoved (d : Dev) (old new : Nat) : (d.levelsMoved old new).f.brk.hist = d.f.brk.hist :=
  Dev.ite_kept (π := fun d => d.f.brk.hist) rfl (Dev.ite_kept (π := fun d => d.f.brk.hist) rfl rfl)

theorem Dev.unsampled_traveled (d : Dev) (step : Nat) : (d.traveled step).unsampled = d.unsampled :=
  Dev.ite_kept (d.unsampled_wr _ (by decide)) (Dev.ite_kept (d.unsampled_wr _ (by decide))
    (Dev.ite_kept (d.unsampled_wr _ (by decide)) rfl))

/-- A step of the encoder leaves every field but the travel and the mark of an illegal one. -/
theorem Dev.fld_traveled (d : Dev) (step : Nat) : (d.traveled step).fld Fld.BRK_STATUS_LEVEL = d.fld Fld.BRK_STATUS_LEVEL := by
  have htravel (v : Int) : (d.setTravel v).fld Fld.BRK_STATUS_LEVEL = d.fld Fld.BRK_STATUS_LEVEL :=
    Dev.fld_of_rd (F := Fld.BRK_STATUS_LEVEL) (d.rd_wr_ne _ (by decide))
  exact Dev.ite_kept (π := fun d => d.fld Fld.BRK_STATUS_LEVEL) (htravel _)
    (Dev.ite_kept (π := fun d => d.fld Fld.BRK_STATUS_LEVEL) (htravel _)
      (Dev.ite_kept (π := fun d => d.fld Fld.BRK_STATUS_LEVEL) (d.fld_setFld_ne _ _ _ (by decide) (by decide)) rfl))

theorem Dev.rd_traveled (d : Dev) (step : Nat) {k : Nat} (hstatus : k ≠ Reg.BRK_STATUS) (htravel : k ≠ Reg.BRK_TRAVEL) :
    (d.traveled step).rd k = d.rd k :=
  Dev.ite_kept (π := fun d => d.rd k) (d.rd_wr_ne _ htravel) (Dev.ite_kept (π := fun d => d.rd k) (d.rd_wr_ne _ htravel)
    (Dev.ite_kept (π := fun d => d.rd k) (d.rd_setFld_ne _ _ hstatus) rfl))

theorem Dev.brk_traveled (d : Dev) (step : Nat) : (d.traveled step).f.brk = d.f.brk := by
  have hwr (k : Nat) (v : Word) : (d.wr k v).f.brk = d.f.brk := by simp
  exact Dev.ite_kept (π := fun d => d.f.brk) (hwr _ _) (Dev.ite_kept (π := fun d => d.f.brk) (hwr _ _)
    (Dev.ite_kept (π := fun d => d.f.brk) (hwr _ _) rfl))

/-! ### The match rules -/

/-- A rule at a sample moves the state of the rules alone. -/
theorem Dev.ruleAt_kept {α : Type} {π : Dev → α} (hbrk : ∀ (d : Dev) (h : Nat) (e : Tab Nat), π { d with
    f.brk.held := h
    f.brk.edges := e } = π d) (d : Dev) (r old new : Nat) (illegal : Bool) : π (d.ruleAt r old new illegal).2 = π d := by
  unfold Dev.ruleAt
  split
  · rfl
  split
  · exact hbrk d _ d.f.brk.edges
  · exact hbrk d d.f.brk.held _
  · rfl
  · rfl

/-- The rules evaluated at a sample, with those that match. -/
def Dev.rulesRun (d : Dev) (old new : Nat) (illegal : Bool) : Nat × Dev := (List.range 8).foldl (fun (a : Nat × Dev) r =>
  (if (a.2.ruleAt r old new illegal).1 then a.1 + 2 ^ r else a.1, (a.2.ruleAt r old new illegal).2)) (0, d)

theorem Dev.rulesRun_kept {α : Type} {π : Dev → α} (hbrk : ∀ (d : Dev) (h : Nat) (e : Tab Nat), π { d with
    f.brk.held := h
    f.brk.edges := e } = π d) (d : Dev) (old new : Nat) (illegal : Bool) : π (d.rulesRun old new illegal).2 = π d := by
  have hfold : ∀ (l : List Nat) (a : Nat × Dev), π (l.foldl (fun (a : Nat × Dev) r =>
      (if (a.2.ruleAt r old new illegal).1 then a.1 + 2 ^ r else a.1, (a.2.ruleAt r old new illegal).2)) a).2 = π a.2 := by
    intro l
    induction l with
    | nil => exact fun _ => rfl
    | cons r l ih => exact fun a => (ih _).trans (Dev.ruleAt_kept hbrk a.2 r old new illegal)
  exact hfold _ _

theorem Dev.rulesAt_eq (d : Dev) (old new : Nat) (illegal : Bool) : d.rulesAt old new illegal =
    if (d.rulesRun old new illegal).1 = 0 then (d.rulesRun old new illegal).2
    else ((d.rulesRun old new illegal).2.setFld Fld.BRK_WAKE_RULES
      ((d.rulesRun old new illegal).2.fld Fld.BRK_WAKE_RULES ||| (d.rulesRun old new illegal).1)).wake .f 0 := rfl

/-- The rules leave the registers but BRK_WAKE, the histories, the channels and the Carousel. -/
theorem Dev.rulesAt_left (d : Dev) (old new : Nat) (illegal : Bool) : (∀ k, k ≠ Reg.BRK_WAKE → (d.rulesAt old new illegal).rd k = d.rd k) ∧
    (d.rulesAt old new illegal).f.brk.hist = d.f.brk.hist ∧ (d.rulesAt old new illegal).f.ch = d.f.ch ∧
    (d.rulesAt old new illegal).f.car = d.f.car := by
  obtain ⟨e, he⟩ : ∃ e, e = (d.rulesRun old new illegal).2 := ⟨_, rfl⟩
  have hkept {α : Type} (π : Dev → α) (hbrk : ∀ (d : Dev) (h : Nat) (e : Tab Nat), π { d with
      f.brk.held := h
      f.brk.edges := e } = π d) (hset : ∀ (e : Dev) (v : Nat), π ((e.setFld Fld.BRK_WAKE_RULES v).wake .f 0) = π e) :
      π (d.rulesAt old new illegal) = π d := by
    rw [Dev.rulesAt_eq]
    exact Dev.ite_kept (Dev.rulesRun_kept hbrk d _ _ _) ((hset _ _).trans (Dev.rulesRun_kept hbrk d _ _ _))
  have hwake (e : Dev) (k : Nat) (hk : k ≠ Reg.BRK_WAKE) : (e.wake .f 0).rd k = e.rd k := by
    cases hr : e.f.ch.rest.isSome with
    | false => rw [Dev.wake_of_awake (by simpa using hr)]
    | true => exact (Dev.wake_spec hr .f (by decide)).2.2.2 k hk
  refine ⟨fun k hk => hkept (fun d => d.rd k) (fun _ _ _ => rfl) fun e v => ?_, hkept (fun d => d.f.brk.hist) (fun _ _ _ => rfl) fun e v => ?_,
    hkept (fun d => d.f.ch) (fun _ _ _ => rfl) fun e v => ?_, hkept (fun d => d.f.car) (fun _ _ _ => rfl) fun e v => ?_⟩
  · exact (hwake _ k hk).trans (e.rd_setFld_ne _ _ hk)
  · refine (congrArg Brk.hist (Dev.brkLeft_wake _ .f 0) :).trans ?_
    simp [Dev.brkLeft]
  · exact (Dev.blind_ch.wake _ .f 0).trans (by simp)
  · exact ((Dev.Blind.of_core (π := fun d => d.f.car) fun _ => rfl).wake _ .f 0).trans (by simp)

/-! ## The sample -/

/-- The step of the encoder between two samples. -/
def Dev.sampleStep (d : Dev) (first : Bool) (old new : Nat) : Nat :=
  if !d.brkEnabled 17 || first then 0
  else (quadPhase (bitOf new 17) (bitOf new 18) + 4 - quadPhase (bitOf old 17) (bitOf old 18)) % 4

/-- The votes of a sample. -/
def Dev.votes (d : Dev) (lv : BitVec 19) : Nat × Tab (List Bool) :=
  votesOf (fun k => d.sampleInput k lv false (bitOf (d.fld Fld.BRK_STATUS_LEVEL) k)) d.f.brk.hist 19

/-- The device with a sample's votes, and the travel that they show. -/
def Dev.sampledMoved (d : Dev) (p : Nat × Tab (List Bool)) (old step : Nat) : Dev := ((d.sampled p).levelsMoved old p.1).traveled step

/-- A sample at its tick: the votes, the travel, and in REST the rules. -/
theorem doBarkerSample_of_tick {d : Dev} (lv : BitVec 19) (t : Nat) (hpow : d.f.powered = true) (hen : d.brk Fld.BRK_CTRL_EN = 1)
    (htick : (d.at t).sampleTick = true) : ∃ step, doBarkerSample lv false t d =
      (let e := ({ d.at t with f.brk.sampleAt := some (max d.now t) }).sampledMoved (d.votes lv) (d.fld Fld.BRK_STATUS_LEVEL) step
      if e.f.ch.rest.isSome then e.rulesAt (d.fld Fld.BRK_STATUS_LEVEL) (d.votes lv).1 (step == 2) else e) := by
  refine ⟨((({ d.at t with f.brk.sampleAt := some (max d.now t) } : Dev).sampled (d.votes lv)).levelsMoved (d.fld Fld.BRK_STATUS_LEVEL)
    (d.votes lv).1).sampleStep (Tab.get (fun _ => []) d.f.brk.hist 17).isEmpty (d.fld Fld.BRK_STATUS_LEVEL) (d.votes lv).1, ?_⟩
  refine (if_neg ?_).trans ?_
  · rw [htick, show (d.at t).brk Fld.BRK_CTRL_EN = 1 from hen, show (d.at t).f.powered = true from hpow]
    decide
  · simp only [Bool.false_eq_true, if_false]
    rfl

/-- What the votes and the travel of a sample leave, and what they put in. -/
theorem Dev.sampledMoved_spec (d : Dev) {p : Nat × Tab (List Bool)} (hp : p.1 < 2 ^ 19) (old step : Nat) :
    (d.sampledMoved p old step).fld Fld.BRK_STATUS_LEVEL = p.1 ∧ (d.sampledMoved p old step).f.brk.hist = p.2 ∧
    (∀ k, k ≠ Reg.BRK_STATUS → k ≠ Reg.BRK_TRAVEL → (d.sampledMoved p old step).rd k = d.rd k) ∧
    (d.sampledMoved p old step).unsampled = d.unsampled := by
  refine ⟨?_, ?_, fun k hstatus htravel => ?_, ?_⟩
  · refine (Dev.fld_traveled _ step).trans ((Dev.fld_of_rd (F := Fld.BRK_STATUS_LEVEL) (Dev.rd_levelsMoved _ _ _ _)).trans ?_)
    refine (Dev.fld_setFld_same _ Fld.BRK_STATUS_LEVEL p.1 (by decide)).trans ?_
    exact Nat.mod_eq_of_lt hp
  · refine (congrArg Brk.hist (Dev.brk_traveled _ step)).trans ((Dev.hist_levelsMoved _ _ _).trans ?_)
    simp [Dev.sampled]
  · refine (Dev.rd_traveled _ step hstatus htravel).trans ((Dev.rd_levelsMoved _ _ _ _).trans ?_)
    exact Dev.rd_setFld_ne _ _ _ hstatus
  · exact (Dev.unsampled_traveled _ step).trans ((Dev.unsampled_levelsMoved _ _ _).trans (d.unsampled_sampled p))

/-- Settles O42: the votes of all inputs are taken together, and what follows a sample leaves them. -/
theorem barkerSampleVotes : Obligations.BarkerSampleVotes := by
  unfold Obligations.BarkerSampleVotes
  intro s lv t hpow hen
  refine ⟨fun hoff => s.onDev_of (if_pos ?_), fun htick => ?_⟩
  · rw [hoff]
    simp
  obtain ⟨step, hdo⟩ := doBarkerSample_of_tick lv t hpow hen htick
  obtain ⟨hlt, hvotes⟩ := votesOf_spec (fun k => s.dev.sampleInput k lv false (bitOf (s.dev.fld Fld.BRK_STATUS_LEVEL) k)) s.dev.f.brk.hist 19
  obtain ⟨e, he⟩ : ∃ e, e = ({ s.dev.at t with f.brk.sampleAt := some (max s.dev.now t) } : Dev).sampledMoved (s.dev.votes lv)
    (s.dev.fld Fld.BRK_STATUS_LEVEL) step := ⟨_, rfl⟩
  obtain ⟨hlevel, hhist, hrd, hrest⟩ := he ▸ Dev.sampledMoved_spec { s.dev.at t with f.brk.sampleAt := some (max s.dev.now t) } hlt
    (s.dev.fld Fld.BRK_STATUS_LEVEL) step
  obtain ⟨hrules, hruleHist, hruleCh, hruleCar⟩ := e.rulesAt_left (s.dev.fld Fld.BRK_STATUS_LEVEL) (s.dev.votes lv).1 (step == 2)
  have hch : e.f.ch = s.dev.f.ch := (congrArg (fun d : Dev => d.f.ch) hrest :)
  have hcar : e.f.car = s.dev.f.car := (congrArg (fun d : Dev => d.f.car) hrest :)
  rw [← he] at hdo
  have hkept {α : Type} (π : Dev → α) (hrule : π (e.rulesAt (s.dev.fld Fld.BRK_STATUS_LEVEL) (s.dev.votes lv).1 (step == 2)) = π e) :
      π (if e.f.ch.rest.isSome then e.rulesAt (s.dev.fld Fld.BRK_STATUS_LEVEL) (s.dev.votes lv).1 (step == 2) else e) = π e :=
    Dev.ite_kept hrule rfl
  refine ⟨_, s.onDev_of hdo, fun k hk => ?_, fun k hk => ?_, fun k hstatus htravel hwake => ?_, fun hawake => ?_, ?_, ?_, rfl, rfl⟩
  · refine Eq.trans ?_ (hvotes k hk).1
    exact congrArg (bitOf · k) ((hkept (fun d => d.fld Fld.BRK_STATUS_LEVEL) (Dev.fld_of_rd (hrules _ (by decide)))).trans hlevel)
  · refine Eq.trans ?_ (hvotes k hk).2
    exact congrArg (Tab.get (fun _ => []) · k) ((hkept (fun d => d.f.brk.hist) hruleHist).trans hhist)
  · exact (hkept (fun d => d.rd k) (hrules k hwake)).trans (hrd k hstatus htravel)
  · have hnone : e.f.ch.rest = none := (congrArg Chans.rest hch).trans hawake
    dsimp only
    rw [hnone]
    exact ⟨(congrArg (fun d : Dev => d.h) hrest :), (congrArg (fun d : Dev => d.out) hrest :), (congrArg (fun d : Dev => d.f.ops) hrest :),
      (congrArg (fun d : Dev => d.f.sn) hrest :)⟩
  · exact (hkept (fun d => d.f.ch) hruleCh).trans hch
  · exact (hkept (fun d => d.f.car) hruleCar).trans hcar

end Sys2Proof.Machine
end

section
/-!
PROOF. Rest entry (R63, R82, R276 to R280, R292): its beginning, the exchange, and the REST cells.
-/

namespace Sys2Proof.Machine

/-! ## The beginning of the entry -/

/-- What the beginning of a Rest entry is about: the entry, the two-wire port, the device state and the channels' Rest values. -/
def Dev.entryPart (d : Dev) : Option RestEntry × Twp × DevState × Option (W48 × W48) := (d.h.restEntry, d.f.twp, d.h.dev, d.f.ch.rest)

theorem Dev.streamBlind_entryPart : Dev.StreamBlind Dev.entryPart := .of_unsent fun _ => rfl

theorem Dev.wakeBlind_entryPart : Dev.WakeBlind Dev.entryPart where
  emit _ _ := rfl
  wrHalt d k v _ := by simp [Dev.entryPart]
  pci d fn p := by cases fn <;> rfl
  irqRest _ _ := rfl
  wr d k v _ := by simp [Dev.entryPart]
  ackCopy _ _ _ := rfl
  pulseH _ _ := rfl
  pulseF _ _ := rfl
  brk _ _ := rfl
  pm _ _ := rfl
  training _ _ := rfl

theorem Dev.entryPart_endF (d : Dev) (tag st : Nat) (r : Quad) : (d.endF tag st r).entryPart = d.entryPart :=
  Dev.streamBlind_entryPart.endF (fun _ _ _ => rfl) d tag st r

theorem Dev.entryPart_complete (d : Dev) (g : Nat) (o : Op) (st : Nat) (r : Quad) : (d.complete g o st r).entryPart = d.entryPart :=
  Dev.wakeBlind_entryPart.toIrqBlind.complete (fun _ _ _ => rfl) d g o st r

theorem Dev.entryPart_pins (d : Dev) : d.pins.entryPart = d.entryPart := (congrArg Dev.entryPart d.unpinned_pins :)

theorem Dev.entryPart_setCap (d : Dev) (fn : Func) (c : Option Cap) : (d.setCap fn c).entryPart = d.entryPart := by cases fn <;> rfl

theorem Dev.entryPart_capSendOne (d : Dev) (fn : Func) : (d.capSendOne fn).entryPart = d.entryPart := by
  have hreceive (e : Dev) (g : Nat) (w : W48) : (e.receive g w).entryPart = e.entryPart :=
    Dev.streamBlind_entryPart.receive (fun _ _ _ => rfl) e g w
  unfold Dev.capSendOne
  split
  · rfl
  split
  · rfl
  · exact ((hreceive _ _ _).trans (hreceive _ _ _)).trans (d.entryPart_setCap fn _)

theorem Dev.entryPart_capFlushLost (d : Dev) (fn : Func) : (d.capFlushLost fn).entryPart = d.entryPart := by
  have hlost : (d.capLost fn).entryPart = d.entryPart := by
    refine (Dev.raiseF_kept Dev.streamBlind_entryPart (fun _ _ => rfl) (fun e on => Dev.wakeBlind_entryPart.startPulse e .f on)
      Dev.entryPart_pins _ _ _).trans ?_
    simp [Dev.entryPart]
  unfold Dev.capFlushLost
  split
  · rfl
  refine Dev.ite_kept rfl (Dev.ite_kept ((Dev.entryPart_setCap _ _ _).trans hlost) ?_)
  split
  · exact (Dev.entryPart_setCap _ _ _).trans hlost
  · exact hlost

theorem Dev.entryPart_capEnd (d : Dev) (fn : Func) (st : Nat) : (d.capEnd fn st).entryPart = d.entryPart := by
  have hsent : ((((List.range 64).foldl (fun d _ => d.capSendOne fn) d).capFlushLost fn).capSendOne fn).entryPart = d.entryPart := by
    rw [Dev.entryPart_capSendOne, Dev.entryPart_capFlushLost]
    exact Dev.StreamBlind.foldl (π := Dev.entryPart) _ (fun e _ => e.entryPart_capSendOne fn) _ d
  unfold Dev.capEnd
  split
  · rfl
  dsimp only
  split
  · exact (Dev.entryPart_endF _ _ _ _).trans ((Dev.entryPart_setCap _ _ _).trans hsent)
  · exact hsent

/-- The entry stands, the two-wire queue is empty, and the device state and the channels stay. -/
theorem Dev.entryPart_restBegin (d : Dev) (tag : Option Nat) :
    (d.restBegin tag).entryPart = (some ⟨tag⟩, { d.f.twp with queue := [] }, d.h.dev, d.f.ch.rest) := by
  unfold Dev.restBegin
  extract_lets h0 d1 f0 w0 d2 d3
  have h1 : d1.entryPart = (some ⟨tag⟩, d.f.twp, d.h.dev, d.f.ch.rest) :=
    Dev.StreamBlind.foldl (π := Dev.entryPart) _ (fun e p => Dev.ite_kept (e.entryPart_complete _ _ _ _) rfl) _ _
  have hempty : ({ d1 with f.twp.queue := [] } : Dev).entryPart = (d1.entryPart.1, { d1.entryPart.2.1 with queue := [] }, d1.entryPart.2.2) := rfl
  have h2 : d2.entryPart = (some ⟨tag⟩, { d.f.twp with queue := [] }, d.h.dev, d.f.ch.rest) := by
    refine (Dev.StreamBlind.foldl (π := Dev.entryPart) _ (fun e g => e.entryPart_endF g _ _) _ _).trans (hempty.trans ?_)
    rw [h1]
  have h3 : d3.entryPart = d2.entryPart := (Dev.entryPart_capEnd _ _ _).trans (Dev.entryPart_capEnd _ _ _)
  refine (Dev.StreamBlind.foldl (π := Dev.entryPart) _ (fun e p => ?_) _ _).trans (h3.trans h2)
  exact Dev.ite_kept rfl (Dev.ite_kept (e.entryPart_endF _ _ _) (Dev.ite_kept (e.entryPart_endF _ _ _) rfl))

/-- The parts of the entry, by name. -/
theorem Dev.restBegin_spec (d : Dev) (tag : Option Nat) : (d.restBegin tag).h.restEntry = some ⟨tag⟩ ∧ (d.restBegin tag).f.twp.queue = [] ∧
    (d.restBegin tag).h.dev = d.h.dev ∧ (d.restBegin tag).f.ch.rest = d.f.ch.rest := by
  have hall := d.entryPart_restBegin tag
  exact ⟨congrArg Prod.fst hall, congrArg (fun p => p.2.1.queue) hall, congrArg (fun p => p.2.2.1) hall, congrArg (fun p => p.2.2.2) hall⟩

/-- REST_ENTER that no cause refuses. -/
theorem doRestEnter_of_free {d : Dev} {tag : Nat} {o : Op} (t : Nat) (hop : d.mgmtOp tag cmdREST_ENTER = some o) (hfree : d.restRefused = false) :
    doRestEnter tag t d = ((d.at t).setOp tag (some { o with stage := .closing })).restBegin (some tag) := by
  unfold doRestEnter; dsimp only
  rw [show (d.at t).mgmtOp tag cmdREST_ENTER = some o from hop]
  dsimp only
  rw [Dev.taken_of_mgmtOp hop]
  exact if_neg (by rw [show ((d.at t).setOp tag (some { o with stage := .closing })).restRefused = false from hfree]; decide)

theorem any_force_false {l : List (Nat × Src)} {n : Nat} (h : ∀ p ∈ l, p.2.force < n) : l.any (fun p => decide (n ≤ p.2.force)) = false := by
  rw [List.any_eq_false]
  intro p hp
  simpa using h p hp

/-- The idle policy when its time has come. -/
theorem doIdleTimeout_of_due {d : Dev} {t : Nat} (hen : d.brk Fld.BRK_CTRL_IDLE_EN = 1) (hfree : d.restRefused = false)
    (hf : ∀ p ∈ d.f.sn, p.2.force = 0) (hh : ∀ p ∈ d.f.snH, p.2.force = 0)
    (hdue : max d.f.brk.idleFrom (lastMove d.f.car.hist) + d.brk Fld.BRK_IDLE_IDLE_S * 800000000 ≤ max d.now t) :
    doIdleTimeout t d = (d.at t).restBegin none := by
  have hstate : d.h.dev = .run ∧ d.h.restEntry = none := by
    unfold Dev.restRefused at hfree
    simp only [Bool.or_eq_false_iff, bne_eq_false_iff_eq, Option.isSome_eq_false_iff, Option.isNone_iff_eq_none] at hfree
    exact ⟨hfree.1.1.2, hfree.2⟩
  have htime : max (d.at t).f.brk.idleFrom (lastMove (d.at t).f.car.hist) + (d.at t).brk Fld.BRK_IDLE_IDLE_S * 1000 * msCycles ≤ (d.at t).now := by
    refine le_trans (le_of_eq ?_) hdue
    rw [Nat.mul_assoc]
    rfl
  refine (if_neg ?_).trans (if_neg ?_)
  · rw [show (d.at t).f.sn.any (fun p => decide (1 ≤ p.2.force)) = false from any_force_false fun p hp => by rw [hf p hp]; decide,
      show (d.at t).f.snH.any (fun p => decide (1 ≤ p.2.force)) = false from any_force_false fun p hp => by rw [hh p hp]; decide,
      show (d.at t).brk Fld.BRK_CTRL_IDLE_EN = 1 from hen, show (d.at t).h.dev = .run from hstate.1, show (d.at t).h.restEntry = none from hstate.2,
      decide_eq_true htime]
    decide
  · rw [show (d.at t).restRefused = false from hfree]
    decide

/-! ## The exchange -/

/-! ### What the exchange leaves -/

/-- A part that the Barker's set-up at a Rest entry does not reach. -/
structure Dev.RestBlind {α : Type} (π : Dev → α) : Prop extends Dev.Blind π where
  brkWr : ∀ (d : Dev) (k : Nat) (v : Word), 0x3400 ≤ k → k < 0x3800 → π (d.wr k v) = π d
  srcF : ∀ (d : Dev) (i : Nat) (s : Src), π (d.setSrc .f i s) = π d
  pins : ∀ d : Dev, π d.pins = π d

/-- The parts of the exchange: the channels' Rest values, the last commit, the link, the watchdogs, the time and the debugger. -/
def Dev.restPart (d : Dev) : Option (W48 × W48) × Option Nat × Bool × Wd × Wd × Wd × Nat × Bool :=
  (d.f.ch.rest, d.f.watch.lastCommit, d.h.link.up, d.h.wdA, d.h.wdB, d.f.wdF, d.now, d.f.ft.halted)

theorem Dev.restBlind_restPart : Dev.RestBlind Dev.restPart where
  toBlind := .of_core fun _ => rfl
  brkWr d k v _ _ := by simp [Dev.restPart]
  srcF _ _ _ := rfl
  pins d := (congrArg Dev.restPart d.unpinned_pins :)

theorem reactReg_wd : ∀ j, j < 96 → reactReg (0x1400 + j) = false := by decide

/-- A register of the watchdogs. -/
theorem Dev.restBlind_wdReg {j : Nat} (hj : j < 96) : Dev.RestBlind (fun d => d.rd (0x1400 + j)) where
  toBlind := Dev.blind_rd (reactReg_wd j hj)
  brkWr d k v hlo _ := d.rd_wr_ne v (by omega)
  srcF _ _ _ := rfl
  pins d := d.rd_pins (by unfold Reg.CH_PIN_MISM_LO; omega) (by unfold Reg.CH_PIN_MISM_HI; omega)

/-- What decides whether a watchdog is due. -/
structure Dev.SameWatch (k : Nat) (d e : Dev) : Prop where
  wd : e.wd k = d.wd k
  now : e.now = d.now
  halted : e.f.ft.halted = d.f.ft.halted
  regs : ∀ j, j < 96 → e.rd (0x1400 + j) = d.rd (0x1400 + j)

theorem Dev.SameWatch.trans {k : Nat} {a b c : Dev} (h : Dev.SameWatch k a b) (g : Dev.SameWatch k b c) : Dev.SameWatch k a c :=
  ⟨g.wd.trans h.wd, g.now.trans h.now, g.halted.trans h.halted, fun j hj => (g.regs j hj).trans (h.regs j hj)⟩

/-- The parts of the exchange and the registers of the watchdogs decide it for all three. -/
theorem Dev.SameWatch.of_part {d e : Dev} (h : e.restPart.2.2.2 = d.restPart.2.2.2)
    (regs : ∀ j, j < 96 → e.rd (0x1400 + j) = d.rd (0x1400 + j)) (k : Nat) : Dev.SameWatch k d e := by
  have ha : e.h.wdA = d.h.wdA := congrArg (fun p => p.1) h
  have hb : e.h.wdB = d.h.wdB := congrArg (fun p => p.2.1) h
  have hf : e.f.wdF = d.f.wdF := congrArg (fun p => p.2.2.1) h
  refine ⟨?_, congrArg (fun p => p.2.2.2.1) h, congrArg (fun p => p.2.2.2.2) h, regs⟩
  unfold Dev.wd
  rw [ha, hb, hf]

/-- A watchdog is due as long as nothing that decides it has changed. -/
theorem Dev.SameWatch.wdDue {d e : Dev} {k : Nat} (h : Dev.SameWatch k d e) (hk : k < 3) : e.wdDue k = d.wdDue k := by
  have hfreeze : e.flag (Fld.WD_CTRL_DBG_FREEZE 2) = d.flag (Fld.WD_CTRL_DBG_FREEZE 2) := by
    unfold Dev.flag
    rw [Dev.fld_of_rd (F := Fld.WD_CTRL_DBG_FREEZE 2) (h.regs 64 (by decide))]
  have hfirst : e.fld (Fld.WD_FIRST_FIRST k) = d.fld (Fld.WD_FIRST_FIRST k) := by
    have hoff : (Fld.WD_FIRST_FIRST k).off = 0x1400 + (32 * k + 12) := by
      show 0x140C + 32 * k = _
      omega
    exact Dev.fld_of_rd (hoff ▸ h.regs (32 * k + 12) (by omega))
  have hlimit : e.fld (Fld.WD_TIMEOUT_TIMEOUT k) = d.fld (Fld.WD_TIMEOUT_TIMEOUT k) := by
    have hoff : (Fld.WD_TIMEOUT_TIMEOUT k).off = 0x1400 + (32 * k + 8) := by
      show 0x1408 + 32 * k = _
      omega
    exact Dev.fld_of_rd (hoff ▸ h.regs (32 * k + 8) (by omega))
  unfold Dev.wdDue Dev.wdLimit Dev.wdCount Dev.wdCycles Dev.wdFrozen
  rw [h.wd, h.now, h.halted, hfreeze, hfirst, hlimit]

/-! ### The channels and the watchdogs -/

/-- The OUT_WRITEs that are still being judged complete. -/
def Dev.outEnded (d : Dev) : Dev := d.f.ch.outw.foldl (fun d w => d.endF w.tag w.status (d.outResult w.tag d.levels)) d

/-- The channels take Rest values. -/
def Dev.restValued (d : Dev) (r : W48 × W48) : Dev := { d.carRest with f.ch := { d.f.ch with rest := some r, outw := [], due := [] } }

/-- The channels at their Rest values, before the watchdog of the F-side pauses. -/
def Dev.restHeld (d : Dev) : Dev := (d.outEnded.restValued d.f.ch.restLevels).pins

theorem Dev.RestBlind.outEnded {α : Type} {π : Dev → α} (h : Dev.RestBlind π) (hfop : ∀ (d : Dev) (g : Nat) (o : Option FOp), π (d.setFop g o) = π d)
    (d : Dev) : π d.outEnded = π d :=
  Dev.StreamBlind.foldl (π := π) _ (fun e _ => h.toStreamBlind.endF hfop e _ _ _) _ d

theorem Dev.restPart_restValued (d : Dev) (r : W48 × W48) : (d.restValued r).restPart = (some r, d.restPart.2) := rfl

theorem Dev.rd_restValued (d : Dev) (r : W48 × W48) (k : Nat) : (d.restValued r).rd k = d.rd k := rfl

theorem Dev.restHeld_spec (d : Dev) : d.restHeld.restPart = (some d.f.ch.restLevels, d.restPart.2) ∧ ∀ k, Dev.SameWatch k d d.restHeld := by
  have hpart : d.restHeld.restPart = (some d.f.ch.restLevels, d.restPart.2) := by
    rw [Dev.restHeld, Dev.restBlind_restPart.pins, Dev.restPart_restValued, Dev.restBlind_restPart.outEnded fun _ _ _ => rfl]
  refine ⟨hpart, fun k => .of_part (congrArg (fun p => p.2.2.2) hpart) (fun j hj => ?_) k⟩
  have hreg := Dev.restBlind_wdReg hj
  exact (hreg.pins _).trans ((Dev.rd_restValued _ _ _).trans (hreg.outEnded (fun _ _ _ => rfl) d))

/-- A watchdog that is not due pauses. -/
theorem Dev.wdPause_of_calm {d : Dev} {k : Nat} (h : d.wdDue k = false) :
    d.wdPause k = (d.wdSync k).setWd k { (d.wdSync k).wd k with paused := true } := by
  unfold Dev.wdPause
  rw [h]
  rfl

/-- What a watchdog that pauses leaves. -/
theorem Dev.wdPause_kept {d : Dev} {k : Nat} (h : d.wdDue k = false) {α : Type} {π : Dev → α} (ha : ∀ (d : Dev) (w : Wd), π { d with h.wdA := w } = π d)
    (hb : ∀ (d : Dev) (w : Wd), π { d with h.wdB := w } = π d) (hf : ∀ (d : Dev) (w : Wd), π { d with f.wdF := w } = π d) :
    π (d.wdPause k) = π d := by
  rw [Dev.wdPause_of_calm h]
  exact (Dev.setWd_kept ha hb hf _ _ _).trans (Dev.setWd_kept ha hb hf _ _ _)

theorem Dev.wd_setWd_other (d : Dev) {g k : Nat} (w : Wd) (hg : g < 3) (hk : k < 3) (hne : g ≠ k) : (d.setWd k w).wd g = d.wd g := by
  have hcases : (g = 0 ∨ g = 1 ∨ g = 2) ∧ (k = 0 ∨ k = 1 ∨ k = 2) := ⟨by omega, by omega⟩
  rcases hcases with ⟨rfl | rfl | rfl, rfl | rfl | rfl⟩ <;> first | rfl | exact absurd rfl hne

/-- A watchdog that pauses is paused, and leaves the others and what the exchange has done. -/
theorem Dev.wdPause_spec {d : Dev} {k : Nat} (h : d.wdDue k = false) (hk : k < 3) : ((d.wdPause k).wd k).paused = true ∧
    (∀ g, g < 3 → g ≠ k → Dev.SameWatch g d (d.wdPause k)) ∧ (d.wdPause k).f.ch.rest = d.f.ch.rest ∧
    (d.wdPause k).f.watch.lastCommit = d.f.watch.lastCommit ∧ (d.wdPause k).h.link.up = d.h.link.up := by
  refine ⟨?_, fun g hg hne => ⟨?_, Dev.wdPause_kept h (π := fun d => d.now) (fun _ _ => rfl) (fun _ _ => rfl) fun _ _ => rfl,
    Dev.wdPause_kept h (π := fun d => d.f.ft.halted) (fun _ _ => rfl) (fun _ _ => rfl) fun _ _ => rfl,
    fun j _ => Dev.wdPause_kept h (π := fun d => d.rd (0x1400 + j)) (fun _ _ => rfl) (fun _ _ => rfl) fun _ _ => rfl⟩,
    Dev.wdPause_kept h (π := fun d => d.f.ch.rest) (fun _ _ => rfl) (fun _ _ => rfl) fun _ _ => rfl,
    Dev.wdPause_kept h (π := fun d => d.f.watch.lastCommit) (fun _ _ => rfl) (fun _ _ => rfl) fun _ _ => rfl,
    Dev.wdPause_kept h (π := fun d => d.h.link.up) (fun _ _ => rfl) (fun _ _ => rfl) fun _ _ => rfl⟩
  · rw [Dev.wdPause_of_calm h, Dev.wd_setWd_same]
  · rw [Dev.wdPause_of_calm h, Dev.wd_setWd_other _ _ hg hk hne]
    exact Dev.wd_setWd_other _ _ hg hk hne

/-! ### The Barker's set-up -/

section
variable {α : Type} {π : Dev → α} (hbrk : ∀ (d : Dev) (b : Brk), π { d with f.brk := b } = π d)
  (hwr : ∀ (d : Dev) (k : Nat) (v : Word), 0x3400 ≤ k → k < 0x3800 → π (d.wr k v) = π d)
include hbrk hwr

/-- A change of the Barker's own state, whose registers are its own. -/
theorem Dev.brkLevels_kept (d : Dev) : π d.brkLevels = π d := by
  unfold Dev.brkLevels; dsimp only
  refine Dev.ite_kept (hbrk d _) (Dev.ite_kept ?_ ?_)
  · exact (hbrk _ _).trans ((hwr _ _ _ (by decide) (by decide)).trans (hbrk d _))
  · exact (hwr _ _ _ (by decide) (by decide)).trans (hbrk d _)

/-- Once the F-side's watchdog has paused, the confirmation sets the Barker up and may raise BRK_RULE_BAD. -/
theorem Dev.restConfirm_kept (hraise : ∀ d : Dev, π (d.raiseFn .f Sn.BRK_RULE_BAD false) = π d) (d : Dev) :
    π d.restConfirm = π (d.restHeld.wdPause 2) := by
  unfold Dev.restConfirm
  extract_lets c d1 e1 f1 c1 d2 d3 starts f3 b3 d4 lvl bad held f4 b4 d5 d6
  have h4 : π d4 = π d3 := (Dev.brkLevels_kept hbrk hwr _).trans (hbrk d3 _)
  have h6 : π d6 = π d3 := ((hwr _ _ _ (by decide) (by decide)).trans ((hwr _ _ _ (by decide) (by decide)).trans
    (hwr d5 _ _ (by decide) (by decide)))).trans ((hbrk d4 _).trans h4)
  have h2 : d2 = d.restHeld := rfl
  rw [← h2]
  exact Dev.ite_kept h6 ((hraise d6).trans h6)

end

theorem Dev.RestBlind.restConfirm {α : Type} {π : Dev → α} (h : Dev.RestBlind π) (d : Dev) : π d.restConfirm = π (d.restHeld.wdPause 2) :=
  Dev.restConfirm_kept h.toStateBlind.brk h.brkWr (fun e => h.toBlind.raiseFnF h.pins (h.srcF · _ ·) e false) d

/-! ### The link stops, the command completes, and the device rests -/

/-- The link stops: the reads that wait are answered. -/
theorem Dev.restPart_linkStop (d : Dev) : d.linkStop.restPart = (d.restPart.1, d.restPart.2.1, false, d.restPart.2.2.2) :=
  Dev.StreamBlind.foldl (π := Dev.restPart) _ (fun e _ => Dev.restBlind_restPart.tlp e _ _) _ _

theorem Dev.rd_linkStop (d : Dev) (k : Nat) : d.linkStop.rd k = d.rd k :=
  Dev.StreamBlind.foldl (π := fun d => d.rd k) (fun (d : Dev) (r : FwRead) => d.tlp r.fn (.cpl 0xFFFFFFFF)) (fun _ _ => rfl) _ _

/-- The Rest command completes, or the entry by the idle policy is reported. -/
def Dev.restReported (d : Dev) (tag : Option Nat) : Dev :=
  match tag with
  | some g => d.finish g stOK 0
  | none => (d.setFld Fld.BRK_STATUS_IDLE_ENTRY 1).irq false 1

theorem Dev.RestBlind.restReported {α : Type} {π : Dev → α} (h : Dev.RestBlind π) (d : Dev) (tag : Option Nat) : π (d.restReported tag) = π d := by
  cases tag with
  | some g => exact h.finish d _ _ _
  | none => exact (h.irq _ _ _).trans (h.brkWr _ _ _ (by decide) (by decide))

theorem Dev.RestBlind.v0Now {α : Type} {π : Dev → α} (h : Dev.RestBlind π) (d : Dev) : π d.v0Now = π d :=
  Dev.StreamBlind.foldl (π := π) _ (fun e n => Dev.ite_kept ((h.irq _ _ _).trans (h.ring e n _)) rfl) _ d

/-- The exchange up to the watchdogs of the H-side. -/
def Dev.exchangeTold (d : Dev) (tag : Option Nat) : Dev :=
  (((((d.emitCell .h (.rest true)).emitCell .f (.rest false)).restConfirm.watchDisarm).linkStop).restReported tag).v0Now

/-- The device at rest. -/
def Dev.atRest (d : Dev) : Dev := { d with h.dev := .rest, h.restEntry := none, h.pm := d.h.pciA.deepest }

theorem doRestExchange_of_ready {d : Dev} {e : RestEntry} (t : Nat) (hentry : d.h.restEntry = some e) (hdev : d.h.dev = .run)
    (hword : d.f.fsp.inWord = false) (hserve : d.f.fsp.serving = none) (hcur : d.f.twp.cur = none) (hopen : d.restOpen = false)
    (hlink : d.h.link.up = true ∨ d.h.link.stopped = true) (hf : ∀ p ∈ d.f.sn, p.2.force < 2) (hh : ∀ p ∈ d.f.snH, p.2.force < 2) :
    doRestExchange t d = ((((d.at t).exchangeTold e.tag).wdPause 0).wdPause 1).atRest := by
  unfold doRestExchange
  extract_lets e0 d1 d2
  have hbusy : ¬ (e0.h.dev != .run || e0.f.fsp.inWord || e0.f.fsp.serving.isSome || e0.f.twp.cur.isSome || e0.restOpen ||
      !(e0.h.link.up || e0.h.link.stopped) || e0.f.sn.any (fun p => decide (2 ≤ p.2.force)) ||
      e0.f.snH.any (fun p => decide (2 ≤ p.2.force))) = true := by
    rw [show e0.f.sn.any (fun p => decide (2 ≤ p.2.force)) = false from any_force_false hf,
      show e0.f.snH.any (fun p => decide (2 ≤ p.2.force)) = false from any_force_false hh, show e0.h.dev = .run from hdev,
      show e0.f.fsp.inWord = false from hword, show e0.f.fsp.serving = none from hserve, show e0.f.twp.cur = none from hcur,
      show e0.restOpen = false from hopen, show (e0.h.link.up || e0.h.link.stopped) = true from (Bool.or_eq_true _ _).mpr hlink]
    decide
  rw [show e0.h.restEntry = some e from hentry]
  dsimp -zeta only
  rw [if_neg hbusy]
  extract_lets d3 d4 h4
  have h4 : d4 = ((e0.exchangeTold e.tag).wdPause 0).wdPause 1 := by
    obtain ⟨tag⟩ := e
    cases tag <;> rfl
  exact (congrArg Dev.atRest h4 :)

/-- What the watchdogs of the H-side meet. -/
theorem Dev.exchangeTold_spec {d : Dev} (tag : Option Nat) (hcalm : ∀ k, d.wdDue k = false) :
    (d.exchangeTold tag).f.ch.rest = some d.f.ch.restLevels ∧ (d.exchangeTold tag).f.watch.lastCommit = none ∧
    (d.exchangeTold tag).h.link.up = false ∧ ((d.exchangeTold tag).wd 2).paused = true ∧
    (d.exchangeTold tag).wdDue 0 = false ∧ (d.exchangeTold tag).wdDue 1 = false := by
  obtain ⟨e0, he0⟩ : ∃ e0, e0 = (d.emitCell .h (.rest true)).emitCell .f (.rest false) := ⟨_, rfl⟩
  obtain ⟨e1, he1⟩ : ∃ e1, e1 = e0.restConfirm.watchDisarm.linkStop := ⟨_, rfl⟩
  have htold : d.exchangeTold tag = (e1.restReported tag).v0Now := by rw [he1, he0]; rfl
  have hafter {α : Type} {π : Dev → α} (h : Dev.RestBlind π) : π (d.exchangeTold tag) = π e1 := by
    rw [htold, h.v0Now, h.restReported]
  have hcell : e0.restPart = d.restPart ∧ e0.f.ch = d.f.ch ∧ ∀ j, e0.rd j = d.rd j := by
    rw [he0]
    exact ⟨rfl, rfl, fun _ => rfl⟩
  obtain ⟨hcellPart, hcellCh, hcellRd⟩ := hcell
  have hsame (k : Nat) : Dev.SameWatch k d e0 := .of_part (congrArg (fun p => p.2.2.2) hcellPart) (fun j _ => hcellRd _) k
  obtain ⟨hheld, hheldSame⟩ := e0.restHeld_spec
  have hcalm2 : e0.restHeld.wdDue 2 = false := by rw [((hsame 2).trans (hheldSame 2)).wdDue (by decide), hcalm]
  obtain ⟨hpaused, hothers, hrest, -, -⟩ := Dev.wdPause_spec hcalm2 (by decide)
  obtain ⟨e2, he2⟩ : ∃ e2, e2 = e0.restHeld.wdPause 2 := ⟨_, rfl⟩
  rw [← he2] at hpaused hothers hrest
  have hpart : e0.restConfirm.restPart = e2.restPart := he2 ▸ Dev.restBlind_restPart.restConfirm e0
  have hstop : e1.restPart = (e2.restPart.1, none, false, e2.restPart.2.2.2) := by
    rw [he1, Dev.restPart_linkStop, ← hpart]
    rfl
  have hvalue : e2.restPart.1 = some d.f.ch.restLevels := by
    rw [← hcellCh]
    exact hrest.trans (congrArg Prod.fst hheld)
  have hend : (d.exchangeTold tag).restPart = (some d.f.ch.restLevels, none, false, e2.restPart.2.2.2) := by
    rw [hafter Dev.restBlind_restPart, hstop, hvalue]
  have hendRd (j : Nat) (hj : j < 96) : (d.exchangeTold tag).rd (0x1400 + j) = e2.rd (0x1400 + j) := by
    rw [hafter (Dev.restBlind_wdReg hj), he1, Dev.rd_linkStop, he2]
    exact (Dev.restBlind_wdReg hj).restConfirm e0
  have hafterSame (k : Nat) : Dev.SameWatch k e2 (d.exchangeTold tag) := .of_part (congrArg (fun p => p.2.2.2) hend) hendRd k
  have hdue (k : Nat) (hk : k < 2) : (d.exchangeTold tag).wdDue k = false := by
    rw [((((hsame k).trans (hheldSame k)).trans (hothers k (by omega) (by omega))).trans (hafterSame k)).wdDue (by omega), hcalm]
  have hdue0 := hdue 0 (by decide)
  have hdue1 := hdue 1 (by decide)
  obtain ⟨e3, he3⟩ : ∃ e3, e3 = d.exchangeTold tag := ⟨_, rfl⟩
  rw [← he3] at hend hafterSame hdue0 hdue1 ⊢
  refine ⟨congrArg Prod.fst hend, congrArg (fun p => p.2.1) hend, congrArg (fun p => p.2.2.1) hend, ?_, hdue0, hdue1⟩
  rw [(hafterSame 2).wd]
  exact hpaused

/-! ### The link state that the host has enabled -/

/-- The deepest link state that the host has enabled. -/
def Dev.deepest (d : Dev) : LinkPm := d.h.pciA.deepest

theorem Dev.streamBlind_deepest : Dev.StreamBlind Dev.deepest := .of_unsent fun _ => rfl

theorem Dev.deepest_wr (d : Dev) (k : Nat) (v : Word) : (d.wr k v).deepest = d.deepest := by simp [Dev.deepest]

theorem Dev.deepest_intx (d : Dev) (fn : Func) : (d.intx fn).deepest = d.deepest :=
  Dev.ite_kept (π := Dev.deepest) rfl (by cases fn <;> rfl)

theorem Dev.deepest_irq (d : Dev) (fn : Func) (vec : Nat) : (d.irq fn vec).deepest = d.deepest := by
  unfold Dev.irq; dsimp only
  refine Dev.ite_kept rfl (Dev.ite_kept (Dev.ite_kept ?_ rfl) ((Dev.deepest_intx _ _).trans (d.deepest_wr _ _)))
  cases fn <;> rfl

theorem Dev.deepest_complete (d : Dev) (g : Nat) (o : Op) (st : Nat) (r : Quad) : (d.complete g o st r).deepest = d.deepest := by
  have hbump (e : Dev) (c s : Fld) : (e.bump c s).deepest = e.deepest := by
    unfold Dev.bump; dsimp only
    exact Dev.ite_kept rfl (Dev.ite_kept ((Dev.deepest_wr _ _ _).trans (e.deepest_wr _ _)) (e.deepest_wr _ _))
  unfold Dev.complete; dsimp only
  exact Dev.ite_kept rfl (Dev.ite_kept (hbump _ _ _) rfl)

theorem Dev.deepest_finish (d : Dev) (g st : Nat) (r : Quad) : (d.finish g st r).deepest = d.deepest := by
  unfold Dev.finish
  split
  · exact Dev.ite_kept (d.deepest_complete _ _ _ _) (Dev.ite_kept rfl (d.deepest_complete _ _ _ _))
  · rfl

theorem Dev.deepest_pins (d : Dev) : d.pins.deepest = d.deepest := (congrArg Dev.deepest d.unpinned_pins :)

theorem Dev.deepest_startPulse (d : Dev) (on : Bool) : (d.startPulse .f on).deepest = d.deepest := by
  have hpulse : (d.pulse .f).deepest = d.deepest := by
    unfold Dev.pulse; dsimp only
    split_ifs <;> rfl
  have hwake (e : Dev) : (e.wake .f 3).deepest = e.deepest := by
    have htrain (x : Dev) : x.wakeTrain.deepest = x.deepest := Dev.ite_kept (π := Dev.deepest) rfl rfl
    have htimed (x : Dev) (now : Nat) : (x.wakeTimed now).deepest = x.deepest := Dev.ite_kept (π := Dev.deepest) rfl rfl
    have hnoted : (e.wakeSrcNoted 3).deepest = e.deepest := Dev.ite_kept (π := Dev.deepest) rfl (e.deepest_wr _ _)
    cases hr : e.f.ch.rest.isSome with
    | false => rw [Dev.wake_of_awake (by simpa using hr)]
    | true =>
      rw [Dev.wake_of_rest hr]
      exact (htrain _).trans ((htimed _ _).trans hnoted)
  exact Dev.ite_kept ((hwake _).trans hpulse) rfl

theorem Dev.deepest_wdPause {d : Dev} {k : Nat} (h : d.wdDue k = false) : (d.wdPause k).deepest = d.deepest :=
  Dev.wdPause_kept h (fun _ _ => rfl) (fun _ _ => rfl) fun _ _ => rfl

theorem Dev.deepest_restValued (d : Dev) (r : W48 × W48) : (d.restValued r).deepest = d.deepest := rfl

theorem Dev.deepest_restConfirm {d : Dev} (h : d.restHeld.wdDue 2 = false) : d.restConfirm.deepest = d.deepest := by
  have hraise (e : Dev) : (e.raiseFn .f Sn.BRK_RULE_BAD false).deepest = e.deepest :=
    Dev.raiseF_kept Dev.streamBlind_deepest (fun _ _ => rfl) Dev.deepest_startPulse Dev.deepest_pins e _ _
  have hout : d.outEnded.deepest = d.deepest :=
    Dev.StreamBlind.foldl (π := Dev.deepest) _ (fun e _ => Dev.streamBlind_deepest.endF (fun _ _ _ => rfl) e _ _ _) _ d
  have hbrk (e : Dev) (b : Brk) : ({ e with f.brk := b } : Dev).deepest = e.deepest := rfl
  rw [Dev.restConfirm_kept (π := Dev.deepest) hbrk (fun e k v _ _ => e.deepest_wr k v) hraise, Dev.deepest_wdPause h, Dev.restHeld,
    Dev.deepest_pins, Dev.deepest_restValued, hout]

theorem Dev.deepest_setRing (d : Dev) (n : Nat) (r : Ring) : (d.setRing n r).deepest = d.deepest := rfl

theorem Dev.deepest_v0Now (d : Dev) : d.v0Now.deepest = d.deepest :=
  Dev.StreamBlind.foldl (π := Dev.deepest) _
    (fun e n => Dev.ite_kept ((Dev.deepest_irq _ _ _).trans (e.deepest_setRing n _)) rfl) _ d

theorem Dev.deepest_restReported (d : Dev) (tag : Option Nat) : (d.restReported tag).deepest = d.deepest := by
  cases tag with
  | some g => exact d.deepest_finish _ _ _
  | none => exact (Dev.deepest_irq _ _ _).trans (d.deepest_wr _ _)

theorem Dev.deepest_linkStop (d : Dev) : d.linkStop.deepest = d.deepest :=
  Dev.StreamBlind.foldl (π := Dev.deepest) (fun (d : Dev) (r : FwRead) => d.tlp r.fn (.cpl 0xFFFFFFFF)) (fun _ _ => rfl) _ _

/-- The exchange leaves the host's enables. -/
theorem Dev.deepest_exchangeTold {d : Dev} (tag : Option Nat) (hcalm : ∀ k, d.wdDue k = false) : (d.exchangeTold tag).deepest = d.deepest := by
  obtain ⟨e0, he0⟩ : ∃ e0, e0 = (d.emitCell .h (.rest true)).emitCell .f (.rest false) := ⟨_, rfl⟩
  have htold : d.exchangeTold tag = (e0.restConfirm.watchDisarm.linkStop.restReported tag).v0Now := by rw [he0]; rfl
  have hcell : e0.restPart = d.restPart ∧ e0.deepest = d.deepest ∧ ∀ j, e0.rd j = d.rd j := by
    rw [he0]
    exact ⟨rfl, rfl, fun _ => rfl⟩
  obtain ⟨hpart, hdeep, hrd⟩ := hcell
  have hdue : e0.restHeld.wdDue 2 = false := by
    have hsame : Dev.SameWatch 2 d e0 := .of_part (congrArg (fun p => p.2.2.2) hpart) (fun j _ => hrd _) 2
    rw [(hsame.trans (e0.restHeld_spec.2 2)).wdDue (by decide), hcalm]
  have hdisarm (e : Dev) : e.watchDisarm.deepest = e.deepest := rfl
  rw [htold, Dev.deepest_v0Now, Dev.deepest_restReported, Dev.deepest_linkStop, hdisarm, Dev.deepest_restConfirm hdue, hdeep]

/-- The exchange puts the device to rest. -/
theorem Dev.atRest_spec {d : Dev} (tag : Option Nat) (hcalm : ∀ k, d.wdDue k = false) :
    ∃ e : Dev, (((d.exchangeTold tag).wdPause 0).wdPause 1).atRest = e ∧ e.h.dev = .rest ∧ e.h.restEntry = none ∧ e.h.pm = d.h.pciA.deepest ∧
      e.f.ch.rest = some d.f.ch.restLevels ∧ e.f.watch.lastCommit = none ∧ e.h.link.up = false ∧
      e.h.wdA.paused = true ∧ e.h.wdB.paused = true ∧ e.f.wdF.paused = true := by
  obtain ⟨hrest, hcommit, hlink, hf, hdue0, hdue1⟩ := Dev.exchangeTold_spec tag hcalm
  have hdeep := Dev.deepest_exchangeTold tag hcalm
  obtain ⟨e0, he0⟩ : ∃ e0, e0 = d.exchangeTold tag := ⟨_, rfl⟩
  rw [← he0] at hrest hcommit hlink hf hdue0 hdue1 hdeep ⊢
  obtain ⟨hpaused0, hothers0, hrest0, hcommit0, hlink0⟩ := Dev.wdPause_spec hdue0 (by decide)
  have hdeep0 := Dev.deepest_wdPause hdue0
  obtain ⟨e1, he1⟩ : ∃ e1, e1 = e0.wdPause 0 := ⟨_, rfl⟩
  rw [← he1] at hpaused0 hothers0 hrest0 hcommit0 hlink0 hdeep0 ⊢
  have hdue : e1.wdDue 1 = false := by rw [(hothers0 1 (by decide) (by decide)).wdDue (by decide), hdue1]
  obtain ⟨hpaused1, hothers1, hrest1, hcommit1, hlink1⟩ := Dev.wdPause_spec hdue (by decide)
  have hdeep1 := Dev.deepest_wdPause hdue
  obtain ⟨e2, he2⟩ : ∃ e2, e2 = e1.wdPause 1 := ⟨_, rfl⟩
  rw [← he2] at hpaused1 hothers1 hrest1 hcommit1 hlink1 hdeep1 ⊢
  refine ⟨_, rfl, rfl, rfl, ?_, hrest1.trans (hrest0.trans hrest), hcommit1.trans (hcommit0.trans hcommit), hlink1.trans (hlink0.trans hlink),
    ?_, hpaused1, ?_⟩
  · exact hdeep1.trans (hdeep0.trans hdeep)
  · exact (congrArg Wd.paused (hothers1 0 (by decide) (by decide)).wd).trans hpaused0
  · refine (congrArg Wd.paused (hothers1 2 (by decide) (by decide)).wd).trans ?_
    rw [(hothers0 2 (by decide) (by decide)).wd, hf]

/-! ## REST cells -/

/-- A REST cell that its receiver takes during a Rest entry or in REST. -/
theorem doRestCellReceive_of_entry {d : Dev} {c : Cell80} (t : Nat) (x : Die) (hentry : d.h.restEntry.isSome = true ∨ d.f.ch.rest.isSome = true)
    (hup : d.h.link.up = true) (hc : goodLink c 0x06 = true) : doRestCellReceive x c t d = (match x, c.bits 55 1 == 1 with
      | .f, true => ((d.at t).cellSeen .f).watchDisarm.linkStop
      | .h, false => ((d.at t).cellSeen .h).linkStop
      | _, _ => (d.at t).cellSeen x) := by
  have hcell := Dev.linkCell_of_good (d := d.at t) (x := x) hup hc (.inl (by decide))
  have htake : ¬ (!true || (((d.at t).cellSeen x).h.restEntry.isNone && ((d.at t).cellSeen x).f.ch.rest.isNone)) = true := by
    have hsome : (d.h.restEntry.isNone && d.f.ch.rest.isNone) = false := by
      rcases hentry with h | h
      · obtain ⟨e, he⟩ := Option.isSome_iff_exists.mp h
        rw [he]
        rfl
      · obtain ⟨r, hr⟩ := Option.isSome_iff_exists.mp h
        rw [hr]
        simp
    cases x <;> exact Bool.not_eq_true _ ▸ hsome
  unfold doRestCellReceive
  rw [hcell]
  refine (if_neg htake).trans ?_
  cases x <;> cases c.bits 55 1 == 1 <;> rfl

/-- Settles O40: the entry begins and the exchange runs, each by the parts that it sets and leaves. -/
theorem restEntryCompletes : Obligations.RestEntryCompletes := by
  unfold Obligations.RestEntryCompletes
  intro s tag t o e c
  refine ⟨fun hop hfree => ?_, fun hen hfree hf hh hdue => ?_,
    fun hentry hdev hword hserve hcur hopen hlink hf hh hcalm => ?_, fun hentry hup hc => ⟨fun hbit => ?_, fun hbit => ?_⟩⟩
  · obtain ⟨hstand, hqueue, hstate, hrest⟩ := ((s.dev.at t).setOp tag (some { o with stage := .closing })).restBegin_spec (some tag)
    exact ⟨_, s.onDev_of (doRestEnter_of_free t hop hfree), hstand, hqueue, hstate, hrest, rfl, rfl⟩
  · obtain ⟨hstand, hqueue, hstate, -⟩ := (s.dev.at t).restBegin_spec none
    exact ⟨_, s.onDev_of (doIdleTimeout_of_due hen hfree hf hh hdue), hstand, hqueue, hstate, rfl, rfl⟩
  · obtain ⟨u, hu, hstate, hnone, hpm, hrest, hcommit, hdown, ha, hb, hpf⟩ := Dev.atRest_spec (d := s.dev.at t) e.tag hcalm
    have hdo := doRestExchange_of_ready t hentry hdev hword hserve hcur hopen hlink hf hh
    exact ⟨_, s.onDev_of (hdo.trans hu), hstate, hnone, hpm, hrest, hcommit, hdown, ha, hb, hpf, rfl, rfl⟩
  · refine s.onDev_of ((doRestCellReceive_of_entry t .f hentry hup hc).trans ?_)
    rw [hbit]
    rfl
  · refine s.onDev_of ((doRestCellReceive_of_entry t .h hentry hup hc).trans ?_)
    rw [hbit]
    rfl

end Sys2Proof.Machine
end

section
/-!
PROOF. Mirror sessions, takeover and dual activity (R348 to R350, R357, R358, R363, R364).
-/

namespace Sys2Proof.Machine

/-! ## Dual activity -/

/-- A part that dual activity does not reach, its source aside. -/
structure Dev.DualBlind {α : Type} (π : Dev → α) : Prop extends Dev.Blind π where
  srcDual : ∀ (d : Dev) (s : Src), π (d.setSrc .h Sn.MIR_DUAL_ACTIVE s) = π d

theorem Dev.dualBlind_mir : Dev.DualBlind (fun d => d.h.mir) := ⟨.of_core fun _ => rfl, fun _ _ => rfl⟩

theorem Dev.dualBlind_car : Dev.DualBlind (fun d => d.f.car) := ⟨.of_core fun _ => rfl, fun _ _ => rfl⟩

theorem Dev.dualBlind_status : Dev.DualBlind (fun d => d.rd Reg.MIR_STATUS) := ⟨Dev.blind_rd (by decide), fun _ _ => rfl⟩

theorem Dev.dualBlind_src {i : Nat} (hi : i ≠ Sn.MIR_DUAL_ACTIVE) : Dev.DualBlind (fun d => d.src .h i) :=
  ⟨Dev.blind_src .h i, fun d _ => d.src_setSrc_ne .h _ hi⟩

section
variable {α : Type} {π : Dev → α} (h : Dev.DualBlind π)
include h

theorem Dev.DualBlind.dual (d : Dev) (on : Bool) : π (d.dual on) = π d :=
  Dev.ite_kept rfl (Dev.ite_kept (Dev.ite_kept rfl ((h.v3 _).trans (h.toBlind.raiseBothH h.srcDual (by decide) d))) (h.condEnd h.srcDual d))

/-- Giving way writes the role beside. -/
theorem Dev.DualBlind.relinquish (hrole : ∀ (d : Dev) (v : Nat), π (d.setFld Fld.MIR_STATUS_ROLE_NOW v) = π d) (d : Dev) :
    π d.relinquish = π d :=
  Dev.ite_kept rfl ((h.v3 _).trans ((hrole _ _).trans (Dev.ite_kept rfl (h.toBlind.raiseBothH h.srcDual (by decide) d))))

theorem Dev.DualBlind.mirMeet (hrole : ∀ (d : Dev) (v : Nat), π (d.setFld Fld.MIR_STATUS_ROLE_NOW v) = π d) (d : Dev) (epoch : Nat) :
    π (d.mirMeet epoch) = π d :=
  Dev.ite_kept rfl (Dev.ite_kept (h.relinquish hrole d) (Dev.ite_kept (h.dual d true) rfl))

end

/-- A field of MIR_STATUS follows the register. -/
theorem Dev.fld_of_status {d e : Dev} {F : Fld} (hF : F.off = Reg.MIR_STATUS) (h : e.rd Reg.MIR_STATUS = d.rd Reg.MIR_STATUS) :
    e.fld F = d.fld F := Dev.fld_of_rd (hF ▸ h)

/-- Dual activity that begins makes its source active. -/
theorem Dev.active_dual {d : Dev} (h : d.role ≠ roleRELINQUISHED) : ((d.dual true).src .h Sn.MIR_DUAL_ACTIVE).active = true := by
  unfold Dev.dual
  rw [if_neg h, if_pos rfl]
  split
  next hactive => exact hactive
  next =>
    rw [show ((d.raiseBoth .h Sn.MIR_DUAL_ACTIVE).v3.src .h Sn.MIR_DUAL_ACTIVE) = _ from (Dev.blind_src .h Sn.MIR_DUAL_ACTIVE).v3 _]
    exact Dev.active_raise d .h true true (by decide) (.inl rfl)

/-- Dual activity that ends leaves its source inactive. -/
theorem Dev.inactive_dual {d : Dev} (h : d.role ≠ roleRELINQUISHED) : ((d.dual false).src .h Sn.MIR_DUAL_ACTIVE).active = false := by
  unfold Dev.dual
  rw [if_neg h]
  exact Dev.condEnd_inactive _ _ _

/-- A device that gives way is RELINQUISHED. -/
theorem Dev.role_relinquish (d : Dev) : d.relinquish.role = roleRELINQUISHED := by
  unfold Dev.relinquish
  split
  next h => exact h
  next =>
    refine (Dev.fld_of_status rfl (Dev.dualBlind_status.v3 _)).trans ?_
    exact Dev.fld_setFld_same _ Fld.MIR_STATUS_ROLE_NOW _ (by decide)

/-- A device that gives way reports dual activity. -/
theorem Dev.active_relinquish {d : Dev} (h : d.role ≠ roleRELINQUISHED) : (d.relinquish.src .h Sn.MIR_DUAL_ACTIVE).active = true := by
  unfold Dev.relinquish
  rw [if_neg h]
  have hsrc (e : Dev) : (e.setFld Fld.MIR_STATUS_ROLE_NOW roleRELINQUISHED).v3.src .h Sn.MIR_DUAL_ACTIVE = e.src .h Sn.MIR_DUAL_ACTIVE :=
    ((Dev.blind_src .h Sn.MIR_DUAL_ACTIVE).v3 _).trans (by simp [Dev.src])
  dsimp only
  rw [hsrc]
  split
  next hactive => exact hactive
  next => exact Dev.active_raise d .h true true (by decide) (.inl rfl)

/-! ## Frames of a session -/

/-- The device with a frame accepted: the next counter, the time, and the partner's report. -/
def Dev.heard (d : Dev) (m : Session) (hd : FrameHead) : Dev :=
  (({ d with h.mir := { d.h.mir with session := some { m with rx := hd.counter + 1 }, lastRx := d.now } }).setFld
    Fld.MIR_STATUS_PARTNER_ROLE hd.role).setFld Fld.MIR_STATUS_PARTNER_STATE hd.state

theorem Dev.mirAccept_of_good {d : Dev} {m : Session} {hd : FrameHead} (hm : d.h.mir.session = some m) (hauth : hd.auth = true)
    (hctr : m.rx ≤ hd.counter) : d.mirAccept hd = (true, d.heard m hd) := by
  unfold Dev.mirAccept
  rw [hm]
  refine if_neg ?_
  rw [hauth, decide_eq_false (Nat.not_lt.mpr hctr)]
  decide

/-- What an accepted frame sets, and what it leaves. -/
theorem Dev.heard_spec (d : Dev) (m : Session) (hd : FrameHead) :
    (d.heard m hd).h.mir = { d.h.mir with session := some { m with rx := hd.counter + 1 }, lastRx := d.now } ∧
    (d.heard m hd).fld Fld.MIR_STATUS_PARTNER_ROLE = hd.role % 4 ∧ (d.heard m hd).fld Fld.MIR_STATUS_PARTNER_STATE = hd.state % 16 ∧
    (d.heard m hd).role = d.role := by
  refine ⟨by simp [Dev.heard], ?_, ?_, ?_⟩
  · exact (Dev.fld_setFld_ne _ _ Fld.MIR_STATUS_PARTNER_ROLE _ (by decide) (by decide)).trans (Dev.fld_setFld_same _ _ _ (by decide))
  · exact Dev.fld_setFld_same _ Fld.MIR_STATUS_PARTNER_STATE _ (by decide)
  · exact (Dev.fld_setFld_ne _ _ Fld.MIR_STATUS_ROLE_NOW _ (by decide) (by decide)).trans (Dev.fld_setFld_ne _ _ Fld.MIR_STATUS_ROLE_NOW _ (by decide) (by decide))

/-! ## Takeover -/

theorem onFSide_of_haltReg {k : Nat} (h : haltReg k = true) : onFSide (baseOff k) = false := by
  simp only [haltReg, Bool.or_eq_true, beq_iff_eq] at h
  rcases h with ((((rfl | rfl) | rfl) | rfl) | rfl) | rfl <;> decide

/-- Neither interrupts nor counts of dropped entries reach the F-side. -/
theorem Dev.irqBlind_f : Dev.IrqBlind (fun d => d.f) where
  emit _ _ := rfl
  wrHalt d k v hk := d.wr_f_of_h v (onFSide_of_haltReg hk)
  pci d fn p := by cases fn <;> rfl
  irqRest _ _ := rfl

/-- A command that ends moves operations, rings and a count alone. -/
theorem Dev.IrqBlind.finish_kept {α : Type} {π : Dev → α} (h : Dev.IrqBlind π) (hop : ∀ (d : Dev) (g : Nat) (o : Option Op), π (d.setOp g o) = π d)
    (hring : ∀ (d : Dev) (n : Nat) (r : Ring), π (d.setRing n r) = π d) (d : Dev) (g st : Nat) (r : Quad) : π (d.finish g st r) = π d := by
  have hcomplete (o : Op) (st : Nat) (r : Quad) : π (d.complete g o st r) = π d := (h.complete hring d g o st r).trans (hop d g none)
  unfold Dev.finish
  split
  · exact Dev.ite_kept (hcomplete _ _ _) (Dev.ite_kept (hop d g _) (hcomplete _ _ _))
  · rfl

theorem takeoverCause_lt (d : Dev) (e : Desc) : d.takeoverCause e < 16 := by
  unfold Dev.takeoverCause
  repeat' split
  all_goals decide

/-- A function's image sampled from the levels, as the snapshot's output channels and the ownership map say. -/
def Dev.sampledImage (d : Dev) (w : List Word) (fn : Func) : Container :=
  Container.make (d.levels &&& snapOutputs w &&& d.mapMask fn) fn 0 routeRefresh

theorem Dev.sampledImage_setImg (d : Dev) (w : List Word) (fn g : Func) (i : Image) : (d.setImg g i).sampledImage w fn = d.sampledImage w fn := by
  cases g <;> rfl

/-- Both images are sampled, and nothing else moves. -/
theorem Dev.takeoverSample_eq (d : Dev) (w : List Word) : d.takeoverSample w =
    (d.setImg false { d.h.imgA with cur := d.sampledImage w false }).setImg true { d.h.imgB with cur := d.sampledImage w true } := by
  show (d.setImg false { d.h.imgA with cur := d.sampledImage w false }).setImg true
    { d.h.imgB with cur := (d.setImg false { d.h.imgA with cur := d.sampledImage w false }).sampledImage w true } = _
  rw [d.sampledImage_setImg]

section
variable {d : Dev} {tag : Nat} {o : Op} (t : Nat) (sda : SdaCheck) (hop : d.mgmtOp tag cmdMIR_TAKEOVER = some o)
include hop

/-- The command outside STANDBY. -/
theorem doMirTakeover_of_wrongState (h : d.h.dev ≠ .standby) : doMirTakeover tag sda t d = ((d.at t).taken tag).finish tag stWRONG_STATE 0 := by
  unfold doMirTakeover; dsimp only
  rw [show (d.at t).mgmtOp tag cmdMIR_TAKEOVER = some o from hop, Dev.taken_of_mgmtOp hop]
  refine if_pos ?_
  simp [h]

variable (hdev : d.h.dev = .standby) (hhalt : d.haltAct = false) (hsafeA : d.safeAct false = false) (hsafeB : d.safeAct true = false)
  (hnone : d.h.mir.takeover = none)
include hdev hhalt hsafeA hsafeB hnone

/-- The command in STANDBY with no reaction in force and no takeover waiting: its cause decides. -/
theorem doMirTakeover_of_standby : doMirTakeover tag sda t d =
    (let e := (d.at t).setOp tag (some { o with stage := .closing })
    if d.takeoverCause o.desc != 0 then (e.setFld Fld.MIR_STATUS_CAUSE (d.takeoverCause o.desc)).refuseCmd tag (d.takeoverCause o.desc)
    else match d.h.mir.snap with
      | some x => { e.takeoverSample x.words with h.mir.takeover := some ⟨tag, false, sda⟩ }
      | none => e) := by
  unfold doMirTakeover; dsimp only
  rw [show (d.at t).mgmtOp tag cmdMIR_TAKEOVER = some o from hop, Dev.taken_of_mgmtOp hop]
  refine (if_neg ?_).trans rfl
  rw [show ((d.at t).setOp tag (some { o with stage := .closing })).h.dev = .standby from hdev,
    show ((d.at t).setOp tag (some { o with stage := .closing })).haltAct = false from hhalt,
    show ((d.at t).setOp tag (some { o with stage := .closing })).safeAct false = false from hsafeA,
    show ((d.at t).setOp tag (some { o with stage := .closing })).safeAct true = false from hsafeB,
    show ((d.at t).setOp tag (some { o with stage := .closing })).h.mir.takeover = none from hnone]
  decide

end

/-- Settles O52: the command by what its state and cause decide, TAKE by the frame accepted and the device giving way. -/
theorem mirrorTakeover : Obligations.MirrorTakeover := by
  unfold Obligations.MirrorTakeover
  intro s tag t sda o x hd m b
  refine ⟨fun hop => ⟨fun hdev => ?_, fun hdev hhalt hsafeA hsafeB hnone => ⟨fun hcause hsnap => ?_, fun hcause => ?_⟩⟩,
    fun hm hauth hctr => ?_, fun htake hlate => ?_⟩
  · exact s.onDev_of (doMirTakeover_of_wrongState t sda hop hdev)
  · have hdo := doMirTakeover_of_standby t sda hop hdev hhalt hsafeA hsafeB hnone
    rw [hcause, hsnap] at hdo
    refine ⟨_, s.onDev_of (hdo.trans (if_neg (by decide))), ?_⟩
    dsimp only
    obtain ⟨e, he⟩ : ∃ e, e = (s.dev.at t).setOp tag (some { o with stage := .closing }) := ⟨_, rfl⟩
    have hleft : e.h.imgA = s.dev.h.imgA ∧ e.h.imgB = s.dev.h.imgB ∧ e.h.dev = s.dev.h.dev ∧ e.f = s.dev.f ∧ e.h.regs = s.dev.h.regs ∧
        e.h.mir = s.dev.h.mir ∧ ∀ fn, e.sampledImage x.words fn = s.dev.sampledImage x.words fn := by
      rw [he]
      exact ⟨rfl, rfl, rfl, rfl, rfl, rfl, fun _ => rfl⟩
    obtain ⟨himgA, himgB, hstate, hf, hregs, hmir, hsample⟩ := hleft
    rw [← he, e.takeoverSample_eq, hsample, hsample, himgA, himgB]
    refine ⟨?_, rfl, rfl, hstate.trans hdev, hf, hregs, rfl, rfl⟩
    exact congrArg (fun m : Mir => { m with takeover := some ⟨tag, false, sda⟩ }) hmir
  · have hdo := doMirTakeover_of_standby t sda hop hdev hhalt hsafeA hsafeB hnone
    have hne : (s.dev.takeoverCause o.desc != 0) = true := by simpa using hcause
    obtain ⟨e, he⟩ : ∃ e, e = (s.dev.at t).setOp tag (some { o with stage := .closing }) := ⟨_, rfl⟩
    have hleft : e.h.imgA = s.dev.h.imgA ∧ e.h.imgB = s.dev.h.imgB ∧ e.f = s.dev.f ∧ e.h.mir = s.dev.h.mir := by
      rw [he]
      exact ⟨rfl, rfl, rfl, rfl⟩
    obtain ⟨himgA, himgB, hf, hmir⟩ := hleft
    rw [← he] at hdo
    obtain ⟨k, hk⟩ : ∃ k, k = s.dev.takeoverCause o.desc := ⟨_, rfl⟩
    have hlt : k < 2 ^ 4 := hk ▸ takeoverCause_lt s.dev o.desc
    rw [← hk] at hne hdo ⊢
    have hkept {α : Type} {π : Dev → α} (h : Dev.CalmBlind π) (hset : π (e.setFld Fld.MIR_STATUS_CAUSE k) = π e) :
        π ((e.setFld Fld.MIR_STATUS_CAUSE k).refuseCmd tag k) = π e := (h.finish _ _ _ _).trans hset
    refine ⟨_, s.onDev_of (hdo.trans (if_pos hne)), ?_, ?_, ?_, ?_, ?_, rfl, rfl⟩
    · exact (hkept (Dev.Blind.of_core (π := fun d => d.h.mir) fun _ => rfl).toCalmBlind (by simp)).trans hmir
    · refine (Dev.fld_of_status rfl (Dev.dualBlind_status.finish _ _ _ _)).trans ?_
      exact (Dev.fld_setFld_same _ Fld.MIR_STATUS_CAUSE _ (by decide)).trans (Nat.mod_eq_of_lt hlt)
    · exact (hkept (Dev.Blind.of_core (π := fun d => d.h.imgA) fun _ => rfl).toCalmBlind (by simp)).trans himgA
    · exact (hkept (Dev.Blind.of_core (π := fun d => d.h.imgB) fun _ => rfl).toCalmBlind (by simp)).trans himgB
    · exact (Dev.irqBlind_f.finish_kept (fun _ _ _ => rfl) (fun _ _ _ => rfl) _ _ _ _).trans (Eq.trans (Dev.wr_f_of_h _ _ (by decide)) hf)
  · obtain ⟨hmir, -, -, hrole⟩ := (s.dev.at t).heard_spec m hd
    have hdo : doMirTake hd t s.dev = ((s.dev.at t).heard m hd).relinquish := by
      unfold doMirTake
      rw [Dev.mirAccept_of_good (d := s.dev.at t) hm hauth hctr]
      rfl
    refine ⟨_, s.onDev_of hdo, Dev.role_relinquish _, fun hnot => Dev.active_relinquish (by rw [hrole]; exact hnot), ?_, rfl, rfl⟩
    refine congrArg Mir.session ((Dev.dualBlind_mir.relinquish (fun _ _ => by simp) _).trans hmir)
  · have hdo : doMirTakeWindowEnd t s.dev =
        if s.dev.role = roleACTIVE ∧ s.dev.partner = roleACTIVE ∧ s.dev.h.mir.session.isSome then
          ({ s.dev.at t with h.mir.take := none }).dual true
        else { s.dev.at t with h.mir.take := none } := by
      unfold doMirTakeWindowEnd; dsimp only
      rw [show (s.dev.at t).h.mir.take = some b from htake]
      exact if_neg (Nat.not_lt.mpr hlate)
    have hmir : (if s.dev.role = roleACTIVE ∧ s.dev.partner = roleACTIVE ∧ s.dev.h.mir.session.isSome then
        ({ s.dev.at t with h.mir.take := none } : Dev).dual true else { s.dev.at t with h.mir.take := none }).h.mir =
        { s.dev.h.mir with take := none } := Dev.ite_kept (π := fun d => d.h.mir) (Dev.dualBlind_mir.dual _ true) rfl
    refine ⟨_, s.onDev_of hdo, ?_, fun hrole hpartner hsession => ?_, ?_, ?_, rfl, rfl⟩
    · exact congrArg Mir.take (hmir :)
    · dsimp only
      rw [if_pos ⟨hrole, hpartner, hsession⟩]
      refine Dev.active_dual (fun h => ?_)
      rw [show ({ s.dev.at t with h.mir.take := none } : Dev).role = s.dev.role from rfl, hrole] at h
      exact absurd h (by decide)
    · exact hmir
    · exact Dev.ite_kept (π := fun d => d.f.car) (Dev.dualBlind_car.dual _ true) rfl

/-! ## Sessions -/

/-- The HELLO of a device that begins a session (R348). -/
def Dev.greeting (d : Dev) (serial : Quad) (t : Nat) : Dev :=
  ({ d.at t with
    h.mir.hello := some (Config.freeValue d.freeCtr)
    freeCtr := d.freeCtr + 1 + 1 }).emit (.mirror 1 d.role d.h.dev.code 0 0
      [serial, Config.freeValue d.freeCtr, Config.freeValue (d.freeCtr + 1), BitVec.ofNat 64 d.profile, BitVec.ofNat 64 d.mirKcv,
        BitVec.ofNat 64 d.epoch])

/-- A frame sent in a session takes its next counter. -/
theorem Dev.mirSend_of_session {d : Dev} {m : Session} (h : d.h.mir.session = some m) (kind seg : Nat) (body : List Quad) :
    d.mirSend kind seg body = ({ d with h.mir.session := some { m with tx := m.tx + 1 } }).emit (.mirror kind d.role d.h.dev.code seg m.tx body) := by
  unfold Dev.mirSend
  rw [h]

/-- A STATUS sent in a session (R350). -/
def Dev.reported (d : Dev) (m : Session) : Dev :=
  ({ d with h.mir := { d.h.mir with
      statusAt := d.now
      session := some { m with tx := m.tx + 1 } } }).emit (.mirror 2 d.role d.h.dev.code 0 m.tx
    [BitVec.ofNat 64 (d.role + d.h.dev.code * 2 ^ 8 + b2n (d.safeAct false) * 2 ^ 16 + b2n (d.safeAct true) * 2 ^ 17
      + b2n d.haltAct * 2 ^ 18), BitVec.ofNat 64 d.epoch])

/-- The first HELLO of a session that a device takes (R348). -/
def Dev.greeted (d : Dev) (serial : BitVec 64) (x : HelloFrame) : Dev :=
  (((((({ d with h.mir := { d.h.mir with
      session := some ⟨decide (serial.toNat < x.serial.toNat), 0, 0, x.epoch⟩
      lastRx := d.now } }).setFld Fld.MIR_STATUS_LINK_UP 1).setFld Fld.MIR_STATUS_PARTNER_ROLE x.role).setFld
    Fld.MIR_STATUS_PARTNER_STATE x.state).wr Reg.MIR_PARTNER_SN_LO (loWord x.serial.toNat)).wr Reg.MIR_PARTNER_SN_HI
      (hiWord x.serial.toNat)).condEnd .h Sn.MIR_LINK_DOWN

theorem Dev.helloIn_of_good {d : Dev} {serial : BitVec 64} {x : HelloFrame} (hon : d.mirOn = true) (hhello : d.h.mir.hello.isSome = true)
    (hnone : d.h.mir.session = none) (hauth : x.auth = true) (hkcv : x.kcv = d.mirKcv) (hprofile : profileOk x.profile = true) :
    d.helloIn serial x = ((d.greeted serial x).mirMeet x.epoch).v3 := by
  obtain ⟨r, hr⟩ := Option.isSome_iff_exists.mp hhello
  refine (if_neg ?_).trans ((if_neg ?_).trans rfl)
  · rw [hon, hr, hnone]
    exact Bool.false_ne_true
  · rw [hauth, hkcv, hprofile, bne_self_eq_false]
    decide

/-- What the HELLO sets before the devices meet. -/
theorem Dev.greeted_spec (d : Dev) (serial : BitVec 64) (x : HelloFrame) :
    (d.greeted serial x).h.mir.session = some ⟨decide (serial.toNat < x.serial.toNat), 0, 0, x.epoch⟩ ∧
    (d.greeted serial x).fld Fld.MIR_STATUS_LINK_UP = 1 ∧ (d.greeted serial x).partner = x.role % 4 ∧ (d.greeted serial x).role = d.role ∧
    (d.greeted serial x).epoch = d.epoch ∧ ((d.greeted serial x).src .h Sn.MIR_LINK_DOWN).active = false := by
  obtain ⟨a, ha⟩ : ∃ a : Dev, a = { d with h.mir := { d.h.mir with
      session := some ⟨decide (serial.toNat < x.serial.toNat), 0, 0, x.epoch⟩
      lastRx := d.now } } := ⟨_, rfl⟩
  obtain ⟨b, hb⟩ : ∃ b, b = ((a.setFld Fld.MIR_STATUS_LINK_UP 1).setFld Fld.MIR_STATUS_PARTNER_ROLE x.role).setFld
      Fld.MIR_STATUS_PARTNER_STATE x.state := ⟨_, rfl⟩
  have hgreet : d.greeted serial x = ((b.wr Reg.MIR_PARTNER_SN_LO (loWord x.serial.toNat)).wr Reg.MIR_PARTNER_SN_HI
      (hiWord x.serial.toNat)).condEnd .h Sn.MIR_LINK_DOWN := by rw [hb, ha]; rfl
  have hrd {k : Nat} (hlo : k ≠ Reg.MIR_PARTNER_SN_LO) (hhi : k ≠ Reg.MIR_PARTNER_SN_HI) : (d.greeted serial x).rd k = b.rd k := by
    rw [hgreet, Dev.rd_condEnd, Dev.rd_wr_ne _ _ hhi, Dev.rd_wr_ne _ _ hlo]
  have hstatus : (d.greeted serial x).rd Reg.MIR_STATUS = b.rd Reg.MIR_STATUS := hrd (by decide) (by decide)
  have hother {k : Nat} (hk : k ≠ Reg.MIR_STATUS) : b.rd k = d.rd k := by
    rw [hb, Dev.rd_setFld_ne _ _ _ hk, Dev.rd_setFld_ne _ _ _ hk, Dev.rd_setFld_ne _ _ _ hk, ha]
    rfl
  refine ⟨?_, ?_, ?_, ?_, ?_, ?_⟩
  · rw [hgreet, Dev.dualBlind_mir.condEnd (fun _ _ => rfl), hb, ha]
    simp
  · rw [Dev.fld_of_status (F := Fld.MIR_STATUS_LINK_UP) rfl hstatus, hb, Dev.fld_setFld_ne _ _ _ _ (by decide) (by decide),
      Dev.fld_setFld_ne _ _ _ _ (by decide) (by decide), Dev.fld_setFld_same _ _ _ (by decide)]
    decide
  · refine (Dev.fld_of_status (F := Fld.MIR_STATUS_PARTNER_ROLE) rfl hstatus).trans ?_
    rw [hb, Dev.fld_setFld_ne _ _ _ _ (by decide) (by decide), Dev.fld_setFld_same _ _ _ (by decide)]
    rfl
  · refine (Dev.fld_of_status (F := Fld.MIR_STATUS_ROLE_NOW) rfl hstatus).trans ?_
    rw [hb, Dev.fld_setFld_ne _ _ _ _ (by decide) (by decide), Dev.fld_setFld_ne _ _ _ _ (by decide) (by decide),
      Dev.fld_setFld_ne _ _ _ _ (by decide) (by decide), ha]
    rfl
  · unfold Dev.epoch
    rw [Dev.fld_of_rd (F := Fld.MIR_EPOCH_LO_EPOCH) ((hrd (by decide) (by decide)).trans (hother (by decide))),
      Dev.fld_of_rd (F := Fld.MIR_EPOCH_HI_EPOCH) ((hrd (by decide) (by decide)).trans (hother (by decide)))]
  · rw [hgreet]
    exact Dev.condEnd_inactive _ _ _

/-- Two ACTIVE devices of different epochs: the lower one gives way. -/
theorem Dev.mirMeet_of_lower {d : Dev} {epoch : Nat} (hrole : d.role = roleACTIVE) (hpartner : d.partner = roleACTIVE) (h : d.epoch < epoch) :
    d.mirMeet epoch = d.relinquish := by
  refine (if_neg ?_).trans (if_pos h)
  rw [hrole, hpartner]
  decide

/-- Two ACTIVE devices of one epoch stay so, and report it. -/
theorem Dev.mirMeet_of_equal {d : Dev} {epoch : Nat} (hrole : d.role = roleACTIVE) (hpartner : d.partner = roleACTIVE) (h : d.epoch = epoch) :
    d.mirMeet epoch = d.dual true := by
  refine (if_neg ?_).trans ((if_neg (by omega)).trans (if_pos h))
  rw [hrole, hpartner]
  decide

/-- A field of MIR_STATUS but the role stays where devices meet. -/
theorem Dev.fld_mirMeet (d : Dev) (epoch : Nat) {F : Fld} (hF : F.off = Reg.MIR_STATUS) (hw : F.lo + F.w ≤ 32)
    (hne : F.lo + F.w ≤ 1 ∨ 3 ≤ F.lo) : (d.mirMeet epoch).fld F = d.fld F := by
  have hgive : d.relinquish.fld F = d.fld F := by
    refine Dev.ite_kept (π := fun d => d.fld F) rfl ((Dev.fld_of_status hF (Dev.dualBlind_status.v3 _)).trans ?_)
    refine (Dev.fld_setFld_ne _ Fld.MIR_STATUS_ROLE_NOW F _ hw (.inr hne)).trans (Dev.fld_of_status hF ?_)
    exact Dev.ite_kept (π := fun d => d.rd Reg.MIR_STATUS) rfl (Dev.dualBlind_status.toBlind.raiseBothH (fun _ _ => rfl) (by decide) d)
  exact Dev.ite_kept (π := fun d => d.fld F) rfl (Dev.ite_kept (π := fun d => d.fld F) hgive
    (Dev.ite_kept (π := fun d => d.fld F) (Dev.fld_of_status hF (Dev.dualBlind_status.dual d true)) rfl))

theorem roleACTIVE_ne {n : Nat} (h : n = roleACTIVE) : n ≠ roleRELINQUISHED := by
  rw [h]
  decide

/-- A snapshot that is being received is given up. -/
theorem Dev.mir_mirAbort (d : Dev) : d.mirAbort.h.mir = { d.h.mir with rx := none } := by
  unfold Dev.mirAbort
  cases hrx : d.h.mir.rx with
  | none => exact (congrArg (fun r => ({ d.h.mir with rx := r } : Mir)) hrx :)
  | some r =>
    refine (Dev.dualBlind_mir.v3 _).trans ((Dev.dualBlind_mir.toBlind.raiseBothH (fun _ _ => rfl) (by decide) _).trans ?_)
    exact Dev.bump_of_wr (π := fun d => d.h.mir) (fun e k v => by simp) _ _ _

/-- The session's end: what it leaves of the port, and the link shown down. -/
theorem Dev.mirEnd_spec (d : Dev) : d.mirEnd.h.mir = { d.h.mir with session := none, hello := none, rx := none } ∧
    d.mirEnd.fld Fld.MIR_STATUS_LINK_UP = 0 := by
  obtain ⟨e, he⟩ : ∃ e : Dev, e = ({ d with h.mir := { d.h.mir with session := none, hello := none } }).setFld Fld.MIR_STATUS_LINK_UP 0 := ⟨_, rfl⟩
  have hend {α : Type} {π : Dev → α} (h : Dev.DualBlind π) : π d.mirEnd = π e.mirAbort := by
    have hdual : π (e.mirAbort.dual false) = π e.mirAbort := h.dual _ _
    unfold Dev.mirEnd; dsimp only
    rw [← he]
    exact Dev.ite_kept ((h.v3 _).trans hdual) hdual
  constructor
  · rw [hend Dev.dualBlind_mir, Dev.mir_mirAbort, he]
    simp
  · rw [Dev.fld_of_status (F := Fld.MIR_STATUS_LINK_UP) rfl (hend Dev.dualBlind_status)]
    have habort : e.mirAbort.rd Reg.MIR_STATUS = e.rd Reg.MIR_STATUS := by
      refine Dev.ite_kept (π := fun d => d.rd Reg.MIR_STATUS) rfl ((Dev.dualBlind_status.v3 _).trans ?_)
      exact (Dev.dualBlind_status.toBlind.raiseBothH (fun _ _ => rfl) (by decide) _).trans (Dev.rd_bump_ne _ (by decide) (by decide))
    rw [Dev.fld_of_status (F := Fld.MIR_STATUS_LINK_UP) rfl habort, he]
    exact Dev.fld_setFld_same _ Fld.MIR_STATUS_LINK_UP 0 (by decide)

/-- Settles O50: HELLO, STATUS and the timeout by the frames that they take and the dual activity that they meet. -/
theorem mirrorSessions : Obligations.MirrorSessions := by
  unfold Obligations.MirrorSessions
  intro s t epoch x hd m aligned
  refine ⟨fun hon hnone => ?_, fun hon hhello hnone hauth hkcv hprofile => ?_, fun hm => ⟨?_, fun hauth hctr => ?_, fun hlost => ?_⟩⟩
  · have hdo : exec (.mirSessionStart t) s = .next { s with dev := s.dev.greeting s.nv.serial t } := by
      refine congrArg Host.Outcome.next ((if_neg ?_).trans rfl)
      rw [show (s.dev.at t).mirOn = true from hon, show (s.dev.at t).h.mir.session = none from hnone]
      decide
    exact ⟨_, hdo, rfl, hnone, rfl, rfl, rfl, rfl, rfl⟩
  · have hdo := Dev.helloIn_of_good (d := s.dev.at t) (serial := s.nv.serial) hon hhello hnone hauth hkcv hprofile
    obtain ⟨hsession, hup, hpartner, hrole, hepoch, hdown⟩ := (s.dev.at t).greeted_spec s.nv.serial x
    obtain ⟨g, hg⟩ : ∃ g, g = (s.dev.at t).greeted s.nv.serial x := ⟨_, rfl⟩
    rw [← hg] at hdo hsession hup hpartner hrole hepoch hdown
    have hfld {F : Fld} (hF : F.off = Reg.MIR_STATUS) (hw : F.lo + F.w ≤ 32) (hne : F.lo + F.w ≤ 1 ∨ 3 ≤ F.lo) :
        ((g.mirMeet x.epoch).v3).fld F = g.fld F :=
      (Dev.fld_of_status hF (Dev.dualBlind_status.v3 _)).trans (g.fld_mirMeet x.epoch hF hw hne)
    have hsrc (i : Nat) : (g.mirMeet x.epoch).v3.src .h i = (g.mirMeet x.epoch).src .h i := (Dev.blind_src .h i).v3 _
    have hactive (hx : x.role = roleACTIVE) : g.partner = roleACTIVE := by rw [hpartner, hx]; rfl
    have hroleV3 : ((g.mirMeet x.epoch).v3).role = (g.mirMeet x.epoch).role := Dev.fld_of_status rfl (Dev.dualBlind_status.v3 _)
    refine ⟨_, s.onDev_of (g := fun d => (d.at t).helloIn s.nv.serial x) hdo, ?_, ?_, ?_, ?_, fun hme hx hlt => ⟨?_, ?_⟩, fun hme hx heq => ⟨?_, ?_⟩, rfl, rfl⟩
    · exact (congrArg Mir.session ((Dev.dualBlind_mir.v3 _).trans (Dev.dualBlind_mir.mirMeet (fun _ _ => by simp) g x.epoch))).trans hsession
    · unfold Dev.flag
      rw [hfld rfl (by decide) (.inl (by decide)), hup]
      rfl
    · exact (hfld rfl (by decide) (.inr (by decide))).trans hpartner
    · rw [hsrc]
      exact (congrArg Src.active ((Dev.dualBlind_src (by decide)).mirMeet (fun _ _ => by simp [Dev.src]) g x.epoch)).trans hdown
    · rw [hroleV3, Dev.mirMeet_of_lower (hrole.trans hme) (hactive hx) (by rw [hepoch]; exact hlt)]
      exact Dev.role_relinquish g
    · rw [hsrc, Dev.mirMeet_of_lower (hrole.trans hme) (hactive hx) (by rw [hepoch]; exact hlt)]
      exact Dev.active_relinquish (roleACTIVE_ne (hrole.trans hme))
    · rw [hroleV3, Dev.mirMeet_of_equal (hrole.trans hme) (hactive hx) (by rw [hepoch]; exact heq)]
      exact (Dev.fld_of_status rfl (Dev.dualBlind_status.dual g true)).trans (hrole.trans hme)
    · rw [hsrc, Dev.mirMeet_of_equal (hrole.trans hme) (hactive hx) (by rw [hepoch]; exact heq)]
      exact Dev.active_dual (roleACTIVE_ne (hrole.trans hme))
  · have hdo : doMirStatusSend t s.dev = (s.dev.at t).reported m := by
      refine (if_neg ?_).trans ((Dev.mirSend_of_session (d := { s.dev.at t with h.mir.statusAt := (s.dev.at t).now }) hm 2 0 _).trans rfl)
      rw [show (s.dev.at t).h.mir.session = some m from hm]
      exact Bool.false_ne_true
    exact ⟨_, _, s.onDev_of hdo, rfl, rfl, rfl, rfl, rfl, rfl⟩
  · obtain ⟨hmir, hpartner, hstate, hrole⟩ := (s.dev.at t).heard_spec m hd
    obtain ⟨g, hg⟩ : ∃ g, g = (s.dev.at t).heard m hd := ⟨_, rfl⟩
    rw [← hg] at hmir hpartner hstate hrole
    have hdo : doMirStatus hd epoch t s.dev = if g.role != roleACTIVE then g
        else if hd.role != roleACTIVE then ({ g with h.mir.take := none }).dual false
        else if g.h.mir.take.isSome then g else g.dual true := by
      unfold doMirStatus
      rw [Dev.mirAccept_of_good (d := s.dev.at t) hm hauth hctr, ← hg]
      rfl
    have hkept {α : Type} {π : Dev → α} (h : Dev.DualBlind π) (htake : ∀ d : Dev, π { d with h.mir.take := none } = π d) :
        π (if g.role != roleACTIVE then g else if hd.role != roleACTIVE then ({ g with h.mir.take := none }).dual false
          else if g.h.mir.take.isSome then g else g.dual true) = π g :=
      Dev.ite_kept rfl (Dev.ite_kept ((h.dual _ _).trans (htake g)) (Dev.ite_kept rfl (h.dual g true)))
    have hstatus := hkept Dev.dualBlind_status fun _ => rfl
    have hleft := hkept (π := fun d => (d.h.mir.session, d.h.mir.lastRx)) ⟨.of_core fun _ => rfl, fun _ _ => rfl⟩ fun _ => rfl
    have hsession : (g.h.mir.session, g.h.mir.lastRx) = (some { m with rx := hd.counter + 1 }, max s.dev.now t) := by
      rw [hmir]
      rfl
    refine ⟨_, s.onDev_of hdo, (congrArg Prod.fst (hleft.trans hsession) :), (congrArg Prod.snd (hleft.trans hsession) :),
      (Dev.fld_of_status rfl hstatus).trans hpartner, (Dev.fld_of_status rfl hstatus).trans hstate, fun hme hx htake => ?_,
      fun hme hx => ?_, rfl, rfl⟩
    · have hmine : g.role = roleACTIVE := hrole.trans hme
      have hnone : g.h.mir.take = none := by rw [hmir]; exact htake
      dsimp only
      rw [hmine, hx, hnone]
      exact Dev.active_dual (roleACTIVE_ne hmine)
    · have hmine : g.role = roleACTIVE := hrole.trans hme
      dsimp only
      rw [hmine, if_neg (by decide), if_pos (by simpa using hx)]
      exact Dev.inactive_dual (roleACTIVE_ne hmine)
  · obtain ⟨hmir, hup⟩ := (s.dev.at t).mirEnd_spec
    have hdo : doMirLinkTimeout aligned t s.dev = ((s.dev.at t).mirEnd).raiseBoth .h Sn.MIR_LINK_DOWN := by
      unfold doMirLinkTimeout; dsimp only
      refine (if_neg ?_).trans (if_pos ?_)
      · simp only [Bool.and_eq_true, decide_eq_true_eq, not_and]
        intro haligned
        exact Nat.not_lt.mpr (hlost.resolve_left (by rw [haligned]; decide))
      · rw [show (s.dev.at t).h.mir.session = some m from hm]
        rfl
    have hraise := (Dev.dualBlind_mir.toBlind.raiseBothH (i := Sn.MIR_LINK_DOWN) (fun _ _ => rfl) (by decide) (s.dev.at t).mirEnd).trans hmir
    refine ⟨_, s.onDev_of hdo, congrArg Mir.session hraise, congrArg Mir.rx hraise, ?_, (congrArg Mir.snap hraise :), ?_, rfl, rfl⟩
    · unfold Dev.flag
      rw [Dev.fld_of_status (F := Fld.MIR_STATUS_LINK_UP) rfl (Dev.dualBlind_status.toBlind.raiseBothH (fun _ _ => rfl) (by decide) _), hup]
      decide
    · exact Dev.active_raise _ .h true true (by decide) (.inl rfl)

end Sys2Proof.Machine
end

section
/-!
PROOF. Power-on resets, losses of a die's supply, and PERST_N (R368, R376, R378).
-/

namespace Sys2Proof.Machine

/-! ## The Carousel's slots as an H-side is lost -/

/-- A function's slots reset: a slot is free, or stands as it was for the other function. -/
theorem Dev.slot_slotsReset (d : Dev) (fn : Func) (n : Nat) : ((d.slotsReset fn).slot n).st = .free ∨
    ((d.slotsReset fn).slot n = d.slot n ∧ (d.slot n).fn ≠ fn) := by
  have hfold : ∀ (l : List Nat) (e : Dev),
      (l.foldl (fun d n => if (d.slot n).fn == fn then d.setSlot n Slot.free else d) e).slot n = Slot.free ∨
      ((l.foldl (fun d n => if (d.slot n).fn == fn then d.setSlot n Slot.free else d) e).slot n = e.slot n ∧
        (n ∈ l → (e.slot n).fn ≠ fn)) := by
    intro l
    induction l with
    | nil => exact fun e => .inr ⟨rfl, fun h => absurd h List.not_mem_nil⟩
    | cons m l ih =>
      intro e
      rw [List.foldl_cons]
      by_cases hfn : (e.slot m).fn = fn
      · rw [if_pos (beq_iff_eq.mpr hfn)]
        have hset := e.slot_setSlot m n Slot.free
        by_cases hnm : n = m
        · rw [if_pos hnm] at hset
          exact .inl ((ih _).elim id fun h => h.1.trans hset)
        · rw [if_neg hnm] at hset
          rcases ih (e.setSlot m Slot.free) with h | ⟨h, hl⟩
          · exact .inl h
          · rw [hset] at h hl
            exact .inr ⟨h, fun hmem => hl ((List.mem_cons.mp hmem).resolve_left hnm)⟩
      · rw [if_neg (fun h => hfn (beq_iff_eq.mp h))]
        rcases ih e with h | ⟨h, hl⟩
        · exact .inl h
        · refine .inr ⟨h, fun hmem => ?_⟩
          rcases List.mem_cons.mp hmem with rfl | hmem
          · exact hfn
          · exact hl hmem
  by_cases hst : (d.slot n).st = .free
  · rcases hfold d.slotKeys d with h | ⟨h, -⟩
    · exact .inl (congrArg Slot.st h)
    · exact .inl ((congrArg Slot.st h).trans hst)
  · rcases hfold d.slotKeys d with h | ⟨h, hl⟩
    · exact .inl (congrArg Slot.st h)
    · exact .inr ⟨h, hl (Dev.mem_slotKeys hst)⟩

/-- An F-side that loses the H-side has every slot free. -/
theorem Dev.slot_fLosesH (d : Dev) (n : Nat) : (d.fLosesH.slot n).st = .free := by
  show (((d.slotsReset false).slotsReset true).slot n).st = .free
  rcases (d.slotsReset false).slot_slotsReset true n with h | ⟨h, hfn⟩
  · exact h
  · rw [h]
    refine (d.slot_slotsReset false n).resolve_right fun ⟨hsame, hother⟩ => ?_
    rw [hsame] at hfn
    cases hown : (d.slot n).fn with
    | false => exact hother hown
    | true => exact hfn hown

/-- What the H-side's loss leaves: all but the slots, what is in flight, the ended operations and the H-side's sources. -/
theorem Dev.fLosesH_kept (d : Dev) : d.fLosesH.h = d.h ∧ d.fLosesH.f.powered = d.f.powered ∧ d.fLosesH.f.watch = d.f.watch ∧
    d.fLosesH.f.image = d.f.image ∧ d.fLosesH.f.snH = [] := by
  have hkept {α : Type} {π : Dev → α} (h : ∀ (d : Dev) (n : Nat) (x : Slot), π (d.setSlot n x) = π d) :
      π ((d.slotsReset false).slotsReset true) = π d := (Dev.slotsReset_kept h _ true).trans (Dev.slotsReset_kept h d false)
  exact ⟨hkept (π := fun d => d.h) fun _ _ _ => rfl, hkept (π := fun d => d.f.powered) fun _ _ _ => rfl,
    hkept (π := fun d => d.f.watch) fun _ _ _ => rfl, hkept (π := fun d => d.f.image) fun _ _ _ => rfl, rfl⟩

/-! ## The device state where no reaction moves it -/

/-- The device state, if it is one of those that the reactions in force do not leave (R16, R273). -/
def Dev.held (d : Dev) : Option DevState := if d.h.dev.reacts then none else some d.h.dev

theorem Dev.held_of_dev {d e : Dev} (h : e.h.dev = d.h.dev) : e.held = d.held := by
  unfold Dev.held
  rw [h]

theorem Dev.blind_held : Dev.Blind Dev.held where
  emit _ _ := rfl
  wrHalt d k v _ := Dev.held_of_dev (by rw [Dev.wr_h])
  bulk d x b := by cases x <;> rfl
  reads _ _ := rfl
  pci d fn p := by cases fn <;> rfl
  op _ _ _ := rfl
  ring _ _ _ := rfl
  state d st b c hd hst := (if_pos hst).trans (if_pos hd).symm
  irqRest _ _ := rfl
  restEntry _ _ := rfl
  brk _ _ := rfl
  wr d k v _ := Dev.held_of_dev (by rw [Dev.wr_h])
  ackCopy _ _ _ := rfl
  pm _ _ := rfl
  training _ _ := rfl
  pulseH _ _ := rfl
  pulseF _ _ := rfl

/-- A state that is held is the device state. -/
theorem Dev.dev_of_held {d : Dev} {st : DevState} (h : d.held = some st) : d.h.dev = st := by
  unfold Dev.held at h
  split at h
  · cases h
  · exact Option.some.inj h

theorem Dev.held_of_state {d : Dev} (h : d.h.dev = .boot ∨ d.h.dev = .standby ∨ d.h.dev = .settingsHold) : d.held = some d.h.dev :=
  if_neg (by rcases h with h | h | h <;> rw [h] <;> exact Bool.false_ne_true)

/-- BOOT, STANDBY and SETTINGS_HOLD are not left as the link goes down. -/
theorem Dev.dev_linkDown {d : Dev} (h : d.h.dev = .boot ∨ d.h.dev = .standby ∨ d.h.dev = .settingsHold) : d.linkDown.h.dev = d.h.dev :=
  Dev.dev_of_held ((Dev.blind_held.linkDown (fun _ _ => rfl) (fun d v => Dev.held_of_dev (by rw [Dev.wr_h])) d).trans (Dev.held_of_state h))

/-! ## The loss of VDD_F -/

/-- A part blind to reports and to the boot's progress does not see the HALT that a lost F-side begins. -/
theorem Dev.Blind.vddFHalt {α : Type} {π : Dev → α} (h : Dev.Blind π)
    (hsrc : ∀ (d : Dev) (s : Src), π (d.setSrc .h Sn.FW_SETTINGS_HOLD s) = π d)
    (hboot : ∀ (d : Dev) (st : DevState) (b : Boot), π { d with h.dev := st, h.boot := b } = π d) (d : Dev) : π d.vddFHalt = π d :=
  Dev.ite_kept (π := π) ((h.haltBegin _).trans ((h.condEnd hsrc _).trans (hboot d _ _))) rfl

/-- STANDBY and SETTINGS_HOLD go to HALT as the F-side is lost. -/
theorem Dev.vddFHalt_spec {d : Dev} (h : d.h.dev = .settingsHold ∨ d.h.dev = .standby) : d.vddFHalt.h.dev = .halt ∧
    d.vddFHalt.h.boot.env = none ∧ (d.vddFHalt.src .h Sn.FW_SETTINGS_HOLD).active = false := by
  have henv : Dev.Blind (fun d => d.h.boot.env) := .of_core fun _ => rfl
  unfold Dev.vddFHalt
  rw [if_pos h]
  have hstream : Dev.StreamBlind (fun d => d.h.dev) := ⟨⟨fun _ _ => rfl⟩, fun _ x _ => by cases x <;> rfl, fun _ _ => rfl⟩
  refine ⟨(Dev.quietBlind_dev.haltBegin _).trans (hstream.condEnd (fun _ _ => rfl) _), (henv.haltBegin _).trans (henv.condEnd (fun _ _ => rfl) _), ?_⟩
  rw [(Dev.blind_src .h _).haltBegin]
  exact Dev.condEnd_inactive _ _ _

theorem Dev.vddFHalt_of_boot {d : Dev} (h : d.h.dev = .boot) : d.vddFHalt = d := if_neg (by simp [h])

/-- The device whose F-side has lost its supply, before the H-side sees it. -/
def Dev.unpoweredF (d : Dev) : Dev := { d with f := { FDie.power with powered := false, released := false } }

theorem doVddFLoss_of_powered {d : Dev} {t : Nat} (hpow : d.f.powered = true) : doVddFLoss t d =
    if d.h.dev = .off || d.h.dev = .rest then (d.at t).unpoweredF
    else if d.h.link.up || d.h.link.training then (d.at t).unpoweredF.linkDown.vddFHalt else (d.at t).unpoweredF.vddFHalt := by
  refine (if_neg ?_).trans rfl
  rw [Dev.at_f, hpow]
  exact Bool.false_ne_true

/-- A part that a link down and HALT do not reach is what the F-side's power-on reset leaves of it. -/
theorem Dev.Blind.vddFLoss {α : Type} {π : Dev → α} (h : Dev.Blind π) (hsrc : ∀ (d : Dev) (i : Nat) (s : Src), π (d.setSrc .h i s) = π d)
    (hlock : ∀ (d : Dev) (v : Word), π (d.wr Reg.SYS_LOCK_STATUS v) = π d) (hboot : ∀ (d : Dev) (st : DevState) (b : Boot), π { d with h.dev := st, h.boot := b } = π d)
    {d : Dev} {t : Nat} (hpow : d.f.powered = true) (hcut : π (d.at t).unpoweredF.linkCut = π (d.at t).unpoweredF) :
    π (doVddFLoss t d) = π (d.at t).unpoweredF := by
  have hhalt := h.vddFHalt (fun d => hsrc d _) hboot
  rw [doVddFLoss_of_powered hpow]
  refine Dev.ite_kept (π := π) rfl (Dev.ite_kept (π := π) ?_ (hhalt _))
  exact (hhalt _).trans ((h.linkDown (fun d => hsrc d _) hlock _).trans hcut)

/-- What the H-side reports of a link down. -/
theorem Dev.linkDown_spec (d : Dev) : d.linkDown.h.link.up = false ∧ d.linkDown.flag Fld.SYS_LOCK_STATUS_F_STALE = true ∧
    (d.linkDown.src .h Sn.PRZ_LINK_DOWN).last = d.now := by
  have hlink : Dev.Blind (fun d => d.h.link.up) := .of_core fun _ => rfl
  have hread : Dev.Blind (fun d => d.rd Reg.SYS_LOCK_STATUS) := Dev.blind_rd (by decide)
  refine ⟨hlink.linkDown (fun _ _ => rfl) (fun d v => by rw [Dev.wr_h]) d, ?_, ?_⟩
  · have hset : (d.linkCut.readsFailed d.h.fwReads).fld Fld.SYS_LOCK_STATUS_F_STALE = 1 := Dev.fld_setFld_same _ _ 1 (by decide)
    refine Dev.flag_of_one ((Dev.fld_of_rd (F := Fld.SYS_LOCK_STATUS_F_STALE) ?_).trans hset)
    exact (hread.raiseBothH (fun _ _ => rfl) (by decide) _).trans (hread.learnPulseF _)
  · have hnow : ((d.linkCut.readsFailed d.h.fwReads).learnPulseF).now = d.now :=
      (Dev.blind_now.learnPulseF _).trans (Dev.blind_now.readsFailed (fun d v => by rw [Dev.wr_now]) _ _)
    rw [Dev.linkDown_eq]
    exact (Dev.last_raise _ .h true true (by decide)).trans hnow

/-- HALT leaves what has been reported of the link. -/
theorem Dev.linkDown_vddFHalt (d : Dev) : d.vddFHalt.h.link.up = d.h.link.up ∧
    d.vddFHalt.flag Fld.SYS_LOCK_STATUS_F_STALE = d.flag Fld.SYS_LOCK_STATUS_F_STALE ∧
    (d.vddFHalt.src .h Sn.PRZ_LINK_DOWN).last = (d.src .h Sn.PRZ_LINK_DOWN).last := by
  have hlink : Dev.Blind (fun d => d.h.link.up) := .of_core fun _ => rfl
  have hread : Dev.Blind (fun d => d.rd Reg.SYS_LOCK_STATUS) := Dev.blind_rd (by decide)
  refine ⟨hlink.vddFHalt (fun _ _ => rfl) (fun _ _ _ => rfl) d, ?_, ?_⟩
  · exact congrArg (· == 1) (Dev.fld_of_rd (F := Fld.SYS_LOCK_STATUS_F_STALE) (hread.vddFHalt (fun _ _ => rfl) (fun _ _ _ => rfl) d))
  · exact congrArg Src.last ((Dev.blind_src .h _).vddFHalt (fun d s => d.src_setSrc_ne .h s (by decide)) (fun _ _ _ => rfl) d)

/-- The H-side's view of the loss: nothing while it is OFF or in REST, BOOT stays, STANDBY and SETTINGS_HOLD go to HALT. -/
theorem doVddFLoss_state {d : Dev} {t : Nat} (hpow : d.f.powered = true) :
    ((d.h.dev = .off ∨ d.h.dev = .rest) → (doVddFLoss t d).h = d.h) ∧
    (d.h.dev = .boot → (doVddFLoss t d).h.dev = .boot) ∧
    ((d.h.dev = .standby ∨ d.h.dev = .settingsHold) → (doVddFLoss t d).h.dev = .halt ∧ (doVddFLoss t d).h.boot.env = none ∧
      ((doVddFLoss t d).src .h Sn.FW_SETTINGS_HOLD).active = false) ∧
    (d.h.dev ≠ .off → d.h.dev ≠ .rest → (d.h.link.up = true ∨ d.h.link.training = true) →
      (doVddFLoss t d).h.link.up = false ∧ (doVddFLoss t d).flag Fld.SYS_LOCK_STATUS_F_STALE = true ∧
      ((doVddFLoss t d).src .h Sn.PRZ_LINK_DOWN).last = max d.now t) := by
  rw [doVddFLoss_of_powered hpow]
  refine ⟨fun h => ?_, fun h => ?_, fun h => ?_, fun hoff hrest hup => ?_⟩
  · rw [if_pos (by simpa using h)]
    rfl
  · have hdown : (d.at t).unpoweredF.linkDown.h.dev = .boot := (Dev.dev_linkDown (d := (d.at t).unpoweredF) (.inl h)).trans h
    rw [if_neg (by simp [h]), Dev.vddFHalt_of_boot hdown, Dev.vddFHalt_of_boot (d := (d.at t).unpoweredF) h]
    exact Dev.ite_kept (π := fun d => d.h.dev) hdown h
  · have hdown : (d.at t).unpoweredF.linkDown.h.dev = d.h.dev := Dev.dev_linkDown (d := (d.at t).unpoweredF) (.inr h)
    rw [if_neg (by rcases h with h | h <;> simp [h])]
    split
    · exact Dev.vddFHalt_spec (by rw [hdown]; exact h.symm)
    · exact Dev.vddFHalt_spec (d := (d.at t).unpoweredF) h.symm
  · obtain ⟨hup', hstale, hlast⟩ := (d.at t).unpoweredF.linkDown_spec
    obtain ⟨ku, ks, kl⟩ := (d.at t).unpoweredF.linkDown.linkDown_vddFHalt
    rw [if_neg (by simp [hoff, hrest]), if_pos (by simpa using hup)]
    exact ⟨ku.trans hup', ks.trans hstale, kl.trans hlast⟩

/-! ## PERST_N -/

theorem doPerstAssert_of_running {d : Dev} {t : Nat} (hoff : d.h.dev ≠ .off) (hperst : d.h.boot.perst = false) :
    doPerstAssert t d = { ((d.at t).fLosesH).hReset true with h.boot.perst := true } := by
  refine (if_neg ?_).trans rfl
  rintro (h | h)
  · exact hoff h
  · rw [Dev.at_h, hperst] at h
    cases h

/-! ## The statement -/

/-- Settles O53: the power-on resets, the losses of supply and PERST_N put each die to the state that its table says. -/
theorem powerAndPerst : Obligations.PowerAndPerst := by
  unfold Obligations.PowerAndPerst
  intro s t
  refine ⟨fun hrel => ?_, fun hrel => ?_, ?_, fun hpow => ?_, fun hoff hperst => ?_⟩
  · refine s.onDev_of ((if_neg ?_).trans rfl)
    rw [Dev.at_h, hrel]
    exact Bool.false_ne_true
  · have hdo : doPowerOnResetFRelease t s.dev =
        if s.dev.h.dev = .off && s.dev.h.boot.released
        then { s.dev.at t with f := { FDie.power with brk := { Brk.reset with idleFrom := max s.dev.now t } }, h.dev := .boot }
        else { s.dev.at t with f := { FDie.power with brk := { Brk.reset with idleFrom := max s.dev.now t } } } := by
      refine (if_neg ?_).trans rfl
      rw [Dev.at_f, hrel]
      exact Bool.false_ne_true
    refine ⟨_, s.onDev_of hdo, Dev.ite_kept (π := fun d => d.f) rfl rfl, ?_, rfl, rfl⟩
    dsimp only
    by_cases h : s.dev.h.dev = .off ∧ s.dev.h.boot.released = true
    · rw [if_pos h, if_pos (by simpa using h)]
      rfl
    · rw [if_neg h, if_neg (by simpa using h)]
      rfl
  · obtain ⟨-, hpow, hwatch, -, -⟩ := (s.dev.at t).fLosesH_kept
    exact ⟨_, s.onDev_of (g := doVddCoreHLoss t) rfl, rfl, rfl, hpow, hwatch, (s.dev.at t).slot_fLosesH, rfl, rfl⟩
  · have hloss {α : Type} {π : Dev → α} (h : ∀ d : Dev, π d.core = π d) (hsrc : ∀ (d : Dev) (i : Nat) (s : Src), π (d.setSrc .h i s) = π d)
        (hlock : ∀ (d : Dev) (v : Word), π (d.wr Reg.SYS_LOCK_STATUS v) = π d) (hboot : ∀ (d : Dev) (st : DevState) (b : Boot), π { d with h.dev := st, h.boot := b } = π d)
        (hcut : ∀ d : Dev, π d.linkCut = π d) : π (doVddFLoss t s.dev) = π (s.dev.at t).unpoweredF :=
      (Dev.Blind.of_core h).vddFLoss hsrc hlock hboot hpow (hcut _)
    obtain ⟨hoff, hboot, hhalt, hdown⟩ := doVddFLoss_state (t := t) hpow
    exact ⟨_, s.onDev_of (g := doVddFLoss t) rfl,
      hloss (π := fun d => d.f.powered) (fun _ => rfl) (fun _ _ _ => rfl) (fun d v => by rw [Dev.wr_f]) (fun _ _ _ => rfl) fun _ => rfl,
      hloss (π := fun d => d.f.released) (fun _ => rfl) (fun _ _ _ => rfl) (fun d v => by rw [Dev.wr_f]) (fun _ _ _ => rfl) fun _ => rfl,
      hloss (π := fun d => d.f.image) (fun _ => rfl) (fun _ _ _ => rfl) (fun d v => by rw [Dev.wr_f]) (fun _ _ _ => rfl) fun _ => rfl,
      hloss (π := fun d => d.f.ops) (fun _ => rfl) (fun _ _ _ => rfl) (fun d v => by rw [Dev.wr_f]) (fun _ _ _ => rfl) fun _ => rfl,
      rfl, rfl, hoff, hboot, hhalt, hdown⟩
  · obtain ⟨hh, -, hwatch, himage, hsn⟩ := (s.dev.at t).fLosesH_kept
    have hcut : (s.dev.at t).fLosesH.cutOf = s.dev.cutOf := by
      unfold Dev.cutOf
      rw [hh]
      rfl
    refine ⟨_, s.onDev_of (doPerstAssert_of_running hoff hperst), rfl, rfl, rfl, hcut, ?_, rfl, rfl, rfl, rfl, rfl, rfl, rfl, ?_, hsn,
      (s.dev.at t).slot_fLosesH, hwatch, rfl, rfl⟩
    · show (if (s.dev.at t).fLosesH.h.fReset then none else (s.dev.at t).fLosesH.f.image) = _
      rw [hh, himage]
      rfl
    · show ({ (s.dev.at t).fLosesH.h.sec with lcFirst := none } : Sec) = _
      rw [hh]
      rfl

end Sys2Proof.Machine
end

section
/-!
PROOF. A boot on an empty flash: no keys and no slot (R316, R330).
-/

namespace Sys2Proof.Machine

/-! ## What the first steps of a boot leave -/

/-- A part of the device that reports, registers but SYS_BOOT, its progress in SYS_BOOT and the passing of time do not touch, nor any source
of the H-side but SEC_ERASED. -/
structure Dev.BootBlind {α : Type} (π : Dev → α) : Prop extends Dev.Blind π where
  wrAny : ∀ (d : Dev) (k : Nat) (v : Word), k ≠ Reg.SYS_BOOT → π (d.wr k v) = π d
  step : ∀ (d : Dev) (v : Nat), π (d.setFld Fld.SYS_BOOT_STEP v) = π d
  subsys : ∀ (d : Dev) (v : Nat), π (d.setFld Fld.SYS_BOOT_SUBSYS_DEF v) = π d
  srcH : ∀ (d : Dev) (i : Nat) (s : Src), i ≠ Sn.SEC_ERASED → π (d.setSrc .h i s) = π d
  time : ∀ (d : Dev) (t : Nat), π (d.at t) = π d
  boot : ∀ (d : Dev) (b : Boot), π { d with h.boot := b } = π d

theorem Dev.held_wr (d : Dev) (k : Nat) (v : Word) : (d.wr k v).held = d.held := Dev.held_of_dev (by rw [Dev.wr_h])

theorem Dev.bootBlind_held : Dev.BootBlind Dev.held where
  toBlind := Dev.blind_held
  wrAny d k v _ := d.held_wr k v
  step d _ := d.held_wr _ _
  subsys d _ := d.held_wr _ _
  srcH _ _ _ _ := rfl
  time _ _ := rfl
  boot _ _ := rfl

theorem Dev.bootBlind_sec : Dev.BootBlind (fun d => d.h.sec) where
  toBlind := .of_core fun _ => rfl
  wrAny d k v _ := by simp
  step d v := by simp
  subsys d v := by simp
  srcH _ _ _ _ := rfl
  time _ _ := rfl
  boot _ _ := rfl

/-- A field outside what reports write. -/
theorem Dev.blind_fld {F : Fld} (hF : reactReg F.off = false) : Dev.Blind (fun d => d.fld F) := by
  have h : Dev.Blind (fun d => d.rd F.off) := Dev.blind_rd hF
  exact {
    h.toStateBlind.comp Dev.fld_of_rd with
    wr := fun d k v hk => Dev.fld_of_rd (h.wr d k v hk)
    ackCopy := fun d fn v => Dev.fld_of_rd (h.ackCopy d fn v)
    pm := fun d m => Dev.fld_of_rd (h.pm d m)
    training := fun d b => Dev.fld_of_rd (h.training d b)
    pulseH := fun d p => Dev.fld_of_rd (h.pulseH d p)
    pulseF := fun d p => Dev.fld_of_rd (h.pulseF d p) }

theorem Dev.bootBlind_erased : Dev.BootBlind (fun d => d.src .h Sn.SEC_ERASED) where
  toBlind := Dev.blind_src .h _
  wrAny d k v _ := by simp [Dev.src]
  step d v := by simp [Dev.src]
  subsys d v := by simp [Dev.src]
  srcH d i s hi := d.src_setSrc_ne .h s (Ne.symm hi)
  time _ _ := rfl
  boot _ _ := rfl

theorem Dev.fld_wr_ne (d : Dev) {F : Fld} {k : Nat} (v : Word) (h : F.off ≠ k) : (d.wr k v).fld F = d.fld F :=
  Dev.fld_of_rd (d.rd_wr_ne v h)

theorem Dev.bootBlind_cause : Dev.BootBlind (fun d => d.fld Fld.SYS_BOOT_CAUSE) where
  toBlind := Dev.blind_fld (by decide)
  wrAny d k v hk := d.fld_wr_ne v (Ne.symm hk)
  step d v := d.fld_setFld_ne _ _ v (by decide) (by decide)
  subsys d v := d.fld_setFld_ne _ _ v (by decide) (by decide)
  srcH _ _ _ _ := rfl
  time _ _ := rfl
  boot _ _ := rfl

namespace Dev.BootBlind

variable {α : Type} {π : Dev → α} (h : Dev.BootBlind π) (d : Dev)
include h

theorem bootStep (n : Nat) : π (d.bootStep n) = π d := h.step d n

theorem raiseBoth {i : Nat} (hi : i < 96) (hne : i ≠ Sn.SEC_ERASED) : π (d.raiseBoth .h i) = π d :=
  h.raiseBothH (fun d s => h.srcH d i s hne) hi d

theorem hold {i : Nat} (hi : i < 96) (hne : i ≠ Sn.SEC_ERASED) : π (d.hold i) = π d := Dev.ite_kept rfl (h.raiseBoth d hi hne)

theorem bumpBy (c s : Fld) (n : Nat) (hc : c.off ≠ Reg.SYS_BOOT) (hs : s.off ≠ Reg.SYS_BOOT) : π (d.bumpBy c s n) = π d := by
  unfold Dev.bumpBy; dsimp only
  split_ifs
  · rfl
  · exact (h.wrAny _ _ _ hs).trans (h.wrAny d _ _ hc)
  · exact h.wrAny d _ _ hc

theorem bootP2 (s : State) : π s.bootP2.dev = π s.dev := by
  have hset (e : Dev) (F : Fld) (v : Nat) (hF : F.off ≠ Reg.SYS_BOOT) : π (e.setFld F v) = π e := h.wrAny e _ _ hF
  refine (hset _ Fld.SYS_PROFILE_SUPPORTED _ (by decide)).trans <| (hset _ Fld.SYS_PROFILE_REF_SEEN _ (by decide)).trans <|
    (hset _ Fld.SYS_PROFILE_ACTIVE _ (by decide)).trans <| (h.subsys _ _).trans ?_
  exact (h.wrAny _ (cfgKey true 0x2C) _ (by decide)).trans ((h.wrAny _ (cfgKey false 0x2C) _ (by decide)).trans (h.bootStep _ 2))

end Dev.BootBlind

/-! ## Tamper detection at a boot -/

/-- A part that neither the log of a detector, its policy nor the keys reach. -/
theorem Dev.SecBlind.tamperUnder {α : Type} {π : Dev → α} (hπ : Dev.SecBlind π) (hlog : ∀ (d : Dev) (v : Word), π (d.wr Reg.SEC_TAMPER_STATUS v) = π d)
    (hsec : ∀ (d : Dev) (c : Sec), π { d with h.sec := c } = π d)
    (hend : ∀ d : Dev, π { d with h.mir := { d.h.mir with session := none, hello := none } } = π d) (hdue : ∀ d : Dev, π d.restartDue = π d)
    (d : Dev) (pol : Nat → Nat) (h f : Nat) : π (d.tamperUnder pol h f) = π d := by
  obtain ⟨codes, hcodes⟩ : ∃ codes, codes = (List.range 6).filter (fun k => bitOf h k || bitOf f k) := ⟨_, rfl⟩
  by_cases hne : codes = []
  · rw [hne] at hcodes
    unfold Dev.tamperUnder; dsimp only
    rw [← hcodes]
  · have hlt : ∀ j ∈ codes, j < 6 := fun j hj => List.mem_range.mp (List.mem_of_mem_filter (hcodes ▸ hj))
    have hlogged : π (d.tamperLogged codes) = π d := (hlog _ _).trans (Dev.ite_kept (hlog d _) rfl)
    have hacts (e : Dev) (worst : Nat) : π (e.tamperActs worst) = π e := by
      have hlock : π (if 1 ≤ worst then e.secLock else e) = π e := Dev.ite_kept ((hπ.secLock e).trans (hsec e _)) rfl
      exact Dev.ite_kept (((hπ.erase _ hend hdue).trans (hsec _ _)).trans hlock) hlock
    rw [d.tamperUnder_eq pol hcodes hne]
    exact (hπ.v3 _).trans ((hacts _ _).trans ((hπ.tamperRaised d h f hlt).trans hlogged))

theorem Dev.held_tamperUnder (d : Dev) (pol : Nat → Nat) (h f : Nat) : (d.tamperUnder pol h f).held = d.held := by
  have hsec : Dev.SecBlind Dev.held := {
    toBlind := Dev.blind_held
    wrAny := fun d k v _ => d.held_wr k v
    srcAny := fun d x _ _ => by cases x <;> rfl
    pins := fun d => (congrArg Dev.held d.unpinned_pins :)
    jobs := fun _ _ _ => rfl
    mirRx := fun _ => rfl
    wd := Dev.setWd_kept (fun _ _ => rfl) (fun _ _ => rfl) fun _ _ => rfl
    tm := fun _ _ _ => rfl
    halted := fun _ _ => rfl }
  exact hsec.tamperUnder (fun d v => d.held_wr _ v) (fun _ _ => rfl) (fun _ => rfl) (fun _ => rfl) d pol h f

theorem Dev.cause_tamperUnder (d : Dev) (pol : Nat → Nat) (h f : Nat) :
    (d.tamperUnder pol h f).fld Fld.SYS_BOOT_CAUSE = d.fld Fld.SYS_BOOT_CAUSE := by
  have hsec : Dev.SecBlind (fun d => d.fld Fld.SYS_BOOT_CAUSE) := {
    toBlind := Dev.blind_fld (by decide)
    wrAny := fun d k v hk => d.fld_wr_ne v (Ne.symm hk.2)
    srcAny := fun d x _ _ => by cases x <;> rfl
    pins := fun d => Dev.fld_of_rd (d.rd_pins (by decide) (by decide))
    jobs := fun _ _ _ => rfl
    mirRx := fun _ => rfl
    wd := Dev.setWd_kept (π := fun d => d.fld Fld.SYS_BOOT_CAUSE) (fun _ _ => rfl) (fun _ _ => rfl) fun _ _ => rfl
    tm := fun _ _ _ => rfl
    halted := fun _ _ => rfl }
  exact hsec.tamperUnder (fun d v => d.fld_wr_ne v (by decide)) (fun _ _ => rfl) (fun _ => rfl) (fun _ => rfl) d pol h f

/-! ## A flash without records -/

section
variable {s : State} (hrecs : s.nv.recs = [])
include hrecs

theorem State.current_of_empty (a : Area) : s.current a = none := by
  unfold State.current NonVol.current
  rw [hrecs]
  rfl

theorem NonVol.spoil_of_empty (bad : List (Nat × Nat)) : s.nv.spoil bad = s.nv := by
  unfold NonVol.spoil
  rw [hrecs, List.map_nil, ← hrecs]

/-- No key loads. -/
theorem State.keyLoad_of_empty : s.keyLoad =
    s.mapDev (fun d =>
      let d1 := { d with h.sec := { d.h.sec with keyed := false, index := none } }
      if !d.h.sec.blocked && s.nv.lifecycle != .retired then d1.raiseBoth .h Sn.SEC_AUTH_FAIL else d1) := by
  have hidx : (if s.dev.h.sec.blocked || s.nv.lifecycle == .retired then none else (s.nv.current s.dev.h.sec .keyIndex).bind (·.index)) =
      (none : Option KeyIndex) := by
    rw [show s.nv.current s.dev.h.sec .keyIndex = none from State.current_of_empty hrecs _]
    exact ite_self _
  unfold State.keyLoad; dsimp only
  rw [hidx]
  rfl

/-- Step P3 finds nothing to copy, to complete or to report but corrected errors. -/
theorem State.bootP3_of_empty (env : BootEnv) (hindex : s.dev.h.sec.index = none) : s.bootP3 env =
    s.mapDev (fun d => if env.ecc = 0 then d.bootStep 3 else
      ((d.bootStep 3).bumpBy Fld.NVS_ECC_CNT_COUNT ⟨Reg.NVS_CNT_SAT, 0, 1⟩ env.ecc).raiseBoth .h Sn.NVS_ECC) := by
  obtain ⟨u, hu⟩ : ∃ u, u = s.mapDev (fun d => if env.ecc = 0 then d.bootStep 3 else
      ((d.bootStep 3).bumpBy Fld.NVS_ECC_CNT_COUNT ⟨Reg.NVS_CNT_SAT, 0, 1⟩ env.ecc).raiseBoth .h Sn.NVS_ECC) := ⟨_, rfl⟩
  have hrecsU : u.nv.recs = [] := by rw [hu]; exact hrecs
  have hindexU : u.dev.h.sec.index = none := by
    have hsec := Dev.bootBlind_sec
    refine (congrArg Sec.index (?_ : u.dev.h.sec = s.dev.h.sec)).trans hindex
    rw [hu]
    refine Dev.ite_kept (π := fun d => d.h.sec) (hsec.bootStep _ 3) ?_
    exact (hsec.raiseBoth _ (by decide) (by decide)).trans ((hsec.bumpBy _ _ _ _ (by decide) (by decide)).trans (hsec.bootStep _ 3))
  have hcopy (a : Area) : u.copyWeak env.weak a = u := by
    unfold State.copyWeak
    rw [State.current_of_empty hrecsU]
  have hrekey : State.rekeyFinish 8 u = u := by
    have hnext : u.nv.rekeyNext u.dev.h.sec u.dev.profile = [] := by
      unfold NonVol.rekeyNext
      rw [hindexU]
    unfold State.rekeyFinish
    rw [hnext]
  have hfound : (s.mapDev (·.bootStep 3)).mapDev (fun d => if env.ecc = 0 then d else
      (d.bumpBy Fld.NVS_ECC_CNT_COUNT ⟨Reg.NVS_CNT_SAT, 0, 1⟩ env.ecc).raiseBoth .h Sn.NVS_ECC) = u := hu.symm
  unfold State.bootP3
  dsimp only
  simp only [show (s.mapDev (·.bootStep 3)).nv.recs = [] from hrecs, List.filter_nil, List.length_nil, List.any_nil, if_true, Bool.false_eq_true, if_false]
  rw [hfound, hrekey]
  simp only [List.foldl_cons, List.foldl_nil, hcopy]
  rw [State.current_of_empty hrecsU, hu]

/-- With no header no slot is chosen. -/
theorem State.bootFrom_of_empty (env : BootEnv) (n : Nat) (first : Bool) :
    State.bootFrom env (n + 1) first s = (s.mapDev (fun d => (d.bootStep 4).setFld (Fld.SYS_ID_WORD 1) 0)).recovery := by
  have hnone (slot : Bool) : (s.mapDev (fun d => (d.bootStep 4).setFld (Fld.SYS_ID_WORD 1) 0)).header slot = none :=
    State.current_of_empty (s := s.mapDev (fun d => (d.bootStep 4).setFld (Fld.SYS_ID_WORD 1) 0)) hrecs _
  have hchoose : (s.mapDev (fun d => (d.bootStep 4).setFld (Fld.SYS_ID_WORD 1) 0)).chooseSlot env = none := by
    unfold State.chooseSlot State.preferred
    rw [hnone, hnone]
  unfold State.bootFrom; dsimp only
  rw [hchoose]

end

/-! ## The boot -/

/-- What a boot without keys comes to: it stands in BOOT with its cause, and SEC_ERASED holds. -/
structure Dev.Unkeyed (d : Dev) (cause : Nat) : Prop where
  held : d.held = some .boot
  cause : d.fld Fld.SYS_BOOT_CAUSE = cause
  keyed : d.h.sec.keyed = false
  index : d.h.sec.index = none
  erased : (d.src .h Sn.SEC_ERASED).active = true

/-- A step that no such part sees keeps it. -/
theorem Dev.Unkeyed.kept {d e : Dev} {cause : Nat} (hd : d.Unkeyed cause)
    (h : ∀ {α : Type} {π : Dev → α}, Dev.BootBlind π → π e = π d) : e.Unkeyed cause where
  held := (h Dev.bootBlind_held).trans hd.held
  cause := (h Dev.bootBlind_cause).trans hd.cause
  keyed := (congrArg Sec.keyed (h Dev.bootBlind_sec)).trans hd.keyed
  index := (congrArg Sec.index (h Dev.bootBlind_sec)).trans hd.index
  erased := (congrArg Src.active (h Dev.bootBlind_erased)).trans hd.erased

/-- A condition held is active, where its source lasts. -/
theorem Dev.active_hold (d : Dev) {i : Nat} (hi : i < 96) (hlast : (srcRow i).lasting = true) : ((d.hold i).src .h i).active = true := by
  unfold Dev.hold
  split
  case isTrue h => exact h
  case isFalse => exact (d.active_raise .h true true hi (.inl rfl)).trans hlast

/-- The end of step P1: SEC_LOCKED holds where the device is locked. -/
def Dev.lockNoted (d e : Dev) : Dev :=
  { (if d.h.sec.locked then e.hold Sn.SEC_LOCKED else e) with h.boot.p1 := true, h.boot.restart := false }

theorem State.bootP1_of_empty {s : State} (env : BootEnv) {cause : Nat} (hrecs : s.nv.recs = []) (hp1 : s.dev.h.boot.p1 = false)
    (hheld : s.dev.held = some .boot) (hcause : s.dev.fld Fld.SYS_BOOT_CAUSE = cause) :
    (s.bootP1 env).dev.Unkeyed cause ∧ (s.bootP1 env).nv = s.nv ∧ (s.bootP1 env).pending = s.pending := by
  obtain ⟨t, ht⟩ : ∃ t, t = (s.mapDev (·.bootStep 1)).mapDev (fun d => d.tamperUnder defaultPol (env.tamper % 16) 0) := ⟨_, rfl⟩
  have hrecsT : t.nv.recs = [] := by rw [ht]; exact hrecs
  have hheldT : t.dev.held = some .boot := by
    rw [ht]
    exact (Dev.held_tamperUnder _ _ _ _).trans ((Dev.bootBlind_held.bootStep _ 1).trans hheld)
  have hcauseT : t.dev.fld Fld.SYS_BOOT_CAUSE = cause := by
    rw [ht]
    exact (Dev.cause_tamperUnder _ _ _ _).trans ((Dev.bootBlind_cause.bootStep _ 1).trans hcause)
  obtain ⟨d1, hd1⟩ : ∃ d1 : Dev, d1 = { t.dev with h.sec := { t.dev.h.sec with keyed := false, index := none } } := ⟨_, rfl⟩
  obtain ⟨d2, hd2⟩ : ∃ d2, d2 = if !t.dev.h.sec.blocked && t.nv.lifecycle != .retired then d1.raiseBoth .h Sn.SEC_AUTH_FAIL else d1 := ⟨_, rfl⟩
  have hload : t.keyLoad = { t with dev := d2 } := by
    rw [State.keyLoad_of_empty hrecsT, hd2, hd1]
    rfl
  have hfail {α : Type} {π : Dev → α} (h : Dev.BootBlind π) : π d2 = π d1 := by
    rw [hd2]
    exact Dev.ite_kept (h.raiseBoth _ (by decide) (by decide)) rfl
  have hsec2 : d2.h.sec = { t.dev.h.sec with keyed := false, index := none } := by
    rw [hfail Dev.bootBlind_sec, hd1]
  obtain ⟨d3, hd3⟩ : ∃ d3, d3 = d2.hold Sn.SEC_ERASED := ⟨_, rfl⟩
  have hhold {α : Type} {π : Dev → α} (h : Dev.Blind π) (hsrc : ∀ (d : Dev) (s : Src), π (d.setSrc .h Sn.SEC_ERASED s) = π d) : π d3 = π d2 := by
    rw [hd3]
    exact Dev.ite_kept rfl (h.raiseBothH hsrc (by decide) _)
  have hsec3 : d3.h.sec = d2.h.sec := hhold (π := fun d => d.h.sec) (.of_core fun _ => rfl) fun _ _ => rfl
  have hunkey : (if d2.h.sec.keyed then d2 else d2.hold Sn.SEC_ERASED) = d3 := by
    rw [show d2.h.sec.keyed = false by rw [hsec2], hd3]
    exact if_neg Bool.false_ne_true
  have hdev : s.bootP1 env = { t with dev := d2.lockNoted d3 } := by
    unfold State.bootP1; dsimp only
    rw [if_neg (show ¬ (s.mapDev (·.bootStep 1)).dev.h.boot.p1 = true by
      rw [show (s.mapDev (·.bootStep 1)).dev.h.boot = s.dev.h.boot by simp [State.mapDev, Dev.bootStep], hp1]
      exact Bool.false_ne_true), ← ht, hload]
    show ({ t with dev := d2.lockNoted (if d2.h.sec.keyed then d2 else d2.hold Sn.SEC_ERASED) } : State) = _
    rw [hunkey]
  have hunkeyed : d3.Unkeyed cause := {
    held := (hhold Dev.blind_held fun _ _ => rfl).trans ((hfail Dev.bootBlind_held).trans (by rw [hd1]; exact hheldT))
    cause := (hhold (π := fun d => d.fld Fld.SYS_BOOT_CAUSE) (Dev.blind_fld (by decide)) fun _ _ => rfl).trans
      ((hfail Dev.bootBlind_cause).trans (by rw [hd1]; exact hcauseT))
    keyed := by rw [hsec3, hsec2]
    index := by rw [hsec3, hsec2]
    erased := by rw [hd3]; exact d2.active_hold (by decide) (by decide) }
  rw [hdev]
  refine ⟨hunkeyed.kept fun h => (h.boot _ _).trans (Dev.ite_kept (h.hold _ (by decide) (by decide)) rfl), ?_, ?_⟩
  · rw [ht]; rfl
  · rw [ht]; rfl

/-- The device at the start of a boot. -/
def Dev.bootBegun (d : Dev) (env : BootEnv) : Dev := { d with
  h.dev := .boot, h.boot := { d.h.boot with began := some (max d.now env.start), env := none, cut := none }
  f.wdF := if d.f.wdF.en then { d.f.wdF.inReset with paused := false } else d.f.wdF }

/-- A boot that meets no cut operation, up to its step P1. -/
theorem State.boot_of_empty {s : State} (cause : Nat) (env : BootEnv) (hrecs : s.nv.recs = []) (hcut : s.dev.h.boot.cut = none) :
    s.boot cause env = State.bootFrom env 8 true ((((({ s with dev :=
      (((((s.dev.bootBegun env).condEnd .h Sn.FW_SETTINGS_HOLD).setFld Fld.SYS_BOOT_CAUSE cause).setFld Fld.SYS_LOCK_STATUS_F_STALE 1).newNonce) }
      : State).bootP1 env).bootP2).bootP3 env).mapDev (·.at env.start)) := by
  unfold State.boot; dsimp only
  rw [hcut]
  dsimp only
  rw [NonVol.spoil_of_empty hrecs]
  rfl

theorem Dev.bootBlind_newNonce {α : Type} {π : Dev → α} (h : Dev.BootBlind π) (hdraw : ∀ (d : Dev) (n : Nat), π { d with freeCtr := n } = π d) (d : Dev) :
    π d.newNonce = π d := (h.wrAny _ _ _ (by decide)).trans ((h.wrAny _ _ _ (by decide)).trans (hdraw d _))

/-- Settles O55: no step of a boot on an empty flash writes it, no keys load, and with no slot the boot ends in recovery. -/
theorem emptyFlashBootsIntoRecovery : Obligations.EmptyFlashBootsIntoRecovery := by
  unfold Obligations.EmptyFlashBootsIntoRecovery
  intro s cause env hrecs hcut hlt hp1
  obtain ⟨d1, hd1⟩ : ∃ d1, d1 = (((((s.dev.bootBegun env).condEnd .h Sn.FW_SETTINGS_HOLD).setFld Fld.SYS_BOOT_CAUSE cause).setFld
    Fld.SYS_LOCK_STATUS_F_STALE 1).newNonce) := ⟨_, rfl⟩
  have hheld1 : d1.held = some .boot := by
    have h := Dev.bootBlind_held
    rw [hd1, Dev.bootBlind_newNonce h (fun _ _ => rfl)]
    exact (Dev.held_wr _ _ _).trans ((Dev.held_wr _ _ _).trans ((h.condEnd (fun _ _ => rfl) _).trans rfl))
  have hcause1 : d1.fld Fld.SYS_BOOT_CAUSE = cause := by
    have h := Dev.bootBlind_cause
    rw [hd1, Dev.bootBlind_newNonce h (fun _ _ => rfl), Dev.fld_setFld_off _ _ _ _ (by decide)]
    exact (Dev.fld_setFld_same _ Fld.SYS_BOOT_CAUSE _ (by decide)).trans (Nat.mod_eq_of_lt hlt)
  have hp1' : d1.h.boot.p1 = false := by
    have hblind : Dev.Blind (fun d => d.h.boot.p1) := .of_core fun _ => rfl
    have hend : ((s.dev.bootBegun env).condEnd .h Sn.FW_SETTINGS_HOLD).h.boot.p1 = false := (hblind.condEnd (fun _ _ => rfl) _).trans hp1
    rw [hd1]
    simpa [Dev.newNonce, Dev.draw] using hend
  obtain ⟨hun, hnv, hpend⟩ := State.bootP1_of_empty (s := { s with dev := d1 }) env hrecs hp1' hheld1 hcause1
  obtain ⟨u, hu⟩ : ∃ u, u = ({ s with dev := d1 } : State).bootP1 env := ⟨_, rfl⟩
  rw [← hu] at hun hnv hpend
  have hrecs2 : u.bootP2.nv.recs = [] := (congrArg NonVol.recs hnv).trans hrecs
  have hun2 : u.bootP2.dev.Unkeyed cause := hun.kept fun h => h.bootP2 u
  obtain ⟨d3, hd3⟩ : ∃ d3, d3 = (if env.ecc = 0 then u.bootP2.dev.bootStep 3 else
    ((u.bootP2.dev.bootStep 3).bumpBy Fld.NVS_ECC_CNT_COUNT ⟨Reg.NVS_CNT_SAT, 0, 1⟩ env.ecc).raiseBoth .h Sn.NVS_ECC) := ⟨_, rfl⟩
  have hun3 : (d3.at env.start).Unkeyed cause := by
    refine hun2.kept fun h => (h.time _ _).trans ?_
    rw [hd3]
    exact Dev.ite_kept (h.bootStep _ 3)
      ((h.raiseBoth _ (by decide) (by decide)).trans ((h.bumpBy _ _ _ _ (by decide) (by decide)).trans (h.bootStep _ 3)))
  obtain ⟨e, he⟩ : ∃ e, e = ((d3.at env.start).bootStep 4).setFld (Fld.SYS_ID_WORD 1) 0 := ⟨_, rfl⟩
  obtain ⟨v, hv⟩ : ∃ v, v = ({ u.bootP2 with dev := d3.at env.start } : State) := ⟨_, rfl⟩
  have hrecsV : v.nv.recs = [] := by rw [hv]; exact hrecs2
  have hboot : s.boot cause env = { u with dev :=
      ({ e.setFld Fld.FW_STATUS_RECOVERY 1 with h.boot := { e.h.boot with began := none, env := none } } : Dev).v3 } := by
    have hthird : (u.bootP2.bootP3 env).mapDev (·.at env.start) = v := by
      rw [State.bootP3_of_empty hrecs2 env hun2.index, hv, hd3]
      rfl
    rw [State.boot_of_empty cause env hrecs hcut, ← hd1, ← hu, hthird, State.bootFrom_of_empty hrecsV, hv, he]
    rfl
  have hunE : (s.boot cause env).dev.Unkeyed cause := by
    refine hun3.kept fun h => ?_
    rw [hboot]
    refine (h.v3 _).trans ((h.boot _ _).trans ((h.wrAny _ _ _ (by decide)).trans ?_))
    rw [he]
    exact (h.wrAny _ _ _ (by decide)).trans (h.bootStep _ 4)
  have hrec : (s.boot cause env).dev.flag Fld.FW_STATUS_RECOVERY = true := by
    have hread : Dev.Blind (fun d => d.rd Reg.FW_STATUS) := Dev.blind_rd (by decide)
    rw [hboot]
    exact Dev.flag_of_one ((Dev.fld_of_rd (F := Fld.FW_STATUS_RECOVERY) (hread.v3 _)).trans
      (Dev.fld_setFld_same e Fld.FW_STATUS_RECOVERY 1 (by decide)))
  have hstep : (s.boot cause env).dev.fld Fld.SYS_BOOT_STEP = 4 := by
    have hread : Dev.Blind (fun d => d.rd Reg.SYS_BOOT) := Dev.blind_rd (by decide)
    rw [hboot]
    refine (Dev.fld_of_rd (F := Fld.SYS_BOOT_STEP) (hread.v3 _)).trans ?_
    refine (Dev.fld_setFld_off e _ _ _ (by decide)).trans ?_
    rw [he, Dev.fld_setFld_off _ _ _ _ (by decide)]
    exact Dev.fld_setFld_same _ Fld.SYS_BOOT_STEP 4 (by decide)
  have hdev := Dev.dev_of_held hunE.held
  refine ⟨hdev, hrec, ?_, hunE.cause, hstep, hunE.keyed, hunE.erased, ?_, ?_⟩
  · unfold Dev.stagingOpen
    rw [hdev]
    exact hrec
  · rw [hboot]
    exact hnv
  · rw [hboot]
    exact hpend

end Sys2Proof.Machine
end

section
/-!
PROOF. The reapplication after an F-side reset (R377).
-/

namespace Sys2Proof.Machine

/-! ## What training leaves -/

/-- The keys, the F-side's reset and the time: no part of a link. -/
def Dev.offLink (d : Dev) : Sec × Bool × Nat := (d.h.sec, d.h.fReset, d.now)

theorem Dev.blind_offLink : Dev.Blind Dev.offLink := .of_core fun _ => rfl

theorem Dev.offLink_wr (d : Dev) (k : Nat) (v : Word) : (d.wr k v).offLink = d.offLink := by simp [Dev.offLink]

theorem Dev.upBlind_offLink : Dev.UpBlind Dev.offLink :=
  Dev.blind_offLink.up (fun _ _ _ => rfl) (fun _ _ _ _ _ => rfl) (Dev.setWd_kept (fun _ _ => rfl) (fun _ _ => rfl) fun _ _ => rfl)
    (fun _ _ => rfl) (fun d v => d.offLink_wr _ v) fun _ _ _ => rfl

theorem Dev.offLink_linkDown (d : Dev) : d.linkDown.offLink = d.offLink :=
  (Dev.blind_offLink.linkDown (fun _ _ => rfl) (fun d v => d.offLink_wr _ v) d).trans rfl

theorem Dev.offLink_trained (d : Dev) (fwd ret : Nat) : (d.trained fwd ret).offLink = d.offLink := by
  refine Dev.ite_kept ?_ d.offLink_linkDown
  refine (Dev.upBlind_offLink.linkUp_of_raise d _ _ fun e _ => Dev.blind_offLink.raiseBothH (fun _ _ => rfl) (by decide) e).trans ?_
  exact (Dev.offLink_wr _ _ _).trans ((Dev.upBlind_offLink.exchanged d _ _).trans rfl)

/-! ## Step B7 of the reapplication, and step B8 -/

/-- Without settings step B7 gives the channels their defaults. -/
theorem State.bootB7_of_unset {s : State} (env : BootEnv) (hset : s.current .settings = none) :
    s.bootB7 true env = s.mapDev (·.chDefaults) := by
  have hsec : s.dev.chDefaults.h.sec = s.dev.h.sec := by
    have h : Dev.Blind (fun d => d.h.sec) := .of_core fun _ => rfl
    have hlock (e : Dev) (m : Word) : (e.lockCopy m).h.sec = e.h.sec := by simp [Dev.lockCopy]
    exact (hlock _ _).trans ((h.condEnd (x := .f) (i := Sn.CH_OVERLOAD) (fun _ _ => rfl) _).trans
      (h.condEnd (x := .f) (i := Sn.CHK_PIN) (fun _ _ => rfl) _))
  have hentries : (s.mapDev (·.chDefaults)).entries = [] := by
    have hcur : (s.mapDev (·.chDefaults)).current .settings = none := (congrArg (s.nv.current · .settings) hsec).trans hset
    unfold State.entries
    rw [hcur]
  unfold State.bootB7; dsimp only
  simp only [Bool.not_true, Bool.and_false, Bool.false_eq_true, if_false, if_true]
  rw [hentries, List.foldl_nil, ite_self]

/-- The F-side's reset is over. -/
def Dev.resetOver (d : Dev) : Dev := { d with h.fReset := false, f.ranOnce := d.f.ranOnce || d.h.dev == DevState.standby }.idleReset

/-- The end of the reapplication: the channels are enabled and held, and the watchdogs' settings stand. -/
def Dev.reapplied (d : Dev) (comp : W48) : Dev := (((d.holdAll.enableChannels d.f.ch.standby comp).wdHeld).wdStart 2).resetOver

/-- A part that watchdogs and the end of the reset do not reach. -/
theorem Dev.reapplied_kept {α : Type} {π : Dev → α} (hwd : ∀ (d : Dev) (k : Nat) (w : Wd), π (d.setWd k w) = π d)
    (hover : ∀ d : Dev, π d.resetOver = π d) (d : Dev) (comp : W48) :
    π (d.reapplied comp) = π (d.holdAll.enableChannels d.f.ch.standby comp) := by
  have hheld (e : Dev) : π e.wdHeld = π e := Dev.StreamBlind.foldl (π := π) _ (fun e k => Dev.ite_kept (hwd e k _) rfl) _ e
  have hstart (e : Dev) : π (e.wdStart 2) = π e := Dev.ite_kept (hwd e 2 _) rfl
  exact (hover _).trans ((hstart _).trans (hheld _))

/-- Whether the channels are enabled, and wait for each function. -/
def Dev.chWaits (d : Dev) : Bool × Bool × Bool := (d.f.ch.enabled, d.f.ch.waitA, d.f.ch.waitB)

theorem Dev.chWaits_pins (d : Dev) : d.pins.chWaits = d.chWaits := (congrArg Dev.chWaits d.unpinned_pins :)

theorem Dev.chWaits_enableChannels (d : Dev) (standby : Bool) (comp : W48) :
    (d.enableChannels standby comp).chWaits = (true, d.f.ch.waitA, d.f.ch.waitB) := by
  unfold Dev.enableChannels; dsimp only
  generalize (List.range 48).foldl _ d.f.ch.cfg = cfg
  rw [Dev.chWaits_pins]
  rfl

theorem Dev.waits_holdAll (d : Dev) : d.holdAll.f.ch.waitA = true ∧ d.holdAll.f.ch.waitB = true := by
  have hA (e : Dev) : e.pins.f.ch.waitA = e.f.ch.waitA := (congrArg (fun d : Dev => d.f.ch.waitA) e.unpinned_pins :)
  have hB (e : Dev) : e.pins.f.ch.waitB = e.f.ch.waitB := (congrArg (fun d : Dev => d.f.ch.waitB) e.unpinned_pins :)
  have hother (e : Dev) : (e.waiting true).f.ch.waitA = e.f.ch.waitA := rfl
  have hset (e : Dev) : (e.waiting false).f.ch.waitA = true ∧ (e.waiting true).f.ch.waitB = true := ⟨rfl, rfl⟩
  unfold Dev.holdAll
  rw [Dev.holdFn_eq _ true, hA, hB, hother, Dev.holdFn_eq, hA]
  exact ⟨(hset _).1, (hset _).2⟩

/-- The channels after step B8 are enabled and wait for both functions. -/
theorem Dev.chWaits_reapplied (d : Dev) (comp : W48) : (d.reapplied comp).chWaits = (true, true, true) := by
  have hwd : ∀ (d : Dev) (k : Nat) (w : Wd), (d.setWd k w).chWaits = d.chWaits :=
    Dev.setWd_kept (fun _ _ => rfl) (fun _ _ => rfl) fun _ _ => rfl
  have hover (e : Dev) : e.resetOver.chWaits = e.chWaits := rfl
  obtain ⟨hA, hB⟩ := d.waits_holdAll
  have h := d.holdAll.chWaits_enableChannels d.f.ch.standby comp
  rw [hA, hB] at h
  exact (Dev.reapplied_kept hwd hover d comp).trans h

/-- The image of the F-side stays over the steps after it has loaded. -/
theorem Dev.image_reapplied (d : Dev) (comp : W48) : (d.chDefaults.reapplied comp).f.image = d.f.image := by
  have hpins (e : Dev) : e.pins.f.image = e.f.image := (congrArg (fun d : Dev => d.f.image) e.unpinned_pins :)
  have hblind : Dev.Blind (fun d => d.f.image) := .of_core fun _ => rfl
  have hlock (e : Dev) (m : Word) : (e.lockCopy m).f.image = e.f.image := by simp [Dev.lockCopy]
  have hdefaults : d.chDefaults.f.image = d.f.image := (hlock _ _).trans ((hblind.condEnd (x := .f) (i := Sn.CH_OVERLOAD) (fun _ _ => rfl) _).trans
    (hblind.condEnd (x := .f) (i := Sn.CHK_PIN) (fun _ _ => rfl) _))
  have hch (e : Dev) (standby : Bool) : (e.enableChannels standby comp).f.image = e.f.image := by
    unfold Dev.enableChannels; dsimp only
    generalize (List.range 48).foldl _ e.f.ch.cfg = cfg
    rw [hpins]
    rfl
  have hfn (e : Dev) (fn : Func) : (e.holdFn fn).f.image = e.f.image :=
    Dev.holdFn_kept (π := fun d => d.f.image) hpins (fun _ fn => by cases fn <;> rfl) e fn
  have hhold (e : Dev) : e.holdAll.f.image = e.f.image := (hfn _ true).trans (hfn e false)
  rw [Dev.reapplied_kept (π := fun d => d.f.image) (Dev.setWd_kept (π := fun d => d.f.image) (fun _ _ => rfl) (fun _ _ => rfl) fun _ _ => rfl)
    (fun _ => rfl), hch, hhold, hdefaults]

/-! ## The statement -/

/-- The reapplication on a link that has trained. -/
theorem execFSideResetReapply_of_up {s : State} {env : BootEnv} {t : Nat} (hreset : s.dev.h.fReset = true) (hrel : s.dev.f.released = true)
    (hoff : s.dev.h.dev ≠ .off) (hboot : s.dev.h.dev ≠ .boot) (hup : ((s.dev.at t).trained env.fwd env.ret).h.link.up = true) :
    exec (.fSideResetReapply env t) s =
      if !env.load then .next { s with dev := (((s.dev.at t).trained env.fwd env.ret).raiseBoth .h Sn.FW_F_LOAD).linkDown }
      else .next ((({ s with dev := ({ (s.dev.at t).trained env.fwd env.ret with f.image := some (mfFHash (s.mapDev (·.at t)).manifest) } : Dev).adoptOwners }
        : State).bootB7 true env).mapDev (·.reapplied env.comp)) := by
  refine (if_neg ?_).trans ((if_neg ?_).trans rfl)
  · simp [State.mapDev, hreset, hrel, hoff, hboot]
  · rw [show ((s.mapDev (·.at t)).dev.trained env.fwd env.ret).h.link.up = true from hup]
    exact Bool.false_ne_true

/-- Settles O56: an image that loads is followed by the channels enabled and held, and one that does not by the link down. -/
theorem fSideReapplies : Obligations.FSideReapplies := by
  unfold Obligations.FSideReapplies
  intro s env t hreset hrel hoff hboot hup
  have hexec := execFSideResetReapply_of_up hreset hrel hoff hboot hup
  obtain ⟨d1, hd1⟩ : ∃ d1, d1 = (s.dev.at t).trained env.fwd env.ret := ⟨_, rfl⟩
  have hkept : d1.offLink = (s.dev.h.sec, s.dev.h.fReset, max s.dev.now t) := by
    rw [hd1]
    exact Dev.offLink_trained _ _ _
  obtain ⟨hsec, hrest⟩ := Prod.mk.inj hkept
  obtain ⟨hfReset, hnow⟩ := Prod.mk.inj hrest
  rw [← hd1] at hexec
  refine ⟨fun hload => ?_, fun hload => ?_⟩
  · rw [hload] at hexec
    obtain ⟨s3, hs3⟩ : ∃ s3 : State, s3 = { s with dev :=
      ({ d1 with f.image := some (mfFHash (s.mapDev (·.at t)).manifest) } : Dev).adoptOwners } := ⟨_, rfl⟩
    rw [← hs3] at hexec
    obtain ⟨v, hv, hpend, -⟩ := fusesChangeOneWay (.fSideResetReapply env t) s
    have hu : (s3.bootB7 true env).mapDev (·.reapplied env.comp) = v := Host.Outcome.next.inj (hexec.symm.trans hv)
    obtain ⟨hon, hwaits⟩ := Prod.mk.inj ((s3.bootB7 true env).dev.chWaits_reapplied env.comp)
    obtain ⟨hA, hB⟩ := Prod.mk.inj hwaits
    refine ⟨_, hexec, hon, hA, hB, fun hset => ?_, hu ▸ hpend⟩
    have hset3 : s3.current .settings = none := by
      rw [hs3]
      exact (congrArg (s.nv.current · .settings) hsec).trans hset
    rw [State.bootB7_of_unset env hset3]
    refine ⟨rfl, (Dev.image_reapplied _ _).trans ?_, ?_⟩
    · rw [hs3]
      rfl
    · rw [hs3]
      rfl
  · rw [hload] at hexec
    have hlink : Dev.Blind (fun d => d.h.link.up) := .of_core fun _ => rfl
    have hload' : (d1.raiseBoth .h Sn.FW_F_LOAD).linkDown.offLink = d1.offLink :=
      (Dev.offLink_linkDown _).trans (Dev.blind_offLink.raiseBothH (fun _ _ => rfl) (by decide) _)
    refine ⟨_, hexec, (Dev.linkDown_spec _).1, ?_, ?_, rfl, rfl⟩
    · exact (congrArg (fun p => p.2.1) hload').trans (hfReset.trans hreset)
    · refine (congrArg Src.last ((Dev.blind_src .h _).linkDown (fun d s => d.src_setSrc_ne .h s (by decide)) (fun d v => by simp [Dev.src]) _)).trans ?_
      exact (Dev.last_raise d1 .h true true (by decide)).trans hnow

end Sys2Proof.Machine
end

section
/-!
PROOF. Controller transfers of the two-wire port (R209 to R215).
-/

namespace Sys2Proof.Machine

/-! ## Data received for an operation -/

section
variable (tag : Nat) (l : List W48)

theorem Dev.fop_receives_same : ∀ (l : List W48) {d : Dev} {o : FOp}, d.fop tag = some o →
    (l.foldl (fun d w => d.receive tag w) d).fop tag = some { o with got := o.got ++ l.map (fun w => Container.make w o.fn o.ring o.desc.dest) }
  | [], _, o, h => by simpa using h
  | w :: l, d, o, h => by
    rw [List.foldl_cons, Dev.fop_receives_same l (Dev.fop_receive_same h w), List.map_cons, List.append_assoc]
    rfl

theorem Dev.fop_receives_ne (d : Dev) {g : Nat} (hg : g ≠ tag) : (l.foldl (fun d w => d.receive tag w) d).fop g = d.fop g :=
  Dev.StreamBlind.foldl (π := fun d => d.fop g) _ (fun d w => d.fop_receive_ne w hg) _ d

theorem Dev.noOps_receives (d : Dev) : (l.foldl (fun d w => d.receive tag w) d).noOps = d.noOps :=
  Dev.StreamBlind.foldl (π := Dev.noOps) _ (fun d w => d.noOps_receive tag w) _ d

end

/-- Data received and an end change the context of their operation and what is sent alone. -/
structure Dev.EndsOnly (d e : Dev) (tag : Nat) : Prop where
  noOps : e.noOps = d.noOps
  others : ∀ g, g ≠ tag → e.fop g = d.fop g

namespace Dev.EndsOnly

variable {d e : Dev} {tag : Nat} (h : d.EndsOnly e tag)
include h

theorem rd (k : Nat) : e.rd k = d.rd k := (congrArg (fun d : Dev => d.rd k) h.noOps :)
theorem hOps : e.h.ops = d.h.ops := (congrArg (fun d : Dev => d.h.ops) h.noOps :)
theorem twp : e.f.twp = d.f.twp := (congrArg (fun d : Dev => d.f.twp) h.noOps :)
theorem car : e.f.car = d.f.car := (congrArg (fun d : Dev => d.f.car) h.noOps :)
theorem now : e.now = d.now := (congrArg (fun d : Dev => d.now) h.noOps :)

end Dev.EndsOnly

/-- An operation that takes data and ends. -/
theorem Dev.receives_endF (d : Dev) {tag : Nat} {o : FOp} (l : List W48) (st : Nat) (r : Quad) (hfop : d.fop tag = some o) (hlive : o.ended = none)
    (hop : (d.op tag).isSome = true) : d.EndsOnly ((l.foldl (fun d w => d.receive tag w) d).endF tag st r) tag ∧
    ((l.foldl (fun d w => d.receive tag w) d).endF tag st r).fop tag =
      some { o with got := o.got ++ l.map (fun w => Container.make w o.fn o.ring o.desc.dest), ended := some (st, r) } := by
  have hno := Dev.noOps_receives tag l d
  have hop' : ((l.foldl (fun d w => d.receive tag w) d).op tag).isSome = true := by
    rw [show (l.foldl (fun d w => d.receive tag w) d).op tag = d.op tag from (congrArg (fun d : Dev => d.op tag) hno :)]
    exact hop
  exact ⟨⟨(Dev.noOps_endF _ _ _ _).trans hno, fun g hg => (Dev.fop_endF_ne _ _ _ hg).trans (Dev.fop_receives_ne tag l d hg)⟩,
    Dev.fop_endF_same st r (Dev.fop_receives_same tag l hfop) hlive hop'⟩

/-- A transfer of the controller completes: it has left the bus, and its operation has taken the bytes read. -/
theorem Dev.twpXferDone_spec {d : Dev} {tag : Nat} {o : FOp} (st : Nat) (rx : List (BitVec 8)) (extra : Nat) (hfop : d.fop tag = some o)
    (hlive : o.ended = none) (hop : (d.op tag).isSome = true) :
    ({ d with f.twp := { d.f.twp with cur := none, onBus := false } } : Dev).EndsOnly (d.twpXferDone tag st rx extra) tag ∧
    (d.twpXferDone tag st rx extra).fop tag = some { o with
      got := o.got ++ (packBytes rx).map (fun w => Container.make w o.fn o.ring o.desc.dest)
      ended := some (st, BitVec.ofNat 64 (rx.length % 256 + extra)) } :=
  Dev.receives_endF ({ d with f.twp := { d.f.twp with cur := none, onBus := false } } : Dev) (packBytes rx) st _ hfop hlive hop

/-! ## The commands on an open port -/

theorem doTwpXfer_of_good {d : Dev} {tag t : Nat} {o : FOp} (hfresh : d.freshOp tag opTWP_XFER = some o) (hbad : d.twpXferBad o.desc = false)
    (hstuck : d.f.twp.stuck = false) (hen : d.flag Fld.TWP_CTRL_EN = true) (hctl : d.flag Fld.TWP_CTRL_CTL_EN = true)
    (hentry : d.h.restEntry = none) (hrest : d.f.ch.rest = none) :
    doTwpXfer tag t d = { (d.at t).setFop tag (some { o with begun := true }) with f.twp.queue := d.f.twp.queue ++ [tag] } := by
  unfold doTwpXfer; dsimp only
  rw [show (d.at t).freshOp tag opTWP_XFER = some o from hfresh]
  refine (if_neg ?_).trans ((if_neg ?_).trans ((if_neg ?_).trans rfl))
  · rw [show ((d.at t).setFop tag (some { o with begun := true })).twpXferBad o.desc = false from hbad]
    exact Bool.false_ne_true
  · rw [show ((d.at t).setFop tag (some { o with begun := true })).f.twp.stuck = false from hstuck]
    exact Bool.false_ne_true
  · rw [show ((d.at t).setFop tag (some { o with begun := true })).flag Fld.TWP_CTRL_EN = true from hen,
      show ((d.at t).setFop tag (some { o with begun := true })).flag Fld.TWP_CTRL_CTL_EN = true from hctl,
      show ((d.at t).setFop tag (some { o with begun := true })).h.restEntry = none from hentry,
      show ((d.at t).setFop tag (some { o with begun := true })).f.ch.rest = none from hrest]
    exact Bool.false_ne_true

theorem doTwpTarget_of_good {d : Dev} {tag t : Nat} {o : FOp} (hfresh : d.freshOp tag opTWP_TARGET = some o) (hwr : o.desc.twpWrLen ≤ 32)
    (hrd : o.desc.twpRdLen = 0 ∨ o.desc.buf ≠ 0) (hstuck : d.f.twp.stuck = false) (hen : d.flag Fld.TWP_CTRL_EN = true)
    (htgt : d.flag Fld.TWP_TGT_CFG_TGT_EN = true) :
    doTwpTarget tag t d = { (d.at t).setFop tag (some { o with begun := true }) with f.twp.tgts := d.f.twp.tgts ++ [tag] } := by
  unfold doTwpTarget; dsimp only
  rw [show (d.at t).freshOp tag opTWP_TARGET = some o from hfresh]
  refine (if_neg ?_).trans ((if_neg ?_).trans ((if_neg ?_).trans rfl))
  · rintro (h | ⟨h, hbuf⟩)
    · omega
    · exact hrd.elim h (absurd hbuf)
  · rw [show ((d.at t).setFop tag (some { o with begun := true })).f.twp.stuck = false from hstuck]
    exact Bool.false_ne_true
  · rw [show ((d.at t).setFop tag (some { o with begun := true })).flag Fld.TWP_CTRL_EN = true from hen,
      show ((d.at t).setFop tag (some { o with begun := true })).flag Fld.TWP_TGT_CFG_TGT_EN = true from htgt]
    exact Bool.false_ne_true

/-- A START on a free bus, of the transfer begun or of the first that waits. -/
theorem doTwpXferStart_of_free {d : Dev} {t : Nat} (hon : d.twpCtlOn = true) (hbus : d.f.twp.onBus = false) (hbusy : d.f.twp.busy = false)
    (hbuf : d.f.twp.lastStop + tBuf (d.fld Fld.TWP_CTRL_MODE) ≤ max d.now t) {tag : Nat} {o : FOp} (hfop : d.fop tag = some o) (n : Nat) (q : List Nat)
    (hnext : (d.f.twp.cur = some (tag, n) ∧ d.f.twp.queue = q) ∨ (d.f.twp.cur = none ∧ d.f.twp.queue = tag :: q ∧ n = 0)) :
    doTwpXferStart t d = ({ d.at t with f.twp := { d.f.twp with
      cur := some (tag, n), queue := q, onBus := true, busy := true, quietFrom := none } } : Dev).emit (.twp (twpShape o.desc)) := by
  have hgo : (match (d.at t).fop tag with
      | some o => ({ d.at t with f.twp := { d.f.twp with
        cur := some (tag, n), queue := q, onBus := true, busy := true, quietFrom := none } } : Dev).emit (.twp (twpShape o.desc))
      | none => ({ d.at t with f.twp := { d.f.twp with
        cur := some (tag, n), queue := q, onBus := true, busy := true, quietFrom := none } } : Dev)) =
      ({ d.at t with f.twp := { d.f.twp with
        cur := some (tag, n), queue := q, onBus := true, busy := true, quietFrom := none } } : Dev).emit (.twp (twpShape o.desc)) := by
    rw [show (d.at t).fop tag = some o from hfop]
  refine (if_neg ?_).trans (Eq.trans ?_ hgo)
  · rw [show (d.at t).twpCtlOn = true from hon, show (d.at t).f.twp.onBus = false from hbus, show (d.at t).f.twp.busy = false from hbusy,
      show (d.at t).f.twp.lastStop = d.f.twp.lastStop from rfl, show (d.at t).now = max d.now t from rfl,
      show (d.at t).fld Fld.TWP_CTRL_MODE = d.fld Fld.TWP_CTRL_MODE from rfl, decide_eq_false (Nat.not_lt.mpr hbuf)]
    exact Bool.false_ne_true
  · rcases hnext with ⟨hcur, hq⟩ | ⟨hcur, hq, rfl⟩
    · rw [show (d.at t).f.twp.cur = some (tag, n) from hcur, show (d.at t).f.twp.queue = q from hq]
      rfl
    · rw [show (d.at t).f.twp.cur = none from hcur, show (d.at t).f.twp.queue = tag :: q from hq]
      rfl

/-- The bus free after a transfer. -/
def Dev.busFreed (d : Dev) : Dev := { d with f.twp := { d.f.twp with busy := false, lastStop := d.now } }

theorem doTwpXferEnd_of_onBus {d : Dev} {tag losses t : Nat} {o : FOp} (hcur : d.f.twp.cur = some (tag, losses)) (hbus : d.f.twp.onBus = true)
    (hfop : d.fop tag = some o) (nackAt : Option Nat) (rx : List (BitVec 8)) : doTwpXferEnd nackAt rx t d =
      match nackAt with
      | some i => (d.at t).busFreed.twpXferDone tag stNACK [] (i % 256 * 2 ^ 16)
      | none => (d.at t).busFreed.twpXferDone tag stOK (rx.take o.desc.twpRdLen) 0 := by
  unfold doTwpXferEnd; dsimp only
  rw [show (d.at t).f.twp.cur = some (tag, losses) from hcur]
  dsimp only
  rw [if_neg (show ¬ (!(d.at t).f.twp.onBus) = true by rw [show (d.at t).f.twp.onBus = true from hbus]; exact Bool.false_ne_true),
    show (d.at t).fop tag = some o from hfop]
  rfl

/-- A loss of arbitration counted and recorded. -/
def Dev.lossCounted (d : Dev) (byte bit at_ : Nat) : Dev :=
  (((d.bump Fld.TWP_ARB_CNT_COUNT ⟨Reg.TWP_CNT_SAT, 0, 1⟩).setFld Fld.TWP_LAST_LOSS_BYTE byte).setFld
    Fld.TWP_LAST_LOSS_BIT (if at_ % 4 = 0 then bit % 8 else 0)).setFld Fld.TWP_LAST_LOSS_LOSS_AT at_

theorem doTwpArbLoss_of_onBus {d : Dev} {tag losses t : Nat} {o : FOp} (hcur : d.f.twp.cur = some (tag, losses)) (hbus : d.f.twp.onBus = true)
    (hfop : d.fop tag = some o) (byte bit at_ : Nat) (rx : List (BitVec 8)) : doTwpArbLoss byte bit at_ rx t d =
      if losses < o.desc.twpRetries then { (d.at t).lossCounted byte bit at_ with
        f.twp := { ((d.at t).lossCounted byte bit at_).f.twp with cur := some (tag, losses + 1), onBus := false } }
      else (((d.at t).lossCounted byte bit at_).twpXferDone tag stARB_LOST (rx.take o.desc.twpRdLen)
        (byte % 256 * 2 ^ 16 + (if at_ % 4 = 0 then bit % 8 else 0) * 2 ^ 24 + at_ % 4 * 2 ^ 27)).raiseOwner Sn.TWP_ARB_LOST Fld.PCI_OWN_PORT_TWP_CTL := by
  unfold doTwpArbLoss; dsimp only
  rw [show (d.at t).f.twp.cur = some (tag, losses) from hcur]
  dsimp only
  rw [if_neg (show ¬ (!(d.at t).f.twp.onBus) = true by rw [show (d.at t).f.twp.onBus = true from hbus]; exact Bool.false_ne_true),
    show (d.at t).fop tag = some o from hfop]
  rfl

/-! ## A report of the port -/

/-- A part that neither reports of the F-side nor its sources reach. -/
theorem Dev.Blind.raiseOwnerF {α : Type} {π : Dev → α} (h : Dev.Blind π) (hpins : ∀ d : Dev, π d.pins = π d)
    (hsrc : ∀ (d : Dev) (i : Nat) (s : Src), π (d.setSrc .f i s) = π d) (d : Dev) (i : Nat) (F : Fld) : π (d.raiseOwner i F) = π d :=
  h.raiseCodeF hpins (hsrc · i ·) d _

theorem Dev.twp_raiseOwner (d : Dev) (i : Nat) (F : Fld) : (d.raiseOwner i F).f.twp = d.f.twp :=
  (Dev.Blind.of_core (π := fun d => d.f.twp) fun _ => rfl).raiseOwnerF (fun d => (congrArg (fun d : Dev => d.f.twp) d.unpinned_pins :)) (fun _ _ _ => rfl) d i F

theorem Dev.car_raiseOwner (d : Dev) (i : Nat) (F : Fld) : (d.raiseOwner i F).f.car = d.f.car :=
  (Dev.Blind.of_core (π := fun d => d.f.car) fun _ => rfl).raiseOwnerF (fun d => (congrArg (fun d : Dev => d.f.car) d.unpinned_pins :)) (fun _ _ _ => rfl) d i F

theorem Dev.fop_raiseOwner (d : Dev) (i : Nat) (F : Fld) (g : Nat) : (d.raiseOwner i F).fop g = d.fop g :=
  (Dev.Blind.of_core (π := fun d => d.fop g) fun _ => rfl).raiseOwnerF (fun d => (congrArg (fun d : Dev => d.fop g) d.unpinned_pins :)) (fun _ _ _ => rfl) d i F

/-- A loss counted: the registers that show it, and that the port, the operations and the Carousel stay. -/
theorem Dev.lossCounted_spec (d : Dev) (byte bit at_ : Nat) :
    (d.lossCounted byte bit at_).fld Fld.TWP_ARB_CNT_COUNT = min (d.fld Fld.TWP_ARB_CNT_COUNT + 1) (2 ^ 32 - 1) ∧
    (d.lossCounted byte bit at_).fld Fld.TWP_LAST_LOSS_BYTE = byte % 256 ∧ (d.lossCounted byte bit at_).f.twp = d.f.twp ∧
    (d.lossCounted byte bit at_).f.car = d.f.car ∧ (d.lossCounted byte bit at_).now = d.now ∧
    (∀ g, (d.lossCounted byte bit at_).fop g = d.fop g) ∧ (∀ g, (d.lossCounted byte bit at_).op g = d.op g) := by
  have hkept {α : Type} {π : Dev → α} (hwr : ∀ (d : Dev) (k : Nat) (v : Word), π (d.wr k v) = π d) : π (d.lossCounted byte bit at_) = π d := by
    have hset (e : Dev) (F : Fld) (v : Nat) : π (e.setFld F v) = π e := hwr e _ _
    exact (hset _ _ _).trans ((hset _ _ _).trans ((hset _ _ _).trans (Dev.bump_of_wr hwr d _ _)))
  refine ⟨?_, ?_, hkept (π := fun d => d.f.twp) fun d k v => by simp, hkept (π := fun d => d.f.car) fun d k v => by simp,
    hkept (π := fun d => d.now) fun d k v => by simp, fun g => hkept (π := fun d => d.fop g) fun d k v => by simp [Dev.fop],
    fun g => hkept (π := fun d => d.op g) fun d k v => by simp [Dev.op]⟩
  · unfold Dev.lossCounted
    rw [Dev.fld_setFld_off _ _ _ _ (by decide), Dev.fld_setFld_off _ _ _ _ (by decide), Dev.fld_setFld_off _ _ _ _ (by decide)]
    exact Dev.fld_bump_same _ (by decide) (by decide) (by decide)
  · unfold Dev.lossCounted
    rw [Dev.fld_setFld_ne _ _ _ _ (by decide) (by decide), Dev.fld_setFld_ne _ _ _ _ (by decide) (by decide)]
    exact Dev.fld_setFld_same _ Fld.TWP_LAST_LOSS_BYTE _ (by decide)

/-! ## The statement -/

/-- Settles O29: an operation that its checks pass joins its queue, a START takes it onto the free bus, and its end or its last loss
completes it. -/
theorem twoWireTransfers : Obligations.TwoWireTransfers := by
  unfold Obligations.TwoWireTransfers
  intro s tag losses byte bit at_ i t q o rx
  refine ⟨fun hstuck hen => ⟨fun hfresh hbad hctl hentry hrest => ?_, fun hfresh hwr hrd htgt => ?_⟩,
    fun hon hbus hbusy hbuf hfop => ⟨fun hcur hq => ?_, fun hcur => ?_⟩, fun hcur hbus hfop hlive hop => ⟨?_, ?_, ?_⟩⟩
  · exact s.onDev_of (doTwpXfer_of_good hfresh hbad hstuck hen hctl hentry hrest)
  · exact s.onDev_of (doTwpTarget_of_good hfresh hwr hrd hstuck hen htgt)
  · exact s.onDev_of (doTwpXferStart_of_free hon hbus hbusy hbuf hfop 0 q (.inr ⟨hcur, hq, rfl⟩))
  · refine s.onDev_of ((doTwpXferStart_of_free hon hbus hbusy hbuf hfop losses s.dev.f.twp.queue (.inl ⟨hcur, rfl⟩)).trans ?_)
    rw [← hcur]
  · obtain ⟨hends, hsame⟩ := (s.dev.at t).busFreed.twpXferDone_spec stOK (rx.take o.desc.twpRdLen) 0 hfop hlive hop
    exact ⟨_, s.onDev_of (doTwpXferEnd_of_onBus hcur hbus hfop none rx), hsame, hends.twp, hends.others, hends.rd, hends.hOps, rfl, rfl⟩
  · obtain ⟨hends, hsame⟩ := (s.dev.at t).busFreed.twpXferDone_spec stNACK [] (i % 256 * 2 ^ 16) hfop hlive hop
    refine ⟨_, s.onDev_of (doTwpXferEnd_of_onBus hcur hbus hfop (some i) rx), hsame.trans ?_, hends.twp, hends.others, hends.rd, hends.hOps, rfl, rfl⟩
    simp [packBytes]
  · have hdo := doTwpArbLoss_of_onBus (t := t) hcur hbus hfop byte bit at_ rx
    obtain ⟨e, he⟩ : ∃ e, e = (s.dev.at t).lossCounted byte bit at_ := ⟨_, rfl⟩
    obtain ⟨hcnt, hbyte, htwp, hcar, hnow, hfops, hops⟩ := (s.dev.at t).lossCounted_spec byte bit at_
    rw [← he] at hdo hcnt hbyte htwp hcar hnow hfops hops
    by_cases hretry : losses < o.desc.twpRetries
    · rw [if_pos hretry] at hdo
      exact ⟨_, s.onDev_of hdo, hcnt, hbyte, fun _ => ⟨by rw [htwp]; rfl, (hfops tag).trans hfop⟩, fun h => absurd hretry (Nat.not_lt.mpr h),
        fun g _ => hfops g, hcar, rfl, rfl⟩
    · rw [if_neg hretry] at hdo
      obtain ⟨hends, hsame⟩ := e.twpXferDone_spec (tag := tag) stARB_LOST (rx.take o.desc.twpRdLen)
        (byte % 256 * 2 ^ 16 + (if at_ % 4 = 0 then bit % 8 else 0) * 2 ^ 24 + at_ % 4 * 2 ^ 27) ((hfops tag).trans hfop) hlive (by rw [hops]; exact hop)
      obtain ⟨x, hx⟩ : ∃ x, x = e.twpXferDone tag stARB_LOST (rx.take o.desc.twpRdLen)
        (byte % 256 * 2 ^ 16 + (if at_ % 4 = 0 then bit % 8 else 0) * 2 ^ 24 + at_ % 4 * 2 ^ 27) := ⟨_, rfl⟩
      rw [← hx] at hdo hends hsame
      have hfld {F : Fld} (hF : reactReg F.off = false) : (x.raiseOwner Sn.TWP_ARB_LOST Fld.PCI_OWN_PORT_TWP_CTL).fld F = e.fld F :=
        Dev.fld_of_rd ((Dev.rd_raiseCodeF _ hF _).trans (hends.rd F.off))
      refine ⟨_, s.onDev_of hdo, (hfld (by decide)).trans hcnt, (hfld (by decide)).trans hbyte, fun h => absurd h hretry, fun _ => ⟨?_, ?_, ?_⟩,
        fun g hg => ?_, ?_, rfl, rfl⟩
      · rw [Dev.twp_raiseOwner, hends.twp]
        exact congrArg (fun w : Twp => { w with cur := none, onBus := false }) htwp
      · rw [Dev.fop_raiseOwner, hsame]
        rfl
      · exact (Dev.last_raiseCode x .f _ (by decide)).trans (hends.now.trans hnow)
      · rw [Dev.fop_raiseOwner]
        exact (hends.others g hg).trans (hfops g)
      · rw [Dev.car_raiseOwner, hends.car]
        exact hcar

end Sys2Proof.Machine
end

section
/-!
PROOF. The two-wire bus, its target and its low timeouts (R209, R214 to R220).
-/

namespace Sys2Proof.Machine

/-! ## What is put out as an operation ends -/

theorem Dev.out_sendBulk (d : Dev) (x : Die) (c : Cell) : ∃ l, (d.sendBulk x c).out = l ++ d.out := by
  obtain ⟨l, hl⟩ := (Dev.drainBulk_apart x 16 (d.setBulk x (if c.isFw then { d.bulk x with waitFw := (d.bulk x).waitFw ++ [c] }
    else { d.bulk x with waitOp := (d.bulk x).waitOp ++ [c] }))).out
  exact ⟨l, hl.trans (by rw [Dev.setBulk_out])⟩

theorem Dev.out_receives (tag : Nat) : ∀ (l : List W48) (d : Dev), ∃ m, (l.foldl (fun d w => d.receive tag w) d).out = m ++ d.out
  | [], _ => ⟨[], rfl⟩
  | w :: l, d => by
    have hone : ∃ m, (d.receive tag w).out = m ++ d.out := by
      unfold Dev.receive
      split
      · exact Dev.out_sendBulk _ _ _
      · exact ⟨[], rfl⟩
    obtain ⟨m, hm⟩ := hone
    obtain ⟨k, hk⟩ := Dev.out_receives tag l (d.receive tag w)
    exact ⟨k ++ m, by rw [List.foldl_cons, hk, hm, List.append_assoc]⟩

theorem Dev.out_endF (d : Dev) (tag st : Nat) (r : Quad) : ∃ m, (d.endF tag st r).out = m ++ d.out := by
  unfold Dev.endF
  split
  · split_ifs
    · exact ⟨[], rfl⟩
    · exact ⟨[], rfl⟩
    · exact Dev.out_sendBulk _ _ _
  · exact ⟨[], rfl⟩

/-! ## The stuck-SDA check -/

/-- The device without the port's state, the F-side's sources and what is sent. -/
def Dev.noTwp (d : Dev) : Dev := { d.unsent with f.twp := Twp.reset, f.sn := [] }

/-- A check that finds SDA high passes: it clears STUCK after the owner's enable, and the bus counts as busy until it has been quiet. -/
theorem Dev.sdaCheck_of_high {d : Dev} {owner a b : Bool} (hctl : d.flag Fld.TWP_CTRL_CTL_EN = true) (hstandby : d.f.ch.standby = false) :
    (d.sdaCheck ⟨0, a, b⟩ owner).noTwp = d.noTwp ∧ (d.sdaCheck ⟨0, a, b⟩ owner).f.twp = { d.f.twp with
      clocks := 0, checked := true, stuckScl := false, busy := true, quietFrom := some d.now
      stuck := if owner then false else d.f.twp.stuck } := by
  obtain ⟨d1, hd1⟩ : ∃ d1 : Dev, d1 = { d with f.twp := { d.f.twp with clocks := 0, checked := true, stuckScl := false } } := ⟨_, rfl⟩
  obtain ⟨d2, hd2⟩ : ∃ d2, d2 = if owner && d.f.twp.stuck then ({ d1 with f.twp.stuck := false }).condEnd .f Sn.TWP_STUCK else d1 := ⟨_, rfl⟩
  have hcheck : d.sdaCheck ⟨0, a, b⟩ owner = { d2 with f.twp := { d2.f.twp with busy := true, quietFrom := some d.now } } := by
    refine (if_neg ?_).trans ((if_neg ?_).trans ?_)
    · rw [hctl, hstandby]; exact Bool.false_ne_true
    · exact Bool.false_ne_true
    · rw [hd2, hd1]
      exact if_pos rfl
  have hno : Dev.StreamBlind Dev.noTwp := .of_unsent fun _ => rfl
  have htwp : Dev.StreamBlind (fun d => d.f.twp) := .of_unsent fun _ => rfl
  have hnoTwp : d2.noTwp = d.noTwp := by
    rw [hd2, hd1]
    refine Dev.ite_kept ((hno.condEnd (fun _ _ => rfl) _).trans ?_) ?_
    · rfl
    · rfl
  rw [hcheck]
  refine ⟨Eq.trans ?_ hnoTwp, ?_⟩
  · rfl
  · show ({ d2.f.twp with busy := true, quietFrom := some d.now } : Twp) = _
    rw [hd2]
    by_cases hclear : (owner && d.f.twp.stuck) = true
    · obtain ⟨rfl, -⟩ := Bool.and_eq_true_iff.mp hclear
      rw [if_pos hclear, htwp.condEnd (fun _ _ => rfl), hd1]
      rfl
    · rw [if_neg hclear, hd1]
      cases owner with
      | false => rfl
      | true =>
        have hstuck : d.f.twp.stuck = false := by simpa using hclear
        show ({ d.f.twp with clocks := 0, checked := true, stuckScl := false, busy := true, quietFrom := some d.now } : Twp) = _
        rw [if_pos rfl, ← hstuck]

/-- It leaves the transfers and the rest of the device, whether it runs or not. -/
theorem Dev.sdaCheck_high_kept (d : Dev) (owner a b : Bool) : (d.sdaCheck ⟨0, a, b⟩ owner).noTwp = d.noTwp ∧
    (d.sdaCheck ⟨0, a, b⟩ owner).f.twp.cur = d.f.twp.cur ∧ (d.sdaCheck ⟨0, a, b⟩ owner).f.twp.onBus = d.f.twp.onBus ∧
    (d.sdaCheck ⟨0, a, b⟩ owner).f.twp.queue = d.f.twp.queue ∧ (d.sdaCheck ⟨0, a, b⟩ owner).f.twp.tgts = d.f.twp.tgts := by
  by_cases hrun : d.flag Fld.TWP_CTRL_CTL_EN = true ∧ d.f.ch.standby = false
  · obtain ⟨hno, htwp⟩ := Dev.sdaCheck_of_high (owner := owner) (a := a) (b := b) hrun.1 hrun.2
    rw [htwp]
    exact ⟨hno, rfl, rfl, rfl, rfl⟩
  · have hsame : d.sdaCheck ⟨0, a, b⟩ owner = d := by
      refine if_pos ?_
      cases hctl : d.flag Fld.TWP_CTRL_CTL_EN with
      | false => rfl
      | true => simpa [hctl] using hrun
    rw [hsame]
    exact ⟨rfl, rfl, rfl, rfl, rfl⟩

/-- The port as the check's pulses leave it. -/
def Dev.pulsed (d : Dev) (n : Nat) (sclLow : Bool) : Dev :=
  { d with f.twp := { d.f.twp with clocks := min n 9, checked := true, stuckScl := sclLow } }

/-- SDA freed by pulses and a STOP. -/
def Dev.sdaFreed (d : Dev) : Dev :=
  ({ d with f.twp := { d.f.twp with busy := false, quietFrom := none, lastStop := d.now } } : Dev).setFld Fld.TWP_STATUS_RECOVERED 1

theorem Dev.sdaCheck_of_low {d : Dev} {n : Nat} (hn : 1 ≤ n) (hctl : d.flag Fld.TWP_CTRL_CTL_EN = true) (hstandby : d.f.ch.standby = false)
    (sclLow held : Bool) : d.sdaCheck ⟨n, sclLow, held⟩ false =
      if (sclLow || held) = true
      then ({ d.pulsed n sclLow with f.twp.stuck := true } : Dev).twpStuckAll.raiseOwner Sn.TWP_STUCK Fld.PCI_OWN_PORT_TWP_CTL
      else (d.pulsed n sclLow).sdaFreed.raiseOwner Sn.TWP_RECOVERED Fld.PCI_OWN_PORT_TWP_CTL := by
  have hmin : (min n 9 != 0) = true := bne_iff_ne.mpr (by omega)
  have hmin0 : ¬ min n 9 = 0 := by omega
  refine (if_neg ?_).trans ?_
  · rw [hctl, hstandby]; exact Bool.false_ne_true
  · dsimp only
    simp only [hmin, Bool.true_and, Bool.false_and, Bool.false_eq_true, if_false, hmin0]
    rfl

/-- Every operation of the port ended, only the contexts and the lists change. -/
theorem Dev.twpStuckAll_spec (d : Dev) : d.twpStuckAll.f.twp = { d.f.twp with
    cur := none, onBus := false, queue := [], tgts := [], serving := none } ∧ d.twpStuckAll.f.car = d.f.car ∧ d.twpStuckAll.now = d.now := by
  have hfold {α : Type} {π : Dev → α} (h : ∀ d : Dev, π d.noOps = π d) (l : List Nat) (e : Dev) :
      π (l.foldl (fun d g => d.endF g stTWP_STUCK 0) e) = π e :=
    Dev.StreamBlind.foldl (π := π) _ (fun e g => by rw [← h, Dev.noOps_endF, h]) l e
  exact ⟨hfold (π := fun d => d.f.twp) (fun _ => rfl) _ _, hfold (π := fun d => d.f.car) (fun _ => rfl) _ _,
    hfold (π := fun d => d.now) (fun _ => rfl) _ _⟩

/-! ## A target transfer -/

theorem Dev.twpTargetDone_of_none {d : Dev} (hserve : d.f.twp.serving = none) {st clocked : Nat} {rx : List (BitVec 8)} :
    d.twpTargetDone st rx clocked = d := by
  unfold Dev.twpTargetDone
  rw [hserve]

/-- The end of a transfer that the target serves. -/
theorem Dev.twpTargetDone_spec {d : Dev} {tag : Nat} {o : FOp} (st : Nat) (rx : List (BitVec 8)) (clocked : Nat) (hserve : d.f.twp.serving = some tag)
    (hfop : d.fop tag = some o) (hlive : o.ended = none) (hop : (d.op tag).isSome = true) :
    ({ d with f.twp := { d.f.twp with serving := none, tgts := d.f.twp.tgts.filter (fun g => g != tag) } } : Dev).EndsOnly
      (d.twpTargetDone st rx clocked) tag ∧
    ((d.twpTargetDone st rx clocked).fop tag).bind (·.ended) = some (st, BitVec.ofNat 64
      ((rx.take o.desc.twpRdLen).length % 256 + min clocked o.desc.twpWrLen * 256)) ∧
    (clocked ≠ 0 → ∃ l, (d.twpTargetDone st rx clocked).out = l ++ Emit.twp (twpReply o.desc clocked) :: d.out) := by
  obtain ⟨d1, hd1⟩ : ∃ d1 : Dev, d1 = { d with f.twp := { d.f.twp with serving := none, tgts := d.f.twp.tgts.filter (fun g => g != tag) } } := ⟨_, rfl⟩
  obtain ⟨d2, hd2⟩ : ∃ d2, d2 = if clocked = 0 then d1 else d1.emit (.twp (twpReply o.desc clocked)) := ⟨_, rfl⟩
  have hfop1 : d1.fop tag = some o := by rw [hd1]; exact hfop
  have hdone : d.twpTargetDone st rx clocked = ((packBytes (rx.take o.desc.twpRdLen)).foldl (fun d w => d.receive tag w) d2).endF tag st
      (BitVec.ofNat 64 ((rx.take o.desc.twpRdLen).length % 256 + min clocked o.desc.twpWrLen * 256)) := by
    unfold Dev.twpTargetDone
    rw [hserve]
    dsimp only
    rw [← hd1, hfop1]
    dsimp only
    rw [← hd2]
  have hsame2 {α : Type} {π : Dev → α} (h : Dev.OutBlind π) : π d2 = π d1 := by
    rw [hd2]
    exact Dev.ite_kept rfl (h.emit _ _)
  have hfop2 : d2.fop tag = some o := (hsame2 (π := fun d => d.fop tag) ⟨fun _ _ => rfl⟩).trans hfop1
  have hop2 : (d2.op tag).isSome = true := by
    rw [hsame2 (π := fun d => d.op tag) ⟨fun _ _ => rfl⟩, hd1]
    exact hop
  obtain ⟨hends, hsame⟩ := Dev.receives_endF d2 (packBytes (rx.take o.desc.twpRdLen)) st
    (BitVec.ofNat 64 ((rx.take o.desc.twpRdLen).length % 256 + min clocked o.desc.twpWrLen * 256)) hfop2 hlive hop2
  rw [hdone, ← hd1]
  refine ⟨⟨hends.noOps.trans (hsame2 ⟨fun _ _ => rfl⟩), fun g hg => (hends.others g hg).trans (hsame2 (π := fun d => d.fop g) ⟨fun _ _ => rfl⟩)⟩,
    by rw [hsame]; rfl, fun hclk => ?_⟩
  obtain ⟨m, hm⟩ := Dev.out_receives tag (packBytes (rx.take o.desc.twpRdLen)) d2
  obtain ⟨k, hk⟩ := Dev.out_endF ((packBytes (rx.take o.desc.twpRdLen)).foldl (fun d w => d.receive tag w) d2) tag st
    (BitVec.ofNat 64 ((rx.take o.desc.twpRdLen).length % 256 + min clocked o.desc.twpWrLen * 256))
  refine ⟨k ++ m, ?_⟩
  rw [hk, hm, hd2, if_neg hclk, hd1, List.append_assoc]
  rfl

/-! ## The statement -/

/-- SCL low for 25 ms ends the controller's transfer on the bus. -/
theorem doTwpSclLowTimeout_of_onBus {d : Dev} {tag losses t : Nat} (hlto : d.flag Fld.TWP_CTRL_LTO_EN = true)
    (hcur : d.f.twp.cur = some (tag, losses)) (hbus : d.f.twp.onBus = true) (c : SdaCheck) : doTwpSclLowTimeout c t d =
      ((((d.at t).twpXferDone tag stTIMEOUT [] 0).bump Fld.TWP_LTO_CNT_COUNT ⟨Reg.TWP_CNT_SAT, 1, 1⟩).raiseOwner Sn.TWP_LTO
        Fld.PCI_OWN_PORT_TWP_CTL).sdaCheck c false := by
  refine (if_neg ?_).trans ?_
  · rw [show (d.at t).flag Fld.TWP_CTRL_LTO_EN = true from hlto]
    exact Bool.false_ne_true
  · rw [show (d.at t).f.twp.cur = some (tag, losses) from hcur, show (d.at t).f.twp.onBus = true from hbus]

/-- Settles O30: the bus follows its events, the target's oldest operation serves its address, and the low timeouts end a transfer, free
SDA or find it stuck. -/
theorem twoWireBusAndTarget : Obligations.TwoWireBusAndTarget := by
  unfold Obligations.TwoWireBusAndTarget
  intro s tag losses n q t rest o rx clocked sclLow held
  refine ⟨rfl, fun hserve => ?_, fun hquiet hdue => ?_, fun hon hserve => ⟨fun htgts => ?_, fun htgts => ?_⟩,
    fun hserve hfop hlive hop => ?_, fun hlto hcur hbus hfop hlive hop => ?_, fun hlto hup hctl => ?_⟩
  · exact s.onDev_of (g := doTwpStopDetect rx clocked t) (Dev.twpTargetDone_of_none (d := { s.dev.at t with f.twp := { s.dev.f.twp with
      busy := false, quietFrom := none, lastStop := max s.dev.now t } }) hserve)
  · refine s.onDev_of (g := doTwpBusIdleTimeout t) ?_
    unfold doTwpBusIdleTimeout; dsimp only
    rw [show (s.dev.at t).f.twp.quietFrom = some q from hquiet]
    exact if_pos hdue
  · refine s.onDev_of (g := doTwpTargetAddressMatch t) ((if_neg ?_).trans ?_)
    · rw [show (s.dev.at t).twpTgtOn = true from hon, show (s.dev.at t).f.twp.serving = none from hserve]
      exact Bool.false_ne_true
    · rw [show (s.dev.at t).f.twp.tgts = tag :: rest from htgts]
  · obtain ⟨e, he⟩ : ∃ e, e = ((s.dev.at t).bump Fld.TWP_TGT_NR_CNT_COUNT ⟨Reg.TWP_CNT_SAT, 2, 1⟩).setFld Fld.TWP_STATUS_TGT_NOT_READY 1 := ⟨_, rfl⟩
    have hdo : doTwpTargetAddressMatch t s.dev = e.raiseOwner Sn.TWP_TGT_NR Fld.PCI_OWN_PORT_TWP_TGT := by
      rw [he]
      refine (if_neg ?_).trans ?_
      · rw [show (s.dev.at t).twpTgtOn = true from hon, show (s.dev.at t).f.twp.serving = none from hserve]
        exact Bool.false_ne_true
      · rw [show (s.dev.at t).f.twp.tgts = [] from htgts]
    have hkept {α : Type} {π : Dev → α} (hwr : ∀ (d : Dev) (k : Nat) (v : Word), π (d.wr k v) = π d) : π e = π (s.dev.at t) := by
      rw [he]
      exact (hwr _ _ _).trans (Dev.bump_of_wr hwr _ _ _)
    have hfld {F : Fld} (hF : reactReg F.off = false) : (e.raiseOwner Sn.TWP_TGT_NR Fld.PCI_OWN_PORT_TWP_TGT).fld F = e.fld F :=
      Dev.fld_of_rd (Dev.rd_raiseCodeF _ hF _)
    refine ⟨_, s.onDev_of hdo, ?_, (hfld (by decide)).trans ?_, (hfld (by decide)).trans ?_, (Dev.last_raiseCode e .f _ (by decide)).trans ?_, ?_, rfl, rfl⟩
    · exact (Dev.twp_raiseOwner _ _ _).trans (hkept (π := fun d => d.f.twp) fun d k v => by simp)
    · rw [he, Dev.fld_setFld_off _ _ _ _ (by decide)]
      exact Dev.fld_bump_same _ (by decide) (by decide) (by decide)
    · rw [he]
      exact Dev.fld_setFld_same _ Fld.TWP_STATUS_TGT_NOT_READY 1 (by decide)
    · exact hkept (π := fun d => d.now) fun d k v => by simp
    · exact (Dev.car_raiseOwner _ _ _).trans (hkept (π := fun d => d.f.car) fun d k v => by simp)
  · obtain ⟨hends, hsame, hout⟩ := Dev.twpTargetDone_spec (d := s.dev.at t) stOK rx clocked hserve hfop hlive hop
    exact ⟨_, s.onDev_of (g := doTwpTargetEnd rx clocked t) rfl, congrArg Twp.serving hends.twp, congrArg Twp.tgts hends.twp, hsame, hout, hends.others, hends.rd, hends.hOps, rfl, rfl⟩
  · obtain ⟨hends, hsame⟩ := Dev.twpXferDone_spec (d := s.dev.at t) stTIMEOUT [] 0 hfop hlive hop
    obtain ⟨x, hx⟩ : ∃ x, x = (s.dev.at t).twpXferDone tag stTIMEOUT [] 0 := ⟨_, rfl⟩
    obtain ⟨y, hy⟩ : ∃ y, y = x.bump Fld.TWP_LTO_CNT_COUNT ⟨Reg.TWP_CNT_SAT, 1, 1⟩ := ⟨_, rfl⟩
    obtain ⟨z, hz⟩ : ∃ z, z = y.raiseOwner Sn.TWP_LTO Fld.PCI_OWN_PORT_TWP_CTL := ⟨_, rfl⟩
    have hdo : doTwpSclLowTimeout ⟨0, false, false⟩ t s.dev = z.sdaCheck ⟨0, false, false⟩ false := by
      rw [doTwpSclLowTimeout_of_onBus hlto hcur hbus, hz, hy, hx]
    rw [← hx] at hends hsame
    have htwp : z.f.twp = { s.dev.f.twp with cur := none, onBus := false } := by
      rw [hz, Dev.twp_raiseOwner, hy, Dev.bump_of_wr (π := fun d => d.f.twp) (fun d k v => by simp), hends.twp]
      rfl
    have hcar : z.f.car = s.dev.f.car := by
      rw [hz, Dev.car_raiseOwner, hy, Dev.bump_of_wr (π := fun d => d.f.car) (fun d k v => by simp), hends.car]
      rfl
    have hfopZ : z.fop tag = x.fop tag := by
      rw [hz, Dev.fop_raiseOwner, hy]
      exact Dev.bump_of_wr (π := fun d => d.fop tag) (fun d k v => by simp [Dev.fop]) _ _ _
    have hcnt : z.fld Fld.TWP_LTO_CNT_COUNT = min (s.dev.fld Fld.TWP_LTO_CNT_COUNT + 1) (2 ^ 32 - 1) := by
      have hrd : z.rd Reg.TWP_LTO_CNT = y.rd Reg.TWP_LTO_CNT := by rw [hz]; exact Dev.rd_raiseCodeF y (by decide) _
      rw [Dev.fld_of_rd (F := Fld.TWP_LTO_CNT_COUNT) hrd, hy, Dev.fld_bump_same _ (by decide) (by decide) (by decide),
        Dev.fld_of_rd (F := Fld.TWP_LTO_CNT_COUNT) (hends.rd _)]
      rfl
    obtain ⟨hno, hcurC, -, hqueue, -⟩ := z.sdaCheck_high_kept false false false
    refine ⟨_, s.onDev_of hdo, hcurC.trans (by rw [htwp]), ?_, ?_, hqueue.trans (by rw [htwp]), ?_, rfl, rfl⟩
    · rw [show (z.sdaCheck ⟨0, false, false⟩ false).fop tag = z.fop tag from (congrArg (fun d : Dev => d.fop tag) hno :), hfopZ, hsame]
      rfl
    · rw [show (z.sdaCheck ⟨0, false, false⟩ false).fld Fld.TWP_LTO_CNT_COUNT = z.fld Fld.TWP_LTO_CNT_COUNT from
        (congrArg (fun d : Dev => d.fld Fld.TWP_LTO_CNT_COUNT) hno :)]
      exact hcnt
    · rw [show (z.sdaCheck ⟨0, false, false⟩ false).f.car = z.f.car from (congrArg (fun d : Dev => d.f.car) hno :)]
      exact hcar
  · have hparts : (s.dev.f.twp.stuck = false ∧ s.dev.f.ch.standby = false) := by
      unfold Dev.twpUp at hup
      simp only [Bool.and_eq_true, Bool.not_eq_true'] at hup
      exact ⟨hup.1.1.2, hup.1.2⟩
    obtain ⟨hstuck, hstandby⟩ := hparts
    have hdo (c : SdaCheck) : doTwpSdaLowTimeout c t s.dev = (s.dev.at t).sdaCheck c false := by
      refine if_pos ?_
      rw [show (s.dev.at t).flag Fld.TWP_CTRL_LTO_EN = true from hlto, show (s.dev.at t).twpUp = true from hup]
      rfl
    refine ⟨fun hn => ?_, fun hn hlow => ?_⟩
    · obtain ⟨e, he⟩ : ∃ e, e = ((s.dev.at t).pulsed n false).sdaFreed := ⟨_, rfl⟩
      have hcheck : doTwpSdaLowTimeout ⟨n, false, false⟩ t s.dev = e.raiseOwner Sn.TWP_RECOVERED Fld.PCI_OWN_PORT_TWP_CTL := by
        rw [he]
        exact (hdo _).trans ((Dev.sdaCheck_of_low (d := s.dev.at t) hn hctl hstandby false false).trans (if_neg Bool.false_ne_true))
      have htwp : (e.raiseOwner Sn.TWP_RECOVERED Fld.PCI_OWN_PORT_TWP_CTL).f.twp = { s.dev.f.twp with
          clocks := min n 9, checked := true, stuckScl := false, busy := false, quietFrom := none, lastStop := max s.dev.now t } := by
        rw [Dev.twp_raiseOwner, he]
        unfold Dev.sdaFreed
        rw [Dev.setFld_f]
        rfl
      refine ⟨_, s.onDev_of hcheck, by rw [htwp], by rw [htwp]; exact hstuck, by rw [htwp], ?_, ?_, by rw [htwp], ?_, rfl, rfl⟩
      · refine (Dev.fld_of_rd (F := Fld.TWP_STATUS_RECOVERED) (Dev.rd_raiseCodeF _ (by decide) _)).trans ?_
        rw [he]
        exact Dev.fld_setFld_same _ Fld.TWP_STATUS_RECOVERED 1 (by decide)
      · refine (Dev.last_raiseCode e .f _ (by decide)).trans ?_
        rw [he]
        exact Dev.setFld_now _ _ _
      · rw [Dev.car_raiseOwner, he]
        unfold Dev.sdaFreed
        rw [Dev.setFld_f]
        rfl
    · obtain ⟨e, he⟩ : ∃ e, e = ({ (s.dev.at t).pulsed n sclLow with f.twp.stuck := true } : Dev).twpStuckAll := ⟨_, rfl⟩
      have hcheck : doTwpSdaLowTimeout ⟨n, sclLow, held⟩ t s.dev = e.raiseOwner Sn.TWP_STUCK Fld.PCI_OWN_PORT_TWP_CTL := by
        rw [he]
        exact (hdo _).trans ((Dev.sdaCheck_of_low (d := s.dev.at t) hn hctl hstandby sclLow held).trans (if_pos hlow))
      obtain ⟨hstuckTwp, hcar, hnow⟩ := ({ (s.dev.at t).pulsed n sclLow with f.twp.stuck := true } : Dev).twpStuckAll_spec
      rw [← he] at hstuckTwp hcar hnow
      have htwp := (Dev.twp_raiseOwner e Sn.TWP_STUCK Fld.PCI_OWN_PORT_TWP_CTL).trans hstuckTwp
      refine ⟨_, s.onDev_of hcheck, by rw [htwp]; rfl, by rw [htwp]; rfl, by rw [htwp], by rw [htwp], by rw [htwp], by rw [htwp], ?_, ?_, rfl, rfl⟩
      · exact (Dev.last_raiseCode e .f _ (by decide)).trans hnow
      · exact (Dev.car_raiseOwner _ _ _).trans hcar

end Sys2Proof.Machine
end

section
/-!
PROOF. Set-up writes of the two-wire port (R206, R216, R223, R225).
-/

namespace Sys2Proof.Machine

/-! ## Bits of words -/

theorem bitOf_and (a b : Word) (i : Nat) : bitOf (a &&& b).toNat i = (bitOf a.toNat i && bitOf b.toNat i) := by
  rw [bitOf_eq_testBit, bitOf_eq_testBit, bitOf_eq_testBit, BitVec.toNat_and, Nat.testBit_and]

/-- Fields are the same where their bits are. -/
theorem bitsOf_congr {m n lo w : Nat} (h : ∀ i, i < w → bitOf m (lo + i) = bitOf n (lo + i)) : bitsOf m lo w = bitsOf n lo w := by
  refine Nat.eq_of_testBit_eq fun i => ?_
  rw [testBit_bitsOf, testBit_bitsOf]
  by_cases hi : i < w
  · have hbit := h i hi
    rw [bitOf_eq_testBit, bitOf_eq_testBit] at hbit
    rw [hbit]
  · simp [hi]

/-! ## Operations that end together -/

theorem Dev.endF_of_ended {d : Dev} {tag : Nat} {o : FOp} (h : d.fop tag = some o) (hend : o.ended.isSome = true) (st : Nat) (r : Quad) :
    d.endF tag st r = d := by
  unfold Dev.endF
  rw [h]
  exact if_pos hend

theorem Dev.endAll_cons (d : Dev) (m : Nat) (l : List Nat) : d.endAll (m :: l) = (d.endF m stWRONG_STATE 0).endAll l := rfl

theorem Dev.noOps_endAll (d : Dev) (l : List Nat) : (d.endAll l).noOps = d.noOps :=
  Dev.StreamBlind.foldl (π := Dev.noOps) _ (fun d g => d.noOps_endF g _ _) l d

theorem Dev.fop_endAll_ended {g : Nat} {o : FOp} (hend : o.ended.isSome = true) : ∀ (l : List Nat) {d : Dev}, d.fop g = some o →
    (d.endAll l).fop g = some o
  | [], _, h => h
  | m :: l, d, h => by
    rw [Dev.endAll_cons]
    refine Dev.fop_endAll_ended hend l ?_
    by_cases hm : g = m
    · subst hm
      rw [Dev.endF_of_ended h hend]
      exact h
    · exact (d.fop_endF_ne _ _ hm).trans h

/-- Each operation of the list that has not ended ends WRONG_STATE. -/
theorem Dev.fop_endAll {g : Nat} {o : FOp} (hlive : o.ended = none) : ∀ {l : List Nat} {d : Dev}, g ∈ l → d.fop g = some o → (d.op g).isSome = true →
    (d.endAll l).fop g = some { o with ended := some (stWRONG_STATE, 0) }
  | [], _, hg, _, _ => absurd hg List.not_mem_nil
  | m :: l, d, hg, h, hop => by
    rw [Dev.endAll_cons]
    by_cases hm : g = m
    · subst hm
      exact Dev.fop_endAll_ended rfl l (Dev.fop_endF_same _ _ h hlive hop)
    · refine Dev.fop_endAll hlive ((List.mem_cons.mp hg).resolve_left hm) ((d.fop_endF_ne _ _ hm).trans h) ?_
      rw [show (d.endF m stWRONG_STATE 0).op g = d.op g from (congrArg (fun d : Dev => d.op g) (d.noOps_endF m _ _) :)]
      exact hop

/-! ## TWP_CTRL as written -/

/-- TWP_CTRL as a write sets it; EN or CTL_EN from 0 to 1 waits for the bus to be quiet. -/
def Dev.ctrlSet (d : Dev) (data : Word) : Dev :=
  let d1 := d.wr Reg.TWP_CTRL ((data &&& 0x1F) ||| ((data ||| d.rd Reg.TWP_CTRL) &&& 0x40))
  if bitOf data.toNat 1 && !d.flag Fld.TWP_CTRL_CTL_EN then { d1 with f.twp := { d1.f.twp with busy := true, quietFrom := some d.now } } else d1

/-- The controller's queue completed where CTL_EN is 0, and the transfer in progress on CTL_RST. -/
def Dev.ctrlQueue (d : Dev) (ctl : Bool) : Dev := if ctl then d else ({ d with f.twp.queue := [] } : Dev).endAll d.f.twp.queue
def Dev.ctrlReset (d : Dev) (rst : Bool) : Dev :=
  if rst then
    match d.f.twp.cur with
    | some (g, _) => ({ d with f.twp := { d.f.twp with cur := none, onBus := false } } : Dev).endF g stWRONG_STATE 0
    | none => d
  else d

/-- A write of TWP_CTRL that its checks pass. -/
theorem Dev.twpCtrlWrite_of_good {d : Dev} {fn : Func} {data : Word} {c : SdaCheck} (hmay : d.twpMay fn = true)
    (hmode : bitsOf data.toNat 2 2 = d.fld Fld.TWP_CTRL_MODE) (hvalid : d.fld Fld.TWP_CTRL_MODE ≠ 3)
    (hscl : sclBad (d.fld Fld.TWP_CTRL_MODE) (d.rd Reg.TWP_SCL_TIM) = false)
    (hactive : d.twpActive = true → bitOf data.toNat 0 = true ∧ bitOf data.toNat 1 = true) :
    d.twpCtrlWrite fn data c =
      let rise := bitOf data.toNat 0 && !d.flag Fld.TWP_CTRL_EN
      let d4 := ((d.ctrlSet data).ctrlQueue (bitOf data.toNat 1)).ctrlReset (bitOf data.toNat 5)
      .ok (if rise || (bitOf data.toNat 0 && bitOf data.toNat 1 && !d.f.twp.checked) || bitOf data.toNat 5 then d4.sdaCheck c rise else d4) := by
  refine (if_neg ?_).trans ((if_neg ?_).trans ((if_neg ?_).trans ((if_neg ?_).trans rfl)))
  · rw [hmay]; exact Bool.false_ne_true
  · rw [hmode, bne_self_eq_false, Bool.and_false]
    exact Bool.false_ne_true
  · rw [hmode, hscl]
    rintro (h | h)
    · exact hvalid h
    · cases h
  · rw [hmode, bne_self_eq_false, Bool.or_false]
    intro h
    obtain ⟨hact, hoff⟩ := Bool.and_eq_true_iff.mp h
    obtain ⟨hen, hctl⟩ := hactive hact
    rw [hen, hctl] at hoff
    cases hoff

/-- A part of the device that TWP_CTRL and the port's state are not in. -/
theorem Dev.ctrlSet_kept {α : Type} {π : Dev → α} (hwr : ∀ (d : Dev) (v : Word), π (d.wr Reg.TWP_CTRL v) = π d)
    (htwp : ∀ (d : Dev) (a : Bool) (q : Option Nat), π { d with f.twp := { d.f.twp with busy := a, quietFrom := q } } = π d) (d : Dev) (data : Word) :
    π (d.ctrlSet data) = π d := Dev.ite_kept ((htwp _ _ _).trans (hwr _ _)) (hwr _ _)

/-- EN and CTL_EN as written. -/
theorem Dev.flag_ctrlSet (d : Dev) (data : Word) {F : Fld} (hoff : F.off = Reg.TWP_CTRL) (hw : F.w = 1) (hlo : F.lo = 0 ∨ F.lo = 1) :
    (d.ctrlSet data).flag F = bitOf data.toNat F.lo := by
  have hrd : (d.ctrlSet data).rd Reg.TWP_CTRL = (data &&& 0x1F) ||| ((data ||| d.rd Reg.TWP_CTRL) &&& 0x40) :=
    Dev.ite_kept (π := fun d => d.rd Reg.TWP_CTRL) (d.rd_wr_same _ _) (d.rd_wr_same _ _)
  have hflag : (d.ctrlSet data).flag F = bitOf ((data &&& 0x1F) ||| ((data ||| d.rd Reg.TWP_CTRL) &&& 0x40)).toNat F.lo := by
    unfold Dev.flag Dev.fld
    rw [hoff, hrd, hw]
    rfl
  have hconst : ∀ i, i = 0 ∨ i = 1 → bitOf (0x1F : Word).toNat i = true ∧ bitOf (0x40 : Word).toNat i = false := by
    rintro i (rfl | rfl)
    · decide
    · decide
  obtain ⟨h1, h2⟩ := hconst _ hlo
  rw [hflag, bitOf_or, bitOf_and, bitOf_and, h1, h2, Bool.and_true, Bool.and_false, Bool.or_false]

/-- What the write leaves: other registers, contexts, operations, the Carousel, STANDBY, the time, and the lists of the port. -/
theorem Dev.ctrlSet_left (d : Dev) (data : Word) : (∀ k, k ≠ Reg.TWP_CTRL → (d.ctrlSet data).rd k = d.rd k) ∧
    (∀ g, (d.ctrlSet data).fop g = d.fop g) ∧ (∀ g, (d.ctrlSet data).op g = d.op g) ∧ (d.ctrlSet data).f.car = d.f.car ∧
    (d.ctrlSet data).f.ch.standby = d.f.ch.standby ∧ (d.ctrlSet data).now = d.now ∧ (d.ctrlSet data).f.twp.queue = d.f.twp.queue ∧
    (d.ctrlSet data).f.twp.tgts = d.f.twp.tgts ∧ (d.ctrlSet data).f.twp.cur = d.f.twp.cur :=
  ⟨fun k hk => Dev.ctrlSet_kept (π := fun d => d.rd k) (fun d v => d.rd_wr_ne v hk) (fun _ _ _ => rfl) d data,
    fun g => Dev.ctrlSet_kept (π := fun d => d.fop g) (fun d v => by simp [Dev.fop]) (fun _ _ _ => rfl) d data,
    fun g => Dev.ctrlSet_kept (π := fun d => d.op g) (fun d v => by simp [Dev.op]) (fun _ _ _ => rfl) d data,
    Dev.ctrlSet_kept (π := fun d => d.f.car) (fun d v => by simp) (fun _ _ _ => rfl) d data,
    Dev.ctrlSet_kept (π := fun d => d.f.ch.standby) (fun d v => by simp) (fun _ _ _ => rfl) d data,
    Dev.ctrlSet_kept (π := fun d => d.now) (fun d v => by simp) (fun _ _ _ => rfl) d data,
    Dev.ctrlSet_kept (π := fun d => d.f.twp.queue) (fun d v => by simp) (fun _ _ _ => rfl) d data,
    Dev.ctrlSet_kept (π := fun d => d.f.twp.tgts) (fun d v => by simp) (fun _ _ _ => rfl) d data,
    Dev.ctrlSet_kept (π := fun d => d.f.twp.cur) (fun d v => by simp) (fun _ _ _ => rfl) d data⟩

/-! ## The three writes of TWP_CTRL -/

section
variable {d : Dev} {fn : Func} {data : Word} (hmay : d.twpMay fn = true) (hmode : bitsOf data.toNat 2 2 = d.fld Fld.TWP_CTRL_MODE)
  (hvalid : d.fld Fld.TWP_CTRL_MODE ≠ 3) (hscl : sclBad (d.fld Fld.TWP_CTRL_MODE) (d.rd Reg.TWP_SCL_TIM) = false)
  (hrst : bitOf data.toNat 5 = false)
include hmay hmode hvalid hscl

include hrst in
/-- EN from 0 to 1 with CTL_EN: the check runs for the owner. -/
theorem Dev.twpCtrlWrite_of_enable (hctl : bitOf data.toNat 1 = true) (hactive : d.twpActive = false) (hen : d.flag Fld.TWP_CTRL_EN = false) (c : SdaCheck) :
    d.twpCtrlWrite fn (data ||| 1) c = .ok ((d.ctrlSet (data ||| 1)).sdaCheck c true) := by
  have hbit (i : Nat) : bitOf (data ||| 1).toNat i = (bitOf data.toNat i || decide (i = 0)) := bitOf_or_one data i
  have h0 : bitOf (data ||| 1).toNat 0 = true := by rw [hbit]; exact Bool.or_true _
  have h1 : bitOf (data ||| 1).toNat 1 = true := by rw [hbit, hctl]; rfl
  have h5 : bitOf (data ||| 1).toNat 5 = false := by rw [hbit, hrst]; rfl
  rw [Dev.twpCtrlWrite_of_good hmay ((bitsOf_or_one data (by decide)).trans hmode) hvalid hscl (fun h => by rw [hactive] at h; cases h), h0, h1, h5, hen]
  rfl

include hrst in
/-- CTL_EN 0: the controller's queue completes. -/
theorem Dev.twpCtrlWrite_of_off (hactive : d.twpActive = false) :
    d.twpCtrlWrite fn (data &&& 0xFFFFFFFD) ⟨0, false, false⟩ = .ok ((d.ctrlSet (data &&& 0xFFFFFFFD)).ctrlQueue false) := by
  have hbit (i : Nat) : bitOf (data &&& 0xFFFFFFFD).toNat i = (bitOf data.toNat i && bitOf (0xFFFFFFFD : Word).toNat i) := bitOf_and data _ i
  have h1 : bitOf (data &&& 0xFFFFFFFD).toNat 1 = false := by rw [hbit]; exact Bool.and_false _
  have h5 : bitOf (data &&& 0xFFFFFFFD).toNat 5 = false := by rw [hbit, hrst]; rfl
  have hkeep : ∀ i, i < 2 → bitOf (0xFFFFFFFD : Word).toNat (2 + i) = true := by decide
  have hmode' : bitsOf (data &&& 0xFFFFFFFD).toNat 2 2 = d.fld Fld.TWP_CTRL_MODE :=
    (bitsOf_congr fun i hi => by rw [hbit, hkeep i hi, Bool.and_true]).trans hmode
  have hoff (owner : Bool) : ((d.ctrlSet (data &&& 0xFFFFFFFD)).ctrlQueue false).sdaCheck ⟨0, false, false⟩ owner =
      (d.ctrlSet (data &&& 0xFFFFFFFD)).ctrlQueue false := by
    refine if_pos ?_
    have hflag : ((d.ctrlSet (data &&& 0xFFFFFFFD)).ctrlQueue false).flag Fld.TWP_CTRL_CTL_EN = false :=
      (congrArg (fun d : Dev => d.flag Fld.TWP_CTRL_CTL_EN) (Dev.noOps_endAll _ _) :).trans
        ((d.flag_ctrlSet _ (F := Fld.TWP_CTRL_CTL_EN) rfl rfl (.inr rfl)).trans h1)
    rw [hflag]
    rfl
  rw [Dev.twpCtrlWrite_of_good hmay hmode' hvalid hscl (fun h => by rw [hactive] at h; cases h), h1, h5]
  dsimp only
  rw [show ((d.ctrlSet (data &&& 0xFFFFFFFD)).ctrlQueue false).ctrlReset false = (d.ctrlSet (data &&& 0xFFFFFFFD)).ctrlQueue false from rfl, hoff, ite_self]

/-- CTL_RST: the transfer in progress completes, and the check runs. -/
theorem Dev.twpCtrlWrite_of_reset (hen : bitOf data.toNat 0 = true) (hctl : bitOf data.toNat 1 = true) (c : SdaCheck) :
    ∃ owner, d.twpCtrlWrite fn (data ||| 32) c = .ok (((d.ctrlSet (data ||| 32)).ctrlReset true).sdaCheck c owner) := by
  have hbit (i : Nat) : bitOf (data ||| 32).toNat i = (bitOf data.toNat i || bitOf (32 : Word).toNat i) := bitOf_or data _ i
  have h0 : bitOf (data ||| 32).toNat 0 = true := by rw [hbit, hen]; rfl
  have h1 : bitOf (data ||| 32).toNat 1 = true := by rw [hbit, hctl]; rfl
  have h5 : bitOf (data ||| 32).toNat 5 = true := by rw [hbit]; exact Bool.or_true _
  have hkeep : ∀ i, i < 2 → bitOf (32 : Word).toNat (2 + i) = false := by decide
  have hmode' : bitsOf (data ||| 32).toNat 2 2 = d.fld Fld.TWP_CTRL_MODE :=
    (bitsOf_congr fun i hi => by rw [hbit, hkeep i hi, Bool.or_false]).trans hmode
  refine ⟨true && !d.flag Fld.TWP_CTRL_EN, ?_⟩
  rw [Dev.twpCtrlWrite_of_good hmay hmode' hvalid hscl (fun _ => ⟨h0, h1⟩), h0, h1, h5]
  dsimp only
  rw [Bool.or_true]
  rfl

end

/-! ## TWP_TGT_CFG -/

/-- TGT_EN 0: the target's queue completes. -/
theorem Dev.twpTgtCfgWrite_of_off {d : Dev} {fn : Func} {data : Word} (hown : d.twpTgt = codeOf fn) (hactive : d.twpActive = false)
    (hlock : d.flag Fld.TWP_CTRL_LOCK = true → changes (d.rd Reg.TWP_TGT_CFG) (data &&& 0xFFFFF7FF) 0x7FF = false) :
    d.twpTgtCfgWrite fn (data &&& 0xFFFFF7FF) = .ok
      (({ d.wrAccess Reg.TWP_TGT_CFG (data &&& 0xFFFFF7FF) with f.twp.tgts := [] } : Dev).endAll
        (d.wrAccess Reg.TWP_TGT_CFG (data &&& 0xFFFFF7FF)).f.twp.tgts) := by
  have hoff : bitOf (data &&& 0xFFFFF7FF).toNat 11 = false := by rw [bitOf_and]; exact Bool.and_false _
  refine (if_neg ?_).trans ((if_neg ?_).trans ((if_neg ?_).trans ?_))
  · rw [hown, bne_self_eq_false]; exact Bool.false_ne_true
  · intro h
    obtain ⟨hset, hchg⟩ := Bool.and_eq_true_iff.mp h
    rw [hlock hset] at hchg
    cases hchg
  · rw [hactive]; exact Bool.false_ne_true
  · dsimp only
    rw [hoff]
    rfl

/-! ## The statement -/

/-- Settles O31: a write that its checks pass ends what it disables, and EN from 0 to 1 and CTL_RST run the check. -/
theorem twoWireSetUp : Obligations.TwoWireSetUp := by
  unfold Obligations.TwoWireSetUp
  intro s fn data tag losses t o
  refine ⟨fun hown hactive hlock => ?_, fun hmay hmode hvalid hscl hrst => ⟨fun hctl hactive hen hstandby => ?_, fun hactive => ?_,
    fun hen hctl hcur hfop hlive hop => ?_⟩⟩
  · obtain ⟨d1, hd1⟩ : ∃ d1, d1 = (s.dev.at t).wrAccess Reg.TWP_TGT_CFG (data &&& 0xFFFFF7FF) := ⟨_, rfl⟩
    have hdo : doTwpCtlEnWrite fn true data t s.dev = ({ d1 with f.twp.tgts := [] } : Dev).endAll d1.f.twp.tgts := by
      rw [hd1]
      exact congrArg (FwOut.orRej · (s.dev.at t) Fld.TWP_STATUS_CFG_REJ) (Dev.twpTgtCfgWrite_of_off (d := s.dev.at t) hown hactive hlock)
    have hno := Dev.noOps_endAll ({ d1 with f.twp.tgts := [] } : Dev) d1.f.twp.tgts
    have hkept {α : Type} {π : Dev → α} (hwr : ∀ (d : Dev) (k : Nat) (v : Word), π (d.wr k v) = π d) : π d1 = π (s.dev.at t) := by
      rw [hd1]
      exact Dev.wrAccess_of_wr hwr _ _ _
    have htwp : d1.f.twp = s.dev.f.twp := hkept (π := fun d => d.f.twp) fun d k v => by simp
    have hrd (k : Nat) : (({ d1 with f.twp.tgts := [] } : Dev).endAll d1.f.twp.tgts).rd k = d1.rd k := (congrArg (fun d : Dev => d.rd k) hno :)
    refine ⟨_, s.onDev_of (g := doTwpCtlEnWrite fn true data t) hdo, ?_, (congrArg (fun d : Dev => d.f.twp.tgts) hno :),
      (congrArg (fun d : Dev => d.f.twp.queue) hno :).trans (congrArg Twp.queue htwp :), fun g hg hfop hlive hop => ?_, fun k hk => ?_,
      (congrArg (fun d : Dev => d.f.car) hno :).trans (hkept (π := fun d => d.f.car) fun d k v => by simp), rfl, rfl⟩
    · refine (Dev.fld_of_rd (F := Fld.TWP_TGT_CFG_TGT_EN) (hrd _)).trans ?_
      rw [hd1, show Reg.TWP_TGT_CFG = Fld.TWP_TGT_CFG_TGT_EN.off from rfl, Dev.fld_wrAccess _ _ (r := ⟨0x2C0C, 1, 4, 0x1FFF, 0x0, 0x0, 0x0⟩) (by decide) (by decide)]
      have hbit : bitOf (data &&& 0xFFFFF7FF).toNat 11 = bitOf 0 11 := by rw [bitOf_and]; exact Bool.and_false _
      have hzero : bitsOf (data &&& 0xFFFFF7FF).toNat 11 1 = bitsOf 0 11 1 := bitsOf_congr fun i hi => by rw [Nat.lt_one_iff.mp hi]; exact hbit
      exact hzero
    · rw [Dev.fop_endAll (d := { d1 with f.twp.tgts := [] }) (o := o) hlive (htwp ▸ hg)
        ((hkept (π := fun d => d.fop g) fun d k v => by simp [Dev.fop]).trans hfop)
        ((congrArg Option.isSome (hkept (π := fun d => d.op g) fun d k v => by simp [Dev.op])).trans hop)]
      rfl
    · rw [hrd, hd1]
      exact ((s.dev.at t).wrAccess_keeps _ _).regs k hk
  · obtain ⟨hrd, hfop, hop, hcar, hstand, hnow, hqueue, -, -⟩ := (s.dev.at t).ctrlSet_left (data ||| 1)
    obtain ⟨e, he⟩ : ∃ e, e = (s.dev.at t).ctrlSet (data ||| 1) := ⟨_, rfl⟩
    have hdo : doTwpEnable fn data ⟨0, false, false⟩ t s.dev = e.sdaCheck ⟨0, false, false⟩ true := by
      rw [he]
      exact congrArg (FwOut.orRej · (s.dev.at t) Fld.TWP_STATUS_CFG_REJ)
        (Dev.twpCtrlWrite_of_enable (d := s.dev.at t) hmay hmode hvalid hscl hrst hctl hactive hen _)
    have hen' : e.flag Fld.TWP_CTRL_EN = true := by
      rw [he, Dev.flag_ctrlSet _ _ rfl rfl (.inl rfl), show Fld.TWP_CTRL_EN.lo = 0 from rfl, bitOf_or_one]
      exact Bool.or_true _
    have hctl' : e.flag Fld.TWP_CTRL_CTL_EN = true := by
      rw [he, Dev.flag_ctrlSet _ _ rfl rfl (.inr rfl), show Fld.TWP_CTRL_CTL_EN.lo = 1 from rfl, bitOf_or_one, hctl]
      rfl
    rw [← he] at hrd hfop hop hcar hstand hnow hqueue
    obtain ⟨hno, htwp⟩ := Dev.sdaCheck_of_high (owner := true) (a := false) (b := false) hctl' (hstand.trans hstandby)
    have hflag {F : Fld} (hF : e.flag F = true) : (e.sdaCheck ⟨0, false, false⟩ true).fld F = 1 :=
      (congrArg (fun d : Dev => d.fld F) hno :).trans (beq_iff_eq.mp hF)
    refine ⟨_, s.onDev_of (g := doTwpEnable fn data ⟨0, false, false⟩ t) hdo, hflag hen', hflag hctl', by rw [htwp], by rw [htwp, hnow]; rfl, by rw [htwp]; rfl,
      by rw [htwp], by rw [htwp]; exact hqueue, fun k hk _ => ?_, ?_, rfl, rfl⟩
    · exact (congrArg (fun d : Dev => d.rd k) hno :).trans (hrd k hk)
    · exact (congrArg (fun d : Dev => d.f.car) hno :).trans hcar
  · obtain ⟨hrd, hfop, hop, hcar, -, -, hqueue, htgts, hcur⟩ := (s.dev.at t).ctrlSet_left (data &&& 0xFFFFFFFD)
    obtain ⟨e, he⟩ : ∃ e, e = (s.dev.at t).ctrlSet (data &&& 0xFFFFFFFD) := ⟨_, rfl⟩
    have hdo : doTwpCtlEnWrite fn false data t s.dev = ({ e with f.twp.queue := [] } : Dev).endAll e.f.twp.queue := by
      rw [he]
      exact congrArg (FwOut.orRej · (s.dev.at t) Fld.TWP_STATUS_CFG_REJ)
        (Dev.twpCtrlWrite_of_off (d := s.dev.at t) hmay hmode hvalid hscl hrst hactive)
    have hctl' : e.flag Fld.TWP_CTRL_CTL_EN = false := by
      rw [he, Dev.flag_ctrlSet _ _ rfl rfl (.inr rfl), show Fld.TWP_CTRL_CTL_EN.lo = 1 from rfl, bitOf_and]
      exact Bool.and_false _
    rw [← he] at hrd hfop hop hcar hqueue htgts hcur
    have hno := Dev.noOps_endAll ({ e with f.twp.queue := [] } : Dev) e.f.twp.queue
    refine ⟨_, s.onDev_of (g := doTwpCtlEnWrite fn false data t) hdo, ?_, (congrArg (fun d : Dev => d.f.twp.queue) hno :),
      (congrArg (fun d : Dev => d.f.twp.tgts) hno :).trans htgts, (congrArg (fun d : Dev => d.f.twp.cur) hno :).trans hcur,
      fun g hg hf hlive ho => ?_, fun k hk => (congrArg (fun d : Dev => d.rd k) hno :).trans (hrd k hk),
      (congrArg (fun d : Dev => d.f.car) hno :).trans hcar, rfl, rfl⟩
    · have hzero : e.fld Fld.TWP_CTRL_CTL_EN = 0 := by
        have hlt : e.fld Fld.TWP_CTRL_CTL_EN < 2 := bitsOf_lt _ _ 1
        have hne : e.fld Fld.TWP_CTRL_CTL_EN ≠ 1 := beq_eq_false_iff_ne.mp hctl'
        omega
      exact (congrArg (fun d : Dev => d.fld Fld.TWP_CTRL_CTL_EN) hno :).trans hzero
    · rw [Dev.fop_endAll (d := { e with f.twp.queue := [] }) (o := o) hlive (by rw [hqueue]; exact hg) ((hfop g).trans hf)
        ((congrArg Option.isSome (hop g)).trans ho)]
      rfl
  · obtain ⟨hrd, hfops, hops, hcar, hstand, hnow, hqueue, -, hcurE⟩ := (s.dev.at t).ctrlSet_left (data ||| 32)
    obtain ⟨e, he⟩ : ∃ e, e = (s.dev.at t).ctrlSet (data ||| 32) := ⟨_, rfl⟩
    obtain ⟨owner, hwrite⟩ := Dev.twpCtrlWrite_of_reset (d := s.dev.at t) hmay hmode hvalid hscl hen hctl ⟨0, false, false⟩
    have hctl' : e.flag Fld.TWP_CTRL_CTL_EN = true := by
      rw [he, Dev.flag_ctrlSet _ _ rfl rfl (.inr rfl), show Fld.TWP_CTRL_CTL_EN.lo = 1 from rfl, bitOf_or, hctl]
      rfl
    rw [← he] at hrd hfops hops hcar hstand hnow hqueue hcurE hwrite
    obtain ⟨x, hx⟩ : ∃ x, x = ({ e with f.twp := { e.f.twp with cur := none, onBus := false } } : Dev).endF tag stWRONG_STATE 0 := ⟨_, rfl⟩
    have hreset : e.ctrlReset true = x := by
      rw [hx]
      unfold Dev.ctrlReset
      rw [show e.f.twp.cur = some (tag, losses) from hcurE.trans hcur]
      rfl
    have hdo : doTwpCtlRst fn data ⟨0, false, false⟩ t s.dev = x.sdaCheck ⟨0, false, false⟩ owner := by
      rw [← hreset]
      exact congrArg (FwOut.orRej · (s.dev.at t) Fld.TWP_STATUS_CFG_REJ) hwrite
    have hnoX := Dev.noOps_endF ({ e with f.twp := { e.f.twp with cur := none, onBus := false } } : Dev) tag stWRONG_STATE 0
    rw [← hx] at hnoX
    have hsame : x.fop tag = some { o with ended := some (stWRONG_STATE, 0) } := by
      rw [hx]
      exact Dev.fop_endF_same (d := { e with f.twp := { e.f.twp with cur := none, onBus := false } }) _ _ ((hfops tag).trans hfop) hlive
        ((congrArg Option.isSome (hops tag)).trans hop)
    obtain ⟨hno, hcurC, hbusC, hqueueC, -⟩ := x.sdaCheck_high_kept owner false false
    have hfopC (g : Nat) : (x.sdaCheck ⟨0, false, false⟩ owner).fop g = x.fop g := (congrArg (fun d : Dev => d.fop g) hno :)
    refine ⟨_, s.onDev_of (g := doTwpCtlRst fn data ⟨0, false, false⟩ t) hdo, hcurC.trans (congrArg (fun d : Dev => d.f.twp.cur) hnoX :),
      hbusC.trans (congrArg (fun d : Dev => d.f.twp.onBus) hnoX :), ?_, fun g hg => ?_, fun hstandby => ?_, ?_, fun k hk _ => ?_, ?_, rfl, rfl⟩
    · rw [hfopC, hsame]
      rfl
    · rw [hfopC, hx, Dev.fop_endF_ne _ _ _ hg]
      exact hfops g
    · obtain ⟨-, htwp⟩ := Dev.sdaCheck_of_high (d := x) (owner := owner) (a := false) (b := false)
        ((congrArg (fun d : Dev => d.flag Fld.TWP_CTRL_CTL_EN) hnoX :).trans hctl')
        ((congrArg (fun d : Dev => d.f.ch.standby) hnoX :).trans (hstand.trans hstandby))
      rw [htwp]
      exact ⟨rfl, congrArg some ((congrArg (fun d : Dev => d.now) hnoX :).trans hnow)⟩
    · exact hqueueC.trans ((congrArg (fun d : Dev => d.f.twp.queue) hnoX :).trans hqueue)
    · exact (congrArg (fun d : Dev => d.rd k) hno :).trans ((congrArg (fun d : Dev => d.rd k) hnoX :).trans (hrd k hk))
    · exact (congrArg (fun d : Dev => d.f.car) hno :).trans ((congrArg (fun d : Dev => d.f.car) hnoX :).trans hcar)

end Sys2Proof.Machine
end

section
/-!
PROOF. Operations of the FSP: its order, its runs and target operations taken, its stop, and its selects set up (R173 to R186, R195, R204).
-/

namespace Sys2Proof.Machine

/-! ## The order and the reads ahead -/

/-- A read of nothing sends no request. -/
theorem Dev.hostRead_zero (d : Dev) (fn : Func) (addr : Nat) : d.hostRead fn addr 0 = d := rfl

theorem Dev.fspAsk_of_asked {d : Dev} {r : FspRun} (h : r.asked = true ∨ r.txWords = 0) : d.fspAsk r = d :=
  if_pos (by rcases h with h | h <;> simp [h])

/-- Where every run's transmit containers have been asked for, nothing is read. -/
theorem Dev.fspFetch_of_asked {d : Dev} (h : ∀ w ∈ d.f.fsp.runs, w.asked = true ∨ w.txWords = 0) : d.fspFetch = d := by
  have hfix : ∀ l : List FspRun, (∀ w ∈ l, w.asked = true ∨ w.txWords = 0) → l.foldl Dev.fspAsk d = d := by
    intro l
    induction l with
    | nil => intro _; rfl
    | cons w l ih =>
      intro hl
      obtain ⟨hw, hl⟩ := List.forall_mem_cons.mp hl
      rw [List.foldl_cons, Dev.fspAsk_of_asked hw]
      exact ih hl
  refine hfix _ fun w hw => h w ?_
  simp only [List.mem_append, List.mem_filterMap] at hw
  rcases hw with (hw | hw) | ⟨i, hi, hrun⟩
  · simp [Fsp.runs, hw]
  · simp [Fsp.runs, hw]
  · rcases List.mem_append.mp (List.mem_of_mem_take hi) with hi | hi
    · obtain ⟨r, hr, rfl⟩ := List.mem_map.mp hi
      cases hrun
      simp only [Fsp.runs, List.mem_append]
      exact .inl (.inl (.inl hr))
    · simp only [Fsp.runs, List.mem_append, List.mem_filterMap]
      exact .inl (.inl (.inr ⟨i, hi, hrun⟩))

/-- A run whose containers are to be read now. -/
theorem Dev.fspAsk_of_alone {d : Dev} {r : FspRun} (hruns : d.f.fsp.runs = [r]) (hasked : r.asked = false) (htx : r.txWords ≤ 16384) :
    d.fspAsk r = if r.txWords = 0 then d else
      ({ d with f.fsp := d.f.fsp.mapRuns (fun x => if x.tag == r.tag then { x with asked := true } else x) }).hostRead r.fn r.txAddr
        (8 * r.txWords) := by
  unfold Dev.fspAsk
  simp [hruns, hasked, Nat.not_lt.mpr htx]

/-- While a run is in progress, or no load stands at the head, the order stays. -/
theorem Dev.fspTurn_of_still {d : Dev} (h : d.f.fsp.cur.isSome = true ∨ ∀ g rest, d.f.fsp.queue ≠ .load g :: rest) (n : Nat) : d.fspTurn n = d := by
  cases n with
  | zero => rfl
  | succ n =>
    unfold Dev.fspTurn
    split
    next hcur hq =>
      rcases h with h | h
      · rw [hcur] at h; cases h
      · exact absurd hq (h _ _)
    next => rfl

theorem Dev.fspNext_of_still {d : Dev} (h : d.f.fsp.cur.isSome = true ∨ ∀ g rest, d.f.fsp.queue ≠ .load g :: rest) : d.fspNext = d.fspFetch :=
  congrArg Dev.fspFetch (Dev.fspTurn_of_still h _)

/-- A load alone in the order executes. -/
theorem Dev.fspNext_of_load {d : Dev} {tag : Nat} (hcur : d.f.fsp.cur = none) (hq : d.f.fsp.queue = [.load tag]) :
    d.fspNext = (({ d with f.fsp.queue := [] } : Dev).fspLoadNow tag).fspFetch := by
  unfold Dev.fspNext
  rw [hq]
  refine congrArg Dev.fspFetch ?_
  show Dev.fspTurn (0 + 1) d = _
  rw [Dev.fspTurn, hcur, hq]
  rfl

/-! ## Entry loads -/

theorem Dev.fspLoadNow_of_good {d : Dev} {tag : Nat} {o : FOp} (hlive : d.liveOp tag opFSP_ENTRY_LOAD = some o)
    (hsel : d.selCode (ecSel o.desc.ectrl) = codeOf o.fn)
    (hloaded : (d.fspEntry o.desc.entry).loaded = true → d.selCode (ecSel (d.fspEntry o.desc.entry).ectrl) = codeOf o.fn)
    (hbad : fspLoadBad o.desc = false) (hfree : ∀ w ∈ d.f.fsp.waiting ++ d.f.fsp.fired, w.entry ≠ o.desc.entry)
    (habs : d.absEntry ≠ some o.desc.entry) :
    d.fspLoadNow tag = (d.setFspEntry o.desc.entry
      ⟨true, livePhases o.desc.phases, o.desc.ectrl, o.desc.buf, o.desc.txWords, 0⟩).endF tag stOK 0 := by
  unfold Dev.fspLoadNow
  rw [hlive]
  refine (if_neg ?_).trans ((if_neg ?_).trans ((if_neg ?_).trans rfl))
  · rw [hsel, bne_self_eq_false, Bool.false_or, Bool.and_eq_true, bne_iff_ne]
    rintro ⟨hl, hne⟩
    exact hne (hloaded hl)
  · rw [hbad]; exact Bool.false_ne_true
  · rw [Bool.or_eq_true, List.any_eq_true, beq_iff_eq]
    rintro (⟨w, hw, he⟩ | h)
    · exact hfree w hw (beq_iff_eq.mp he)
    · exact habs h

/-- An operation that its block has taken. -/
def FOp.taken (o : FOp) : FOp := { o with begun := true }

theorem doFspEntryLoad_of_fresh {d : Dev} {tag t : Nat} {o : FOp} (hfresh : d.freshOp tag opFSP_ENTRY_LOAD = some o)
    (hrole : d.flag Fld.FSP_CTRL_ROLE = false) (hq : d.f.fsp.queue = []) :
    doFspEntryLoad tag t d = ({ (d.at t).setFop tag (some o.taken) with f.fsp.queue := [FspItem.load tag] } : Dev).fspNext := by
  unfold doFspEntryLoad; dsimp only
  rw [show (d.at t).freshOp tag opFSP_ENTRY_LOAD = some o from hfresh]
  refine (if_neg ?_).trans ?_
  · rw [show ((d.at t).setFop tag (some { o with begun := true })).flag Fld.FSP_CTRL_ROLE = false from hrole]
    exact Bool.false_ne_true
  · rw [show ((d.at t).setFop tag (some { o with begun := true })).f.fsp.queue = [] from hq]
    rfl

/-! ## Runs -/

/-- A run as it is looked up in its entry, its transmit containers not yet asked for. -/
def FOp.run (o : FOp) (tag : Nat) (x : FspEntry) : FspRun :=
  ⟨some tag, o.desc.entry, o.fn, o.ring, o.desc.buf, o.desc.rxCap,
    x.buf + (if ecTxRing x.ectrl then x.runs % 2 ^ ecRingLog2 x.ectrl * 8 * x.txWords else 0), x.txWords, false,
    if x.txWords = 0 then some [] else none, 0, 0, false, false, false, 0, false, false⟩

theorem Dev.fspLookup_of_good {d : Dev} {tag : Nat} {o : FOp} {x : FspEntry} (hx : d.fspEntry o.desc.entry = x)
    (hrole : d.flag Fld.FSP_CTRL_ROLE = false) (hloaded : x.loaded = true) (hsel : d.selCode (ecSel x.ectrl) = codeOf o.fn)
    (habs : d.absEntry ≠ some o.desc.entry) (hwait : ∀ w ∈ d.f.fsp.waiting, w.entry ≠ o.desc.entry) :
    d.fspLookup tag o = if ecStartSlot x.ectrl then
        ({ d.setFspEntry o.desc.entry { x with runs := (x.runs + 1) % 2 ^ 32 } with f.fsp.waiting := d.f.fsp.waiting ++ [o.run tag x] }, none)
      else (d.setFspEntry o.desc.entry { x with runs := (x.runs + 1) % 2 ^ 32 }, some (o.run tag x)) := by
  have hcount : d.fspCount o.desc.entry = d.setFspEntry o.desc.entry { x with runs := (x.runs + 1) % 2 ^ 32 } := by
    unfold Dev.fspCount
    rw [hx]
    exact if_pos hloaded
  unfold Dev.fspLookup; dsimp only
  rw [hx, hcount]
  refine (if_neg ?_).trans ((if_neg ?_).trans ((if_neg ?_).trans rfl))
  · rw [hrole, hloaded]; exact Bool.false_ne_true
  · rw [hsel, bne_self_eq_false]; exact Bool.false_ne_true
  · rw [Bool.or_eq_true, Bool.and_eq_true, List.any_eq_true, beq_iff_eq]
    rintro (h | ⟨-, w, hw, he⟩)
    · exact habs h
    · exact hwait w hw (beq_iff_eq.mp he)

/-- A run looked up takes its place: aside for its slot start, or in the order, which was empty. -/
def Dev.runPlaced (d : Dev) (tag : Nat) (o : FOp) (x : FspEntry) (r : FspRun) : Dev :=
  let d1 := (d.setFop tag (some o.taken)).setFspEntry o.desc.entry { x with runs := (x.runs + 1) % 2 ^ 32 }
  if ecStartSlot x.ectrl then { d1 with f.fsp.waiting := d.f.fsp.waiting ++ [r] } else { d1 with f.fsp.queue := [FspItem.run r] }

theorem doFspRun_of_good {d : Dev} {tag t : Nat} {o : FOp} {x : FspEntry} (hfresh : d.freshOp tag opFSP_RUN = some o)
    (hrole : d.flag Fld.FSP_CTRL_ROLE = false) (hx : d.fspEntry o.desc.entry = x) (hloaded : x.loaded = true)
    (hsel : d.selCode (ecSel x.ectrl) = codeOf o.fn) (habs : d.absEntry ≠ some o.desc.entry) (hq : d.f.fsp.queue = [])
    (hwait : ∀ w ∈ d.f.fsp.waiting, w.entry ≠ o.desc.entry) :
    doFspRun tag t d = ((d.at t).runPlaced tag o x (o.run tag x)).fspFetch := by
  have hlook := Dev.fspLookup_of_good (d := (d.at t).setFop tag (some o.taken)) (tag := tag) (o := o.taken) (x := x) hx hrole hloaded hsel habs hwait
  have hsettle : ((d.at t).setFop tag (some o.taken)).fspSettle [FspItem.behind tag] = (d.at t).runPlaced tag o x (o.run tag x) := by
    unfold Dev.fspSettle; dsimp only
    rw [Dev.fop_setFop_same]
    dsimp only
    refine (if_neg ?_).trans ?_
    · unfold Dev.loadAhead
      rw [show ((d.at t).setFop tag (some o.taken)).f.fsp.queue = [] from hq]
      exact Bool.false_ne_true
    · rw [hlook]
      unfold Dev.runPlaced; dsimp only
      by_cases hslot : ecStartSlot x.ectrl = true
      · rw [if_pos hslot, if_pos hslot]
        rfl
      · rw [if_neg hslot, if_neg hslot]
        exact congrArg (fun q => { ((d.at t).setFop tag (some o.taken)).setFspEntry o.desc.entry { x with runs := (x.runs + 1) % 2 ^ 32 } with
          f.fsp.queue := q ++ [FspItem.run (o.run tag x)] }) hq
  unfold doFspRun; dsimp only
  rw [show (d.at t).freshOp tag opFSP_RUN = some o from hfresh]
  refine (congrArg Dev.fspNext hsettle).trans (Dev.fspNext_of_still (.inr fun g rest => ?_))
  unfold Dev.runPlaced
  cases ecStartSlot x.ectrl with
  | true =>
    show d.f.fsp.queue ≠ _
    simp [hq]
  | false => simp

/-- A run read for as soon as it is taken. -/
def FspRun.read (r : FspRun) : FspRun := { r with asked := decide (r.txWords ≠ 0) }

theorem FspRun.read_of_none {r : FspRun} (hasked : r.asked = false) (htx : r.txWords = 0) : r.read = r := by
  cases r
  cases hasked
  simp only [FspRun.read] at htx ⊢
  simp [htx]

section
variable {d : Dev} {r : FspRun} (hcur : d.f.fsp.cur = none) (hfired : d.f.fsp.fired = []) (hasked : r.asked = false) (htx : r.txWords ≤ 16384)
include hcur hfired hasked htx

/-- The only run of the FSP is read for at once: one aside. -/
theorem Dev.fspFetch_aside (hq : d.f.fsp.queue = []) : ({ d with f.fsp.waiting := [r] } : Dev).fspFetch =
    ({ d with f.fsp.waiting := [r.read] } : Dev).hostRead r.fn r.txAddr (8 * r.txWords) := by
  have hfetch : ({ d with f.fsp.waiting := [r] } : Dev).fspFetch = ({ d with f.fsp.waiting := [r] } : Dev).fspAsk r := by
    simp [Dev.fspFetch, hcur, hfired, hq]
  rw [hfetch, Dev.fspAsk_of_alone (by simp [Fsp.runs, hcur, hfired, hq]) hasked htx]
  by_cases hzero : r.txWords = 0
  · rw [if_pos hzero, FspRun.read_of_none hasked hzero, hzero]
    rfl
  · rw [if_neg hzero]
    refine congrArg (fun f : Fsp => ({ d with f.fsp := f } : Dev).hostRead r.fn r.txAddr (8 * r.txWords)) ?_
    simp [Fsp.mapRuns, hcur, hfired, hq, FspRun.read, hzero]

/-- And one in the order. -/
theorem Dev.fspFetch_inOrder (hwait : d.f.fsp.waiting = []) : ({ d with f.fsp.queue := [.run r] } : Dev).fspFetch =
    ({ d with f.fsp.queue := [.run r.read] } : Dev).hostRead r.fn r.txAddr (8 * r.txWords) := by
  have hfetch : ({ d with f.fsp.queue := [.run r] } : Dev).fspFetch = ({ d with f.fsp.queue := [.run r] } : Dev).fspAsk r := by
    simp [Dev.fspFetch, hcur, hfired, hwait, FspItem.run?]
  rw [hfetch, Dev.fspAsk_of_alone (by simp [Fsp.runs, hcur, hfired, hwait, FspItem.run?]) hasked htx]
  by_cases hzero : r.txWords = 0
  · rw [if_pos hzero, FspRun.read_of_none hasked hzero, hzero]
    rfl
  · rw [if_neg hzero]
    refine congrArg (fun f : Fsp => ({ d with f.fsp := f } : Dev).hostRead r.fn r.txAddr (8 * r.txWords)) ?_
    simp [Fsp.mapRuns, hcur, hfired, hwait, FspRun.read, hzero]

theorem Dev.fspFetch_runPlaced {tag : Nat} {o : FOp} {x : FspEntry} (hq : d.f.fsp.queue = []) (hwait : d.f.fsp.waiting = []) :
    (d.runPlaced tag o x r).fspFetch = (d.runPlaced tag o x r.read).hostRead r.fn r.txAddr (8 * r.txWords) := by
  unfold Dev.runPlaced; dsimp only
  rw [hwait]
  split
  · exact Dev.fspFetch_aside (d := (d.setFop tag (some o.taken)).setFspEntry o.desc.entry _) hcur hfired hasked htx hq
  · exact Dev.fspFetch_inOrder (d := (d.setFop tag (some o.taken)).setFspEntry o.desc.entry _) hcur hfired hasked htx hwait

end

/-- A run with nothing to send asks for nothing. -/
theorem Dev.fspFetch_runPlaced_of_none {d : Dev} {tag : Nat} {o : FOp} {x : FspEntry} {r : FspRun} (hq : d.f.fsp.queue = [])
    (hruns : ∀ w ∈ d.f.fsp.runs, w.asked = true ∨ w.txWords = 0) (htx : r.txWords = 0) :
    (d.runPlaced tag o x r).fspFetch = d.runPlaced tag o x r := by
  refine Dev.fspFetch_of_asked fun w hw => ?_
  have hor : w ∈ d.f.fsp.runs ∨ w = r := by
    unfold Dev.runPlaced Fsp.runs at hw
    unfold Fsp.runs
    dsimp only at hw
    split at hw
    all_goals
      simp only [Dev.setFspEntry_f, Dev.setFop, List.mem_append, List.mem_filterMap, List.mem_singleton, hq] at hw ⊢
      simp [FspItem.run?] at hw ⊢
      tauto
  exact hor.elim (hruns w) (fun h => .inr (h ▸ htx))

/-! ## Target operations -/

theorem doFspTarget_of_good {d : Dev} {tag t : Nat} {o : FOp} {sel : Nat} (hfresh : d.freshOp tag opFSP_TARGET = some o) (hrole : d.flag Fld.FSP_CTRL_ROLE = true)
    (hs : sel = o.desc.dest - 0x110)
    (hrpl : bitsOf o.desc.q2.toNat 0 16 = (d.fld (Fld.FSP_TGT_LEN_RPL_LENM1 sel) + 48) / 48)
    (hreq : (d.fld (Fld.FSP_TGT_LEN_RQ_MAXM1 sel) + 48) / 48 ≤ bitsOf o.desc.q4.toNat 0 16) :
    doFspTarget tag t d = ({ (d.at t).setFop tag (some { o with begun := true }) with
      f.fsp.tgts := d.f.fsp.tgts ++ [FspTgt.mk tag sel o.fn o.ring (bitsOf o.desc.q2.toNat 0 16) o.desc.q3.toNat
        (bitsOf o.desc.q4.toNat 0 16) none] } : Dev).hostRead o.fn o.desc.buf (8 * bitsOf o.desc.q2.toNat 0 16) := by
  rw [hs] at hrpl hreq ⊢
  unfold doFspTarget; dsimp only
  rw [show (d.at t).freshOp tag opFSP_TARGET = some o from hfresh]
  refine (if_neg ?_).trans ((if_neg ?_).trans rfl)
  · rw [show ((d.at t).setFop tag (some { o with begun := true })).flag Fld.FSP_CTRL_ROLE = true from hrole]
    exact Bool.false_ne_true
  · rw [Bool.or_eq_true, bne_iff_ne, decide_eq_true_iff]
    rintro (h | h)
    · exact h hrpl
    · exact Nat.not_lt.mpr hreq h

/-! ## The stop -/

/-- The FSP with nothing taken. -/
def Dev.fspEmptied (d : Dev) : Dev :=
  { d with f.fsp := { d.f.fsp with
    cur := none, inWord := false, queue := [], waiting := [], fired := [], absDue := false, tgts := [], serving := none, stopping := false } }

/-- An operation of the FSP that the stop ends. -/
def Dev.fspStop (d : Dev) (p : Nat × Option FOp) : Dev :=
  match p.2 with
  | some o =>
    if o.ended.isSome || !isFsp o.desc.opcode then d
    else (if o.desc.opcode = opFSP_RUN then d.fspCount o.desc.entry else d).endF p.1 stWRONG_STATE 0
  | none => d

/-- The FSP with the ends of its runs sent. -/
def Dev.runsEnded (d : Dev) : Dev := d.f.fsp.runs.foldl (fun d r => d.fspRunEnd r stWRONG_STATE) d.fspEmptied

theorem Dev.fspAbortAll_eq (d : Dev) : d.fspAbortAll = d.runsEnded.f.ops.foldl Dev.fspStop d.runsEnded := rfl

/-- The device without what a stop changes beyond the FSP's order. -/
def Dev.unlisted (d : Dev) : Dev := { d.noOps with f.fsp.entries := [] }

/-- What a stop may do: run counters advance, and operations that have not ended end WRONG_STATE. -/
structure Dev.Stopped (d e : Dev) : Prop where
  unlisted : e.unlisted = d.unlisted
  entries : ∀ k, ∃ n, e.fspEntry k = { d.fspEntry k with runs := n }
  ended : ∀ g y, d.fop g = some y → y.ended.isSome = true → e.fop g = some y
  live : ∀ g y, d.fop g = some y → y.ended = none → (d.op g).isSome = true →
    e.fop g = some y ∨ ∃ res, e.fop g = some { y with ended := some (stWRONG_STATE, res) }

namespace Dev.Stopped

theorem refl (d : Dev) : d.Stopped d := ⟨rfl, fun _ => ⟨_, rfl⟩, fun _ _ h _ => h, fun _ _ h _ _ => .inl h⟩

theorem op {d e : Dev} (h : d.Stopped e) (g : Nat) : e.op g = d.op g := (congrArg (fun d : Dev => d.op g) h.unlisted :)

theorem trans {d e f : Dev} (h : d.Stopped e) (k : e.Stopped f) : d.Stopped f where
  unlisted := k.unlisted.trans h.unlisted
  entries i := by
    obtain ⟨n, hn⟩ := h.entries i
    obtain ⟨m, hm⟩ := k.entries i
    exact ⟨m, by rw [hm, hn]⟩
  ended g y hy hend := k.ended g y (h.ended g y hy hend) hend
  live g y hy hlive hop := by
    rcases h.live g y hy hlive hop with hy' | ⟨res, hy'⟩
    · exact k.live g y hy' hlive (by rw [h.op]; exact hop)
    · exact .inr ⟨res, k.ended g _ hy' rfl⟩

theorem endF (d : Dev) (tag : Nat) (res : Quad) : d.Stopped (d.endF tag stWRONG_STATE res) where
  unlisted := congrArg (fun d : Dev => { d with f.fsp.entries := [] }) (d.noOps_endF tag _ res)
  entries k := ⟨(d.fspEntry k).runs, (congrArg (fun d : Dev => d.fspEntry k) (d.noOps_endF tag _ res) :)⟩
  ended g y hy hend := by
    by_cases hg : g = tag
    · subst hg
      rw [Dev.endF_of_ended hy hend]
      exact hy
    · exact (d.fop_endF_ne _ _ hg).trans hy
  live g y hy hlive hop := by
    by_cases hg : g = tag
    · subst hg
      exact .inr ⟨res, Dev.fop_endF_same _ _ hy hlive hop⟩
    · exact .inl ((d.fop_endF_ne _ _ hg).trans hy)

theorem fspRunEnd (d : Dev) (r : FspRun) : d.Stopped (d.fspRunEnd r stWRONG_STATE) := by
  unfold Dev.fspRunEnd
  split
  · exact endF ..
  · exact refl d

theorem fspCount (d : Dev) (k : Nat) : d.Stopped (d.fspCount k) := by
  unfold Dev.fspCount; dsimp only
  split
  · refine ⟨rfl, fun i => ?_, fun _ _ h _ => h, fun _ _ h _ _ => .inl h⟩
    by_cases hi : i = k
    · subst hi
      exact ⟨_, Dev.fspEntry_setFspEntry_same ..⟩
    · exact ⟨_, Dev.fspEntry_setFspEntry_ne _ _ hi⟩
  · exact refl d

theorem fspStop (d : Dev) (p : Nat × Option FOp) : d.Stopped (d.fspStop p) := by
  unfold Dev.fspStop
  repeat' split
  · exact refl d
  · exact (fspCount ..).trans (endF ..)
  · exact endF ..
  · exact refl d

theorem foldl {β : Type} {f : Dev → β → Dev} (hf : ∀ (d : Dev) (b : β), d.Stopped (f d b)) : ∀ (l : List β) (d : Dev), d.Stopped (l.foldl f d)
  | [], d => refl d
  | b :: l, d => (hf d b).trans (foldl hf l (f d b))

end Dev.Stopped

theorem Dev.stopped_runsEnded (d : Dev) : d.fspEmptied.Stopped d.runsEnded := Dev.Stopped.foldl Dev.Stopped.fspRunEnd _ _

theorem Dev.stopped_fspAbortAll (d : Dev) : d.fspEmptied.Stopped d.fspAbortAll :=
  d.stopped_runsEnded.trans (Dev.Stopped.foldl Dev.Stopped.fspStop _ _)

/-- An operation of the FSP that is listed ends where it stands. -/
theorem Dev.fop_fspStop_of_live {d : Dev} {g : Nat} {y : FOp} (hy : d.fop g = some y) (hlive : y.ended = none) (hfsp : isFsp y.desc.opcode = true)
    (hop : (d.op g).isSome = true) : (d.fspStop (g, some y)).fop g = some { y with ended := some (stWRONG_STATE, 0) } := by
  unfold Dev.fspStop; dsimp only
  rw [if_neg (by rw [hlive, hfsp]; exact Bool.false_ne_true)]
  split
  · have hcount := Dev.Stopped.fspCount d y.desc.entry
    refine Dev.fop_endF_same _ _ ?_ hlive (by rw [hcount.op]; exact hop)
    unfold Dev.fspCount; dsimp only
    split
    · exact hy
    · exact hy
  · exact Dev.fop_endF_same _ _ hy hlive hop

/-- Each operation of the FSP listed ends WRONG_STATE. -/
theorem Dev.fop_fspStops {g : Nat} {y : FOp} (hlive : y.ended = none) (hfsp : isFsp y.desc.opcode = true) :
    ∀ {l : List (Nat × Option FOp)} {d : Dev}, (g, some y) ∈ l → (d.op g).isSome = true →
      (d.fop g = some y ∨ ∃ res, d.fop g = some { y with ended := some (stWRONG_STATE, res) }) →
      ∃ res, (l.foldl Dev.fspStop d).fop g = some { y with ended := some (stWRONG_STATE, res) }
  | [], _, hmem, _, _ => absurd hmem List.not_mem_nil
  | p :: l, d, hmem, hop, .inr ⟨res, hy⟩ => ⟨res, (Dev.Stopped.foldl Dev.Stopped.fspStop (p :: l) d).ended g _ hy rfl⟩
  | p :: l, d, hmem, hop, .inl hy => by
    rcases List.mem_cons.mp hmem with rfl | htail
    · exact ⟨0, (Dev.Stopped.foldl Dev.Stopped.fspStop l _).ended g _ (Dev.fop_fspStop_of_live hy hlive hfsp hop) rfl⟩
    · have hstop := Dev.Stopped.fspStop d p
      show ∃ res, (l.foldl Dev.fspStop (d.fspStop p)).fop g = _
      exact Dev.fop_fspStops hlive hfsp htail (by rw [hstop.op]; exact hop) (hstop.live g y hy hlive hop)

/-- A stop ends every operation of the FSP that has not ended. -/
theorem Dev.fop_fspAbortAll {d : Dev} {g : Nat} {y : FOp} (hy : d.fop g = some y) (hfsp : isFsp y.desc.opcode = true) (hlive : y.ended = none)
    (hop : (d.op g).isSome = true) : ∃ res, (d.fspAbortAll.fop g).bind (·.ended) = some (stWRONG_STATE, res) := by
  have hruns := d.stopped_runsEnded
  have hresult : ∃ res, d.fspAbortAll.fop g = some { y with ended := some (stWRONG_STATE, res) } := by
    rw [Dev.fspAbortAll_eq]
    rcases hruns.live g y hy hlive hop with hy' | ⟨res, hy'⟩
    · refine Dev.fop_fspStops hlive hfsp ?_ (by rw [hruns.op]; exact hop) (.inl hy')
      rw [← hy']
      exact Tab.mem_of_get_ne _ (by rw [show Tab.get _ d.runsEnded.f.ops g = some y from hy']; exact Option.some_ne_none y)
    · exact ⟨res, (Dev.Stopped.foldl Dev.Stopped.fspStop _ _).ended g _ hy' rfl⟩
  obtain ⟨res, hresult⟩ := hresult
  exact ⟨res, by rw [hresult]; rfl⟩

/-- FSP_CTRL after EN is written 0. -/
def Dev.fspOff (d : Dev) (data : Word) : Dev :=
  d.wr Reg.FSP_CTRL (((data &&& 0xFFFFFFFE) &&& 0x7) ||| ((d.rd Reg.FSP_CTRL ||| (data &&& 0xFFFFFFFE)) &&& 0x8))

theorem Dev.fspCtrlWrite_of_off {d : Dev} {fn : Func} {data : Word} (hown : d.owns Fld.PCI_OWN_PORT_FSP fn = true)
    (hen : d.flag Fld.FSP_CTRL_EN = true) (hsame : changes (d.rd Reg.FSP_CTRL) (data &&& 0xFFFFFFFE) 0x6 = false) :
    d.fspCtrlWrite fn (data &&& 0xFFFFFFFE) = .ok (if d.f.fsp.inWord || d.f.fsp.serving.isSome then
      { d.fspOff data with f.fsp.stopping := true } else (d.fspOff data).fspAbortAll) := by
  have hoff : bitOf (data &&& 0xFFFFFFFE).toNat 0 = false := by rw [bitOf_and]; exact Bool.and_false _
  have hon : bitOf (d.rd Reg.FSP_CTRL).toNat 0 = true := hen
  unfold Dev.fspCtrlWrite; dsimp only
  rw [hown, hsame, hoff, hon]
  simp only [Bool.and_false, Bool.not_true, Bool.false_eq_true, if_false, Bool.not_false, Bool.and_true, if_true]
  rfl

theorem Dev.fld_fspOff (d : Dev) (data : Word) : (d.fspOff data).fld Fld.FSP_CTRL_EN = 0 := by
  have hbit : bitOf (((data &&& 0xFFFFFFFE) &&& 0x7) ||| ((d.rd Reg.FSP_CTRL ||| (data &&& 0xFFFFFFFE)) &&& 0x8)).toNat 0 = bitOf 0 0 := by
    rw [bitOf_or, bitOf_and, bitOf_and, bitOf_and]
    simp [bitOf]
  have hzero : bitsOf (((data &&& 0xFFFFFFFE) &&& 0x7) ||| ((d.rd Reg.FSP_CTRL ||| (data &&& 0xFFFFFFFE)) &&& 0x8)).toNat 0 1 = bitsOf 0 0 1 :=
    bitsOf_congr fun i hi => by rw [Nat.lt_one_iff.mp hi]; exact hbit
  unfold Dev.fspOff Dev.fld
  rw [show Fld.FSP_CTRL_EN.off = Reg.FSP_CTRL from rfl, Dev.rd_wr_same]
  exact hzero

theorem Dev.fspOff_left (d : Dev) (data : Word) : (∀ k, k ≠ Reg.FSP_CTRL → (d.fspOff data).rd k = d.rd k) ∧ (d.fspOff data).f.fsp = d.f.fsp ∧
    (d.fspOff data).f.car = d.f.car ∧ (d.fspOff data).f.ch = d.f.ch ∧ (∀ g, (d.fspOff data).fop g = d.fop g) ∧
    (∀ g, (d.fspOff data).op g = d.op g) :=
  ⟨fun _ hk => d.rd_wr_ne _ hk, by simp [Dev.fspOff], by simp [Dev.fspOff], by simp [Dev.fspOff], fun g => by simp [Dev.fspOff, Dev.fop],
    fun g => by simp [Dev.fspOff, Dev.op]⟩

/-! ## A select set up -/

/-- The alive state of a select that has been set up anew. -/
def FspSel.cleared (k : FspSel) : FspSel := { k with txAlive := none, rxAlive := 0, prev := none }

theorem specOf_fspTgtLen : ∀ k, k < 8 → specOf (baseOff (Reg.FSP_TGT_LEN k)) = some ⟨0x2864, 8, 8, 0x1FFF1FFF, 0x0, 0x0, 0x2F002F⟩ := by decide
theorem specOf_fspTgtCfg : ∀ k, k < 8 → specOf (baseOff (Reg.FSP_TGT_CFG k)) = some ⟨0x2860, 8, 8, 0x3FFF, 0x0, 0x0, 0x80⟩ := by decide

section
variable {d : Dev} {fn : Func} {sel : Nat} (hsel : sel < 8) (hown : d.selCode sel = codeOf fn) (htgts : ∀ y ∈ d.f.fsp.tgts, y.sel ≠ sel)
  (hserve : ∀ y, d.f.fsp.serving = some y → y.1 ≠ sel)
  (hword : d.f.fsp.inWord = true → ∀ y, d.f.fsp.cur = some y → ecSel (d.fspEntry y.entry).ectrl ≠ sel)
include hown htgts hserve hword

/-- A write of a register of a select that is not in use. -/
theorem Dev.fspTgtWrite_of_idle {off : Nat} {data : Word} (hoff : (off - 0x2860) / 8 = sel)
    (hta : (off - 0x2860) % 8 = 0 → 2 ≤ bitsOf data.toNat 6 8) :
    d.fspTgtWrite fn off data = .ok ((d.wrAccess off data).setFspSel sel (d.fspSel sel).cleared) := by
  subst hoff
  refine (if_neg ?_).trans ((if_neg ?_).trans rfl)
  · rw [hown, bne_self_eq_false]; exact Bool.false_ne_true
  · simp only [Bool.or_eq_true, Bool.and_eq_true, List.any_eq_true, beq_iff_eq, decide_eq_true_iff]
    rintro (((⟨y, hy, he⟩ | h) | ⟨hin, h⟩) | ⟨hmod, hlt⟩)
    · exact htgts y hy he
    · split at h
      · exact hserve _ ‹_› (beq_iff_eq.mp h)
      · cases h
    · split at h
      · exact hword hin _ ‹_› (beq_iff_eq.mp h)
      · cases h
    · exact absurd (hta hmod) (Nat.not_le.mpr hlt)

include hsel

theorem doFspTgtCfgWrite_len (data : Word) (t : Nat) : doFspTgtCfgWrite fn (Reg.FSP_TGT_LEN sel) data t d =
    ((d.at t).wr (Reg.FSP_TGT_LEN sel) ((d.rd (Reg.FSP_TGT_LEN sel) &&& ~~~0x1FFF1FFF) ||| (data &&& 0x1FFF1FFF))).setFspSel sel
      (d.fspSel sel).cleared := by
  have hwrite := Dev.fspTgtWrite_of_idle (d := d.at t) (data := data) (off := Reg.FSP_TGT_LEN sel) hown htgts hserve hword
    (by unfold Reg.FSP_TGT_LEN; omega) (by unfold Reg.FSP_TGT_LEN; omega)
  rw [Dev.wrAccess_of_rw _ _ (specOf_fspTgtLen sel hsel), writeBits_of_no_w1c rfl] at hwrite
  refine (if_pos (by unfold Reg.FSP_TGT_LEN; omega)).trans (congrArg (FwOut.orRej · (d.at t) Fld.FSP_STATUS_CFG_REJ) hwrite)

theorem doFspTgtCfgWrite_cfg {data : Word} (hta : 2 ≤ bitsOf data.toNat 6 8) (t : Nat) : doFspTgtCfgWrite fn (Reg.FSP_TGT_CFG sel) data t d =
    ((d.at t).wr (Reg.FSP_TGT_CFG sel) ((d.rd (Reg.FSP_TGT_CFG sel) &&& ~~~0x3FFF) ||| (data &&& 0x3FFF))).setFspSel sel
      (d.fspSel sel).cleared := by
  have hwrite := Dev.fspTgtWrite_of_idle (d := d.at t) (data := data) (off := Reg.FSP_TGT_CFG sel) hown htgts hserve hword
    (by unfold Reg.FSP_TGT_CFG; omega) (fun _ => hta)
  rw [Dev.wrAccess_of_rw _ _ (specOf_fspTgtCfg sel hsel), writeBits_of_no_w1c rfl] at hwrite
  refine (if_pos (by unfold Reg.FSP_TGT_CFG; omega)).trans (congrArg (FwOut.orRej · (d.at t) Fld.FSP_STATUS_CFG_REJ) hwrite)

end

/-! ## The statement -/

/-- The order emptied and the load that stood alone in it taken; and its entry replaced. -/
def Dev.loadTaken (d : Dev) (tag : Nat) (o : FOp) : Dev := { d.setFop tag (some o.taken) with f.fsp.queue := [] }
def Dev.entryLoaded (d : Dev) (tag : Nat) (o : FOp) : Dev :=
  (d.loadTaken tag o).setFspEntry o.desc.entry ⟨true, livePhases o.desc.phases, o.desc.ectrl, o.desc.buf, o.desc.txWords, 0⟩

theorem Dev.fop_entryLoaded (d : Dev) (tag : Nat) (o : FOp) : (d.entryLoaded tag o).fop tag = some o.taken := d.fop_setFop_same tag (some o.taken)

/-- Ends of operations leave the FSP. -/
theorem Dev.fsp_endF (d : Dev) (tag st : Nat) (r : Quad) : (d.endF tag st r).f.fsp = d.f.fsp :=
  (congrArg (fun d : Dev => d.f.fsp) (d.noOps_endF tag st r) :)

theorem doFspEntryLoad_of_good {d : Dev} {tag t : Nat} {o : FOp} (hfresh : d.freshOp tag opFSP_ENTRY_LOAD = some o) (hrole : d.flag Fld.FSP_CTRL_ROLE = false)
    (hcur : d.f.fsp.cur = none) (hq : d.f.fsp.queue = [])
    (hfree : ∀ w ∈ d.f.fsp.waiting ++ d.f.fsp.fired, w.asked = true ∧ w.entry ≠ o.desc.entry) (habs : d.absEntry ≠ some o.desc.entry)
    (hsel : d.selCode (ecSel o.desc.ectrl) = codeOf o.fn)
    (hloaded : (d.fspEntry o.desc.entry).loaded = true → d.selCode (ecSel (d.fspEntry o.desc.entry).ectrl) = codeOf o.fn)
    (hbad : fspLoadBad o.desc = false) :
    doFspEntryLoad tag t d = ((d.at t).entryLoaded tag o).endF tag stOK 0 := by
  obtain ⟨-, hend, hopc, -, -⟩ := Dev.freshOp_spec hfresh
  have hlive : ((d.at t).loadTaken tag o).liveOp tag opFSP_ENTRY_LOAD = some o.taken := by
    unfold Dev.liveOp
    rw [show ((d.at t).loadTaken tag o).fop tag = some o.taken from (d.at t).fop_setFop_same tag (some o.taken)]
    exact if_pos (by simp [FOp.taken, hend, hopc])
  have hload := Dev.fspLoadNow_of_good hlive hsel hloaded hbad (fun w hw => (hfree w hw).2) habs
  refine (doFspEntryLoad_of_fresh hfresh hrole hq).trans ((Dev.fspNext_of_load (tag := tag) ?_ ?_).trans
    ((congrArg Dev.fspFetch hload).trans (Dev.fspFetch_of_asked fun w hw => .inl (hfree w ?_).1)))
  · exact hcur
  · rfl
  have hruns : ((d.at t).entryLoaded tag o).f.fsp.runs = d.f.fsp.waiting ++ d.f.fsp.fired :=
    (congrArg (fun c : Option FspRun => c.toList ++ [] ++ d.f.fsp.waiting ++ d.f.fsp.fired) hcur)
  rw [← hruns, ← Dev.fsp_endF _ tag stOK 0]
  exact hw

/-- Settles O26: an operation that its checks pass takes effect or its place in the order, the stop ends what is open, and a select in no
use is set up. -/
theorem serialPortOperations : Obligations.SerialPortOperations := by
  unfold Obligations.SerialPortOperations
  intro s fn tag sel t data o x c r
  refine ⟨fun hfresh hop hrole hcur hq hfree habs hsel hloaded hbad => ?_, fun hfresh hrole hcur hq hasked => ?_,
    fun hfresh hrole hx hloaded hsel habs hq htx hr => ⟨fun hcur hwait hfired => ?_, fun hzero hasked hwait => ?_⟩,
    fun hfresh hrole hs hrpl hreq => ?_, fun hown hen hsame => ⟨fun hbusy => ?_, fun hidle hserve => ?_⟩, fun hlt hown htgts hserve hword => ⟨?_, fun hta => ?_⟩⟩
  · obtain ⟨hfop, hend, -, -, -⟩ := Dev.freshOp_spec hfresh
    obtain ⟨e, he⟩ : ∃ e, e = (s.dev.at t).entryLoaded tag o := ⟨_, rfl⟩
    have htaken : e.fop tag = some o.taken := he ▸ Dev.fop_entryLoaded ..
    have hop' : (e.op tag).isSome = true := he ▸ hop
    have hdo := doFspEntryLoad_of_good (t := t) hfresh hrole hcur hq hfree habs hsel hloaded hbad
    rw [← he] at hdo
    have hno := e.noOps_endF tag stOK 0
    have hrd (k : Nat) : e.rd k = s.dev.rd k := he ▸ rfl
    refine ⟨_, s.onDev_of hdo, ?_, fun k hk => ?_, ?_, fun g hg => ?_, ?_, fun k => ?_, rfl, rfl⟩
    · exact (congrArg (fun d : Dev => d.fspEntry o.desc.entry) hno :).trans (he ▸ Dev.fspEntry_setFspEntry_same ..)
    · exact (congrArg (fun d : Dev => d.fspEntry k) hno :).trans (he ▸ Dev.fspEntry_setFspEntry_ne _ _ hk)
    · exact (congrArg (fun x : Option FOp => x.bind (·.ended)) (Dev.fop_endF_same stOK 0 htaken hend hop'))
    · exact (Dev.fop_endF_ne _ _ _ hg).trans (he ▸ (s.dev.at t).fop_setFop_ne (some o.taken) hg)
    · exact (congrArg (fun d : Dev => d.f.fsp.queue) hno :).trans (he ▸ rfl)
    · exact (congrArg (fun d : Dev => d.rd k) hno :).trans (hrd k)
  · refine s.onDev_of ((doFspEntryLoad_of_fresh hfresh hrole hq).trans ((Dev.fspNext_of_still (.inl ?_)).trans (Dev.fspFetch_of_asked fun w hw => hasked w ?_)))
    · exact congrArg Option.isSome hcur
    · simp only [Fsp.runs, hq]
      exact hw
  · refine s.onDev_of ((doFspRun_of_good hfresh hrole hx hloaded hsel habs hq (by simp [hwait])).trans ?_)
    rw [Dev.fspFetch_runPlaced (d := s.dev.at t) hcur hfired rfl htx hq hwait, hr]
    unfold Dev.runPlaced; dsimp only
    rw [show (s.dev.at t).f.fsp.waiting = [] from hwait]
    rfl
  · refine s.onDev_of ((doFspRun_of_good hfresh hrole hx hloaded hsel habs hq hwait).trans ?_)
    have hread : r = o.run tag x := hr.trans (FspRun.read_of_none (r := o.run tag x) rfl hzero)
    rw [Dev.fspFetch_runPlaced_of_none (d := s.dev.at t) hq hasked hzero, hread]
    rfl
  · exact s.onDev_of (doFspTarget_of_good hfresh hrole hs hrpl hreq)
  · have hwrite := Dev.fspCtrlWrite_of_off (d := s.dev.at t) hown hen hsame
    rw [if_pos (show ((s.dev.at t).f.fsp.inWord || (s.dev.at t).f.fsp.serving.isSome) = true from (Bool.or_eq_true ..).mpr hbusy)] at hwrite
    exact s.onDev_of (g := doFspDisable fn data t) (congrArg (FwOut.orRej · (s.dev.at t) Fld.FSP_STATUS_CFG_REJ) hwrite)
  · have hwrite := Dev.fspCtrlWrite_of_off (d := s.dev.at t) hown hen hsame
    obtain ⟨hrd, hfsps, hcar, hch, hfop, hop⟩ := (s.dev.at t).fspOff_left data
    have hen := (s.dev.at t).fld_fspOff data
    obtain ⟨e, he⟩ : ∃ e, e = (s.dev.at t).fspOff data := ⟨_, rfl⟩
    rw [if_neg (by rw [show (s.dev.at t).f.fsp.inWord = false from hidle, show (s.dev.at t).f.fsp.serving = none from hserve]; exact Bool.false_ne_true),
      ← he] at hwrite
    rw [← he] at hrd hfsps hcar hch hfop hop hen
    have hdo : doFspDisable fn data t s.dev = e.fspAbortAll := congrArg (FwOut.orRej · (s.dev.at t) Fld.FSP_STATUS_CFG_REJ) hwrite
    have hstop := e.stopped_fspAbortAll
    have hends {g : Nat} {y : FOp} := Dev.fop_fspAbortAll (d := e) (g := g) (y := y)
    obtain ⟨z, hz⟩ : ∃ z, z = e.fspAbortAll := ⟨_, rfl⟩
    rw [← hz] at hdo hstop hends
    have hno := hstop.unlisted
    refine ⟨_, s.onDev_of (g := doFspDisable fn data t) hdo, (congrArg (fun d : Dev => d.fld Fld.FSP_CTRL_EN) hno :).trans hen,
      (congrArg (fun d : Dev => d.f.fsp.cur) hno :), (congrArg (fun d : Dev => d.f.fsp.queue) hno :), (congrArg (fun d : Dev => d.f.fsp.waiting) hno :),
      (congrArg (fun d : Dev => d.f.fsp.fired) hno :), (congrArg (fun d : Dev => d.f.fsp.tgts) hno :), fun g y hy hfsp hlive ho => ?_,
      fun g y hy hend => ?_, fun k => ?_, ?_, fun k hk => (congrArg (fun d : Dev => d.rd k) hno :).trans (hrd k hk),
      (congrArg (fun d : Dev => d.f.car) hno :).trans hcar, (congrArg (fun d : Dev => d.f.ch) hno :).trans hch, rfl, rfl⟩
    · exact hends ((hfop g).trans hy) hfsp hlive ((congrArg Option.isSome (hop g)).trans ho)
    · exact hstop.ended g y ((hfop g).trans hy) hend
    · obtain ⟨n, hn⟩ := hstop.entries k
      refine ⟨n, hn.trans ?_⟩
      unfold Dev.fspEntry
      exact congrArg (fun f : Fsp => { Tab.get (fun _ => FspEntry.empty) f.entries k with runs := n }) hfsps
    · exact (congrArg (fun d : Dev => d.f.fsp.sels) hno :).trans (congrArg Fsp.sels hfsps :)
  · exact s.onDev_of (g := doFspTgtCfgWrite fn (Reg.FSP_TGT_LEN sel) data t) (doFspTgtCfgWrite_len hlt hown htgts hserve hword data t)
  · exact s.onDev_of (g := doFspTgtCfgWrite fn (Reg.FSP_TGT_CFG sel) data t) (doFspTgtCfgWrite_cfg hlt hown htgts hserve hword hta t)

end Sys2Proof.Machine
end

section
/-!
PROOF. Words of the FSP: runs begun, words of the controller role and of the target role, and the stop at the end of a word (R181 to R198).
-/

namespace Sys2Proof.Machine

/-! ## Runs begin -/

/-- A run in progress. -/
def FspRun.begun (r : FspRun) : FspRun := { r with started := true }

theorem Dev.fspBegin_of_room {d : Dev} {r : FspRun} (hroom : ecWords (d.fspEntry r.entry).ectrl * wordRx (d.fspEntry r.entry).phases ≤ r.rxCap)
    (hr : r.asked = true ∨ r.txWords = 0) (hcur : d.f.fsp.cur = none) (hruns : ∀ w ∈ d.f.fsp.runs, w.asked = true ∨ w.txWords = 0) :
    d.fspBegin r = { d with f.fsp.cur := some r.begun, f.fsp.lastEntry := r.entry } := by
  unfold Dev.fspBegin; dsimp only
  refine (if_neg ?_).trans (Dev.fspFetch_of_asked fun w hw => ?_)
  · rw [decide_eq_false (Nat.not_lt.mpr hroom), Bool.and_false]
    exact Bool.false_ne_true
  · have hor : w = r.begun ∨ w ∈ d.f.fsp.runs := by simpa [Fsp.runs, hcur, FspRun.begun] using hw
    rcases hor with rfl | hw
    · exact hr
    · exact hruns w hw

section
variable {d : Dev} (t : Nat) (hon : d.fspOn 0 = true) (hin : d.f.fsp.inWord = false) (hstop : d.f.fsp.stopping = false)
  (hcur : d.f.fsp.cur = none) (habs : d.f.fsp.absDue = false)
include hon hin hstop hcur habs

/-- What may begin is told by the runs whose slots have fired, then by the order. -/
theorem doFspRunStart_eq : doFspRunStart t d =
    match d.f.fsp.fired with
    | r :: rest => if r.staged.isSome then ({ d.at t with f.fsp.fired := rest } : Dev).fspBegin r else d.at t
    | [] => match d.f.fsp.queue with
      | .run r :: rest => if r.staged.isSome then ({ d.at t with f.fsp.queue := rest } : Dev).fspBegin r else d.at t
      | _ => d.at t := by
  obtain ⟨e, rfl⟩ : ∃ e : Dev, d = { e with f.fsp.cur := none } := ⟨d, by rw [← hcur]⟩
  unfold doFspRunStart; dsimp only
  refine (if_neg ?_).trans ((if_neg Bool.false_ne_true).trans ((if_neg ?_).trans ?_))
  · show ¬ (!e.fspOn 0 || e.f.fsp.inWord || e.f.fsp.stopping) = true
    rw [show e.fspOn 0 = true from hon, show e.f.fsp.inWord = false from hin, show e.f.fsp.stopping = false from hstop]
    exact Bool.false_ne_true
  · show ¬ e.f.fsp.absDue = true
    rw [show e.f.fsp.absDue = false from habs]
    exact Bool.false_ne_true
  · show (match e.f.fsp.fired with
      | r :: rest => _
      | [] => _) = _
    split
    next => rfl
    next =>
      show (match (none : Option FspRun), e.f.fsp.queue with
        | none, .run r :: rest => _
        | _, _ => _) = _
      split
      next r rest _ hq =>
        rw [show e.f.fsp.queue = .run r :: rest from hq]
      next hnot =>
        split
        next r rest hq => exact (hnot r rest rfl hq).elim
        next => rfl

variable {r : FspRun} (hruns : ∀ w ∈ d.f.fsp.runs, w.asked = true ∨ w.txWords = 0) (hstaged : r.staged.isSome = true)
  (hroom : ecWords (d.fspEntry r.entry).ectrl * wordRx (d.fspEntry r.entry).phases ≤ r.rxCap)
include hruns hstaged hroom

/-- The run at the head of the order begins. -/
theorem doFspRunStart_of_head {rest : List FspItem} (hfired : d.f.fsp.fired = []) (hq : d.f.fsp.queue = .run r :: rest) :
    doFspRunStart t d = { d.at t with f.fsp := { d.f.fsp with cur := some r.begun, queue := rest, lastEntry := r.entry } } := by
  rw [doFspRunStart_eq t hon hin hstop hcur habs, hfired, hq]
  refine (if_pos hstaged).trans (Dev.fspBegin_of_room (d := { d.at t with f.fsp.queue := rest }) hroom (hruns r ?_) hcur fun w hw => hruns w ?_)
  · simp [Fsp.runs, hq, FspItem.run?]
  · simp only [Fsp.runs, hq, List.filterMap_cons, FspItem.run?, List.mem_append, List.mem_cons] at hw ⊢
    tauto

/-- A run whose slot has fired begins. -/
theorem doFspRunStart_of_fired {fired : List FspRun} (hfired : d.f.fsp.fired = r :: fired) :
    doFspRunStart t d = { d.at t with f.fsp := { d.f.fsp with cur := some r.begun, fired := fired, lastEntry := r.entry } } := by
  rw [doFspRunStart_eq t hon hin hstop hcur habs, hfired]
  refine (if_pos hstaged).trans (Dev.fspBegin_of_room (d := { d.at t with f.fsp.fired := fired }) hroom (hruns r ?_) hcur fun w hw => hruns w ?_)
  · simp [Fsp.runs, hfired]
  · simp only [Fsp.runs, hfired, List.mem_append, List.mem_cons] at hw ⊢
    tauto

end

/-! ## Words of the controller role -/

/-- A word begins. -/
theorem doFspWordStart_of_good {d : Dev} {t alive : Nat} {r : FspRun} {cs : List Container} {x : FspEntry} {k : FspSel}
    (hx : d.fspEntry r.entry = x) (hk : d.fspSel (ecSel x.ectrl) = k) (hon : d.fspOn 0 = true) (hin : d.f.fsp.inWord = false)
    (hcur : d.f.fsp.cur = some r) (hroom : d.rxStaged + wordRx x.phases ≤ 16384)
    (hcs : ((r.staged.getD []).drop (wordTx x.phases * r.word)).take (wordTx x.phases) = cs)
    (hgood : ∀ c ∈ cs, c.good r.fn r.ring 0x118 = true) (halive : alive = match k.txAlive with | none => 0 | some a => nextAlive a) :
    doFspWordStart t d = ((let e := (if ecFramed x.ectrl && x.phases.any (fun p => phKind p == 3) then
        (d.at t).setFspSel (ecSel x.ectrl) { k with txAlive := some alive, pendBad := false, pendAbort := false } else d.at t : Dev)
      { e with f.fsp.inWord := true, f.fsp.absTaken := false, f.fsp.lastWord := r.word } : Dev).emit
        (.fspWord (ecSel x.ectrl) (wordOut (ecFramed x.ectrl) alive k.pendBad k.pendAbort x.phases cs))) := by
  subst halive
  unfold doFspWordStart; dsimp only
  rw [show (d.at t).f.fsp.cur = some r from hcur]
  dsimp only
  rw [show (d.at t).fspEntry r.entry = x from hx, show (d.at t).fspSel (ecSel x.ectrl) = k from hk, hcs]
  refine (if_neg ?_).trans ((if_neg ?_).trans rfl)
  · rw [show (d.at t).fspOn 0 = true from hon, show (d.at t).f.fsp.inWord = false from hin, show (d.at t).rxStaged = d.rxStaged from rfl,
      decide_eq_false (Nat.not_lt.mpr hroom)]
    exact Bool.false_ne_true
  · rw [List.all_eq_true.mpr hgood]
    exact Bool.false_ne_true

/-- What a DATA_IN phase of a word adds to its run. -/
def FspRun.phaseIn (r : FspRun) (x : FspEntry) (a : Dev × FspRun) (p : Nat × List (BitVec 8)) : Dev × FspRun :=
  let bits := laneBits (phWidth p.1) (phD1 p.1) p.2
  if ecFramed x.ectrl then
    let fr := readFrame bits (phLen p.1)
    ((a.1.fspFrameIn (ecSel x.ectrl) fr).fspDeliver r.tag fr.payload, { a.2 with
      got := a.2.got + (fr.payload.length + 47) / 48
      crc := a.2.crc || fr.bad
      under := a.2.under || (!fr.bad && fr.under)
      alive := fr.alive
      badRx := a.2.badRx || (!fr.bad && fr.badRx) })
  else (a.1.fspDeliver r.tag (bits.take (phLen p.1)), { a.2 with got := a.2.got + phRx p.1 })

/-- The device and the run after what the word's DATA_IN phases carried. -/
def Dev.wordIn (d : Dev) (r : FspRun) (rx : List (List (BitVec 8))) : Dev × FspRun :=
  (((d.fspEntry r.entry).phases.filter (fun p => phKind p == 5)).zip rx).foldl (r.phaseIn (d.fspEntry r.entry)) (d, { r with word := r.word + 1 })

theorem doFspWordEnd_eq {d : Dev} {r : FspRun} (hcur : d.f.fsp.cur = some r) (hin : d.f.fsp.inWord = true) (rx : List (List (BitVec 8))) (t : Nat) :
    doFspWordEnd rx t d =
      let res := (d.at t).wordIn r rx
      let d1 : Dev := { res.1 with f.fsp.inWord := false }
      if res.2.word = ecWords (d.fspEntry r.entry).ectrl then
        let d2 := ({ d1 with f.fsp.cur := none } : Dev).fspRunEnd res.2 res.2.status
        if d2.f.fsp.stopping then d2.fspWordDone else d2.fspNext
      else ({ d1 with f.fsp.cur := some res.2 } : Dev).fspWordDone := by
  unfold doFspWordEnd; dsimp only
  rw [show (d.at t).f.fsp.cur = some r from hcur]
  dsimp only
  refine (if_neg ?_).trans rfl
  rw [show (d.at t).f.fsp.inWord = true from hin]
  exact Bool.false_ne_true

/-! ## Frames received and data delivered -/

/-- Received bits join what their operation has got; the Carousel's own run keeps none. -/
theorem Dev.StreamBlind.fspDeliver {α : Type} {π : Dev → α} (h : Dev.StreamBlind π) (hfop : ∀ (d : Dev) (g : Nat) (o : Option FOp), π (d.setFop g o) = π d)
    (d : Dev) (tag : Option Nat) (l : List Bool) : π (d.fspDeliver tag l) = π d := by
  unfold Dev.fspDeliver
  split
  · exact Dev.StreamBlind.foldl _ (fun d w => h.receive hfop d _ w) _ _
  · rfl

/-- A frame received does not reach a part blind to reports, to the registers and to the selects. -/
theorem Dev.Blind.fspFrameIn {α : Type} {π : Dev → α} (h : Dev.Blind π) (hpins : ∀ d : Dev, π d.pins = π d)
    (hsrc : ∀ (d : Dev) (i : Nat) (s : Src), π (d.setSrc .f i s) = π d) (hwr : ∀ (d : Dev) (k : Nat) (v : Word), π (d.wr k v) = π d)
    (hsel : ∀ (d : Dev) (i : Nat) (k : FspSel), π (d.setFspSel i k) = π d) (d : Dev) (sel : Nat) (fr : RxFrame) : π (d.fspFrameIn sel fr) = π d := by
  have hset (e : Dev) (F : Fld) (v : Nat) : π (e.setFld F v) = π e := hwr e _ _
  have hraise (e : Dev) (i : Nat) (F : Fld) : π (e.raiseOwner i F) = π e := h.raiseOwnerF hpins hsrc e i F
  have hbump (e : Dev) (c g : Fld) : π (e.bump c g) = π e := Dev.bump_of_wr hwr e c g
  unfold Dev.fspFrameIn; dsimp only
  have halive : ∀ e : Dev, π e = π d → π (if fr.alive = 0 then e.setFld (Fld.FSP_LINK_ST_RX_RESET sel) 1
      else if fr.under || fr.alive == nextAlive (d.fspSel sel).rxAlive then e
      else (e.bump Fld.FSP_ALIVE_CNT_COUNT ⟨Reg.FSP_CNT_SAT, 1, 1⟩).raiseOwner Sn.FSP_ALIVE (Fld.PCI_OWN_PORT_FSP_SEL sel)) = π d := fun e he =>
    Dev.ite_kept ((hset _ _ _).trans he) (Dev.ite_kept he ((hraise _ _ _).trans ((hbump _ _ _).trans he)))
  refine Dev.ite_kept ((hraise _ _ _).trans ((hbump _ _ _).trans (hsel _ _ _))) ?_
  have hbad := Dev.ite_kept (p := fr.badRx = true) ((hset _ (Fld.FSP_LINK_ST_PARTNER_BAD sel) 1).trans (halive _ (hsel d sel { d.fspSel sel with rxAlive := fr.alive })))
    (halive _ (hsel d sel { d.fspSel sel with rxAlive := fr.alive }))
  exact Dev.ite_kept ((hraise _ _ _).trans ((hset _ _ _).trans hbad)) hbad

/-- A good frame in sequence: its ALIVE is taken, and a partner that has received a bad one is noted. -/
theorem Dev.fspFrameIn_of_good {d : Dev} {sel : Nat} {fr : RxFrame} (hbad : fr.bad = false) (hunder : fr.under = false)
    (halive : fr.alive = nextAlive (d.fspSel sel).rxAlive) :
    d.fspFrameIn sel fr = if fr.badRx then (d.setFspSel sel { d.fspSel sel with rxAlive := fr.alive }).setFld (Fld.FSP_LINK_ST_PARTNER_BAD sel) 1
      else d.setFspSel sel { d.fspSel sel with rxAlive := fr.alive } := by
  have hne : fr.alive ≠ 0 := by
    rw [halive]
    unfold nextAlive
    split_ifs
    · exact Nat.one_ne_zero
    · exact Nat.succ_ne_zero _
  unfold Dev.fspFrameIn
  simp [hbad, hunder, hne, ← halive]

/-! ## The reads ahead -/

/-- The device without what is put out and without the runs that the FSP holds. -/
def Dev.unread (d : Dev) : Dev := { d with out := [], f.fsp.cur := none, f.fsp.queue := [], f.fsp.waiting := [], f.fsp.fired := [] }

/-- A read ahead marks runs and sends requests. -/
theorem Dev.fspFetch_kept {α : Type} {π : Dev → α} (hout : ∀ (d : Dev) (l : List Emit), π { d with out := l } = π d)
    (hmap : ∀ (d : Dev) (g : FspRun → FspRun), π { d with f.fsp := d.f.fsp.mapRuns g } = π d) (d : Dev) : π d.fspFetch = π d := by
  refine Dev.StreamBlind.foldl _ (fun e r => ?_) _ d
  unfold Dev.fspAsk; dsimp only
  exact Dev.ite_kept rfl ((hout _ _).trans (hmap e _))

theorem Dev.unread_fspFetch (d : Dev) : d.fspFetch.unread = d.unread := Dev.fspFetch_kept (π := Dev.unread) (fun _ _ => rfl) (fun _ _ => rfl) d

theorem Dev.cur_fspFetch {d : Dev} (h : d.f.fsp.cur = none) : d.fspFetch.f.fsp.cur = none := by
  have hnone := Dev.fspFetch_kept (π := fun d => d.f.fsp.cur.isNone) (fun _ _ => rfl) (fun d g => by simp [Fsp.mapRuns]) d
  rw [h] at hnone
  exact Option.isNone_iff_eq_none.mp hnone

/-! ## The last word of a run -/

/-- A run off the wires. -/
def Dev.offWires (d : Dev) : Dev := { d with f.fsp.inWord := false, f.fsp.cur := none }

/-- The data of a run's last word delivered, and its operation ended. -/
def Dev.runEnded (d : Dev) (g : Nat) (ws : List W48) (st : Nat) (res : Quad) : Dev := ((ws.foldl (fun d w => d.receive g w) d).offWires).endF g st res

theorem Dev.noOps_runEnded (d : Dev) (g : Nat) (ws : List W48) (st : Nat) (res : Quad) : (d.runEnded g ws st res).noOps = d.offWires.noOps :=
  (Dev.noOps_endF ..).trans (congrArg Dev.offWires (Dev.noOps_receives g ws d))

/-- An operation ends after it has taken data: its context, and every other. -/
theorem Dev.fop_endF_of_received {d e : Dev} {g : Nat} {o : FOp} {ws : List W48} (st : Nat) (res : Quad)
    (hops : e.f.ops = (ws.foldl (fun d w => d.receive g w) d).f.ops) (hopen : e.h.ops = (ws.foldl (fun d w => d.receive g w) d).h.ops)
    (hfop : d.fop g = some o) (hlive : o.ended = none) (hop : (d.op g).isSome = true) : (e.endF g st res).fop g =
      some { o with got := o.got ++ ws.map (fun w => Container.make w o.fn o.ring o.desc.dest), ended := some (st, res) } ∧
    (∀ j, j ≠ g → (e.endF g st res).fop j = d.fop j) := by
  have hfops (j : Nat) : e.fop j = (ws.foldl (fun d w => d.receive g w) d).fop j := congrArg (fun m => Tab.get (fun _ => none) m j) hops
  have hop' : (e.op g).isSome = true := by
    have heq : e.op g = d.op g := (congrArg (fun m => Tab.get (fun _ => none) m g) hopen).trans
      (congrArg (fun d : Dev => d.op g) (Dev.noOps_receives g ws d) :)
    rw [heq]
    exact hop
  exact ⟨Dev.fop_endF_same st res ((hfops g).trans (Dev.fop_receives_same g ws hfop)) hlive hop',
    fun j hj => (Dev.fop_endF_ne _ _ _ hj).trans ((hfops j).trans (Dev.fop_receives_ne g ws d hj))⟩

theorem Dev.fop_runEnded {d : Dev} {g : Nat} {o : FOp} (ws : List W48) (st : Nat) (res : Quad) (hfop : d.fop g = some o) (hlive : o.ended = none)
    (hop : (d.op g).isSome = true) : (d.runEnded g ws st res).fop g =
      some { o with got := o.got ++ ws.map (fun w => Container.make w o.fn o.ring o.desc.dest), ended := some (st, res) } ∧
    (∀ j, j ≠ g → (d.runEnded g ws st res).fop j = d.fop j) :=
  Dev.fop_endF_of_received (ws := ws) (e := (ws.foldl (fun (d : Dev) w => d.receive g w) d).offWires) st res rfl rfl hfop hlive hop

/-- After the order is taken up again it has left the wires, and its operation has what it received. -/
theorem Dev.fspNext_runEnded {d e : Dev} {g : Nat} {ws : List W48} {st : Nat} {res : Quad} (he : e = (d.runEnded g ws st res).fspNext)
    (hq : d.f.fsp.queue = []) : e.f.fsp.cur = none ∧ e.f.fsp.inWord = false ∧ (∀ i, e.fspSel i = d.fspSel i) ∧
    (∀ j, e.fop j = (d.runEnded g ws st res).fop j) ∧ (∀ j, e.rd j = d.rd j) ∧ e.h.ops = d.h.ops := by
  have hno := d.noOps_runEnded g ws st res
  obtain ⟨f, hf⟩ : ∃ f, f = d.runEnded g ws st res := ⟨_, rfl⟩
  rw [← hf] at he hno ⊢
  have hfsp : f.f.fsp = d.offWires.f.fsp := (congrArg (fun d : Dev => d.f.fsp) hno :)
  rw [Dev.fspNext_of_still (.inr fun i rest => by rw [hfsp, show d.offWires.f.fsp.queue = [] from hq]; simp)] at he
  have hread := f.unread_fspFetch
  have hnone := Dev.cur_fspFetch (show f.f.fsp.cur = none by rw [hfsp]; rfl)
  rw [← he] at hread hnone
  refine ⟨hnone, ?_, fun i => ?_, fun j => (congrArg (fun d : Dev => d.fop j) hread :),
    fun j => (congrArg (fun d : Dev => d.rd j) hread :).trans (congrArg (fun d : Dev => d.rd j) hno :),
    (congrArg (fun d : Dev => d.h.ops) hread :).trans (congrArg (fun d : Dev => d.h.ops) hno :)⟩
  · exact (congrArg (fun d : Dev => d.f.fsp.inWord) hread :).trans ((congrArg Fsp.inWord hfsp).trans rfl)
  · exact (congrArg (fun d : Dev => d.fspSel i) hread :).trans (congrArg (fun f : Fsp => Tab.get (fun _ => FspSel.idle) f.sels i) hfsp :)

/-- The whole of it. -/
theorem Dev.lastWord_spec {d : Dev} {g : Nat} {o : FOp} (ws : List W48) (st : Nat) (res : Quad) (hq : d.f.fsp.queue = []) (hfop : d.fop g = some o)
    (hlive : o.ended = none) (hop : (d.op g).isSome = true) : ∃ e, (d.runEnded g ws st res).fspNext = e ∧ e.f.fsp.cur = none ∧ e.f.fsp.inWord = false ∧
    (∀ i, e.fspSel i = d.fspSel i) ∧
    e.fop g = some { o with got := o.got ++ ws.map (fun w => Container.make w o.fn o.ring o.desc.dest), ended := some (st, res) } ∧
    (∀ j, j ≠ g → e.fop j = d.fop j) ∧ (∀ j, e.rd j = d.rd j) ∧ e.h.ops = d.h.ops := by
  obtain ⟨hsame, hothers⟩ := Dev.fop_runEnded ws st res hfop hlive hop
  obtain ⟨hnone, hoff, hsel, hfops, hrd, hops⟩ := Dev.fspNext_runEnded (e := (d.runEnded g ws st res).fspNext) rfl hq
  exact ⟨_, rfl, hnone, hoff, hsel, (hfops g).trans hsame, fun j hj => (hfops j).trans (hothers j hj), hrd, hops⟩

theorem Dev.wordIn_of_one {d : Dev} {r : FspRun} {p : Nat} (hp : (d.fspEntry r.entry).phases.filter (fun y => phKind y == 5) = [p])
    (lanes : List (BitVec 8)) : d.wordIn r [lanes] = r.phaseIn (d.fspEntry r.entry) (d, { r with word := r.word + 1 }) (p, lanes) := by
  unfold Dev.wordIn
  rw [hp]
  rfl

/-- The last word of a run. -/
theorem doFspWordEnd_of_last {d a : Dev} {r r2 : FspRun} {g t : Nat} {rx : List (List (BitVec 8))} {l : List Bool} (hcur : d.f.fsp.cur = some r)
    (hin : d.f.fsp.inWord = true) (hword : r2.word = ecWords (d.fspEntry r.entry).ectrl) (htag : r2.tag = some g) (hstop : a.f.fsp.stopping = false)
    (hres : (d.at t).wordIn r rx = (a.fspDeliver (some g) l, r2)) :
    doFspWordEnd rx t d = (a.runEnded g (wordsOfBits l) r2.status r2.result).fspNext := by
  rw [doFspWordEnd_eq hcur hin, hres]
  refine (if_pos hword).trans ?_
  have hend : (a.fspDeliver (some g) l).offWires.fspRunEnd r2 r2.status = a.runEnded g (wordsOfBits l) r2.status r2.result := by
    unfold Dev.fspRunEnd
    rw [htag]
    rfl
  refine (congrArg (fun e : Dev => if e.f.fsp.stopping then e.fspWordDone else e.fspNext) hend).trans (if_neg ?_)
  rw [show (a.runEnded g (wordsOfBits l) r2.status r2.result).f.fsp.stopping = a.f.fsp.stopping from
    (congrArg (fun d : Dev => d.f.fsp.stopping) (a.noOps_runEnded g _ _ _) :), hstop]
  exact Bool.false_ne_true

section
variable {d : Dev} {r : FspRun} {p g t : Nat} {lanes : List (BitVec 8)} {x : FspEntry} (hcur : d.f.fsp.cur = some r) (hin : d.f.fsp.inWord = true)
  (hx : d.fspEntry r.entry = x) (hp : x.phases.filter (fun y => phKind y == 5) = [p]) (hword : r.word + 1 = ecWords x.ectrl)
  (hstop : d.f.fsp.stopping = false) (htag : r.tag = some g)
include hcur hin hx hp hword hstop htag

/-- A plain word. -/
theorem doFspWordEnd_of_plain (hplain : ecFramed x.ectrl = false) : doFspWordEnd [lanes] t d = ((d.at t).runEnded g
    (wordsOfBits ((laneBits (phWidth p) (phD1 p) lanes).take (phLen p))) r.status ({ r with got := r.got + phRx p }).result).fspNext := by
  refine doFspWordEnd_of_last (a := d.at t) (r2 := { r with word := r.word + 1, got := r.got + phRx p }) hcur hin (by rw [hx]; exact hword) htag hstop ?_
  rw [Dev.wordIn_of_one (d := d.at t) (by rw [show (d.at t).fspEntry r.entry = x from hx]; exact hp), show (d.at t).fspEntry r.entry = x from hx]
  unfold FspRun.phaseIn; dsimp only
  rw [hplain, htag]
  rfl

/-- A word that ends with a good frame. -/
theorem doFspWordEnd_of_frame {fr : RxFrame} (hframed : ecFramed x.ectrl = true) (hfr : fr = readFrame (laneBits (phWidth p) (phD1 p) lanes) (phLen p))
    (hbad : fr.bad = false) (hunder : fr.under = false) (hbadRx : fr.badRx = false) (halive : fr.alive = nextAlive (d.fspSel (ecSel x.ectrl)).rxAlive) :
    doFspWordEnd [lanes] t d = (((d.at t).setFspSel (ecSel x.ectrl) { d.fspSel (ecSel x.ectrl) with rxAlive := fr.alive }).runEnded g
      (wordsOfBits fr.payload) r.status ({ r with got := r.got + (fr.payload.length + 47) / 48, alive := fr.alive }).result).fspNext := by
  refine doFspWordEnd_of_last (a := (d.at t).setFspSel (ecSel x.ectrl) { d.fspSel (ecSel x.ectrl) with rxAlive := fr.alive })
    (r2 := { r with word := r.word + 1, got := r.got + (fr.payload.length + 47) / 48, alive := fr.alive }) hcur hin (by rw [hx]; exact hword) htag hstop ?_
  rw [Dev.wordIn_of_one (d := d.at t) (by rw [show (d.at t).fspEntry r.entry = x from hx]; exact hp), show (d.at t).fspEntry r.entry = x from hx]
  have hframe := Dev.fspFrameIn_of_good (d := d.at t) hbad hunder halive
  rw [hbadRx, if_neg Bool.false_ne_true] at hframe
  unfold FspRun.phaseIn; dsimp only
  rw [hframed, htag, ← hfr]
  simp [hframe, hbad, hunder, hbadRx]
  rfl

end

/-! ## Words of the target role -/

section
variable {d : Dev} {sel : Nat} (t : Nat) (hsel : sel < 8) (hon : d.fspOn 1 = true) (hserve : d.f.fsp.serving = none)
  (hroom : d.rxStaged + (d.fld (Fld.FSP_TGT_LEN_RQ_MAXM1 sel) + 48) / 48 ≤ 16384)
include hsel hon hserve hroom

/-- A word begins with the select, or with HELD. -/
theorem doFspTargetWordBegin_of_go {asserted : Bool} (hgo : asserted = true ∨ d.flag (Fld.FSP_TGT_CFG_HELD sel) = true) :
    doFspTargetWordBegin sel asserted t d =
      let ready := (d.fspReady sel).map (fun x => x.tag)
      let d1 : Dev := { d.at t with f.fsp.serving := some (sel, ready) }
      if ready.isSome then d1
      else ((d1.setFspSel sel { d.fspSel sel with pendUnder := true }).bump Fld.FSP_UNDERRUN_CNT_COUNT
        ⟨Reg.FSP_CNT_SAT, 2, 1⟩).raiseOwner Sn.FSP_UNDERRUN (Fld.PCI_OWN_PORT_FSP_SEL sel) := by
  unfold doFspTargetWordBegin; dsimp only
  refine (if_neg ?_).trans ?_
  · rw [show (d.at t).fspOn 1 = true from hon, decide_eq_false (Nat.not_le.mpr hsel)]
    rcases hgo with h | h
    · rw [h]; exact Bool.false_ne_true
    · rw [show (d.at t).flag (Fld.FSP_TGT_CFG_HELD sel) = true from h, Bool.not_true, Bool.and_false]
      exact Bool.false_ne_true
  · split
    next _ _ h => rw [show d.f.fsp.serving = some _ from h] at hserve; cases hserve
    next => exact (if_neg (fun h => absurd (of_decide_eq_true h) (Nat.not_lt.mpr hroom))).trans rfl

end

/-- A clock without the select and without HELD is ignored. -/
theorem doFspTargetWordBegin_of_idle {d : Dev} {sel : Nat} (t : Nat) (hheld : d.flag (Fld.FSP_TGT_CFG_HELD sel) = false) :
    doFspTargetWordBegin sel false t d = d.at t := by
  refine if_pos ?_
  rw [show (d.at t).flag (Fld.FSP_TGT_CFG_HELD sel) = false from hheld, Bool.or_eq_true]
  exact .inr rfl

theorem Dev.fsp_raiseOwner (d : Dev) (i : Nat) (F : Fld) : (d.raiseOwner i F).f.fsp = d.f.fsp :=
  (Dev.Blind.of_core (π := fun d => d.f.fsp) fun _ => rfl).raiseOwnerF (fun d => (congrArg (fun d : Dev => d.f.fsp) d.unpinned_pins :)) (fun _ _ _ => rfl) d i F

/-- A count of the FSP that is raised: the counter, and what stays. -/
theorem Dev.counted_spec (d : Dev) {c g : Fld} {i : Nat} (hlo : c.lo = 0) (hw : c.w = 32) (hoff : c.off ≠ g.off) (hreact : reactReg c.off = false)
    (hi : i < 96) (F : Fld) : ((d.bump c g).raiseOwner i F).fld c = min (d.fld c + 1) (2 ^ 32 - 1) ∧ ((d.bump c g).raiseOwner i F).f.fsp = d.f.fsp ∧
    (∀ j, ((d.bump c g).raiseOwner i F).fspSel j = d.fspSel j) ∧
    ((d.bump c g).raiseOwner i F).f.car = d.f.car ∧ (((d.bump c g).raiseOwner i F).src .f i).last = d.now := by
  have hfsp : ((d.bump c g).raiseOwner i F).f.fsp = d.f.fsp :=
    (Dev.fsp_raiseOwner _ _ _).trans (Dev.bump_of_wr (π := fun d => d.f.fsp) (fun d k v => by simp) d c g)
  refine ⟨(Dev.fld_of_rd (Dev.rd_raiseCodeF _ hreact _)).trans (d.fld_bump_same hlo hw hoff), hfsp,
    fun j => congrArg (fun f : Fsp => Tab.get (fun _ => FspSel.idle) f.sels j) hfsp, ?_, ?_⟩
  · exact (Dev.car_raiseOwner _ _ _).trans (Dev.bump_of_wr (π := fun d => d.f.car) (fun d k v => by simp) d c g)
  · exact (Dev.last_raiseCode _ .f _ hi).trans (Dev.bump_of_wr (π := fun d => d.now) (fun d k v => by simp) d c g)

/-- A word that no operation serves: the previous reply goes out again. -/
theorem doFspTargetWordEnd_of_none {d : Dev} {sel t a : Nat} {cs : List Container} (hserve : d.f.fsp.serving = some (sel, none))
    (hstop : d.f.fsp.stopping = false) (hprev : (d.fspSel sel).prev = some (a, cs)) (request : List (BitVec 8)) :
    doFspTargetWordEnd sel request t d = (({ d.at t with f.fsp.serving := none } : Dev).setFspSel sel
      { d.fspSel sel with pendBad := false, pendAbort := false }).fspReply sel (frameBits a (d.fspSel sel).pendBad true (d.fspSel sel).pendAbort
        (bitsOfContainers cs (d.fld (Fld.FSP_TGT_LEN_RPL_LENM1 sel) + 1))) := by
  unfold doFspTargetWordEnd; dsimp only
  rw [show (d.at t).f.fsp.serving = some (sel, none) from hserve]
  dsimp only
  refine (if_neg (by rw [bne_self_eq_false]; exact Bool.false_ne_true)).trans ?_
  obtain ⟨k, hk⟩ : ∃ k : FspSel, d.fspSel sel = { k with prev := some (a, cs) } := ⟨d.fspSel sel, by rw [← hprev]⟩
  rw [hk, show ({ d.at t with f.fsp.serving := none } : Dev).fspSel sel = { k with prev := some (a, cs) } from hk]
  refine (if_neg ?_).trans rfl
  exact hstop ▸ Bool.false_ne_true

/-- A target operation off its queue. -/
def Dev.untarget (d : Dev) (g : Nat) : Dev := { d with f.fsp.tgts := d.f.fsp.tgts.filter (fun y => y.tag != g) }

/-- The data of a request delivered, and the operation that served it ended. -/
def Dev.targetEnded (d : Dev) (g : Nat) (ws : List W48) (st : Nat) (res : Quad) : Dev := ((ws.foldl (fun d w => d.receive g w) d).untarget g).endF g st res

theorem Dev.noOps_targetEnded (d : Dev) (g : Nat) (ws : List W48) (st : Nat) (res : Quad) : (d.targetEnded g ws st res).noOps = (d.untarget g).noOps :=
  (Dev.noOps_endF ..).trans (congrArg (fun d : Dev => d.untarget g) (Dev.noOps_receives g ws d))

theorem Dev.out_targetEnded (d : Dev) (g : Nat) (ws : List W48) (st : Nat) (res : Quad) : ∃ l, (d.targetEnded g ws st res).out = l ++ d.out := by
  obtain ⟨m, hm⟩ := Dev.out_endF ((ws.foldl (fun d w => d.receive g w) d).untarget g) g st res
  obtain ⟨n, hn⟩ := Dev.out_receives g ws d
  exact ⟨m ++ n, hm.trans (by rw [List.append_assoc, ← hn]; rfl)⟩

/-- What a request that is served leaves. -/
theorem Dev.targetEnded_spec {d : Dev} {g : Nat} {o : FOp} (ws : List W48) (st : Nat) (res : Quad) (hfop : d.fop g = some o) (hlive : o.ended = none)
    (hop : (d.op g).isSome = true) : ∃ e, d.targetEnded g ws st res = e ∧ e.f.fsp = (d.untarget g).f.fsp ∧ (e.fop g).bind (·.ended) = some (st, res) ∧
    (∀ j, j ≠ g → e.fop j = d.fop j) ∧ (∃ l, e.out = l ++ d.out) ∧ e.h.ops = d.h.ops ∧ e.f.car = d.f.car := by
  obtain ⟨hsame, hothers⟩ := Dev.fop_endF_of_received (ws := ws) (e := (ws.foldl (fun (d : Dev) w => d.receive g w) d).untarget g) st res rfl rfl hfop hlive hop
  have hno := d.noOps_targetEnded g ws st res
  exact ⟨_, rfl, (congrArg (fun d : Dev => d.f.fsp) hno :), congrArg (fun x : Option FOp => x.bind (·.ended)) hsame, hothers,
    d.out_targetEnded g ws st res, (congrArg (fun d : Dev => d.h.ops) hno :), (congrArg (fun d : Dev => d.f.car) hno :)⟩

/-- A select after its reply has gone out. -/
def FspSel.replied (k : FspSel) (alive : Nat) (cs : List Container) : FspSel :=
  { k with txAlive := some alive, pendBad := false, pendAbort := false, pendUnder := false, prev := some (alive, cs) }

/-- The next ALIVE sent. -/
def FspSel.nextTx (k : FspSel) : Nat := match k.txAlive with | none => 0 | some a => nextAlive a

/-- A good request that an operation serves. -/
theorem doFspTargetWordEnd_of_served {d d1 : Dev} {sel t : Nat} {x : FspTgt} {fr : RxFrame} {request : List (BitVec 8)} {k : FspSel}
    (hserve : d.f.fsp.serving = some (sel, some x.tag)) (hfind : d.f.fsp.tgts.find? (fun y => y.tag == x.tag) = some x)
    (hfr : fr = readFrame (laneBits (d.fld (Fld.FSP_TGT_CFG_RQ_W sel)) false request) (d.fld (Fld.FSP_TGT_LEN_RQ_MAXM1 sel) + 1))
    (hbad : fr.bad = false) (hunder : fr.under = false) (hd1 : ({ d.at t with f.fsp.serving := none } : Dev).fspFrameIn sel fr = d1)
    (hk : d1.fspSel sel = k) (hpend : k.pendUnder = false) :
    doFspTargetWordEnd sel request t d = (((d1.setFspSel sel (k.replied k.nextTx (x.staged.getD []))).fspReply sel
      (frameBits k.nextTx k.pendBad false k.pendAbort (bitsOfContainers (x.staged.getD []) (d.fld (Fld.FSP_TGT_LEN_RPL_LENM1 sel) + 1)))).targetEnded
        x.tag (wordsOfBits fr.payload) stOK (BitVec.ofNat 64
          ((fr.payload.length + 47) / 48 % 2 ^ 16 + fr.alive * 2 ^ 16 + b2n fr.badRx * 2 ^ 20))).fspWordDone := by
  unfold doFspTargetWordEnd; dsimp only
  rw [show (d.at t).f.fsp.serving = some (sel, some x.tag) from hserve]
  dsimp only
  refine (if_neg (by rw [bne_self_eq_false]; exact Bool.false_ne_true)).trans ?_
  rw [show (some x.tag).bind (fun g => (d.at t).f.fsp.tgts.find? (fun y => y.tag == g)) = some x from hfind]
  dsimp only
  rw [show readFrame (laneBits ((d.at t).fld (Fld.FSP_TGT_CFG_RQ_W sel)) false request) ((d.at t).fld (Fld.FSP_TGT_LEN_RQ_MAXM1 sel) + 1) = fr
    from hfr.symm, hd1, hk, hbad, hunder, hpend]
  rfl

/-- What a good frame in sequence leaves. -/
theorem Dev.fspFrameIn_left {d d1 : Dev} {sel : Nat} {fr : RxFrame} (hbad : fr.bad = false) (hunder : fr.under = false)
    (halive : fr.alive = nextAlive (d.fspSel sel).rxAlive) (hd1 : d.fspFrameIn sel fr = d1) :
    d1.fspSel sel = { d.fspSel sel with rxAlive := fr.alive } ∧ (∀ j, j ≠ sel → d1.fspSel j = d.fspSel j) ∧ d1.f.fsp.serving = d.f.fsp.serving ∧
    d1.f.fsp.stopping = d.f.fsp.stopping ∧ (∀ g, d1.fop g = d.fop g) ∧ (∀ g, d1.op g = d.op g) ∧ d1.h.ops = d.h.ops ∧ d1.f.car = d.f.car ∧
    d1.out = d.out ∧ (∀ F : Fld, F.off ≠ Reg.FSP_LINK_ST sel → d1.fld F = d.fld F) := by
  rw [Dev.fspFrameIn_of_good hbad hunder halive] at hd1
  subst hd1
  have hkept {α : Type} {π : Dev → α} (hset : ∀ (d : Dev) (v : Nat), π (d.setFld (Fld.FSP_LINK_ST_PARTNER_BAD sel) v) = π d) :
      π (if fr.badRx then (d.setFspSel sel { d.fspSel sel with rxAlive := fr.alive }).setFld (Fld.FSP_LINK_ST_PARTNER_BAD sel) 1
        else d.setFspSel sel { d.fspSel sel with rxAlive := fr.alive }) = π (d.setFspSel sel { d.fspSel sel with rxAlive := fr.alive }) :=
    Dev.ite_kept (hset _ _) rfl
  have hfsp := hkept (π := fun d => d.f.fsp) fun d v => by simp
  refine ⟨?_, fun j hj => ?_, (congrArg Fsp.serving hfsp :), (congrArg Fsp.stopping hfsp :), fun g => hkept (π := fun d => d.fop g) fun d v => by simp [Dev.fop],
    fun g => hkept (π := fun d => d.op g) fun d v => by simp [Dev.op], hkept (π := fun d => d.h.ops) fun d v => by simp,
    hkept (π := fun d => d.f.car) fun d v => by simp, hkept (π := fun d => d.out) fun d v => by simp,
    fun F hF => hkept (π := fun d => d.fld F) fun d v => d.fld_setFld_off _ _ _ hF⟩
  · exact (hkept (π := fun d => d.fspSel sel) fun d v => by simp [Dev.fspSel]).trans (Dev.fspSel_setFspSel_same ..)
  · exact (hkept (π := fun d => d.fspSel j) fun d v => by simp [Dev.fspSel]).trans (Dev.fspSel_setFspSel_ne _ _ hj)

/-- While the FSP is not to stop the end of a word leaves it. -/
theorem Dev.fspWordDone_of_going {d : Dev} (h : d.f.fsp.stopping = false) : d.fspWordDone = d := if_neg (h ▸ Bool.false_ne_true)

/-- A word released that no operation serves. -/
theorem doFspSelAbort_of_none {d : Dev} {sel t : Nat} (hserve : d.f.fsp.serving = some (sel, none)) (hstop : d.f.fsp.stopping = false) :
    doFspSelAbort sel t d = ((({ d.at t with f.fsp.serving := none } : Dev).setFspSel sel { d.fspSel sel with pendAbort := true }).bump
      Fld.FSP_ABORT_CNT_COUNT ⟨Reg.FSP_CNT_SAT, 3, 1⟩).raiseOwner Sn.FSP_SEL_ABORT (Fld.PCI_OWN_PORT_FSP_SEL sel) := by
  unfold doFspSelAbort; dsimp only
  rw [show (d.at t).f.fsp.serving = some (sel, none) from hserve]
  refine (if_pos rfl).trans (Dev.fspWordDone_of_going ?_)
  obtain ⟨-, hfsp, -, -, -⟩ := Dev.counted_spec (({ d.at t with f.fsp.serving := none } : Dev).setFspSel sel { d.fspSel sel with pendAbort := true })
    (c := Fld.FSP_ABORT_CNT_COUNT) (g := ⟨Reg.FSP_CNT_SAT, 3, 1⟩) (i := Sn.FSP_SEL_ABORT) (by decide) (by decide) (by decide) (by decide) (by decide)
    (Fld.PCI_OWN_PORT_FSP_SEL sel)
  exact (congrArg Fsp.stopping hfsp).trans hstop

/-! ## The stop at the end of a word -/

/-- What a word carries in does not reach a part blind to reports, registers, selects and contexts. -/
theorem Dev.Blind.wordIn {α : Type} {π : Dev → α} (h : Dev.Blind π) (hpins : ∀ d : Dev, π d.pins = π d)
    (hsrc : ∀ (d : Dev) (i : Nat) (s : Src), π (d.setSrc .f i s) = π d) (hwr : ∀ (d : Dev) (k : Nat) (v : Word), π (d.wr k v) = π d)
    (hsel : ∀ (d : Dev) (i : Nat) (k : FspSel), π (d.setFspSel i k) = π d) (hfop : ∀ (d : Dev) (g : Nat) (o : Option FOp), π (d.setFop g o) = π d)
    (d : Dev) (r : FspRun) (rx : List (List (BitVec 8))) : π (d.wordIn r rx).1 = π d := by
  have hstep (x : FspEntry) : ∀ (l : List (Nat × List (BitVec 8))) (a : Dev × FspRun), π (l.foldl (r.phaseIn x) a).1 = π a.1 := by
    intro l
    induction l with
    | nil => intro a; rfl
    | cons p l ih =>
      intro a
      refine (ih _).trans ?_
      unfold FspRun.phaseIn; dsimp only
      split
      · exact (h.fspDeliver hfop _ _ _).trans (h.fspFrameIn hpins hsrc hwr hsel _ _ _)
      · exact h.fspDeliver hfop _ _ _
  exact hstep _ _ _

/-- The FSP without its selects, and the Carousel, after what a word carries in. -/
theorem Dev.wordIn_left (d : Dev) (r : FspRun) (rx : List (List (BitVec 8))) : (d.wordIn r rx).1.f.fsp.entries = d.f.fsp.entries ∧
    (d.wordIn r rx).1.f.fsp.stopping = d.f.fsp.stopping ∧ (d.wordIn r rx).1.f.car = d.f.car := by
  have hkept {α : Type} {π : Dev → α} (hcore : ∀ d : Dev, π d.core = π d) (hun : ∀ d : Dev, π d.unpinned = π d)
      (hwr : ∀ (d : Dev) (k : Nat) (v : Word), π (d.wr k v) = π d) (hsrc : ∀ (d : Dev) (i : Nat) (s : Src), π (d.setSrc .f i s) = π d)
      (hsel : ∀ (d : Dev) (i : Nat) (k : FspSel), π (d.setFspSel i k) = π d) (hfop : ∀ (d : Dev) (g : Nat) (o : Option FOp), π (d.setFop g o) = π d) :
      π (d.wordIn r rx).1 = π d :=
    (Dev.Blind.of_core hcore).wordIn (fun d => by rw [← hun d.pins, d.unpinned_pins, hun]) hsrc hwr hsel hfop d r rx
  exact ⟨hkept (π := fun d => d.f.fsp.entries) (fun _ => rfl) (fun _ => rfl) (fun d k v => by simp) (fun _ _ _ => rfl) (fun _ _ _ => rfl) (fun _ _ _ => rfl),
    hkept (π := fun d => d.f.fsp.stopping) (fun _ => rfl) (fun _ => rfl) (fun d k v => by simp) (fun _ _ _ => rfl) (fun _ _ _ => rfl) (fun _ _ _ => rfl),
    hkept (π := fun d => d.f.car) (fun _ => rfl) (fun _ => rfl) (fun d k v => by simp) (fun _ _ _ => rfl) (fun _ _ _ => rfl) (fun _ _ _ => rfl)⟩

theorem Dev.noOps_fspRunEnd (d : Dev) (r : FspRun) (st : Nat) : (d.fspRunEnd r st).noOps = d.noOps := by
  unfold Dev.fspRunEnd
  split
  · exact Dev.noOps_endF ..
  · rfl

/-- An FSP that is to stop stops at the end of its word. -/
theorem doFspWordEnd_of_stopping {d : Dev} {r : FspRun} (hcur : d.f.fsp.cur = some r) (hin : d.f.fsp.inWord = true) (hstop : d.f.fsp.stopping = true)
    (rx : List (List (BitVec 8))) (t : Nat) :
    ∃ e : Dev, doFspWordEnd rx t d = e.fspAbortAll ∧ e.f.fsp.entries = d.f.fsp.entries ∧ e.f.car = d.f.car := by
  obtain ⟨hentries, hgoing, hcar⟩ := (d.at t).wordIn_left r rx
  rw [doFspWordEnd_eq hcur hin]
  obtain ⟨res, hres⟩ : ∃ res, res = (d.at t).wordIn r rx := ⟨_, rfl⟩
  rw [← hres] at hentries hgoing hcar ⊢
  have hdone {e : Dev} (he : e.f.fsp.stopping = true) : e.fspWordDone = e.fspAbortAll := if_pos he
  dsimp only
  split
  · have hno := Dev.noOps_fspRunEnd res.1.offWires res.2 res.2.status
    have hgo : (res.1.offWires.fspRunEnd res.2 res.2.status).f.fsp.stopping = true :=
      (congrArg (fun d : Dev => d.f.fsp.stopping) hno :).trans (hgoing.trans hstop)
    exact ⟨_, (if_pos hgo).trans (hdone hgo), (congrArg (fun d : Dev => d.f.fsp.entries) hno :).trans hentries,
      (congrArg (fun d : Dev => d.f.car) hno :).trans hcar⟩
  · exact ⟨_, hdone (hgoing.trans hstop), hentries, hcar⟩

/-! ## The statement -/

/-- Settles O27: each word begins and ends as the state of its port says, and the FSP that is to stop stops there. -/
theorem serialPortWords : Obligations.SerialPortWords := by
  unfold Obligations.SerialPortWords
  refine ⟨fun s t p g alive x k r rest fired o lanes cs fr hin hx hk => ⟨fun hon hstop hcur habs hruns hstaged hroom => ⟨fun hfired hq => ?_, fun hfired => ?_⟩,
      fun hon hcur hroom hcs hgood halive => ?_, fun v hv hcur hp hword hq hstop htag hfop hlive hop => ⟨fun hplain => ?_, fun hframed hfr hbad hunder hbadRx halive => ?_⟩⟩,
    fun s sel t asserted x k o request fr drives hsel hk hdrives => ⟨fun hon hserve hroom => ⟨fun hgo => ⟨fun hready => ?_, fun hready => ?_⟩, fun hidle hheld => ?_⟩,
      fun hserve hfind hfr hbad hunder halive hpend hstop hfop hlive hop => ?_, fun hserve hstop a cs hprev => ?_, fun hserve hstop => ?_⟩,
    fun s rx t r hcur hin hstop => ?_⟩
  · subst hx
    exact s.onDev_of (doFspRunStart_of_head t hon hin hstop hcur habs hruns hstaged hroom hfired hq)
  · subst hx
    exact s.onDev_of (doFspRunStart_of_fired t hon hin hstop hcur habs hruns hstaged hroom hfired)
  · exact s.onDev_of (doFspWordStart_of_good hx.symm hk.symm hon hin hcur hroom hcs.symm hgood halive)
  · subst hv
    have hdo := doFspWordEnd_of_plain (d := { s.dev with f.fsp.inWord := true }) (t := t) (lanes := lanes) hcur rfl hx.symm hp hword hstop htag hplain
    obtain ⟨e, he, hnone, hoff, -, hsame, hothers, hrd, hops⟩ := Dev.lastWord_spec (d := ({ s.dev with f.fsp.inWord := true } : Dev).at t)
      (wordsOfBits ((laneBits (phWidth p) (phD1 p) lanes).take (phLen p))) r.status ({ r with got := r.got + phRx p }).result hq hfop hlive hop
    exact ⟨_, State.onDev_of _ (hdo.trans he), hnone, hoff, hsame, hothers, hrd, hops, rfl, rfl⟩
  · subst hv
    have hdo := doFspWordEnd_of_frame (d := { s.dev with f.fsp.inWord := true }) (t := t) hcur rfl hx.symm hp hword hstop htag hframed hfr hbad hunder hbadRx
      (halive.trans (by rw [hk]; rfl))
    obtain ⟨e, he, hnone, hoff, hsels, hsame, hothers, hrd, hops⟩ := Dev.lastWord_spec
      (d := (({ s.dev with f.fsp.inWord := true } : Dev).at t).setFspSel (ecSel x.ectrl) { s.dev.fspSel (ecSel x.ectrl) with rxAlive := fr.alive })
      (wordsOfBits fr.payload) r.status ({ r with got := r.got + (fr.payload.length + 47) / 48, alive := fr.alive }).result hq hfop hlive hop
    exact ⟨_, State.onDev_of _ (hdo.trans he), hnone, hoff, congrArg FspSel.rxAlive ((hsels _).trans (Dev.fspSel_setFspSel_same ..)), hsame, hothers,
      hrd, hops, rfl, rfl⟩
  · have hdo := doFspTargetWordBegin_of_go t hsel hon hserve hroom hgo
    rw [hready] at hdo
    exact s.onDev_of (hdo.trans (if_pos rfl))
  · have hdo := doFspTargetWordBegin_of_go t hsel hon hserve hroom hgo
    rw [hready] at hdo
    obtain ⟨hcnt, hfsp, hsels, hcar, hlast⟩ := Dev.counted_spec
      (({ s.dev.at t with f.fsp.serving := some (sel, none) } : Dev).setFspSel sel { s.dev.fspSel sel with pendUnder := true })
      (c := Fld.FSP_UNDERRUN_CNT_COUNT) (g := ⟨Reg.FSP_CNT_SAT, 2, 1⟩) (i := Sn.FSP_UNDERRUN) (by decide) (by decide) (by decide) (by decide) (by decide)
      (Fld.PCI_OWN_PORT_FSP_SEL sel)
    refine ⟨_, s.onDev_of (hdo.trans (if_neg Bool.false_ne_true)), (congrArg Fsp.serving hfsp :), ?_, hcnt, hlast, hcar, rfl, rfl⟩
    exact congrArg FspSel.pendUnder ((hsels sel).trans (Dev.fspSel_setFspSel_same ({ s.dev.at t with f.fsp.serving := some (sel, none) } : Dev) sel { s.dev.fspSel sel with pendUnder := true }))
  · subst hidle
    exact s.onDev_of (doFspTargetWordBegin_of_idle t hheld)
  · subst hk
    obtain ⟨d1, hd1⟩ : ∃ d1, ({ s.dev.at t with f.fsp.serving := none } : Dev).fspFrameIn sel fr = d1 := ⟨_, rfl⟩
    obtain ⟨hk1, hk1s, hserve1, hstop1, hfop1, hop1, hops1, hcar1, hout1, hfld1⟩ := Dev.fspFrameIn_left (d := { s.dev.at t with f.fsp.serving := none }) hbad hunder halive hd1
    have hdo := doFspTargetWordEnd_of_served hserve hfind hfr hbad hunder hd1 hk1 hpend
    obtain ⟨e, he, hfsp, hsame, hothers, ⟨l, hout⟩, hops, hcar⟩ := Dev.targetEnded_spec (d := (d1.setFspSel sel
      (FspSel.replied { s.dev.fspSel sel with rxAlive := fr.alive } (s.dev.fspSel sel).nextTx (x.staged.getD []))).fspReply sel
      (frameBits (s.dev.fspSel sel).nextTx (s.dev.fspSel sel).pendBad false (s.dev.fspSel sel).pendAbort
        (bitsOfContainers (x.staged.getD []) (s.dev.fld (Fld.FSP_TGT_LEN_RPL_LENM1 sel) + 1)))) (wordsOfBits fr.payload) stOK
      (BitVec.ofNat 64 ((fr.payload.length + 47) / 48 % 2 ^ 16 + fr.alive * 2 ^ 16 + b2n fr.badRx * 2 ^ 20)) ((hfop1 _).trans hfop) hlive
      ((congrArg Option.isSome (hop1 _)).trans hop)
    have hgo : e.f.fsp.stopping = false := (congrArg Fsp.stopping hfsp :).trans (hstop1.trans hstop)
    have hsels (j : Nat) : e.fspSel j = (d1.setFspSel sel
        (FspSel.replied { s.dev.fspSel sel with rxAlive := fr.alive } (s.dev.fspSel sel).nextTx (x.staged.getD []))).fspSel j :=
      (congrArg (fun f : Fsp => Tab.get (fun _ => FspSel.idle) f.sels j) hfsp :)
    have hsel0 := (hsels sel).trans (Dev.fspSel_setFspSel_same ..)
    refine ⟨_, s.onDev_of (g := doFspTargetWordEnd sel request t) (hdo.trans ((congrArg Dev.fspWordDone he).trans (Dev.fspWordDone_of_going hgo))),
      (congrArg Fsp.serving hfsp :).trans hserve1, fun y hy => ?_, congrArg FspSel.rxAlive hsel0, congrArg FspSel.txAlive hsel0, ⟨l, ?_⟩, hsame,
      fun g hg => (hothers g hg).trans (hfop1 g), fun j hj => ?_, hops.trans hops1, hcar.trans hcar1, rfl, rfl⟩
    · have hmem : y ∈ d1.f.fsp.tgts.filter (fun y => y.tag != x.tag) := by
        rw [← show e.f.fsp.tgts = d1.f.fsp.tgts.filter (fun y => y.tag != x.tag) from congrArg Fsp.tgts hfsp]
        exact hy
      exact bne_iff_ne.mp (List.mem_filter.mp hmem).2
    · have hcfg {F : Fld} (hF : F.off = Reg.FSP_TGT_CFG sel) : d1.fld F = s.dev.fld F :=
        hfld1 F (by rw [hF]; unfold Reg.FSP_TGT_CFG Reg.FSP_LINK_ST; omega)
      have hw1 : d1.flag (Fld.FSP_TGT_CFG_W1_D1 sel) = s.dev.flag (Fld.FSP_TGT_CFG_W1_D1 sel) := congrArg (· == 1) (hcfg rfl)
      refine hout.trans (congrArg (l ++ ·) ?_)
      rw [hdrives, ← hcfg (F := Fld.FSP_TGT_CFG_TA sel) rfl, ← hcfg (F := Fld.FSP_TGT_CFG_RP_W sel) rfl, ← hw1, ← show d1.out = s.dev.out from hout1]
      rfl
    · exact (hsels j).trans ((Dev.fspSel_setFspSel_ne _ _ hj).trans (hk1s j hj))
  · subst hk hdrives
    exact s.onDev_of (doFspTargetWordEnd_of_none hserve hstop hprev request)
  · obtain ⟨hcnt, hfsp, hsels, hcar, hlast⟩ := Dev.counted_spec
      (({ s.dev.at t with f.fsp.serving := none } : Dev).setFspSel sel { s.dev.fspSel sel with pendAbort := true })
      (c := Fld.FSP_ABORT_CNT_COUNT) (g := ⟨Reg.FSP_CNT_SAT, 3, 1⟩) (i := Sn.FSP_SEL_ABORT) (by decide) (by decide) (by decide) (by decide) (by decide)
      (Fld.PCI_OWN_PORT_FSP_SEL sel)
    refine ⟨_, s.onDev_of (doFspSelAbort_of_none hserve hstop), (congrArg Fsp.serving hfsp :), ?_, hcnt, hlast, (congrArg Fsp.tgts hfsp :), hcar, rfl, rfl⟩
    exact congrArg FspSel.pendAbort ((hsels sel).trans (Dev.fspSel_setFspSel_same ({ s.dev.at t with f.fsp.serving := none } : Dev) sel { s.dev.fspSel sel with pendAbort := true }))
  · obtain ⟨e, hdo, hentries, hcar⟩ := doFspWordEnd_of_stopping hcur hin hstop rx t
    have hstopped := e.stopped_fspAbortAll
    obtain ⟨z, hz⟩ : ∃ z, z = e.fspAbortAll := ⟨_, rfl⟩
    rw [← hz] at hdo hstopped
    have hno := hstopped.unlisted
    refine ⟨_, s.onDev_of (g := doFspWordEnd rx t) hdo, (congrArg (fun d : Dev => d.f.fsp.cur) hno :), (congrArg (fun d : Dev => d.f.fsp.inWord) hno :),
      (congrArg (fun d : Dev => d.f.fsp.queue) hno :), (congrArg (fun d : Dev => d.f.fsp.waiting) hno :), (congrArg (fun d : Dev => d.f.fsp.fired) hno :),
      (congrArg (fun d : Dev => d.f.fsp.tgts) hno :), (congrArg (fun d : Dev => d.f.fsp.stopping) hno :), fun k => ?_,
      (congrArg (fun d : Dev => d.f.car) hno :).trans hcar, rfl, rfl⟩
    obtain ⟨n, hn⟩ := hstopped.entries k
    exact ⟨n, hn.trans (congrArg (fun m => { Tab.get (fun _ => FspEntry.empty) m k with runs := n }) hentries)⟩

end Sys2Proof.Machine
end

section
/-!
PROOF. An operation's life: opened, taken by the F-side, and completed with its entry (R103, R110 to R114).
-/

namespace Sys2Proof.Machine

/-! ## Opened -/

theorem doOperationOpen_of_turn {d : Dev} {tag t : Nat} {o : Op} (ho : d.op tag = some o) (hstage : o.stage = .admitted) (hturn : d.openTurn o = true)
    (hrest : d.h.dev ≠ .rest) (hd3 : (d.pci o.fn).d3 = false)
    (hlink : o.desc.crosses = true →
      d.h.link.up = true ∧ d.haltAct = false ∧ d.h.bulk.waitOp = [] ∧ d.h.bulk.replay.length < 16) :
    doOperationOpen tag t d = ((d.at t).setOp tag (some { o with stage := .opened })).openCells o.fn o.ring tag o.desc := by
  unfold doOperationOpen; dsimp only
  rw [show (d.at t).op tag = some o from ho]
  refine if_neg ?_
  have hmay : (!o.desc.crosses || ((d.at t).h.link.up && !(d.at t).haltAct && (d.at t).h.bulk.waitOp.isEmpty && decide ((d.at t).h.bulk.replay.length < 16))) = true := by
    cases hc : o.desc.crosses with
    | false => rfl
    | true =>
      obtain ⟨hup, hact, hwait, hroom⟩ := hlink hc
      rw [show (d.at t).h.link.up = true from hup, show (d.at t).haltAct = false from hact, show (d.at t).h.bulk.waitOp = [] from hwait,
        decide_eq_true (show (d.at t).h.bulk.replay.length < 16 from hroom)]
      rfl
  rw [hmay, hstage, show (d.at t).openTurn o = true from hturn, show (d.at t).h.dev = d.h.dev from rfl, show ((d.at t).pci o.fn).d3 = false from hd3,
    beq_eq_false_iff_ne.mpr hrest]
  exact Bool.false_ne_true

/-- An operation that neither has a body nor crosses the link sends nothing as it is opened. -/
theorem Dev.openCells_of_nop (d : Dev) (fn : Func) (ring tag : Nat) {e : Desc} (h : e.opcode = opNOP) : d.openCells fn ring tag e = d := by
  unfold Dev.openCells Desc.crosses
  rw [h]
  rfl

/-- One that crosses sends its OP_OPEN. -/
theorem Dev.openCells_of_crosses (d : Dev) (fn : Func) (ring tag : Nat) {e : Desc} (h : e.crosses = true)
    (hout : e.opcode = opOUT_WRITE → e.update = 0) : d.openCells fn ring tag e = d.sendBulk .h (.opOpen e.unit fn ring tag e.dest) := by
  obtain ⟨-, hmgmt⟩ := Bool.and_eq_true_iff.mp h
  refine (if_neg (bne_iff_ne.mp hmgmt)).trans (if_neg ?_)
  rw [h, Bool.not_true, Bool.false_or, Bool.and_eq_true, beq_iff_eq, beq_iff_eq]
  rintro ⟨hop, hup⟩
  rw [hout hop] at hup
  cases hup

/-! ## The context on the F-side -/

theorem doOpOpen_of_opened {d : Dev} {tag t : Nat} {o : Op} (ho : d.op tag = some o) (hfop : d.fop tag = none) (hstage : o.stage = .opened)
    (hcross : o.desc.crosses = true) (hout : o.desc.opcode = opOUT_WRITE → o.desc.update = 0) (hup : d.h.link.up = true)
    (hwait : d.h.bulk.waitOp.any (Cell.opens tag) = false) :
    doOpOpen tag t d = (d.at t).setFop tag (some ⟨o.fn, o.ring, o.desc, [], false, none⟩) := by
  unfold doOpOpen; dsimp only
  rw [show (d.at t).op tag = some o from ho, show (d.at t).fop tag = none from hfop]
  refine if_neg ?_
  rw [hstage, hcross, show (d.at t).h.link.up = true from hup, show (d.at t).h.bulk.waitOp.any (Cell.opens tag) = false from hwait]
  intro h
  simp only [Bool.and_eq_true, Bool.or_eq_true, beq_iff_eq] at h
  rcases h with ((h | h) | h) | ⟨⟨hop, hone⟩, -⟩
  · rcases h with h | h <;> cases h
  · cases h
  · cases h
  · rw [hout hop] at hone
    cases hone

/-! ## The completion entry -/

/-- A completion entry written: the tag is free, and CPL_PI moves on. -/
theorem Dev.complete_of_open {d : Dev} {tag : Nat} {o : Op} (hdrop : o.drop = false) (hbme : (d.pci o.fn).bme = true) (st : Nat) (res : Quad) :
    ∃ x : Ring, x.cplPi = ((d.ring o.ring).cplPi + 1) % 2 ^ 16 ∧ d.complete tag o st res = ((d.setOp tag none).tlp o.fn
      (.write (d.addr (Reg.RM_CPL_BASE_LO o.ring) (Reg.RM_CPL_BASE_HI o.ring) + 16 * ((d.ring o.ring).cplPi % d.ringDepth o.ring))
        [entryQ0 o.desc.seq tag o.ring (d.ring o.ring).phase st o.desc.opcode (d.ring o.ring).ci, res] false)).setRing o.ring x := by
  refine ⟨_, ?_, (if_neg (hdrop ▸ Bool.false_ne_true)).trans ((if_neg ?_).trans rfl)⟩
  · rfl
  · rw [hbme]; exact Bool.false_ne_true

theorem Dev.finish_of_open {d : Dev} {tag : Nat} {o : Op} (ho : d.op tag = some o) (hhalt : o.halted = false) (st : Nat) (res : Quad) :
    d.finish tag st res = d.complete tag o st res := by
  unfold Dev.finish
  rw [ho]
  exact if_pos (by rw [hhalt]; rfl)

/-- What a completion entry leaves. -/
theorem Dev.finish_spec {d : Dev} {tag : Nat} {o : Op} (ho : d.op tag = some o) (hdrop : o.drop = false) (hhalt : o.halted = false)
    (hbme : (d.pci o.fn).bme = true) (st : Nat) (res : Quad) : ∃ e, d.finish tag st res = e ∧ e.op tag = none ∧
    e.out = .tlp o.fn (d.pci o.fn).ecrcGen (.write
      (d.addr (Reg.RM_CPL_BASE_LO o.ring) (Reg.RM_CPL_BASE_HI o.ring) + 16 * ((d.ring o.ring).cplPi % d.ringDepth o.ring))
      [entryQ0 o.desc.seq tag o.ring (d.ring o.ring).phase st o.desc.opcode (d.ring o.ring).ci, res] false) :: d.out ∧
    (e.ring o.ring).cplPi = ((d.ring o.ring).cplPi + 1) % 2 ^ 16 ∧ (∀ g, g ≠ tag → e.op g = d.op g) ∧ (∀ m, m ≠ o.ring → e.ring m = d.ring m) ∧
    (∀ k, e.rd k = d.rd k) ∧ e.f = d.f := by
  obtain ⟨x, hx, hcomplete⟩ := Dev.complete_of_open (tag := tag) hdrop hbme st res
  refine ⟨_, (Dev.finish_of_open ho hhalt st res).trans hcomplete, Tab.get_set_same (fun _ => none) d.h.ops tag none, rfl, ?_,
    fun g hg => Tab.get_set_ne (fun _ => none) d.h.ops none hg, fun m hm => Dev.ring_setRing_ne _ x hm, fun _ => rfl, rfl⟩
  exact (congrArg Ring.cplPi (Dev.ring_setRing_same _ o.ring x)).trans hx

theorem doNop_of_opened {d : Dev} {tag t : Nat} {o : Op} (ho : d.op tag = some o) (hstage : o.stage = .opened) (hop : o.desc.opcode = opNOP)
    (hrest : d.h.dev ≠ .rest) : doNop tag t d = (d.at t).finish tag stOK 0 := by
  have hopened : (d.at t).openedOp tag opNOP = some o := by
    unfold Dev.openedOp
    rw [show (d.at t).op tag = some o from ho]
    exact if_pos (by rw [hstage, hop]; rfl)
  unfold doNop; dsimp only
  rw [if_neg (show (d.at t).h.dev ≠ .rest from hrest), hopened]

/-! ## OP_CLOSE -/

/-- An operation that brought no data and whose RESULT is good closes with its own status. -/
theorem doOpClose_of_good {d : Dev} {tag t st : Nat} {wr : Bool} {o : Op} {x : FOp} {result : Quad} (ho : d.op tag = some o) (hfop : d.fop tag = some x)
    (hdrop : o.drop = false) (hhalt : o.halted = false) (hended : x.ended = some (st, result)) (hgot : x.got = []) (hup : d.h.link.up = true)
    (hwait : d.f.bulk.waitOp.any (Cell.closes tag) = false)
    (hgood : o.desc.boxed = true → result ≠ 0 → (Container.ofBits result).good o.fn o.ring o.desc.dest = true) :
    doOpClose tag [] none wr t d = ((d.at t).setFop tag none).finish tag st result := by
  unfold doOpClose; dsimp only
  rw [show (d.at t).op tag = some o from ho, show (d.at t).fop tag = some x from hfop]
  dsimp only
  rw [hended]
  dsimp only
  refine (if_neg ?_).trans ((if_neg ?_).trans ?_)
  · rw [show (d.at t).h.link.up = true from hup, show (d.at t).f.bulk.waitOp.any (Cell.closes tag) = false from hwait]
    exact Bool.false_ne_true
  · rw [hdrop, hhalt]
    exact Bool.false_ne_true
  · rw [hgot]
    have hbox : ¬ ((o.desc.boxed = true ∧ ¬ result = 0#64) ∧ (Container.ofBits result).good o.fn o.ring o.desc.dest = false) := by
      rintro ⟨⟨hboxed, hne⟩, hbad⟩
      rw [hgood hboxed hne] at hbad
      cases hbad
    simp [hbox, Dev.dma, b2n]

/-! ## Command bodies and V0 -/

theorem doBufferReadComplete_of_body {d : Dev} {tag t : Nat} {o : Op} {body : List Quad} (ho : d.op tag = some o) (hstage : o.stage = .opened)
    (hdrop : o.drop = false) (hop : o.desc.opcode = opMGMT) (hbytes : o.desc.bodyBytes.isSome = true) (hnone : d.body tag = none) :
    doBufferReadComplete tag .ok body t d = { d.at t with h.bodies := d.h.bodies.set (fun _ => none) tag (some body) } := by
  have hdue : (d.at t).bufferDue tag o = true := by
    refine (if_pos hop).trans ?_
    rw [hstage, hbytes, show (d.at t).body tag = none from hnone]
    rfl
  unfold doBufferReadComplete Dev.bufferEnd
  rw [show (d.at t).op tag = some o from ho]
  refine (if_neg ?_).trans ((if_neg ?_).trans ((if_neg ?_).trans (if_pos hop)))
  · rw [hdue]; exact Bool.false_ne_true
  · exact Bool.false_ne_true
  · rw [hdrop]; exact Bool.false_ne_true

theorem doV0CoalesceTimer_of_due {d : Dev} {n t at_ : Nat} (hdue : (d.ring n).irqDue = some at_) (hpast : at_ + 160 ≤ max d.now t) :
    doV0CoalesceTimer n t d = ((d.at t).setRing n { d.ring n with irqDue := none }).irq (d.ringOwner n) 0 := by
  unfold doV0CoalesceTimer; dsimp only
  rw [show ((d.at t).ring n).irqDue = some at_ from hdue]
  exact if_pos hpast

/-! ## The statement -/

/-- Settles O21: an operation in its turn is opened, taken and closed, each time as its state says. -/
theorem operationsOpenAndClose : Obligations.OperationsOpenAndClose := by
  unfold Obligations.OperationsOpenAndClose
  intro s tag n at_ t st wr o x result body
  refine ⟨fun ho hstage hturn hrest hd3 => ⟨fun hnop => ?_, fun hcross hout hup hact hwait hroom => ?_⟩, fun ho hfop hstage hcross hout hup hwait => ?_,
    fun ho hdrop hhalt hbme hat => ⟨fun hstage hop hrest => ?_, fun hfop hended hgot hup hwait hgood => ?_⟩, fun ho hstage hdrop hop hbody hnone => ?_,
    fun hdue hpast => ?_⟩
  · refine s.onDev_of ((doOperationOpen_of_turn ho hstage hturn hrest hd3 fun hcross => ?_).trans (Dev.openCells_of_nop _ _ _ _ hnop))
    rw [Desc.crosses, hnop] at hcross
    cases hcross
  · exact s.onDev_of ((doOperationOpen_of_turn ho hstage hturn hrest hd3 fun _ => ⟨hup, hact, hwait, hroom⟩).trans
      (Dev.openCells_of_crosses _ _ _ _ hcross hout))
  · exact s.onDev_of (doOpOpen_of_opened ho hfop hstage hcross hout hup hwait)
  · obtain ⟨e, he, hsame, hout, hcpl, hothers, hrings, hrd, hf⟩ := Dev.finish_spec (d := s.dev.at t) ho hdrop hhalt hbme stOK 0
    refine ⟨_, s.onDev_of ((doNop_of_opened ho hstage hop hrest).trans he), hsame, hout.trans ?_, hcpl, hothers, hrings, hrd, hf, rfl, rfl⟩
    rw [hat, hop]
    rfl
  · obtain ⟨e, he, hsame, hout, hcpl, hothers, hrings, hrd, hf⟩ := Dev.finish_spec (d := (s.dev.at t).setFop tag none) ho hdrop hhalt hbme st result
    refine ⟨_, s.onDev_of ((doOpClose_of_good ho hfop hdrop hhalt hended hgot hup hwait hgood).trans he), hsame, ?_, hout.trans ?_, hcpl,
      fun g hg => ⟨hothers g hg, ?_⟩, hrings, hrd, rfl, rfl⟩
    · exact (congrArg (fun f : FDie => Tab.get (fun _ => none) f.ops tag) hf :).trans ((s.dev.at t).fop_setFop_same tag none)
    · rw [hat]
      rfl
    · exact (congrArg (fun f : FDie => Tab.get (fun _ => none) f.ops g) hf :).trans ((s.dev.at t).fop_setFop_ne none hg)
  · exact s.onDev_of (doBufferReadComplete_of_body ho hstage hdrop hop hbody hnone)
  · exact s.onDev_of (doV0CoalesceTimer_of_due hdue hpast)

end Sys2Proof.Machine
end

section
/-!
PROOF. Sweeps of the doorbell pages, fetches of descriptors, and their admission (R94 to R103, R109, R120 to R124).
-/

namespace Sys2Proof.Machine

/-! ## Gauges -/

theorem Dev.IrqBlind.wmMessage {α : Type} {π : Dev → α} (h : Dev.IrqBlind π) (d : Dev) (n : Nat) (hit : Bool) : π (d.wmMessage n hit) = π d := by
  unfold Dev.wmMessage
  exact Dev.ite_kept (h.irq d _ 0) rfl

section
variable {α : Type} {π : Dev → α} {n : Nat} (harm : ∀ (d : Dev) (b : Bool), π (d.setRing n { d.ring n with armed := b }) = π d)
  (hhit : ∀ (d : Dev) (v : Nat), π (d.setFld (Fld.RM_BACKLOG_WM_HIT n) v) = π d)
include harm hhit

/-- A gauge reaches its ring's watermark and whether that is armed. -/
theorem Dev.gaugeNote_kept (d : Dev) : π (d.gaugeNote n) = π d := by
  unfold Dev.gaugeNote; dsimp only
  exact Dev.ite_kept ((hhit _ _).trans (harm d false)) (Dev.ite_kept (harm d true) rfl)

theorem Dev.IrqBlind.gauge (h : Dev.IrqBlind π) (d : Dev) : π (d.gauge n) = π d :=
  (h.wmMessage _ _ _).trans (Dev.gaugeNote_kept harm hhit d)

end

/-! ## Sweeps -/

theorem Dev.sweepIssue_of_one {d : Dev} {fn : Func} {n : Nat} (hrings : d.enabledRings fn = [n]) : d.sweepIssue fn =
    (d.setSweep fn { d.sweep fn with
      outstanding := true
      deferred := false
      base := d.ringLocal n / 4 * 4
      last := if d.fld (Fld.RM_SWEEP_CFG_MODE fn.idx) = 1 then d.now else (d.sweep fn).last }).hostRead fn
        (d.dbBase fn + 8 * (d.ringLocal n / 4 * 4)) (8 * (d.ringLocal n / 4 * 4 + 4 - d.ringLocal n / 4 * 4)) := by
  unfold Dev.sweepIssue
  rw [hrings]
  exact if_pos (show d.ringLocal n / 4 * 4 + 4 - d.ringLocal n / 4 * 4 ≤ 32 by omega)

theorem doSweepTimer_of_due {d : Dev} {fn : Func} {n t : Nat} (hmay : d.fetchMay fn = true) (hrings : d.enabledRings fn = [n])
    (hout : (d.sweep fn).outstanding = false) (hdue : (d.sweep fn).last + d.fld (Fld.RM_SWEEP_CFG_PERIOD fn.idx) * 400 ≤ max d.now t) :
    doSweepTimer fn t d = ((d.at t).setSweep fn { d.sweep fn with
      outstanding := true, deferred := false, base := d.ringLocal n / 4 * 4, last := max d.now t }).hostRead fn
        (d.dbBase fn + 8 * (d.ringLocal n / 4 * 4)) (8 * (d.ringLocal n / 4 * 4 + 4 - d.ringLocal n / 4 * 4)) := by
  obtain ⟨e, he⟩ : ∃ e, e = (d.at t).setSweep fn { d.sweep fn with last := max d.now t } := ⟨_, rfl⟩
  have hkept {α : Type} {π : Dev → α} (h : ∀ (d : Dev) (s : Sweep), π (d.setSweep fn s) = π d) : π e = π (d.at t) := he ▸ h _ _
  have hsweep : e.sweep fn = { d.sweep fn with last := max d.now t } := he ▸ Dev.sweep_setSweep_same ..
  have hrings' : e.enabledRings fn = [n] := (hkept (π := fun d => d.enabledRings fn) fun d s => by cases fn <;> rfl).trans hrings
  have hlocal : e.ringLocal n = d.ringLocal n := hkept (π := fun d => d.ringLocal n) fun d s => by cases fn <;> rfl
  have hbase : e.dbBase fn = d.dbBase fn := hkept (π := fun d => d.dbBase fn) fun d s => by cases fn <;> rfl
  have hmay' : e.fetchMay fn = true := (hkept (π := fun d => d.fetchMay fn) fun d s => by cases fn <;> rfl).trans hmay
  have htwice (d : Dev) (a b : Sweep) : (d.setSweep fn a).setSweep fn b = d.setSweep fn b := by cases fn <;> rfl
  unfold doSweepTimer; dsimp only
  refine (if_neg ?_).trans ((congrArg (Dev.sweepTrigger · fn) he.symm).trans ((if_neg ?_).trans ((if_neg ?_).trans ?_)))
  · rw [show (d.at t).enabledRings fn = [n] from hrings, decide_eq_false (show ¬ (d.at t).now < ((d.at t).sweep fn).last +
      (d.at t).fld (Fld.RM_SWEEP_CFG_PERIOD fn.idx) * 400 from Nat.not_lt.mpr hdue)]
    exact Bool.false_ne_true
  · rw [hmay', hrings']
    exact Bool.false_ne_true
  · rw [hsweep, hout]
    exact Bool.false_ne_true
  · rw [Dev.sweepIssue_of_one hrings', hlocal, hbase, hsweep, he, htwice]
    simp

section
variable {d : Dev} {fn : Func} (t : Nat) (hout : (d.sweep fn).outstanding = true) (hdefer : (d.sweep fn).deferred = false)
include hout hdefer

/-- A sweep read that has ended. -/
theorem Dev.sweepEnd_eq {r : ReadEnd} (hecrc : r ≠ .ecrc) (words : List Quad) : d.sweepEnd fn r words =
    (let d1 := d.setSweep fn { d.sweep fn with outstanding := false, deferred := false }
     match r with
      | .ok | .ecrc => (d.enabledRings fn).foldl (fun e n =>
          if (d.sweep fn).base ≤ e.ringLocal n then
            match words[e.ringLocal n - (d.sweep fn).base]? with
            | some w => e.doorbell n w
            | none => e
          else e) d1
      | .error => d1.setFld (Fld.RM_SWEEP_STATUS_READ_ERR fn.idx) 1
      | .timeout => (d1.setFld (Fld.RM_SWEEP_STATUS_READ_ERR fn.idx) 1).cplTimeout fn) := by
  refine (if_neg ?_).trans ((if_neg ?_).trans ((if_neg ?_).trans ?_))
  · rw [hout]; exact Bool.false_ne_true
  · unfold Dev.ecrcDrops
    rw [bne_iff_ne.mpr hecrc]
    exact Bool.false_ne_true
  · rw [hdefer]; exact Bool.false_ne_true
  · cases r <;> rfl

end

/-! ## Doorbells -/

/-- A good word of a running ring gives PI. -/
theorem Dev.doorbell_of_good {d : Dev} {n : Nat} {w : Quad} (hgen : bitsOf w.toNat 16 16 = d.fld (Fld.RM_RING_CFG_GEN n))
    (hzero : bitsOf w.toNat 32 32 = 0) (hrun : (d.ring n).running = true)
    (hdepth : (bitsOf w.toNat 0 16 + 2 ^ 16 - (d.ring n).ci) % 2 ^ 16 ≤ d.ringDepth n) :
    d.doorbell n w = (d.setRing n { d.ring n with pi := bitsOf w.toNat 0 16 }).gauge n := by
  refine (if_neg (not_not.mpr hgen)).trans ((if_neg (not_not.mpr hzero)).trans ((if_neg ?_).trans (if_neg (Nat.not_lt.mpr hdepth))))
  rw [hrun]; exact Bool.false_ne_true

theorem Dev.IrqBlind.comp {α β : Type} {π : Dev → α} (h : Dev.IrqBlind π) (g : α → β) : Dev.IrqBlind (fun d => g (π d)) where
  emit d e := congrArg g (h.emit d e)
  wrHalt d k v hk := congrArg g (h.wrHalt d k v hk)
  pci d fn p := congrArg g (h.pci d fn p)
  irqRest d l := congrArg g (h.irqRest d l)

theorem Dev.irqBlind_hOps : Dev.IrqBlind (fun d => d.h.ops) where
  emit _ _ := rfl
  wrHalt d k v _ := by simp
  pci d fn p := by cases fn <;> rfl
  irqRest _ _ := rfl

theorem Dev.irqBlind_sweep (fn : Func) : Dev.IrqBlind (fun d => d.sweep fn) where
  emit _ _ := rfl
  wrHalt d k v _ := by simp [Dev.sweep]
  pci d fn p := by cases fn <;> rfl
  irqRest _ _ := rfl

/-- A ring but for whether its watermark is armed. -/
def Ring.unarmed (r : Ring) : Ring := { r with armed := false }

theorem onFSide_backlog : ∀ n, n < 64 → onFSide (baseOff (Reg.RM_BACKLOG n)) = false := by decide

/-- What a gauge leaves. -/
theorem Dev.gauge_left (d : Dev) (n : Nat) : ((d.gauge n).ring n).unarmed = (d.ring n).unarmed ∧ (∀ m, m ≠ n → (d.gauge n).ring m = d.ring m) ∧
    (d.gauge n).h.ops = d.h.ops ∧ (∀ fn, (d.gauge n).sweep fn = d.sweep fn) ∧ (n < 64 → (d.gauge n).f = d.f) := by
  refine ⟨?_, fun m hm => ?_, ?_, fun fn => ?_, fun hn => ?_⟩
  · exact ((Dev.irqBlind_ring n).comp Ring.unarmed).gauge (fun d b => congrArg Ring.unarmed (Dev.ring_setRing_same ..)) (fun d v => by simp [Dev.ring]) d
  · exact (Dev.irqBlind_ring m).gauge (fun d b => Dev.ring_setRing_ne _ _ hm) (fun d v => by simp [Dev.ring]) d
  · exact Dev.irqBlind_hOps.gauge (fun _ _ => rfl) (fun d v => by simp) d
  · exact (Dev.irqBlind_sweep fn).gauge (fun _ _ => rfl) (fun d v => by simp [Dev.sweep]) d
  · exact Dev.irqBlind_f.gauge (fun _ _ => rfl) (fun d v => d.wr_f_of_h _ (onFSide_backlog n hn)) d

/-- A read of the page of a function with one ring gives its PI. -/
theorem Dev.sweepEnd_of_one {d : Dev} {fn : Func} {n : Nat} {w : Quad} (hout : (d.sweep fn).outstanding = true) (hdefer : (d.sweep fn).deferred = false)
    (hrings : d.enabledRings fn = [n]) (hbase : (d.sweep fn).base = d.ringLocal n) (hrun : (d.ring n).running = true)
    (hgen : bitsOf w.toNat 16 16 = d.fld (Fld.RM_RING_CFG_GEN n)) (hzero : bitsOf w.toNat 32 32 = 0)
    (hdepth : (bitsOf w.toNat 0 16 + 2 ^ 16 - (d.ring n).ci) % 2 ^ 16 ≤ d.ringDepth n) :
    d.sweepEnd fn .ok [w] = ((d.setSweep fn { d.sweep fn with outstanding := false, deferred := false }).setRing n
      { d.ring n with pi := bitsOf w.toNat 0 16 }).gauge n := by
  rw [Dev.sweepEnd_eq hout hdefer (by decide)]
  dsimp only
  obtain ⟨e, he⟩ : ∃ e, e = d.setSweep fn { d.sweep fn with outstanding := false, deferred := false } := ⟨_, rfl⟩
  have hkept {α : Type} {π : Dev → α} (h : ∀ (d : Dev) (s : Sweep), π (d.setSweep fn s) = π d) : π e = π d := he ▸ h _ _
  have hlocal : e.ringLocal n = d.ringLocal n := hkept (π := fun d => d.ringLocal n) fun d s => by cases fn <;> rfl
  have hring : e.ring n = d.ring n := hkept (π := fun d => d.ring n) fun d s => by cases fn <;> rfl
  have hgen' : e.fld (Fld.RM_RING_CFG_GEN n) = d.fld (Fld.RM_RING_CFG_GEN n) := hkept (π := fun d => d.fld _) fun d s => by cases fn <;> rfl
  have hdep' : e.ringDepth n = d.ringDepth n := hkept (π := fun d => d.ringDepth n) fun d s => by cases fn <;> rfl
  rw [← he, hrings, List.foldl_cons, List.foldl_nil, hlocal, hbase, if_pos le_rfl, Nat.sub_self]
  exact (Dev.doorbell_of_good (hgen.trans hgen'.symm) hzero (by rw [hring]; exact hrun) (by rw [hring, hdep']; exact hdepth)).trans (by rw [hring])

/-! ## Timeouts -/

/-- A read that times out sets bit 14 of AER and raises PCI_CPL_TIMEOUT. -/
theorem Dev.cplTimeout_eq (d : Dev) (fn : Func) :
    d.cplTimeout fn = (d.wr (cfgKey fn 0x104) (d.rd (cfgKey fn 0x104) ||| 0x4000)).raiseFn .h Sn.PCI_CPL_TIMEOUT fn := rfl

/-- A sweep read that times out. -/
def Dev.sweepLost (d : Dev) (fn : Func) : Dev := ((d.setSweep fn { d.sweep fn with outstanding := false, deferred := false }).setFld
  (Fld.RM_SWEEP_STATUS_READ_ERR fn.idx) 1).wr (cfgKey fn 0x104) (d.rd (cfgKey fn 0x104) ||| 0x4000)

theorem Dev.sweepLost_spec (d : Dev) (fn : Func) : ((d.sweepLost fn).sweep fn).outstanding = false ∧
    (d.sweepLost fn).fld (Fld.RM_SWEEP_STATUS_READ_ERR fn.idx) = 1 ∧
    (d.sweepLost fn).rd (cfgKey fn 0x104) = d.rd (cfgKey fn 0x104) ||| 0x4000 ∧ (d.sweepLost fn).now = d.now := by
  have hoff : (Fld.RM_SWEEP_STATUS_READ_ERR fn.idx).off ≠ cfgKey fn 0x104 := by cases fn <;> decide
  refine ⟨?_, ?_, Dev.rd_wr_same .., ?_⟩
  · unfold Dev.sweepLost
    have hkept (e : Dev) (k : Nat) (v : Word) : (e.wr k v).sweep fn = e.sweep fn := by simp [Dev.sweep]
    rw [hkept]
    exact congrArg Sweep.outstanding ((hkept _ _ _).trans (Dev.sweep_setSweep_same ..))
  · exact (Dev.fld_wr_ne _ _ hoff).trans (Dev.fld_setFld_same _ (Fld.RM_SWEEP_STATUS_READ_ERR fn.idx) 1 (by cases fn <;> decide))
  · simp [Dev.sweepLost]

theorem Dev.sweepEnd_timeout {d : Dev} {fn : Func} (hout : (d.sweep fn).outstanding = true) (hdefer : (d.sweep fn).deferred = false) :
    d.sweepEnd fn .timeout [] = (d.sweepLost fn).raiseFn .h Sn.PCI_CPL_TIMEOUT fn := by
  rw [Dev.sweepEnd_eq hout hdefer (by decide)]
  have hoff : cfgKey fn 0x104 ≠ (Fld.RM_SWEEP_STATUS_READ_ERR fn.idx).off := by cases fn <;> decide
  dsimp only
  rw [Dev.cplTimeout_eq, Dev.rd_setFld_ne _ _ _ hoff, Dev.rd_setSweep]
  rfl

/-! ## Grants -/

/-- The function whose turn it is gets the grant. -/
theorem doFetchGrant_of_turn {d : Dev} {fn : Func} (hturn : d.h.turn = fn) (hwants : d.fetchWants fn = true) (hcredits : 0 < (d.sweep fn).credits)
    (hv0 : d.v0Due = false) : doFetchGrant d = d.grant fn := by
  have hcan : (d.fetchWants fn && decide (0 < (d.sweep fn).credits)) = true := by rw [hwants, decide_eq_true hcredits]; rfl
  unfold doFetchGrant; dsimp only
  refine (if_neg (hv0 ▸ Bool.false_ne_true)).trans ?_
  have hround : (!(d.fetchWants false && decide (0 < (d.sweep false).credits)) && !(d.fetchWants true && decide (0 < (d.sweep true).credits)) &&
      (d.fetchWants false || d.fetchWants true)) = false := by
    cases fn with
    | false => rw [hcan]; rfl
    | true => rw [hcan, Bool.not_true, Bool.and_false]; rfl
  rw [hround, if_neg Bool.false_ne_true, hturn, if_pos hcan]

/-- A ring that may be granted a fetch has a descriptor to bring. -/
theorem Dev.eligible_of_fetchRings {d : Dev} {fn : Func} {n : Nat} (h : n ∈ d.fetchRings fn) : 0 < d.eligible n := by
  have hmem : n ∈ (d.enabledRings fn).filter (fun n => (d.ring n).running && decide (0 < d.eligible n)) :=
    (List.mem_append.mp h).elim (fun h => (List.mem_filter.mp h).1) (fun h => (List.mem_filter.mp h).1)
  exact of_decide_eq_true (Bool.and_eq_true_iff.mp (List.mem_filter.mp hmem).2).2

/-- What a grant leaves. -/
theorem Dev.grantRead_spec (d : Dev) (fn : Func) (n c : Nat) (reserve : Bool) :
    (d.grantRead fn n c reserve).ring n = { d.ring n with fetching := (d.ring n).fetching ++ [(c, reserve)] } ∧
    (∀ m, m ≠ n → (d.grantRead fn n c reserve).ring m = d.ring m) ∧
    (d.grantRead fn n c reserve).out = (d.hostRead (d.ringOwner n) (d.addr (Reg.RM_RING_BASE_LO n) (Reg.RM_RING_BASE_HI n)
      + 64 * (((d.ring n).ci + (d.ring n).asked) % d.ringDepth n)) (64 * c)).out ∧
    ((d.grantRead fn n c reserve).sweep fn).credits = (d.sweep fn).credits - c ∧ ((d.grantRead fn n c reserve).sweep fn).lastRing = n ∧
    (d.grantRead fn n c reserve).h.turn = !fn ∧ (∀ k, (d.grantRead fn n c reserve).rd k = d.rd k) ∧
    (d.grantRead fn n c reserve).h.ops = d.h.ops ∧ (d.grantRead fn n c reserve).f = d.f := by
  have hkept {α : Type} {π : Dev → α} (hsweep : ∀ (d : Dev) (s : Sweep), π (d.setSweep fn s) = π d)
      (hturn : ∀ (d : Dev) (b : Bool), π { d with h.turn := b } = π d) : π (d.grantRead fn n c reserve) = π (d.fetchRead n c reserve) :=
    (hturn _ _).trans (hsweep _ _)
  have hring (m : Nat) : (d.grantRead fn n c reserve).ring m =
      (d.setRing n { d.ring n with fetching := (d.ring n).fetching ++ [(c, reserve)] }).ring m :=
    hkept (π := fun d => d.ring m) (fun d s => by cases fn <;> rfl) fun _ _ => rfl
  have hsweep : (d.grantRead fn n c reserve).sweep fn = { d.sweep fn with credits := (d.sweep fn).credits - c, lastRing := n } :=
    Dev.sweep_setSweep_same (d.fetchRead n c reserve) fn { d.sweep fn with credits := (d.sweep fn).credits - c, lastRing := n }
  refine ⟨(hring n).trans (Dev.ring_setRing_same ..), fun m hm => (hring m).trans (Dev.ring_setRing_ne _ _ hm),
    hkept (π := fun d => d.out) (fun d s => by simp) fun _ _ => rfl, congrArg Sweep.credits hsweep, congrArg Sweep.lastRing hsweep, rfl,
    fun k => hkept (π := fun d => d.rd k) (fun d s => by simp) fun _ _ => rfl,
    hkept (π := fun d => d.h.ops) (fun d s => by cases fn <;> rfl) fun _ _ => rfl, hkept (π := fun d => d.f) (fun d s => by simp) fun _ _ => rfl⟩

/-- The bounds of a grant (R121). -/
theorem Dev.le_grantSize {d : Dev} {fn : Func} {n k : Nat} : k ≤ d.grantSize fn n ↔ k ≤ 8 ∧ (k ≤ d.eligible n ∧
    k ≤ d.ringDepth n - ((d.ring n).ci + (d.ring n).asked) % d.ringDepth n) ∧ k ≤ (d.sweep fn).credits ∧ k ≤ d.headroom fn ∧ k ≤ d.freeTags := by
  unfold Dev.grantSize
  simp only [le_min_iff]

/-- The size of a grant. -/
theorem Dev.grantSize_spec {d : Dev} {fn : Func} {n : Nat} (hmay : d.tagMay fn = true) (hmem : n ∈ d.fetchRings fn) (hcredits : 0 < (d.sweep fn).credits) :
    1 ≤ d.grantSize fn n ∧ d.grantSize fn n ≤ 8 ∧ d.grantSize fn n ≤ d.eligible n ∧ d.grantSize fn n ≤ (d.sweep fn).credits ∧
    d.grantSize fn n ≤ d.headroom fn ∧ d.grantSize fn n ≤ d.freeTags ∧
    d.grantSize fn n ≤ d.ringDepth n - ((d.ring n).ci + (d.ring n).asked) % d.ringDepth n := by
  have helig := Dev.eligible_of_fetchRings hmem
  obtain ⟨hhead, hfree⟩ : 0 < d.headroom fn ∧ 0 < d.freeTags := by
    unfold Dev.tagMay at hmay
    simp only [Bool.and_eq_true, decide_eq_true_eq] at hmay
    exact ⟨hmay.1.2, hmay.2⟩
  have hdepth : ((d.ring n).ci + (d.ring n).asked) % d.ringDepth n < d.ringDepth n := Nat.mod_lt _ (Nat.two_pow_pos _)
  obtain ⟨height, ⟨hel, hdep⟩, hcred, hroom, htags⟩ := Dev.le_grantSize.mp (le_refl (d.grantSize fn n))
  exact ⟨Dev.le_grantSize.mpr ⟨by decide, ⟨helig, Nat.sub_pos_of_lt hdepth⟩, hcredits, hhead, hfree⟩, height, hel, hcred, hroom, htags, hdep⟩

/-! ## Admission -/

/-- A ring whose oldest read has brought what it asked for. -/
def Dev.readTaken (d : Dev) (n : Nat) (more : List (Nat × Bool)) : Dev := (d.setRing n { d.ring n with fetching := more }).idleReset

theorem Dev.ring_readTaken_same (d : Dev) (n : Nat) (more : List (Nat × Bool)) : (d.readTaken n more).ring n = { d.ring n with fetching := more } :=
  Dev.ring_setRing_same ..

theorem Dev.ring_readTaken_ne (d : Dev) {n m : Nat} (hm : m ≠ n) (more : List (Nat × Bool)) : (d.readTaken n more).ring m = d.ring m :=
  Dev.ring_setRing_ne _ _ hm

/-- The tag picked follows from the operations open on both dies. -/
theorem Dev.pickTag_congr {d e : Dev} (hops : e.opsList = d.opsList) (horphans : e.orphans = d.orphans) : e.pickTag = d.pickTag := by
  unfold Dev.pickTag
  rw [hops, horphans]

/-- Admission does not ask what the ring still reads. -/
theorem Dev.admission_readTaken (d : Dev) (n : Nat) (more : List (Nat × Bool)) (fn : Func) (e : Desc) :
    (d.readTaken n more).admission fn n e = d.admission fn n e := by
  unfold Dev.admission
  rw [Dev.ring_readTaken_same]
  rfl

theorem Dev.fetchEnd_of_one {d : Dev} {n c : Nat} {more : List (Nat × Bool)} (hf : (d.ring n).fetching = (c + 1, false) :: more) (e : Desc) :
    d.fetchEnd n .ok [e] = ((d.readTaken n more).takeDesc n false e).wmMessage n (d.wmReached n (d.backlog n - 1)) := by
  unfold Dev.fetchEnd
  rw [hf]
  refine (if_neg Bool.false_ne_true).trans ?_
  show (if ([e].take (c + 1)).isEmpty = true then _ else _) = _
  rw [show [e].take (c + 1) = [e] from List.take_of_length_le (Nat.le_add_left 1 c)]
  refine (if_neg Bool.false_ne_true).trans ?_
  rw [List.foldl_cons, List.foldl_nil]
  rfl

/-- An operation as it is admitted. -/
def Dev.admitted (d : Dev) (n : Nat) (e : Desc) : Op := ⟨d.ringOwner n, n, e.made (d.ringOwner n) n, .admitted, d.h.ord, false, false, false⟩

/-- CI has passed a descriptor. -/
def Dev.passed (d : Dev) (n : Nat) : Dev := (d.setRing n { d.ring n with ci := ((d.ring n).ci + 1) % 2 ^ 16 }).gaugeNote n

/-- A tag taken leaves the rings. -/
theorem Dev.setRing_setOp (p : Dev) (n tag v : Nat) (o : Option Op) (l : List Nat) :
    ({ p.setOp tag o with h.ord := v } : Dev).setRing n { ({ p.setOp tag o with h.ord := v } : Dev).ring n with hist := l } =
      ({ p.setOp tag o with h.ord := v } : Dev).setRing n { p.ring n with hist := l } := rfl

theorem Dev.takeDesc_of_admitted {d : Dev} {n : Nat} {e : Desc} (hadm : d.admission (d.ringOwner n) n e = none) : d.takeDesc n false e =
    ({ (d.passed n).setOp d.pickTag (some (d.admitted n e)) with h.ord := (d.passed n).h.ord + 1 } : Dev).setRing n
      { (d.passed n).ring n with hist := (e.seq :: (d.ring n).hist).take 512 } := by
  unfold Dev.takeDesc Dev.passed Dev.admitted; dsimp only
  rw [hadm]
  dsimp only
  rw [if_neg Bool.false_ne_true]
  exact Dev.setRing_setOp ..

theorem Dev.passed_left (d : Dev) (n : Nat) : ((d.passed n).ring n).unarmed = { (d.ring n).unarmed with ci := ((d.ring n).ci + 1) % 2 ^ 16 } ∧
    (∀ m, m ≠ n → (d.passed n).ring m = d.ring m) ∧ (d.passed n).h.ops = d.h.ops ∧ (d.passed n).h.ord = d.h.ord ∧
    (d.passed n).f.ops = d.f.ops ∧ (d.passed n).f.car = d.f.car := by
  have hkept {α : Type} {π : Dev → α} (harm : ∀ (d : Dev) (b : Bool), π (d.setRing n { d.ring n with armed := b }) = π d)
      (hhit : ∀ (d : Dev) (v : Nat), π (d.setFld (Fld.RM_BACKLOG_WM_HIT n) v) = π d) :
      π (d.passed n) = π (d.setRing n { d.ring n with ci := ((d.ring n).ci + 1) % 2 ^ 16 }) := Dev.gaugeNote_kept harm hhit _
  refine ⟨?_, fun m hm => ?_, hkept (π := fun d => d.h.ops) (fun _ _ => rfl) fun d v => by simp, hkept (π := fun d => d.h.ord) (fun _ _ => rfl) fun d v => by simp,
    hkept (π := fun d => d.f.ops) (fun _ _ => rfl) fun d v => by simp, hkept (π := fun d => d.f.car) (fun _ _ => rfl) fun d v => by simp⟩
  · refine (hkept (π := fun d => (d.ring n).unarmed) (fun d b => (congrArg Ring.unarmed (Dev.ring_setRing_same d n { d.ring n with armed := b })).trans rfl) fun d v => by simp [Dev.ring]).trans ?_
    exact congrArg Ring.unarmed (Dev.ring_setRing_same d n _)
  · exact (hkept (π := fun d => d.ring m) (fun d b => Dev.ring_setRing_ne _ _ hm) fun d v => by simp [Dev.ring]).trans (Dev.ring_setRing_ne _ _ hm)

theorem Dev.irqBlind_ord : Dev.IrqBlind (fun d => d.h.ord) where
  emit _ _ := rfl
  wrHalt d k v _ := by simp
  pci d fn p := by cases fn <;> rfl
  irqRest _ _ := rfl

/-- What an admitted descriptor leaves, with the message of its ring's watermark. -/
theorem Dev.takeDesc_spec {d : Dev} {n : Nat} {e : Desc} (hadm : d.admission (d.ringOwner n) n e = none) (hit : Bool) :
    ∃ u, (d.takeDesc n false e).wmMessage n hit = u ∧ u.op d.pickTag = some (d.admitted n e) ∧ (∀ g, g ≠ d.pickTag → u.op g = d.op g) ∧
    u.h.ord = d.h.ord + 1 ∧ (u.ring n).ci = ((d.ring n).ci + 1) % 2 ^ 16 ∧ (u.ring n).fetching = (d.ring n).fetching ∧
    (u.ring n).hist = (e.seq :: (d.ring n).hist).take 512 ∧ (∀ m, m ≠ n → u.ring m = d.ring m) ∧ u.f.ops = d.f.ops ∧ u.f.car = d.f.car := by
  obtain ⟨hring, hrings, hops, hord, hfops, hcar⟩ := d.passed_left n
  obtain ⟨p, hp⟩ : ∃ p, p = d.passed n := ⟨_, rfl⟩
  have htake := Dev.takeDesc_of_admitted hadm
  rw [← hp] at hring hrings hops hord hfops hcar htake
  obtain ⟨x, hx⟩ : ∃ x, x = d.takeDesc n false e := ⟨_, rfl⟩
  rw [← hx] at htake ⊢
  have hopx (g : Nat) : x.op g = (p.setOp d.pickTag (some (d.admitted n e))).op g := by rw [htake]; rfl
  have hringx : x.ring n = { p.ring n with hist := (e.seq :: (d.ring n).hist).take 512 } := by rw [htake, Dev.ring_setRing_same]
  have hmsg {α : Type} {π : Dev → α} (h : Dev.IrqBlind π) : π (x.wmMessage n hit) = π x := h.wmMessage _ _ _
  have hringu : (x.wmMessage n hit).ring n = { p.ring n with hist := (e.seq :: (d.ring n).hist).take 512 } := (hmsg (Dev.irqBlind_ring n)).trans hringx
  refine ⟨_, rfl, ?_, fun g hg => ?_, ?_, ?_, ?_, ?_, fun m hm => ?_, ?_, ?_⟩
  · refine (hmsg (Dev.irqBlind_op _)).trans ((hopx _).trans ?_)
    exact p.op_setOp_same _ _
  · refine (hmsg (Dev.irqBlind_op _)).trans ((hopx _).trans ?_)
    exact (p.op_setOp_ne _ hg).trans (congrArg (fun m => Tab.get (fun _ => none) m g) hops)
  · rw [hmsg Dev.irqBlind_ord, htake]
    exact congrArg (· + 1) hord
  · rw [hringu]
    exact (congrArg Ring.ci hring :)
  · rw [hringu]
    exact (congrArg Ring.fetching hring :)
  · rw [hringu]
  · refine (hmsg (Dev.irqBlind_ring m)).trans ?_
    rw [htake, Dev.ring_setRing_ne _ _ hm]
    exact hrings m hm
  · rw [hmsg (Dev.irqBlind_f.comp FDie.ops), htake]
    exact hfops
  · rw [hmsg (Dev.irqBlind_f.comp FDie.car), htake]
    exact hcar

/-! ## The commands -/

theorem Dev.lt_of_enabledRings {d : Dev} {fn : Func} {n : Nat} (h : d.enabledRings fn = [n]) : n < 64 := by
  have hmem : n ∈ d.enabledRings fn := h ▸ List.mem_singleton_self n
  exact List.mem_range.mp (List.mem_filter.mp hmem).1

/-- What a timed-out sweep read leaves. -/
theorem Dev.sweepTimedOut_spec (d : Dev) (fn : Func) : ∃ u, (d.sweepLost fn).raiseFn .h Sn.PCI_CPL_TIMEOUT fn = u ∧
    (u.sweep fn).outstanding = false ∧ u.fld (Fld.RM_SWEEP_STATUS_READ_ERR fn.idx) = 1 ∧
    u.rd (cfgKey fn 0x104) = d.rd (cfgKey fn 0x104) ||| 0x4000 ∧ (u.src .h Sn.PCI_CPL_TIMEOUT).last = d.now ∧ (d.sweepLost fn).SameApart u := by
  obtain ⟨hout, herr, haer, hnow⟩ := d.sweepLost_spec fn
  have hapart := (d.sweepLost fn).raiseFn_apart .h (i := Sn.PCI_CPL_TIMEOUT) fn (by decide)
  have hlast : ((((d.sweepLost fn).raiseFn .h Sn.PCI_CPL_TIMEOUT fn).src .h Sn.PCI_CPL_TIMEOUT)).last = d.now :=
    ((d.sweepLost fn).last_raise .h _ _ (by decide)).trans hnow
  obtain ⟨u, hu⟩ : ∃ u, u = (d.sweepLost fn).raiseFn .h Sn.PCI_CPL_TIMEOUT fn := ⟨_, rfl⟩
  rw [← hu] at hapart hlast ⊢
  have hsweep : u.sweep fn = (d.sweepLost fn).sweep fn := by
    cases fn with
    | false => exact hapart.sweepA
    | true => exact hapart.sweepB
  exact ⟨u, rfl, hsweep ▸ hout, (Dev.fld_of_rd (hapart.regs _ (by cases fn <;> decide))).trans herr,
    (hapart.regs _ (by cases fn <;> decide)).trans haer, hlast, hapart⟩

/-- The grant of a function that has a general tag. -/
theorem Dev.grant_of_tagMay {d : Dev} {fn : Func} (hmay : d.tagMay fn = true) : ∃ m, (d.fetchRings fn).head? = some m ∧ m ∈ d.fetchRings fn ∧
    d.grant fn = d.grantRead fn m (d.grantSize fn m) false := by
  unfold Dev.grant
  rw [if_pos hmay]
  obtain ⟨l, hl⟩ : ∃ l, l = d.fetchRings fn := ⟨_, rfl⟩
  rw [← hl]
  cases l with
  | nil => simp [Dev.tagMay, ← hl] at hmay
  | cons m l => exact ⟨m, rfl, List.mem_cons_self, rfl⟩

/-- Only Function A goes on without a general tag. -/
theorem Dev.eq_false_of_fetchWants {d : Dev} {fn : Func} (hwants : d.fetchWants fn = true) (hmay : d.tagMay fn = false) : fn = false := by
  unfold Dev.fetchWants at hwants
  rw [hmay, Bool.false_or] at hwants
  cases fn with
  | false => rfl
  | true => exact absurd (Bool.and_eq_true_iff.mp hwants).2 Bool.false_ne_true

/-- Settles O20: a due sweep is issued, its end gives PI or sets READ_ERR, a grant reads within its bounds, and an admitted descriptor takes
a tag. -/
theorem sweepsAndFetches : Obligations.SweepsAndFetches := by
  unfold Obligations.SweepsAndFetches
  refine fun s fn n t c more w e => ⟨fun hmay hrings hout hdue => ?_, fun hout hdefer => ⟨fun hrings hbase hrun hgen hzero hdepth => ?_, ?_,
    fun hon => ?_, fun hoff => ?_⟩, fun hturn hwants hcredits hv0 => ⟨fun hmay => ?_, fun hmay => ?_⟩, fun hf hadm => ?_⟩
  · exact s.onDev_of (g := doSweepTimer fn t) (doSweepTimer_of_due hmay hrings hout hdue)
  · obtain ⟨hring, hrings', hops, hsweep, hf⟩ := (((s.dev.at t).setSweep fn { s.dev.sweep fn with outstanding := false, deferred := false }).setRing n
      { s.dev.ring n with pi := bitsOf w.toNat 0 16 }).gauge_left n
    have hdo : doSweepReadComplete fn .ok [w] t s.dev = _ := Dev.sweepEnd_of_one (d := s.dev.at t) hout hdefer hrings hbase hrun hgen hzero hdepth
    obtain ⟨g, hg⟩ : ∃ g, g = ((((s.dev.at t).setSweep fn { s.dev.sweep fn with outstanding := false, deferred := false }).setRing n
      { s.dev.ring n with pi := bitsOf w.toNat 0 16 }).gauge n) := ⟨_, rfl⟩
    rw [← hg] at hring hrings' hops hsweep hf
    rw [Dev.ring_setRing_same] at hring
    refine ⟨_, s.onDev_of (g := doSweepReadComplete fn .ok [w] t) (hdo.trans hg.symm), (congrArg Ring.pi hring :), (congrArg Ring.ci hring :),
      (congrArg Ring.running hring :).trans hrun, ?_, fun m hm => ?_, hops.trans ?_, (hf (Dev.lt_of_enabledRings hrings)).trans ?_, rfl, rfl⟩
    · exact congrArg Sweep.outstanding ((hsweep fn).trans (Dev.sweep_setSweep_same (s.dev.at t) fn _))
    · exact (hrings' m hm).trans ((Dev.ring_setRing_ne _ _ hm).trans (by cases fn <;> rfl))
    · cases fn <;> rfl
    · cases fn <;> rfl
  · exact s.onDev_of (g := doSweepReadComplete fn .error [] t) (Dev.sweepEnd_eq (d := s.dev.at t) hout hdefer (by decide) [])
  · obtain ⟨u, hu, hsweep, herr, haer, hlast, hapart⟩ := (s.dev.at t).sweepTimedOut_spec fn
    exact ⟨_, s.onDev_of (g := doReadCompletionTimeout (.sweep fn) t) ((if_neg (hon ▸ Bool.false_ne_true)).trans
      ((Dev.sweepEnd_timeout (d := s.dev.at t) hout hdefer).trans hu)), hsweep, herr, haer, hlast, hapart, rfl, rfl⟩
  · exact s.onDev_of (g := doReadCompletionTimeout (.sweep fn) t) (if_pos hoff)
  · obtain ⟨m, hhead, hmem, hgrant⟩ := Dev.grant_of_tagMay hmay
    obtain ⟨hone, height, helig, hcred, hroom, hfree, hdepth⟩ := Dev.grantSize_spec hmay hmem hcredits
    obtain ⟨hring, hrings, hout, hleft, hlast, hnext, hrd, hops, hf⟩ := s.dev.grantRead_spec fn m (s.dev.grantSize fn m) false
    exact ⟨_, m, s.dev.grantSize fn m, s.onDev_of (g := doFetchGrant) ((doFetchGrant_of_turn hturn hwants hcredits hv0).trans hgrant), hhead, hone, height,
      helig, hcred, hroom, hfree, hdepth, hring, hrings, hout, hleft, hlast, hnext, hrd, hops, hf, rfl, rfl⟩
  · have hgrant : s.dev.grant fn = s.dev.grantRead fn 0 1 true := if_neg (hmay ▸ Bool.false_ne_true)
    obtain ⟨hring, hrings, -, hleft, -, hnext, hrd, hops, hf⟩ := s.dev.grantRead_spec fn 0 1 true
    have hfn := Dev.eq_false_of_fetchWants hwants hmay
    exact ⟨_, s.onDev_of (g := doFetchGrant) ((doFetchGrant_of_turn hturn hwants hcredits hv0).trans hgrant), hfn, hring, hrings, hleft,
      hnext.trans (congrArg not hfn), hrd, hops, hf, rfl, rfl⟩
  · obtain ⟨u, hu, htag, htags, hord, hci, hfetch, hhist, hrings, hfops, hcar⟩ := Dev.takeDesc_spec (d := (s.dev.at t).readTaken n more)
      (((s.dev.at t).admission_readTaken n more _ e).trans hadm) ((s.dev.at t).wmReached n ((s.dev.at t).backlog n - 1))
    rw [Dev.ring_readTaken_same] at hci hfetch hhist
    have hpick : ((s.dev.at t).readTaken n more).pickTag = s.dev.pickTag := Dev.pickTag_congr rfl rfl
    rw [hpick] at htag htags
    exact ⟨_, s.onDev_of (g := doDescriptorReadComplete n .ok [e] t) ((Dev.fetchEnd_of_one (d := s.dev.at t) hf e).trans hu), htag, htags, hord, hci, hfetch,
      hhist, fun m hm => (hrings m hm).trans ((s.dev.at t).ring_readTaken_ne hm more), hfops, hcar, rfl, rfl⟩

end Sys2Proof.Machine
end
